-- ==== Sys2Proof/Word.lean ====
section
/-! DEFINITION. The word types of the VH8 and their plainest arithmetic. -/

namespace Sys2Proof

/-- A parameter word (R68): 32 bits. -/
abbrev Word := BitVec 32

/-- One byte of a packet, a frame, a record or a memory. -/
abbrev Byte := BitVec 8

/-- The word with the value `n` modulo 2³². -/
abbrev w32 (n : Nat) : Word := BitVec.ofNat 32 n

end Sys2Proof
end

