-- ==== Sys2Proof/Syntax.lean ====
section
/-! DEFINITION. The commands of the VH8: one constructor of `Instr` for every row of
spec/opcode_table.json, with the operands the row's rule gives it. A command that arrives as an SKM packet
carries the packet's header as a `Req`; a command that is an event of the machine around the device, or of
the device's own clock, carries what that event brings (a sample, a frame, an instant). -/

namespace Sys2Proof

/-- A UDP endpoint: IP address and port (R47, R53). -/
structure Endpoint where
  ip   : Nat
  port : Nat
  deriving DecidableEq, Repr, Inhabited

/-- The three network ports (R359). -/
inductive NetPort where
  | eth0 | eth1 | sgmii
  deriving DecidableEq, Repr, Inhabited

/-- The header of an SKM request (R49) with its source, and whether its payload sets a reserved bit (R52). -/
structure Req where
  src     : Endpoint
  port    : NetPort
  session : Nat
  seq     : Word
  flags   : BitVec 16
  status  : BitVec 16
  rsv     : Bool
  deriving DecidableEq, Repr, Inhabited

/-- A MOVE_QUEUE entry (R63). Targets are signed, in 1/65,536 step, one per set mask bit, ascending axis. -/
structure MoveReq where
  group   : Nat
  mflags  : BitVec 16
  moveId  : Word
  mask    : BitVec 16
  vmax    : Nat
  acc     : Nat
  dec     : Nat
  targets : List Int
  deriving DecidableEq, Repr, Inhabited

/-- The two directions of the Bezel (R19). -/
inductive Dir where
  | f2h | h2f
  deriving DecidableEq, Repr, Inhabited

/-- The two sides of the barrier (R16). -/
inductive Side where
  | field | host
  deriving DecidableEq, Repr, Inhabited

/-- One Bezel frame (R20): the fields of its header, its payload and its CRC-32C as received; `blocks` says that its
64b/66b blocks arrived without an unrecoverable error. -/
structure Frame where
  typ     : Nat
  nak     : Bool
  replay  : Bool
  first   : Bool
  last    : Bool
  seq     : Nat
  ack     : Nat
  len     : Nat
  offset  : Nat
  tag     : Nat
  payload : List Byte
  crc     : Word
  blocks  : Bool
  deriving DecidableEq, Repr, Inhabited

/-- What a field STATUS frame reports (R19, R421, R66, R331): the rails, PG_F, the field supervisor's copy of DEV_MODE
(R17), the field temperatures and VREFX. The spec gives its payload no layout (log 142). -/
structure FieldStatus where
  rails  : BitVec 5
  pgF    : Bool
  tField : BitVec 16
  tq0    : BitVec 16
  tq1    : BitVec 16
  tq2    : BitVec 16
  tq3    : BitVec 16
  tbzF   : BitVec 16
  vrefxUv : Nat
  mode   : Nat
  deriving DecidableEq, Repr, Inhabited

/-- What Bezel training finds (R46, R33): the lanes of each direction that trained, as bit masks, the link latency it
measured, 2⁻³² ns, and whether it was a full training (R435). -/
structure Training where
  full : Bool
  f2h  : Nat
  h2f  : Nat
  lat  : Nat
  badRecs : List Nat := []
  deriving DecidableEq, Repr, Inhabited

/-- A client's line-stream datagram (R202): an ACK, or a NAK with the ranges it lists as offset and length. -/
structure ClientData where
  session : Nat
  page    : Word
  offset  : Nat
  ranges  : List (Nat × Nat)
  crc     : Word
  deriving DecidableEq, Repr, Inhabited

/-- What a CMD frame carries to the field side (R17, R18, R19, R344). -/
inductive FieldCmd where
  | mode       (m : Nat)                                  -- the value of DEV_MODE that binds the device
  | coxLimit   (v : Nat)                                  -- Cox speed limit, lead steps/s
  | coxRelease
  | coxStop    (x : Int)                                  -- Cox stop point, lead position, 1/65,536 step
  | sramWrite  (offset : Nat) (data : List Byte)          -- field SRAM window write
  | sramRead   (offset len : Nat)                         -- field SRAM window read, which its REPLY frame returns
  | paramWrite (addr : Nat) (value : Word)                -- parameter forwarded to the field die
  deriving DecidableEq, Repr, Inhabited

/-- The samples a stroke brings to F2, for one source of one head, in sample order (R149, R154): its codes with their
SUSPECT tags, or, for a tap, the two levels its AFE sees, µV (R116): in CDS mode at SHR and at SHD, in SH mode the clamp
level and the level at SHD, in DIFF mode TAP_P and TAP_N. Where levels are given the device converts them. `pre` is the
preamble a lane brought before its words (R104). -/
structure SourceData where
  head   : Nat
  src    : Nat
  codes  : List (Nat × Bool)
  levels : List (Int × Int) := []
  pre    : List Nat := []
  deriving DecidableEq, Repr, Inhabited

/-- The regions in which a double error can lie (R391). -/
inductive EccRegion where
  | runtime (journal : Bool) | shared | page (id : Word) (sect offset : Nat) | reference | staging | strokeBuf | mapSlot (m : Nat)
  | defectBank (n : Nat) (bank : Bool)
  deriving DecidableEq, Repr, Inhabited

/-- A double error (R391, R403): the region in which it lies, and whether a scrubber found it or an access. -/
structure EccHit where
  region : EccRegion
  scrub  : Bool
  deriving DecidableEq, Repr, Inhabited

/-- The scrub targets (R402). -/
inductive ScrubTarget where
  | fsram | hsram | dram | flash
  deriving DecidableEq, Repr, Inhabited

/-- How a DMA descriptor's data movement ended (R350): no error, or a bus error after `bytes` bytes. -/
inductive DmaEnd where
  | ok
  | eccDouble (addr bytes : Nat)
  | fieldDown (addr bytes : Nat)
  deriving DecidableEq, Repr, Inhabited

/-- The blocks a level 1 recovery restarts (R394). -/
inductive Block where
  | afe (tap : Nat) | pipeline | profile (g : Nat) | dmaCh (n : Nat) | engine (e : Nat) | lampChain (n : Nat)
  | runtime | rootPll
  deriving DecidableEq, Repr, Inhabited

/-- A frame as it reaches a port (R362, R363): its destination MAC address, its length with the FCS, the VID of its tag,
whether its FCS holds, whether it finds the receive buffer full, and the UDP port of a whole datagram that it carries. -/
structure NetFrame where
  port  : NetPort
  dst   : Nat
  len   : Nat
  vid   : Option Nat
  fcsOk : Bool
  full  : Bool
  udp   : Option Nat
  deriving DecidableEq, Repr, Inhabited

/-- The addresses of an ICMP echo request (R367). -/
structure EchoEnds where
  src : Endpoint
  dst : Nat
  deriving DecidableEq, Repr, Inhabited

/-- A packet of a client that the device answers with a NAK (R372), and its ECN CE mark (R374). -/
structure BadRequest where
  badAccess : Bool
  ce        : Bool
  deriving DecidableEq, Repr, Inhabited

/-- A client's NAK (R373): a PSN sequence error or another one, the PSN it expects, and its ECN CE mark (R374). -/
structure NakIn where
  seqErr : Bool
  psn    : Nat
  ce     : Bool
  deriving DecidableEq, Repr, Inhabited

/-- PTP event messages (R379, R380). A one-step Sync carries its own originTimestamp. `turn` is the turnaround of a peer
delay exchange that its response and follow-up report. Times in 2⁻³² ns. -/
inductive PtpMsg where
  | sync (seq : Nat) | syncOneStep (origin : Int) | delayReq (seq : Nat) | pdelayReq (seq : Nat) | pdelayResp (seq : Nat) (turn : Int)
  deriving DecidableEq, Repr, Inhabited

/-- A PTP event message as it arrives (R379): its domain, its transport and the message. -/
structure PtpEvent where
  domain : Nat
  ip6    : Bool
  msg    : PtpMsg
  deriving DecidableEq, Repr, Inhabited

/-- PTP general messages as they arrive (R379); times in 2⁻³² ns. An Announce carries the fields the BMCA compares. -/
inductive PtpGeneral where
  | followUp (seq : Nat) (origin : Int)
  | delayResp (seq : Nat) (rx : Int)
  | announce (priority1 clockClass accuracy variance priority2 identity steps : Nat) (utcOffset : Nat) (utcValid : Bool)
  deriving DecidableEq, Repr, Inhabited

/-- A PTP general message as it arrives: its domain, its transport and the message. -/
structure PtpInfo where
  domain : Nat
  ip6    : Bool
  msg    : PtpGeneral
  deriving DecidableEq, Repr, Inhabited

/-- The PTP message a timer sends (R379). -/
inductive PtpTimer where
  | sync | announce | delayReq
  deriving DecidableEq, Repr, Inhabited

/-- The commands: one constructor per row of spec/opcode_table.json, in the table's order. -/
inductive Instr where
  -- SKM requests
  | ping (h : Req) (data : List Byte)
  | sessionOpen (h : Req) (kaMs : Nat) (token : Nat) (tag : Word)
  | sessionClose (h : Req)
  | keepalive (h : Req)
  | paramRead (h : Req) (addr count : Nat)
  | paramWrite (h : Req) (payload : List Word) (tail : Nat)
  | commit (h : Req)
  | discard (h : Req)
  | modeSetStandby (h : Req)
  | modeSetIdle (h : Req)
  | modeSetCalibrate (h : Req)
  | modeSetService (h : Req)
  | modeSetReset (h : Req)
  | statusGet (h : Req)
  | scanStart (h : Req) (jobId firstPage : Word) (group : Nat)
  | scanStop (h : Req)
  | scanHold (h : Req)
  | scanResume (h : Req)
  | jobAbort (h : Req)
  | moveQueue (h : Req) (m : MoveReq)
  | moveModify (h : Req) (group : Nat) (moveId : Word) (vmax acc dec : Nat)
  | home (h : Req) (mask : BitVec 16)
  | axisHaltRamp (h : Req) (mask : BitVec 16)
  | axisHaltHard (h : Req) (mask : BitVec 16)
  | moveResume (h : Req) (group : Nat)
  | lampLevel (h : Req) (chain : Nat) (level : Word)
  | lampTest (h : Req) (chain : Nat)
  | calRunAdcCore (h : Req) (unit : Nat)
  | calRunAfeOffset (h : Req) (unit : Nat)
  | calRunBezelLane (h : Req) (unit : Nat)
  | calRunShading (h : Req) (unit : Nat)
  | calRunLampAbs (h : Req) (unit : Nat)
  | calRunVrefTrace (h : Req) (unit : Nat)
  | calApply (h : Req) (kind unit epoch : Nat)
  | calStore (h : Req) (kind unit : Nat)
  | calRestore (h : Req) (kind unit epoch : Nat)
  | monConvert (h : Req) (input : Nat) (sample : BitVec 14)
  | dmaEnqueue (h : Req) (ch addr : Nat)
  | fence (h : Req) (mask : BitVec 16)
  | timeSet (h : Req) (ns frac : Nat)
  | timeAdjust (h : Req) (offset : Int) (incr : Nat)
  | telemetrySubscribe (h : Req) (period : Nat) (mask : Word)
  | keyProvision (h : Req) (keyId : Nat) (key : List Byte)
  | fwBegin (h : Req) (len : Nat)
  | fwBlock (h : Req) (offset : Nat) (data : List Byte)
  | fwCommit (h : Req)
  | faultLogRead (h : Req) (first count : Nat)
  | faultClearSafe (h : Req)
  | faultClearLog (h : Req)
  | safeClearDone (cleared : BitVec 9)
  | skmDatagramReject (src : Endpoint) (port : NetPort) (bytes : List Byte)
  | eventAck (h : Req)
  | sessionExpire (session : Nat)
  | eventResend (session : Nat) (seq : Word)
  | replyCacheExpire (session : Nat) (seq : Word)
  | devCtrlWrite (h : Req) (value : Word)
  -- Bezel
  | bzlIdleRx (d : Dir) (f : Frame)
  | bzlIdleTx (d : Dir)
  | bzlFrameDiscard (d : Dir) (f : Frame)
  | bzlReplay (d : Dir) (f : Frame)
  | strokeFrameTx
  | strokeFrameRx (f : Frame)
  | strokeDiscardRelease
  | bzlStatusRx (f : Frame) (st : FieldStatus)
  | fieldAbsent
  | bzlEventRx (f : Frame)
  | bzlCmdRx (f : Frame) (c : FieldCmd)
  | bzlReplyRx (f : Frame)
  | bzlTimeRx (f : Frame)
  | timeFrameTx
  | bzlLaneFail (d : Dir) (lane : Nat)
  | bzlLaneDegraded (d : Dir) (lane errs : Nat)
  | bzlLaneSpare (d : Dir)
  | bzlLaneRetrainDone (d : Dir) (lane : Nat)
  | bzlLaneTestDone (d : Dir) (lane : Nat) (pass : Bool)
  | bzlLaneTempRetrain (d : Dir) (lane : Nat)
  | bzlStageHigh
  | bzlLinkDown (d : Dir)
  | fieldHoldover
  | fieldPllRelock
  | fieldLocalOsc
  | bzlLinkUp (lat : Nat)
  | linkCauseClear
  | rootPllUnlock
  | xtalFail
  | xtalResume
  -- profile periods, Cox, encoders, Catches
  | profileBoundary
  | holdEntry
  | spliceEntry
  | coxPeriod
  | encEdge (enc : Nat) (b level : Bool) (held t : Nat)
  | encIllegal (enc : Nat) (t : Nat)
  | encZEdge (enc : Nat) (level : Bool) (held : Nat)
  | catchStroke (t : Nat)
  | catchDeferred (t : Nat)
  | timerStroke (t : Nat)
  | flushCycle
  | strokeWdog
  | lanePhaseAcquired (lane : Nat)
  | laneReadyTimeout
  | laneDeadline (missing early : List Nat)
  | laneTransitionLoss (lane : Nat)
  | pipelineStrokeStart (data : List SourceData)
  | trailerAppend (checkOk : Bool)
  -- front ends and converters
  | adcCheckFail (ch : Nat)
  | adcFaultTakeover (q : Nat)
  | adcRotationStep (q : Nat)
  | adcCoreCalDone (core : Nat) (pass : Bool)
  | adcCoreProbationEnd (core : Nat) (clean : Bool)
  | coreCalInvalid (core : Nat)
  | clampWindowEnd (tap gset mean : Nat)
  | vrefxLost
  | afeRefSelWrite (h : Req) (value : Word)
  | pixelRefSettled
  | afeOwStart (h : Req) (value : Word)
  | afeOwDone (means : List (Nat × Nat × Nat × Nat))
  | monPassStart (b : Bool)
  | monConversionDone (b : Bool) (sample second : BitVec 14)
  | monRefWrite (h : Req) (b : Bool) (value : Word)
  | monRefSettled (b : Bool)
  | mapSlotCrcCheck (slot : Nat)
  -- switches, homing, motion faults
  | switchEdge (sw : Nat) (level : Bool) (agree t : Nat)
  | switchChatter (axis : Nat)
  | homeRetry (axis : Nat)
  | followingError (axis : Nat)
  | axisResync (axis : Nat)
  | stepWdog (g : Nat)
  | profileRestartDone (g : Nat)
  -- Clasp, pages, delivery
  | claspRefFixed
  | claspSpliceDecide
  | containerComplete (page : Word)
  | filigreeUnitDone (engine : Nat)
  | filigreeMismatch (engine : Nat)
  | deliveryStart
  | rdmaAckRx
  | udpAckRx (src : Endpoint) (f : ClientData)
  | udpNakRx (src : Endpoint) (f : ClientData)
  | udpRto
  | pageSessionWordWrite (h : Req) (session offset : Nat) (value : Word)
  -- lamps
  | lampShiftEnd (chain : Nat)
  | lampLatch (chain : Nat)
  | lampRefresh
  | lampWindowDiag (chain : Nat) (iCode mCode : Nat) (second : Option (Nat × Nat))
  | lampProofResult (chain iCode mCode : Nat)
  | lampConfirmStart
  | lampConfirmDone (chain : Nat) (dark p1 p2 : Nat × Nat)
  | lampRotCheck
  | lampRotDone (chain m1 m2 m3 : Nat)
  | lampRecordStore (chain : Nat)
  | acSyncEdge (t : Nat)
  | acLoss
  -- calibration
  | afeOffsetDone (q : Nat)
  | lampCompUpdate
  | shadingSettleDone
  | shadingDone
  | lampAbsDone
  | vrefTraceDone (uv : Nat)
  | calRunTimeout
  | calPeriodicStore
  | calFlashWriteDone (ok : Bool)
  -- DMA
  | dmaChainFetch (ch : Nat)
  | dmaWriteback (ch : Nat) (e : DmaEnd)
  | dmaPaceTimer (ch : Nat)
  | dmaReqWrite (h : Req) (ch : Nat) (value : Word)
  | dmaChannelDisable (h : Req) (ch : Nat)
  | dmaChannelEnable (h : Req) (ch : Nat)
  | dmaAbort (h : Req) (ch : Nat)
  | dmaErrClear (h : Req) (ch : Nat)
  | dmaWdog (ch : Nat)
  | dmaChannelRestartDone (ch : Nat)
  -- network and time
  | netLinkUp (p : NetPort) (speed : Nat)
  | netLinkDown (p : NetPort)
  | netPortCfgWrite (h : Req) (p : NetPort) (value : Word)
  | netStore (h : Req)
  | netFrameDrop (f : NetFrame)
  | pauseRx (p : NetPort) (quanta : Nat)
  | pauseExpire (p : NetPort)
  | pfcRx (p : NetPort) (quanta : List (Nat × Nat))
  | pfcXoffTx (p : NetPort) (prio : Nat) (occupancy : Nat)
  | arpRequest (p : NetPort) (src : Endpoint) (target : Nat)
  | ndSolicit (p : NetPort) (src : Endpoint) (target : Nat)
  | icmpEcho (p : NetPort) (e : EchoEnds) (data : List Byte)
  | ipFragment (p : NetPort) (key : Nat) (udpPort offset : Nat) (last : Bool) (data : List Byte)
  | reasmTimeout (key : Nat)
  | qpEnable (h : Req) (session : Nat) (value : Word)
  | qpDisable (h : Req) (session : Nat)
  | roceWriteRx (session : Nat) (ecnCe : Bool) (rkey : Word) (addr : Nat) (data : List Byte)
  | roceReadRx (session : Nat) (ecnCe : Bool) (rkey : Word) (addr len : Nat)
  | roceBadRequest (session : Nat) (k : BadRequest)
  | roceNakRx (session : Nat) (k : NakIn)
  | roceAckTimeout (session : Nat)
  | cnpRx (session : Nat)
  | cnpRateRecover (session : Nat)
  | timeSlewEnd
  | ptpEventRx (m : PtpEvent) (at_ lat posn : Nat)
  | ptpTxTimestamp (m : PtpMsg) (at_ lat : Nat)
  | ptpMsgTimer (k : PtpTimer)
  | ptpAnnounceTimeout
  -- faults and background work
  | lockstepMismatch (pair : Nat)
  | coreCheckpoint
  | eccDoubleError (r : EccHit) (addr : Nat)
  | hostWdogExpire
  | fieldWdogExpire
  | recoveryL1Done (b : Block)
  | fieldWarmRestart
  | fieldWarmRestartDone
  | level3Restart
  | recoveryTimeout
  | scrubPassDone (t : ScrubTarget)
  | flashVerify (bad : List Nat)
  | flashReclaim
  | faultLogFlush
  | telemetryTick (session : Nat)
  -- power, resets, start-up
  | hostPowerValid
  | hostPowerLost
  | fieldPowerValid
  | fieldPowerLost (rail : Nat)
  | nrstHFall
  | nrstHRise (dramKept : Bool)
  | nrstFFall
  | nrstFRise
  | thermalTrip (side : Side)
  | thermalRelease (side : Side)
  | fbusDip (code : Nat)
  | fbusRecover (code durationUs : Nat)
  | supplyClear
  | fbusSurge (code : Nat)
  | acDip
  | bootComplete (dramFull fallback : Bool)
  | bootRetry
  | wakeComplete (t : Training)
  | wakeStepFail
  | lampPreload
  | skmReplyTimeout (h : Req) (opcode : Nat)
  | retrainSpareWaitTimeout
  | fwCommitDone
  | calRestoreDone
  | lampTestDone (chain : Nat) (dark p1 p2 : Nat × Nat)
  | ptpGeneralRx (m : PtpInfo)
  | rocChange (side : Side) (outside : Bool)
  | pgHigh (side : Side)
  | bootRefused
  | writesArrived (ch : Nat)
  deriving DecidableEq, Repr

end Sys2Proof
end

