-- ==== Sys2Proof/Decode.lean ====
section
/-! DEFINITION. The commands of the VH8 are operations and events, and spec/opcode_table.json gives none of them
bits: no word spells a command. -/

namespace Sys2Proof

/-- The command a word spells: none, since no row of the table has an encoding in bits. -/
def decodeTableWord (_nbits _w : Nat) : Option Instr := none

end Sys2Proof
end

