-- ==== Sys2Proof/Config.lean ====
section
/-! DEFINITION. What one unit fixes and what the spec leaves open: constants without a body, so that nothing can
be proved of their values. -/

namespace Sys2Proof.Config

/-- DEV_UID, per unit (R45). -/
opaque devUid : BitVec 64

/-- The MAC address of ETH0; ETH1 and SGMII take the two after it (R359). -/
opaque mac0 : BitVec 48

/-- A free value: the `n`-th value taken that the spec does not state, of the kind `site` (log 1). -/
opaque freeValue : Nat → Nat → BitVec 64

/-- The resume token of the `n`-th value taken (R58; the spec gives it no value). -/
opaque resumeToken : Nat → BitVec 64

/-- The offsetScaledLogVariance of the device's clock (R379; the spec gives it no value). -/
opaque ptpVariance : BitVec 16

/-- The random upper 24 bits of the `n`-th RDMA key generated (R371). -/
opaque rkey : Nat → BitVec 24

/-- The first event SEQ of the `n`-th session opened (R77 gives it no value). -/
opaque eventSeq : Nat → BitVec 32

/-- Whether the ECDSA P-256 signature of a firmware image verifies under the Poalbex key (R65). -/
opaque imageOk : List (BitVec 8) → Bool

/-- The security version that a firmware image carries (R434 gives its place in the image no layout). -/
opaque imageVersion : List (BitVec 8) → Nat

/-- Whether a measured skew is rounded up to the 2⁻¹⁶ degree that the manifest holds (R189, R195 give no rounding). -/
opaque skewUp : Int → Bool

end Sys2Proof.Config
end

