-- ==== Sys2Proof/Machine/State.lean ====
section
/-! DEFINITION. Everything the spec gives the VH8 to hold, as plain data, and the machine right after a host cold
start has left RESET (R10). The parameter words live in `Regs`: a word not listed holds its reset value
(Machine/RegMap.lean), so `State.reset` lists none. A field's default is its value at reset. -/

namespace Sys2Proof.Machine

open Sys2Proof

/-- The twelve modes (R37). -/
inductive Mode where
  | off | reset | standby | wake | idle | homing | scan | hold | splice | calibrate | service | safe
  deriving DecidableEq, Repr, Inhabited

/-- A SKM packet as sent (R49). -/
structure Packet where
  opcode  : Nat
  seq     : Word
  session : Nat
  flags   : Nat
  status  : Nat
  payload : List Byte
  crc     : Word
  deriving DecidableEq, Repr, Inhabited

/-- What a waveform table entry drives on a head timing output, in CLK_PIX cycles after the Catch (R98). -/
inductive HtEv where
  | edge (t : Int) (out : Nat) (level : Bool)
  | burst (t : Int) (out count period high : Nat)
  deriving DecidableEq, Repr

/-- How an axis's pulses of one period look at its pins (R236): the levels of a pulse on STEPa and of DIRa, the width in
CLK_MOT cycles, and, where the direction reverses, the cycles before and after the change of DIRa in which no step of
the old and of the new direction lies. -/
structure StepPins where
  pulse : Bool
  dir   : Bool
  width : Nat
  setup : Nat
  deriving DecidableEq, Repr, Inhabited

/-- What every PTP message of the device carries besides (R379): its domain and transport, the clockIdentity, and in an
Announce its data set, else nothing. -/
structure PtpHead where
  domain   : Nat
  ip6      : Bool
  identity : Nat
  ds       : List Nat
  deriving DecidableEq, Repr, Inhabited

/-- What the device sends on its ports and across the Bezel and drives on its field outputs, in order. -/
inductive Out where
  | skm (dst : Endpoint) (port : NetPort) (p : Packet)
  | stream (dst : Endpoint) (bytes : List Byte)         -- R202: a DATA datagram from port 49,431
  | roceWrite (session psn : Nat) (reth : Option (Nat × Word × Nat)) (last : Bool) (data : List Byte)
      -- R370: a packet of an RDMA WRITE; a message's first one names its address, key and length
  | roceAck (session psn : Nat)
  | roceNak (session psn code : Nat)
  | roceReadResp (session psn : Nat) (first last : Bool) (data : List Byte)
  | cnp (session : Nat)
  | pfc (port : NetPort) (prio : Nat) (xoff : Bool)
  | arpReply (port : NetPort) (dst : Endpoint) (target : Nat)
  | ndAdvert (port : NetPort) (dst : Endpoint) (target : Nat)
  | echoReply (port : NetPort) (dst : Endpoint) (data : List Byte)
  | arpQuery (port : NetPort) (target : Nat)            -- R367: the device resolves a neighbour of its own
  | ndQuery (port : NetPort) (target : Nat)
  | ptp (kind seq : Nat) (time : Int) (h : PtpHead)
  | bezel (d : Dir) (f : Frame)
  | headTiming (head at_ : Nat) (evs : List HtEv)       -- R98, R99: a head's waveform from an instant
  | headClock (head out at_ div high : Nat)             -- R97: CLK_PIX / DIV from an instant; DIV 0: it stops there
  | tapClamp (tap first count : Nat)                    -- R118: a tap's DC-restore clamp, by samples
  | lampShift (chain : Nat) (bits : List Bool)          -- R210: the first bit sent first
  | lampGate (chain opens closes : Nat)                 -- R215, R221: LCnn_BLK low between two instants
  | steps (axis n : Nat) (dir : Bool) (p : StepPins)     -- R236, R244: the step pulses of one profile period
  | flashRecord (bytes : List Byte)                     -- R327: a record written to the calibration region
  | flashHeader (sector : Nat) (bytes : List Byte)      -- R405: the header of a sector of that region
  | drive (group : Nat) (level : Option Bool) (at_ : Nat) -- R237, R424: AENAg from an instant; none: high-impedance
  deriving DecidableEq, Repr

/-- What the headers of a network frame say: the VID of its tag, none on a port without VLAN, the priority, and the DSCP of
an IP packet (R362); the address of the next hop of a unicast IP packet (R366); DF (R368); ECN (R370); the UDP ports
(R369, R371); the queue pair a RoCEv2 packet is for (R371). -/
structure FrameHead where
  port : NetPort
  vid  : Option Nat
  pcp  : Nat
  dscp : Option Nat
  hop  : Option Nat
  df   : Bool
  ecn  : Nat
  udp  : Option (Nat × Nat)
  qp   : Option Nat
  deriving DecidableEq, Repr, Inhabited

/-- One event of a session's queue (R77, R80). -/
structure Ev where
  code   : Nat
  opcode : Nat
  seq    : Word
  reqSeq : Word
  status : Nat
  time   : Nat
  stroke : Nat
  body   : List Byte
  sent   : Bool
  deriving DecidableEq, Repr, Inhabited

/-- A cached reply (R56). -/
structure Cached where
  seq    : Word
  opcode : Nat
  status : Nat
  body   : List Byte
  deriving DecidableEq, Repr, Inhabited

/-- An open session (R53 to R60, R80, R407). -/
structure Session where
  ep       : Endpoint
  port     : NetPort
  kaMs     : Nat
  openSeq  : Word
  openTag  : Word
  openBody : List Byte
  openLive : Bool          -- a resend of its SESSION_OPEN is still recognised (R57)
  cache    : List Cached   -- newest first, at most 16
  evNext   : Word
  evq      : List Ev       -- unacknowledged, in SEQ order, at most 256
  evLost   : Nat
  telPeriod : Nat          -- 0: no subscription
  telMask  : Nat
  telSeq   : Nat
  deriving DecidableEq, Repr, Inhabited

/-- A job event kept while the job has no owner (R59). -/
structure JobEv where
  code : Nat
  time : Nat              -- time counter and STROKE_NO at the event (R77)
  stroke : Nat
  body : List Byte
  deriving DecidableEq, Repr, Inhabited

/-- A job, from SCAN_START until its last page is delivered (R42, R58 to R60). -/
structure Job where
  id        : Word
  serial    : Nat           -- which SCAN_START created it: a JOB_ID may come again
  group     : Nat
  owner     : Option Nat
  token     : BitVec 64
  ended     : Bool          -- its capture has ended
  nextPage  : Word
  delivered : Nat
  evq       : List JobEv
  deriving DecidableEq, Repr, Inhabited

/-- The long operations whose OP_DONE is still to come (R62, R461). -/
inductive Op where
  | modeSet (m : Mode) | scanStart | scanStop | scanHold | scanResume | jobAbort | home | calRun
  | calStore | calRestore | lampTest (chain : Nat) | fwCommit | faultClear
  deriving DecidableEq, Repr, Inhabited

/-- A long operation with the request that started it. Session 0: its session has closed. -/
structure LongOp where
  op      : Op
  session : Nat
  seq     : Word
  deriving DecidableEq, Repr, Inhabited

/-- The accepted COMMIT that waits for its stroke boundary (R13, R75). -/
structure PendCommit where
  vals    : List (Nat × Word)
  session : Nat
  seq     : Word
  deriving DecidableEq, Repr, Inhabited

/-- The parameter words. Each list is keyed by address in rising order (R68). -/
structure Regs where
  /-- R9. Active words of every page but NET that differ from their reset value. Reset: none. -/
  act   : List (Nat × Word) := []
  /-- R83, R383 to R385. Words of the NET page that differ from their reset value. Reset: none. -/
  net   : List (Nat × Word) := []
  /-- R11. The shadow set: staged words, shared by all sessions. Reset: none. -/
  shd   : List (Nat × Word) := []
  /-- R76. Held values of image words. Reset: none. -/
  held  : List (Nat × Word) := []
  /-- R12, R76, R81. Requests whose COMMIT_DONE waits: session, SEQ, and where image values of theirs wait: 0 under R76, else
  the number of their group under R308; none where all are in force. Reset: none. -/
  heldBy : List (Nat × Word × Option Nat) := []
  /-- R13, R75. The accepted COMMIT. Reset: none. -/
  com   : Option PendCommit := none
  /-- R13. Catches are disabled: it takes effect after the stroke under way and its flush cycle. Reset: no. -/
  comDue : Bool := false
  /-- R70. Snapshots of SN high words, keyed by session × 2²⁴ + address. Reset: none. -/
  sn    : List (Nat × Word) := []
  deriving DecidableEq, Repr

/-- One direction of the Bezel (R21, R22, R24 to R26, R314). Lane sets are bit masks. -/
structure Link where
  /-- R46. Lanes in the stripe. Reset 0. -/
  map     : Nat := 0
  /-- R46. Spares ready. Reset 0. -/
  spares  : Nat := 0
  /-- R25. Lanes in the stripe that entered it as spares. Reset 0. -/
  sub     : Nat := 0
  /-- R24. Lanes declared failed or degraded that have not left the stripe. Reset 0. -/
  bad     : Nat := 0
  /-- R26. Lanes being retrained. Reset 0. -/
  retrain : Nat := 0
  /-- R26. Retrained lanes in their 1 ms IDLE test. Reset 0. -/
  test    : Nat := 0
  /-- R314. Planned swaps under way: (due lane, spare in its place). Reset: none. -/
  swap    : List (Nat × Nat) := []
  /-- R315. Named lanes of the commanded run still to retrain. Reset: none. -/
  todo    : List Nat := []
  /-- R20. SEQ of the next new frame. DESIGN CHOICE 0 (log 7). -/
  txSeq   : Nat := 0
  /-- R21. Transmitted frames not acknowledged, oldest first, at most 64. Reset: none. -/
  retry   : List Frame := []
  /-- R20. SEQ of the next frame expected. DESIGN CHOICE 0 (log 7). -/
  rxNext  : Nat := 0
  /-- R22. A NAK was sent; the frames that follow are discarded until the replay. Reset: no. -/
  await   : Bool := false
  /-- R28. The direction is up. Reset: no (no link before the first WAKE). -/
  up      : Bool := false
  deriving DecidableEq, Repr

/-- What the host keeps of a stroke from its framing to its ingest: the committed set in force for it (R34), its
deferral (R186) as a fraction of a stroke, and whether it was captured in SPLICE. -/
structure Framed where
  no   : Nat
  cfg  : List (Nat × Word)
  e    : Int               -- ENC_POS − G(k)
  dd   : Nat               -- D
  band : Bool
  deriving DecidableEq, Repr, Inhabited

/-- A stroke assembled at H1 (R180): bytes received so far. -/
structure Assembly where
  tag   : Word
  bytes : List Byte
  deriving DecidableEq, Repr, Inhabited

/-- The Bezel and the clocks (R19 to R33). -/
structure Bezel where
  /-- R19. Field to host. -/
  f2h : Link := {}
  /-- R19. Host to field. -/
  h2f : Link := {}
  /-- R23. Staged STROKE frames not yet sent, oldest first. Reset: none. -/
  stage : List Frame := []
  /-- R21. CMD frames that wait for room in the host-to-field retry buffer, oldest first. Reset: none. -/
  wait : List Frame := []
  /-- R17. The field supervisor's copy of DEV_MODE. DESIGN CHOICE STANDBY (log 143): the field side is down. -/
  fieldMode : Mode := .standby
  /-- R33. Link latency measured at link training, 2⁻³² ns. DESIGN CHOICE 0 (log 12): no training yet. -/
  lat : Nat := 0
  /-- R34. What belongs to strokes framed and not yet ingested, oldest first. Reset: none. -/
  framed : List Framed := []
  /-- R180. The stroke being assembled at H1. Reset: none. -/
  asm : Option Assembly := none
  /-- R28. Catches are inhibited by a link loss. Reset: no. -/
  inhibit : Bool := false
  /-- R45. ROOT_LOCK. Reset 1. -/
  rootLock : Bool := true
  /-- R45. FIELD_LOCK. Reset 1. -/
  fieldLock : Bool := true
  /-- R45. HOLDOVER. Reset 0. -/
  holdover : Bool := false
  /-- R45. LOCAL_OSC. Reset 0. -/
  localOsc : Bool := false
  /-- R45. REF_LANE. Reset 0. -/
  refLane : Nat := 0
  /-- R32, R392. A crystal failure is in force. Reset: no. -/
  xtalDead : Bool := false
  /-- R33. Counter value and increment of the last TIME frame (units 2⁻³² ns). Reset 0. -/
  timeTx : Nat := 0
  /-- R421. Successive STATUS frames with every rail good and PG_F high, limited to 3. Reset 0. -/
  goodStatus : Nat := 0
  /-- R66. T_FIELD from the latest STATUS frame. DESIGN CHOICE 0 (log 6). -/
  tField : Nat := 0
  /-- R66. T_HOST. DESIGN CHOICE 0 (log 6). -/
  tHost : Nat := 0
  /-- R133. VREFX at its last report, µV. DESIGN CHOICE 0 (log 6). -/
  vrefx : Nat := 0
  /-- R18. CMD tag of the next command. DESIGN CHOICE 0 (log 7). -/
  cmdTag : Nat := 0
  /-- R19. CMD frames not yet answered by a REPLY. Reset: none. -/
  cmds : List Nat := []
  /-- R344. Tags of window frames under way whose effect has come already. Reset: none. -/
  applied : List Nat := []
  /-- R19. Parameter words that CMD frames have brought to the field side since it came up. Reset: none. -/
  fieldWords : List (Nat × Word) := []
  /-- R46. STAGE_FILL's buffer as it stood when the field side last went down, bytes. Reset 0. -/
  stageLast : Nat := 0
  deriving DecidableEq, Repr

/-- F9's result for one stroke (R169, R170). -/
structure PxOut where
  payload : List Byte
  width   : Nat
  ovr     : Nat
  suspect : Nat
  drift   : Nat            -- DRIFT_WHY of the stroke
  ovrAt   : List Nat       -- pixels of the output that carry an OVR tag, line by line
  raw     : List Nat := []  -- SHADING: F9's value of every raw pixel, line by line (R319)
  rawOvr  : List Nat := []  -- those that carry an OVR tag
  run     : Nat := 0       -- the commanded run it passed the pipeline under: its kind, 0 for none (R319, R321)
  deriving DecidableEq, Repr, Inhabited

/-- A stroke from its Catch to F10 (R84). `cfg` is the committed set in force for it (R34). -/
structure Stroke where
  k        : Nat
  pos      : Int           -- ENC_POS, 1/65,536 quarter-count (R90)
  time     : Nat           -- TIME, ns (R378)
  at_      : Nat           -- Catch instant, CLK_PIX cycles
  gap      : Nat           -- interval from the previous Catch, 0 where R163 does not check it
  first    : Bool          -- the first stroke of a run (R156)
  phase    : Nat
  deferred : Bool
  paced    : Bool
  spare    : Bool
  band     : Bool          -- captured in SPLICE
  grid     : Int           -- G(k)
  pitch    : Nat           -- D
  lampDiag : Bool
  calUse   : Bool          -- captured for a commanded run, goes to the calibration buffer
  calStage : Nat := 0      -- the stage of that run at its Catch (R319)
  dark     : Bool          -- every lamp window closed (R313, R319)
  lagDone  : Bool          -- its READ_LAG = 1 heads have been read out (R99)
  waits    : List Nat      -- lamp diagnosis results F10 still waits for: chain numbers (R219)
  level    : Word
  epoch    : Word
  cfg      : List (Nat × Word)
  px       : Option PxOut
  deriving DecidableEq, Repr, Inhabited

/-- The sequencer (R84 to R106). -/
structure Seq where
  /-- R85. Grid origin P0, 1/65,536 quarter-count. Reset 0. -/
  p0 : Int := 0
  /-- R87. Grid index of the origin. Reset 0. -/
  k0 : Nat := 0
  /-- R85. The pitch D in force on the grid, 1/65,536 quarter-count. Reset 16.0. -/
  pitch : Nat := 1048576
  /-- R87. Origins before the present one, newest first: (index, position, pitch). Reset: none. -/
  old : List (Nat × Int × Nat) := []
  /-- R86. High-water index. Reset 0. -/
  high : Nat := 0
  /-- R86. Highest grid index that forward travel has passed and backward travel has not re-armed. Reset 0. -/
  passed : Nat := 0
  /-- R94. Catches enabled. Reset 0. -/
  en : Bool := false
  /-- R91. Pending Catches (grid index, requested instant), oldest first, at most 4. Reset: none. -/
  pend : List (Nat × Nat) := []
  /-- R92. A fifth grid point was reached; no later one is captured before the stop. Reset: no. -/
  limit : Bool := false
  /-- R95. Instant of the previous Catch, CLK_PIX cycles. Reset: none. -/
  last : Option Nat := none
  /-- R156. The next stroke is the first of a run. Reset: yes. -/
  firstRun : Bool := true
  /-- R89. Feed-frame position of the latest accepted edge. Reset 0. -/
  edgeQ : Int := 0
  /-- R89. Instant of the latest accepted edge. Reset 0. -/
  edgeT : Nat := 0
  /-- R89. Feed-frame position of the edge before it. Reset 0. -/
  edgeQ1 : Int := 0
  /-- R89. Instant of the edge before it. Reset 0. -/
  edgeT1 : Nat := 0
  /-- R107. Timer Catches since the COMMIT that selected the timer. Reset 0. -/
  timerN : Nat := 0
  /-- R99. A flush cycle is due. Reset: no. -/
  flushDue : Bool := false
  /-- R99. A flush cycle is running. Reset: no. -/
  flush : Bool := false
  /-- R99. Instant of the last flush cycle. DESIGN CHOICE 0 (log 12). -/
  flushAt : Nat := 0
  /-- R99. READ_LAG heads have discarded the first waveform since Catches were enabled. Reset: no. -/
  lagPrimed : Bool := false
  /-- R103. Lanes ready: 256-bit mask. Reset 0. -/
  lanes : Nat := 0
  /-- R103, R105. Lanes being reacquired after a lane error. Reset 0. -/
  reacq : Nat := 0
  /-- R105. Heads with a lane error from which they recover, bit mask. Reset 0. -/
  errHeads : Nat := 0
  /-- R105, R130. Strokes are withheld from now up to the stop. Reset: no. -/
  withhold : Bool := false
  /-- R96. Last STROKE_NO framed. Reset 0. -/
  strokeNo : Nat := 0
  /-- R84. Strokes between Catch and F10, in Catch order. Reset: none. -/
  flight : List Stroke := []
  /-- R103. SCAN_START accepted and waiting for lanes. Reset: no. -/
  scanWait : Bool := false
  /-- R103. SPLICE overlap capture waits for lanes. Reset: no. -/
  bandWait : Bool := false
  /-- R97. Level the last entry left on a timing output, by 4 × head + output; one not listed rests at IDLE. Reset: none. -/
  ht : List (Nat × Bool) := []
  /-- R97. Continuous clocks that run: 4 × head + output, DIV, and the instant the clock started. Reset: none. -/
  clk : List (Nat × Nat × Nat) := []
  deriving DecidableEq, Repr

/-- One quadrant of cores (R114, R127 to R132). -/
structure Quad where
  /-- R127. The ready core. -/
  ready : Option Nat
  /-- R127. Free core under calibration. -/
  cal : List Nat
  /-- R130. Cores in probation after a check failure. -/
  probation : List Nat
  /-- R130. Retired cores. -/
  retired : List Nat
  /-- R127. Next channel in turn. -/
  turn : Nat
  /-- R130. Channels that wait for a takeover, in the order their cores failed. -/
  failCh : List Nat
  deriving DecidableEq, Repr, Inhabited

/-- Front ends and converters (R114 to R142). -/
structure Afe where
  /-- R146. Physical core serving channel c, 64 entries. Reset: cores 0 to 15, 17 to 32, 34 to 49, 51 to 66. -/
  core : List Nat :=
    (List.range 16) ++ (List.range' 17 16) ++ (List.range' 34 16) ++ (List.range' 51 16)
  /-- R114. The four quadrants. Reset: ready cores 16, 33, 50 and 67 (R146; AFE_ROT_STAT.READY reads 0 until WAKE, log 8). -/
  quads : List Quad :=
    [⟨none, [16], [], [], 0, []⟩, ⟨none, [33], [], [], 0, []⟩, ⟨none, [50], [], [], 0, []⟩, ⟨none, [67], [], [], 0, []⟩]
  /-- R125. Per tap: samples still to mark SUSPECT. Reset: none. -/
  suspect : List (Nat × Nat) := []
  /-- R131. Per tap whose last window was out of limit: STROKE_NO of that window's stroke. Reset: none. -/
  blk : List (Nat × Nat) := []
  /-- R131. Per tap with a declared fault: recovery step reached (1 core, 2 AFE restart). Reset: none. -/
  blkStep : List (Nat × Nat) := []
  /-- R134. Correction scaled by the last measured ratio. Reset: no. -/
  scaled : Bool := false
  /-- R134. VREFX as last reported within its window, µV; the scale that output codes keep. DESIGN CHOICE 0 (log 6). -/
  vrefKept : Nat := 0
  /-- R120. Instant at which the field clocks locked and every slot pointer started. DESIGN CHOICE 0 (log 12). -/
  lockAt : Nat := 0
  /-- R120. Channels whose slot table has changed since: channel, and the instant from which its pointer runs through the
  new table from position 0. Reset: none. -/
  slot0 : List (Nat × Nat × Nat) := []
  deriving DecidableEq, Repr

/-- One MON converter (R136 to R142). -/
structure Mon where
  /-- R137. Entry of the pass under way; none between passes. Reset: none. -/
  entry : Option Nat := none
  /-- R138. The reference was settled when the running conversion started. Reset: no. -/
  set0 : Bool := false
  /-- R138. Result of each entry, 48 bits. Reset 0. -/
  res : List (Nat × Nat) := []
  /-- R139. Sessions and entries whose snapshot is fresh: session × 64 + entry. Reset: none. -/
  fresh : List Nat := []
  /-- R140. Reference in use. Reset 0. -/
  ref : Nat := 0
  /-- R137. A sequence change waits for the end of the running conversion, with the entries whose settings changed.
  Reset: none. -/
  changed : Option (List Nat) := none
  deriving DecidableEq, Repr

/-- A stroke as ingested (R180): its trailer, with host bits, and its payload. -/
structure Ing where
  trailer : List Byte
  payload : List Byte
  cfg     : List (Nat × Word)
  e       : Int
  dd      : Nat
  band    : Bool
  gap     : Option (Nat × Nat)   -- strokes are missing before it: the last one ingested, and GFLAGS
  deriving DecidableEq, Repr, Inhabited

/-- One written row of a plane (R186): plane 4 × phase + line, row, first column of its head's segment, the head's
offset, its position from a_p in 1/256 stroke without the deferral, the deferral e / dd in strokes, and the codes. -/
structure PRow where
  plane : Nat
  row   : Int
  col   : Nat
  ofs   : Nat
  base  : Int
  e     : Int
  dd    : Nat
  codes : List Nat
  deriving DecidableEq, Repr, Inhabited

/-- The passes of the Filigree engines, in the order of issue (R198). -/
inductive FPass where
  | h3 | h4 | h6 | h7 | digest
  deriving DecidableEq, Repr, Inhabited

/-- A unit of the Filigree engines (R198): a pass over a stripe of a section. A section is a plane, 4 × phase + line, or
16 for the trailers; a phase group goes by its first plane. -/
structure FUnit where
  pass    : FPass
  section_ : Nat
  stripe  : Nat
  deriving DecidableEq, Repr, Inhabited

/-- A page in the page buffer (R183 to R200). -/
structure Page where
  id     : Word
  job    : Word
  serial : Nat              -- its job's
  k0     : Int
  lg     : Nat              -- 0 while a sensor page waits for its trailing edge
  fin    : Option Int       -- the last grid index of its sheet, once its trailing edge is past (R183)
  nph    : Nat
  lines  : Nat
  width  : Nat
  bits   : Nat              -- N
  cfg    : List (Nat × Word)
  rows   : List PRow
  chain  : List (List Byte) -- trailers in STROKE_NO order
  splices : List (List Byte)
  gaps   : List (Nat × Nat × Nat)
  closed : Bool
  trunc  : Bool
  partial_ : Bool
  poison  : List (Nat × Nat)   -- R391: poisoned words, by section and offset
  units  : List FUnit       -- Filigree units not yet started, in the order of R198
  container : Option (List Byte)
  mflags : Nat
  doneAt : Nat              -- time counter at completion of the container
  alloc  : Nat              -- bytes allocated (R182)
  deriving DecidableEq, Repr, Inhabited

/-- A delivery in progress (R201, R202). -/
structure Deliv where
  page    : Word
  serial  : Nat             -- its job's
  session : Nat
  rdma    : Bool
  offset  : Nat             -- RDMA: ring offset of the container
  record  : Bool            -- RDMA: the completion record has been written
  sent    : Nat             -- UDP: bytes sent
  acked   : Nat             -- UDP: ACK offset
  rto     : Nat             -- UDP: resend interval, µs
  naks    : List (Nat × Nat)
  deriving DecidableEq, Repr, Inhabited

/-- Page services (R180 to R207). -/
structure Pages where
  /-- R183. Pages from opening to release, in PAGE_ID order. Reset: none. -/
  list : List Page := []
  /-- R180. STROKE_NO of the last stroke ingested. Reset 0. -/
  lastIng : Nat := 0
  /-- R181. A discarded stroke's buffers are not yet released. Reset: no. -/
  discard : Bool := false
  /-- R181, R195. The next stroke ingested carries GAP: GFLAGS of the gap entry. Reset: none. -/
  gapNext : Option Nat := none
  /-- R195. Gaps of the job's ingest: STROKE_NO ingested before the gap, next one ingested, GFLAGS. Reset: none. -/
  gaps : List (Nat × Nat × Nat) := []
  /-- R195. STROKE_NO of the last stroke framed when the job was created: the job's gaps come after it. Reset 0. -/
  jobFrom : Nat := 0
  /-- R198. The units that the engines work on: engine, its page's job and identifier, unit. Reset: none. -/
  busy : List (Nat × Nat × Word × FUnit) := []
  /-- R183. Feed index of the last leading edge taken, and furthest edge positions taken by polarity (R296). Reset: none. -/
  edges : List (Bool × Int) := []
  /-- R183. Grid index at which the next page opens (BOUND 0). Reset 1. -/
  nextK0 : Int := 1
  /-- R185. Pages open at SCAN_STOP, by identifier. Reset: no SCAN_STOP. -/
  stopPages : Option (List Word) := none
  /-- R201, R202. The delivery in progress. Reset: none. -/
  deliv : Option Deliv := none
  /-- R201. A container waits for ring room (its PAGE_ID). Reset: none. -/
  wait : Option Word := none
  /-- R200. A container waits for a data ring that can hold it (its PAGE_ID). Reset: none. -/
  tooSmall : Option Word := none
  /-- R202. DSEQ of the session's last datagram, by session. Reset: none. -/
  dseq : List (Nat × Nat) := []
  /-- R201. RSEQ of the session's last record, by session. Reset: none. -/
  rseq : List (Nat × Nat) := []
  /-- R199. Engines in service, bit mask. Reset 15. -/
  engines : Nat := 15
  /-- R199. Time of each engine's last fault, ns. Reset: none. -/
  engFault : List (Nat × Nat) := []
  /-- R198. Engines restarting after a fault, bit mask. Reset 0. -/
  engRestart : Nat := 0
  /-- R198. Pixel work offered in the last second: (instant, pixels × 2). Reset: none. -/
  work : List (Nat × Nat) := []
  /-- R64. The manifest key. Reset: none provisioned (DESIGN CHOICE, log 9). -/
  key : Option (List Byte) := none
  deriving DecidableEq, Repr

/-- One lamp chain (R208 to R227). LEVEL, SENSE, MONREF, RATIO, DIAG and the minutes live in `Regs`. -/
structure Chain where
  /-- R211. Level requested: shifting, or shifted and waiting for its latch. Reset: none. -/
  want : Option Word := none
  /-- R210. A shift runs. Reset: no. -/
  shifting : Bool := false
  /-- R211. The shift of `want` has ended. Reset: no. -/
  shifted : Bool := false
  /-- R211. A newer level asked for while a shift ran. Reset: none. -/
  next : Option Word := none
  /-- R223. MONF, 1/16 code. Reset 0. -/
  monf : Nat := 0
  /-- R437. Windows and proof pulses diagnosed since WAKE. Reset 0. -/
  diagN : Nat := 0
  /-- R225. Undone rotations in succession. Reset 0. -/
  undone : Nat := 0
  /-- R221. STROKE_NO of the last passing proof stroke. Reset 0. -/
  lastProof : Nat := 0
  /-- R215. When LCnn_BLK is low: the windows, proof pulses and dwells not yet over, each from an instant to an instant.
  At every other instant it is high or floats, which keeps the chain dark (R424). Reset: none. -/
  gate : List (Nat × Nat) := []
  /-- R221. B of the fault log for the chain's suspect stroke. Reset 0. -/
  lastB : Nat := 0
  /-- R222. The chain's SUSPECT waits for confirmation. Reset: no. -/
  suspect : Bool := false
  /-- R227. Lit time since the last full minute, CLK_PIX cycles. Reset 0. -/
  litCyc : Nat := 0
  deriving DecidableEq, Repr, Inhabited

/-- The lamp block (R208 to R230). -/
structure Lamp where
  /-- R208. The sixteen chains. -/
  chains : List Chain := List.replicate 16 {}
  /-- R222. Confirmation runs. Reset: no. -/
  confirm : Bool := false
  /-- R225. Chain whose rotation runs. Reset: none. -/
  rot : Option Nat := none
  /-- R224. Chain whose LAMP_TEST runs. Reset: none. -/
  test : Option Nat := none
  /-- R228. Instant of the latest AC_SYNC edge taken, CLK_PIX cycles. Reset: none. -/
  acEdge : Option Nat := none
  /-- R228. Latest intervals, CLK_PIX cycles, newest first, at most 4. Reset: none. -/
  acInt : List Nat := []
  /-- R228. Mains lock. Reset 0. -/
  acLock : Bool := false
  /-- R228. Four times the mean interval T while locked, CLK_PIX cycles. Reset 0. -/
  acT : Nat := 0
  /-- R222. The first stroke after the splice carries LAMP_DIAG. Reset: no. -/
  diagNext : Bool := false
  deriving DecidableEq, Repr

/-- A motion move (R63, R245). Targets and starts are absolute, 1/65,536 step, by axis. -/
structure Move where
  id     : Word
  vmax   : Nat
  acc    : Nat
  dec    : Nat
  blend  : Bool
  target : List (Nat × Int)
  start  : List (Nat × Int)
  session : Nat
  deriving DecidableEq, Repr, Inhabited

/-- Group states (R266). -/
inductive GSt where
  | rest | run | halting | halted | paceStop | splice | homing | limit | fault
  deriving DecidableEq, Repr, Inhabited

/-- How the period under way ends (R246, R253): at the end of the current move with a speed, or at rest on its stop
point. -/
inductive Ending where
  | move (v : Nat)
  | stop
  deriving DecidableEq, Repr, Inhabited

/-- A motion group (R244 to R259). `u` and `v` are the path coordinate and path speed in units of
2⁻¹⁶ step and of 1/48,828,125 step/s. -/
structure Group where
  /-- R266. State. Reset REST. -/
  st : GSt := .rest
  /-- R247. The current move. Reset: none. -/
  cur : Option Move := none
  /-- R247. Queued moves after it, in order. Reset: none. -/
  q : List Move := []
  /-- R245. Path coordinate, in 2⁻¹⁶ step × 48,828,125². Reset 0. -/
  u : Nat := 0
  /-- R246. Path speed, in 1/48,828,125 step/s. Reset 0. -/
  v : Nat := 0
  /-- R253. Cox speed limit in force, lead steps/s. Reset: none. -/
  vpace : Option Nat := none
  /-- R278. Limit or release that comes into force at the next boundary. Reset: none. -/
  paceNext : Option (Option Nat) := none
  /-- R281. A stop for a hold cause is to come into force at the next boundary. Reset: no. -/
  stopDue : Bool := false
  /-- R253. Stop point as a path coordinate, in the unit of `u`. Reset: none. -/
  stopAt : Option Nat := none
  /-- R252. A new DEC is to be judged at the next boundary. Reset: no. -/
  decNew : Bool := false
  /-- R252. Clamped deceleration of the ramp under way (numerator, denominator). Reset: none. -/
  clamp : Option (Nat × Nat) := none
  /-- R250, R252. The current move decelerates toward its exit speed. Reset: no. -/
  decel : Bool := false
  /-- R256. A hard halt is due at the next boundary. Reset: no. -/
  hard : Bool := false
  /-- R258. Deceleration of the ramp of a HALTING group, path steps/s². Reset 0. -/
  haltDec : Nat := 0
  /-- R258. The ramp under way ends in LIMIT: the axis that tripped. Reset: none. -/
  limitBy : Option Nat := none
  /-- R255. The ramp under way ends in REST with the move dropped. Reset: no. -/
  restEnd : Bool := false
  /-- R254. The held move, its path coordinate and its queue while Clasp internal moves run. Reset: none. -/
  heldMove : Option Move := none
  /-- R254. Path coordinate of the held move at its stop point. Reset 0. -/
  heldU : Nat := 0
  /-- R254, R290. Positions of the axes at the hold. Reset: none. -/
  heldPos : List (Nat × Int) := []
  /-- R289. Splice speed v_s, lead steps/s. Reset 0. -/
  vs : Nat := 0
  /-- R254, R290. Internal move under way: 0 none, 1 rewind, 2 run-up, 3 run-up that joins no held move. Reset 0. -/
  intern : Nat := 0
  /-- R290. The last move the group ran in the job. Reset: none. -/
  lastMove : Option Move := none
  /-- R281. The speed a stop beyond the current move has braked to, path steps/s. Reset: none. -/
  brake : Option Nat := none
  /-- R290. The stop commanded is the one after the overlap band. Reset: no. -/
  bandStop : Bool := false
  /-- R246. The period under way ends the current move, or rests on its stop point. Reset: no. -/
  ending : Option Ending := none
  /-- R237, R424. AENAg is active; none: high-impedance. Reset: high-impedance. -/
  drive : Option Bool := none
  /-- R237. Instant at which AENAg goes inactive in SAFE. Reset 0. -/
  aenaOff : Nat := 0
  /-- R264. Time of the last following error of the group while it was the feed, ns. Reset: none. -/
  feLast : Option Nat := none
  deriving DecidableEq, Repr, Inhabited

/-- Steps of a homing attempt (R261). -/
inductive HSt where
  | seek | seekRamp | latch | index | ramp | wait | limit | retryDue
  deriving DecidableEq, Repr, Inhabited

/-- A homing axis (R260 to R262). -/
structure Homing where
  st     : HSt
  tries  : Nat
  v      : Nat              -- V_H, quarter steps/s
  speed  : Nat              -- present speed, 1/48,828,125 step/s
  frac   : Nat              -- rest of the position below 1/65,536 step
  moved  : Nat              -- travel of steps 1 and 2, or of step 3, 1/65,536 step
  latch  : Int              -- latched position
  deriving DecidableEq, Repr, Inhabited

/-- One axis (R235, R243, R263). -/
structure Axis where
  /-- R243. Commanded position, 1/65,536 step. Reset 0. -/
  pos : Int := 0
  /-- R243. POS_VALID. Reset 0. -/
  valid : Bool := false
  /-- R271. HOMED. Reset 0. -/
  homed : Bool := false
  /-- R271. MOVING. Reset 0. -/
  moving : Bool := false
  /-- R271. DIR of the last step. Reset 0. -/
  dir : Bool := false
  /-- R258. Rate of the period under way, 1/65,536 step per period. Reset 0. -/
  rate : Int := 0
  /-- R263. P_ref. Reset 0. -/
  pref : Int := 0
  /-- R263. C_ref. Reset 0. -/
  cref : Int := 0
  /-- R263. Boundaries in succession with the error above FE_LIMIT. Reset 0. -/
  feN : Nat := 0
  /-- R401. Boundaries in succession with the error within FE_LIMIT, limited to 4. Reset 0. -/
  feOk : Nat := 0
  /-- R243, R263. Resynchronisation waits for 1 ms without an encoder edge. Reset: none due. -/
  resync : Bool := false
  /-- R260. Homing state. Reset: not homing. -/
  home : Option Homing := none
  /-- R242. Instants of the raw edges of the home switch in the chatter window. Reset: none. -/
  raws : List Nat := []
  deriving DecidableEq, Repr, Inhabited

/-- The positions at a switch's latest raw edge (R241): the feed's, 1/65,536 quarter-count, and the axes', 1/65,536
step. -/
structure SwLatch where
  feed : Int := 0
  axes : List Int := []
  /-- Instant of the raw edge. -/
  t : Nat := 0
  /-- The feed encoder has shown no edge since. -/
  due : Bool := false
  deriving DecidableEq, Repr, Inhabited

/-- The motion block (R235 to R267). -/
structure Motion where
  /-- R235. The twelve axes. -/
  axes : List Axis := List.replicate 12 {}
  /-- R244. The four groups. -/
  groups : List Group := List.replicate 4 {}
  /-- R238. Encoder counts, 48-bit signed. Reset 0. -/
  enc : List Int := List.replicate 6 0
  /-- R240. Counts at the last Z edge. Reset 0. -/
  encZ : List Int := List.replicate 6 0
  /-- R238. Accepted levels of ENCe_A and ENCe_B. The spec gives none at reset: low (log 157). -/
  encAB : List (Bool × Bool) := List.replicate 6 (false, false)
  /-- R241. What each switch's latest raw edge latched. Reset 0. -/
  sw : List SwLatch := List.replicate 18 {}
  deriving DecidableEq, Repr

/-- The Cox (R274 to R285). -/
structure Cox where
  /-- R276. STATE. Reset OFF. -/
  st : Nat := 0
  /-- R276. STOP. Reset 0. -/
  stop : Nat := 0
  /-- R274. Releases in the last COX_TAU: (instant in CLK_PIX cycles, bytes), newest first. Reset: none. -/
  rel : List (Nat × Nat) := []
  /-- R302. COX_DRAIN, bytes/s. Reset 0. -/
  drain : Nat := 0
  deriving DecidableEq, Repr

/-- The Clasp (R287 to R299). -/
structure Clasp where
  /-- R303. CLS_STAT.STEP. Reset 0. -/
  step : Nat := 0
  /-- R287. Ring of the last strokes ingested, newest last, at most 64 and the tail strokes of a hold whose reference set is
  not yet fixed. Reset: none. -/
  ring : List Ing := []
  /-- R287. The reference set. Reset: none. -/
  refs : List Ing := []
  /-- R287. The reference set is fixed for this hold. Reset: no. -/
  fixed : Bool := false
  /-- R287. STROKE_NO at k_r. Reset 0. -/
  refLast : Nat := 0
  /-- R288. k_b. Reset 0. -/
  kb : Int := 0
  /-- R291. Staged strokes, oldest first, at most 256. Reset: none. -/
  staging : List Ing := []
  /-- R291, R303. Band strokes captured, at most 64. Reset 0. -/
  band : Nat := 0
  /-- R287. STROKE_NO of the last stroke framed before the hold. Reset 0. -/
  holdNo : Nat := 0
  /-- R294. c_f, 1/16 stroke. Reset 0. -/
  cf : Int := 0
  /-- R294. c_l, pixels. Reset 0. -/
  cl : Int := 0
  /-- R298. Union of the hold causes of this hold. Reset 0. -/
  causes : Nat := 0
  /-- R287. A stroke was discarded in this hold; the break point lies before it. Reset: none. -/
  breakAt : Option Nat := none
  /-- R391. The reference ring holds a poisoned word. Reset: no. -/
  poisoned : Bool := false
  deriving DecidableEq, Repr

/-- A pending calibration result, or a record of the store (R324, R327). `body` is what it restores. -/
structure CalRec where
  kind  : Nat
  unit  : Nat
  epoch : Word
  temp  : Nat
  time  : Nat
  body  : List Nat
  cells : List Host.Cell    -- SHADING: the map set's bytes that are not 0
  deriving DecidableEq, Repr, Inhabited

/-- A commanded run under way (R318). -/
structure CalRun where
  kind    : Nat
  unit    : Nat
  stage   : Nat             -- SHADING: 0 dark, 1 settling, 2 white; others 0
  strokes : Nat             -- strokes captured in the stage
  fromIdle : Bool
  lampT   : Option Int      -- LAMPT at the first white stroke
  lampT1  : Option Int      -- LAMPT at the last white stroke
  mon     : List Nat        -- MONF of the sixteen chains at the last white stroke, 0 outside the phase
  buf     : List PxOut      -- captured strokes
  catches : Nat             -- Catches of the run
  t0      : Nat             -- instant of the first, CLK_PIX cycles
  t1      : Nat             -- instant of the last
  left    : List Nat        -- units still to finish (ADC_CORE, AFE_OFFSET)
  epoch   : Word := 0       -- the highest epoch of the results so far (R318)
  deriving DecidableEq, Repr, Inhabited

/-- An AFE_OFFSET run of a quadrant (R312): the strokes measured, and the sum and number of the codes of each tap and gain
set. -/
structure AfeRun where
  quad    : Nat
  strokes : Nat := 0
  sums    : List (Nat × Nat × Nat × Nat) := []
  deriving DecidableEq, Repr, Inhabited

/-- What the header of a result's record says of the result (R327): its epoch, the temperature of its unit and the time
counter when it was made. -/
structure CalHead where
  epoch : Word
  temp  : Nat
  time  : Nat
  deriving DecidableEq, Repr, Inhabited

/-- A sector of the calibration region (R327, R405). -/
structure Sector where
  /-- R405. Erase count. Reset 0. -/
  erases : Nat := 0
  /-- R405. Sequence number in the ring, from 1. Reset 0: erased. -/
  seq : Nat := 0
  /-- R405. Its header has been written since it was erased. Reset: no. -/
  used : Bool := false
  /-- R327. Bytes of records written to it. Reset 0. -/
  fill : Nat := 0
  /-- R405. Writes that failed, limited to 2. Reset 0. -/
  fails : Nat := 0
  /-- R405. Retired. Reset: no. -/
  bad : Bool := false
  deriving DecidableEq, Repr, Inhabited

/-- The calibration region of the flash (R327, R405): 64 sectors. -/
structure Flash where
  /-- R327. The sectors. Reset: all erased (DESIGN CHOICE, log 10). -/
  sects : List Sector := List.replicate 64 {}
  /-- R327. The sector that records are appended to. Reset 0. -/
  head : Nat := 0
  /-- R405. The sequence number given last. Reset 0. -/
  ring : Nat := 0
  /-- R327. The sectors that hold each record of the store, in the store's order. Reset: none. -/
  place : List (List Nat) := []
  deriving DecidableEq, Repr

/-- A correction that waits to come into force (R308, R309). -/
structure HeldCorr where
  kind  : Nat              -- 0: image words of a COMMIT
  unit  : Nat              -- of a COMMIT's image words: the number of the group
  epoch : Word
  k0    : Option Int       -- k0 of the next page to open, where it is known
  vals  : List (Nat × Word)  -- words it writes
  heads : List (Nat × CalHead) -- R327: results that come into force with it, keyed kind × 65,536 + unit
  deriving DecidableEq, Repr, Inhabited

/-- Calibration (R304 to R329). -/
structure Cal where
  /-- R318. The commanded run. Reset: none. -/
  run : Option CalRun := none
  /-- R324. Pending results, newest last, at most 8. Reset: none. -/
  pend : List CalRec := []
  /-- R308. Corrections waiting to come into force. Reset: none. -/
  held : List HeldCorr := []
  /-- R308. Corrections due at the next Catch. Reset: none. -/
  due : List HeldCorr := []
  /-- R327. The calibration store, newest last. Reset: empty (DESIGN CHOICE, log 10). -/
  store : List CalRec := []
  /-- R328. Records still to write, for CAL_STORE or without being asked. Reset: none. -/
  writes : List CalRec := []
  /-- R328. The record at the head of `writes` has failed once. Reset: no. -/
  retry : Bool := false
  /-- R328. A record of the store operation under way was lost. Reset: no. -/
  lost : Bool := false
  /-- R313. AFE_OFFSET runs under way. Reset: none. -/
  afeRun : List AfeRun := []
  /-- R317. Monitor record of each map slot: (slot, 16 MONF values). Reset: none. -/
  monRec : List (Nat × List Nat) := []
  /-- R317. Slot selected for each phase at the last Catch: (phase, slot). Reset: none. -/
  sel : List (Nat × Nat) := []
  /-- R325. Conditions already requested: (kind, unit, reason). Reset: none. -/
  asked : List (Nat × Nat × Nat) := []
  /-- R325. Strokes in succession with SHADE_DRIFT, by phase. Reset: none. -/
  drift : List (Nat × Nat) := []
  /-- R306. First epoch of the next unreserved block. Reset 1. -/
  block : Nat := 1
  /-- R329. CAL_RESTORE under way: session, SEQ and the records. Reset: none. -/
  restore : List (Nat × Word × List CalRec) := []
  /-- R161. Map slots: VALID, CRC_FAIL as bit masks. Reset 0. -/
  valid : Nat := 0
  /-- R161. CRC_FAIL bits. Reset 0. -/
  crcFail : Nat := 0
  /-- R161. Slots whose tag block has been written and whose SET_CRC check is due. Reset 0. -/
  chk : Nat := 0
  /-- R313. Quadrants whose AFE_OFFSET run HOLD has interrupted. Reset: none. -/
  afeAgain : List Nat := []
  /-- R327, R328. Heads of the results in force, keyed kind × 65,536 + unit (LAMP_ABS and SHADING: the slot). Reset: none. -/
  heads : List (Nat × CalHead) := []
  /-- R327, R405. The calibration region. Reset: erased. -/
  flash : Flash := {}
  deriving DecidableEq, Repr

/-- DMA channel states (R358). -/
inductive DSt where
  | idle | fetch | waitReq | run | writeBack | halted | restart
  deriving DecidableEq, Repr, Inhabited

/-- One DMA channel (R336 to R351). -/
structure Chan where
  /-- R358. STATE. Reset IDLE. -/
  st : DSt := .idle
  /-- R336. Chain heads held behind the chain running, in order. Reset: none. -/
  q : List Nat := []
  /-- R338. The chain running: address of the next descriptor to fetch. Reset: none. -/
  next : Option Nat := none
  /-- R336. A chain is running. Reset: no. -/
  busy : Bool := false
  /-- R338. Descriptor under way: its address. Reset 0. -/
  desc : Nat := 0
  /-- R337. Words of the descriptor under way: its 64 bytes. Reset: none. -/
  img : List Byte := []
  /-- R339. Status already decided for it, before any data moves. Reset: none. -/
  early : Option Nat := none
  /-- R345. Pacing requests pending, at most 255. Reset 0. -/
  reqs : Nat := 0
  /-- R350. Latched address. Reset 0. -/
  errAddr : Nat := 0
  /-- R348. Data writes issued that have not arrived. Reset: none. -/
  flying : Bool := false
  /-- R348. Some of them go to the field SRAM window. Reset: no. -/
  flyWin : Bool := false
  /-- R344. The link or the field's power was lost while its window descriptor ran. Reset: no. -/
  cut : Bool := false
  deriving DecidableEq, Repr, Inhabited

/-- A FENCE not yet answered (R348). -/
structure FenceW where
  h    : Req
  mask : Nat
  deriving DecidableEq, Repr, Inhabited

/-- The DMA engine (R336 to R355). -/
structure Dma where
  /-- R336. The sixteen channels. -/
  ch : List Chan := List.replicate 16 {}
  /-- R348. FENCE requests waiting. Reset: none. -/
  fences : List FenceW := []
  /-- R357. Bytes written by host channels beyond the whole MiB that DMA_MIB_CNT counts. Reset 0. -/
  wrote : Nat := 0
  /-- R335. Poisoned 8-byte words of DRAM, by address. Reset: none. -/
  poison : List Nat := []
  deriving DecidableEq, Repr

/-- A reassembly (R368). -/
structure Reasm where
  key   : Nat
  parts : List (Nat × List Byte)
  total : Option Nat
  deriving DecidableEq, Repr, Inhabited

/-- A network port's state beyond its words (R361 to R364). -/
structure Port where
  /-- R363. Transmission stopped by PAUSE. Reset: no. -/
  paused : Bool := false
  /-- R363. Priorities stopped by PFC, bit mask. Reset 0. -/
  pfc : Nat := 0
  /-- R363. Priorities for which XOFF was sent, bit mask. Reset 0. -/
  xoff : Nat := 0
  /-- R363. The instant, CLK_PIX cycles, at which the quanta of the PAUSE end. Reset 0. -/
  pausedTill : Nat := 0
  /-- R363. The instants at which the quanta of stopped priorities end. Reset: none. -/
  pfcTill : List (Nat × Nat) := []
  /-- R363. Messages waiting behind a pause, oldest first. Reset: none. -/
  waitq : List (Nat × Out) := []
  /-- R362. Of STREAM and ROCE, ROCE was served last. Reset: no. -/
  roceLast : Bool := false
  /-- R367. Neighbours resolved, by IP address. Reset: none. -/
  neigh : List Nat := []
  deriving DecidableEq, Repr, Inhabited

/-- A queue pair beyond its words (R370 to R374). -/
structure Qp where
  /-- R385. STATE: 0 RESET, 1 RTS, 2 ERROR. Reset 0. -/
  st : Nat := 0
  /-- R385. CAUSE. Reset 0. -/
  cause : Nat := 0
  /-- R385. Resends of the current packet. Reset 0. -/
  resends : Nat := 0
  /-- R371. RKEY. Per session. -/
  rkey : Word := 0
  /-- R374. Send rate, Mb/s; 0: line rate. Reset: line rate. -/
  rate : Nat := 0
  /-- R374. Instants of the last CNP sent and the last halving, CLK_PIX cycles. Reset: none. -/
  cnpTx : Option Nat := none
  /-- R374. Instant of the last halving. Reset: none. -/
  cnpRx : Option Nat := none
  /-- R371. The PSN of the next packet sent. Reset 0. -/
  psn : Nat := 0
  /-- R371. The PSN expected of the client. Reset 0. -/
  epsn : Nat := 0
  /-- R373. The PSN of the first packet of the RDMA WRITE outstanding. Reset 0. -/
  base : Nat := 0
  /-- R373. Packets of the RDMA WRITE outstanding that are acknowledged. Reset 0. -/
  acked : Nat := 0
  /-- R385. Bytes written beyond the last whole MiB. Reset 0. -/
  txBytes : Nat := 0
  deriving DecidableEq, Repr, Inhabited

/-- The network ports (R359 to R374). -/
structure Net where
  /-- R359. ETH0, ETH1, SGMII. -/
  ports : List Port := [{}, {}, {}]
  /-- R370. Queue pairs by session. Reset: none. -/
  qps : List (Nat × Qp) := []
  /-- R368. Reassemblies under way, at most 32. Reset: none. -/
  reasm : List Reasm := []
  /-- R366. The network record: its words. Reset: no record (DESIGN CHOICE, log 10). -/
  record : Option (List (Nat × Word)) := none
  /-- R371. Keys generated so far. The MODEL's own counter. DESIGN CHOICE 0 (log 5). -/
  keys : Nat := 0
  deriving DecidableEq, Repr

/-- Time and PTP (R375 to R381). Counters are in 2⁻³² ns. -/
structure Tim where
  /-- R375. The time counter, 64.32. Reset 0. -/
  cnt : Nat := 0
  /-- R33. The field replica, 64.32. Reset 0. -/
  rep : Nat := 0
  /-- R33. The replica's increment. Reset: nominal. -/
  repIncr : Nat := 0x51EB851EC
  /-- R375. TIM_INCR. Reset 0x0000_0005_1EB8_51EC. -/
  incr : Nat := 0x51EB851EC
  /-- R377. Slew remainder, signed, 2⁻³² ns. Reset 0. -/
  slew : Int := 0
  /-- R386. SOURCE. Reset 0. -/
  src : Nat := 0
  /-- R386. PTP_STATE. Reset 0. -/
  ptp : Nat := 0
  /-- R381. SERVO_LOCK. Reset 0. -/
  lock : Bool := false
  /-- R381. Successive Syncs below the lock threshold, limited to 16. Reset 0. -/
  good : Nat := 0
  /-- R380. Pending receive timestamp of the last Sync: (seq, 2⁻³² ns). Reset: none. -/
  sync : Option (Nat × Int) := none
  /-- R380. Transmit timestamp of the last Delay_Req: (seq, 2⁻³² ns). Reset: none. -/
  dreq : Option (Nat × Int) := none
  /-- R379. Sequence numbers of sent Sync, Announce and Delay_Req. Reset 0. -/
  seqs : List Nat := [0, 0, 0]
  /-- R379. Best master seen: priority1, clockClass, accuracy, variance, priority2, identity, stepsRemoved. Reset: none. -/
  master : Option (List Nat) := none
  /-- R381. Last offset from Sync: t2 − t1, 2⁻³² ns. Reset 0. -/
  t21 : Int := 0
  /-- R381. Integral of the servo: rest of TIM_INCR. Reset 0. -/
  ki : Int := 0
  deriving DecidableEq, Repr

/-- What was seen of a fault at its detection, for an entry written later (R388, R411): the time counter, DEV_MODE, and
whether the promise held. -/
structure Sight where
  time    : Nat
  mode    : Nat
  promise : Bool
  deriving DecidableEq, Repr, Inhabited

/-- A fault-log entry (R411). `mode2` is MODES[3:0]. -/
structure FEntry where
  index : Nat
  cls   : Nat
  code  : Nat
  time  : Nat
  stroke : Nat
  mode1 : Nat
  mode2 : Nat
  action : Nat
  unit  : Nat
  flags : Nat              -- EFLAGS without CLEARED
  cleared : Bool
  hold  : Nat
  a     : Nat
  b     : Nat
  c     : Nat
  job   : Word
  deriving DecidableEq, Repr, Inhabited

/-- A recovery under way (R394). -/
structure Recov where
  level : Nat
  cls   : Nat
  code  : Nat
  unit  : Nat
  hold  : Bool             -- FAULT clears when it completes
  entry : Nat              -- index of its fault-log entry
  since : Nat              -- the instant of its start, CLK_PIX cycles
  deriving DecidableEq, Repr, Inhabited

/-- Faults and background work (R387 to R413). -/
structure Flt where
  /-- R410. The log, newest first, at most 4,096 entries. Reset: none. -/
  log : List FEntry := []
  /-- R414. Index of the next entry. Reset 1. -/
  next : Nat := 1
  /-- R410. Entries written to flash: highest index. Reset 0. -/
  flushed : Nat := 0
  /-- R410. Entries kept in flash, newest first, and the time last saved. Reset: none. -/
  flash : List FEntry := []
  /-- R410. Time counter last saved, ns. Reset 0. -/
  savedAt : Nat := 0
  /-- R394. Recoveries under way. Reset: none. -/
  recs : List Recov := []
  /-- R395. Completed recoveries: (class, code, unit, entry, time ns, level). Reset: none. -/
  hist : List (Nat × Nat × Nat × Nat × Nat × Nat) := []
  /-- R390. Last mismatch of each pair: (pair, time ns). Reset: none. -/
  lock : List (Nat × Nat) := []
  /-- R390. Checkpoints taken. Reset 0. -/
  ckpt : Nat := 0
  /-- R395. Time of the last completed level 3 restart, ns. Reset: none. -/
  l3 : Option Nat := none
  /-- R397. A level 3 restart is under way. Reset: no. -/
  l3run : Bool := false
  /-- R395. The restart under way ends in SAFE with cause RECOVERY. Reset: no. -/
  l3fail : Bool := false
  /-- R396. A level 2 restart is due once the feed is at rest; under way. Reset: no. -/
  l2due : Bool := false
  /-- R396. A level 2 restart is under way. Reset: no. -/
  l2run : Bool := false
  /-- R392. The field supervisor's record of a crystal failure. Reset: none. -/
  fieldRec : Option Sight := none
  /-- R401. FAULT_CLEAR's clear actions are under way. Reset: no. -/
  clearing : Bool := false
  /-- R401. The causes whose clear actions were started, by bit. Reset: none. -/
  acts : List Nat := []
  /-- R401. The chains whose confirmation has not found TRANSIENT yet. Reset: none. -/
  lampClr : List Nat := []
  /-- R38. Conditions that keep FAULT set, one bit each (Machine/Ops.lean). Reset 0. -/
  why : Nat := 0
  /-- R446. Rails or temperatures outside their recommended range: bit 0 field, bit 1 host. Reset 0. -/
  roc : Nat := 0
  /-- R405. Fewer than 16 usable sectors remain. Reset: no. -/
  flashLow : Bool := false
  /-- R391. Poisoned words of the field SRAM: the map slot (0 to 7) or defect bank (2 n + 8 + bank), and the word's offset.
  Reset: none. -/
  poison : List (Nat × Nat) := []
  deriving DecidableEq, Repr

/-- Power, resets and boot (R415 to R439). -/
structure Pwr where
  /-- R416. Host side valid. Reset: yes (the machine has just booted). -/
  hostOk : Bool := true
  /-- R416. Field side valid. Reset: no. -/
  fieldOk : Bool := false
  /-- R418. nRST_H high. Reset: yes. -/
  nrstH : Bool := true
  /-- R418. nRST_F high. DESIGN CHOICE high (log 11). -/
  nrstF : Bool := true
  /-- R456. Thermal trips: host, field. Reset: none. -/
  tripH : Bool := false
  /-- R456. Field trip. Reset: none. -/
  tripF : Bool := false
  /-- R419. PG_H drives high. Reset: yes. -/
  pgH : Bool := true
  /-- R419. PG_F drives high. Reset: no. -/
  pgF : Bool := false
  /-- R460. STANDBY was entered by MODE_SET. Reset: no. -/
  modeHeld : Bool := false
  /-- R422. GRID_LOST. Reset 0. -/
  gridLost : Bool := false
  /-- R428. FBUS_VALID. Reset 0. -/
  fbusValid : Bool := false
  /-- R427. A dip is in force. Reset: no. -/
  dip : Bool := false
  /-- R429. SUPPLY set by a mains dip. Reset: no. -/
  acDip : Bool := false
  /-- R427. FBUS code of the dip under way. Reset 0. -/
  dipCode : Nat := 0
  /-- R388, R411. What was seen when the dip was detected. Reset: none. -/
  dipSeen : Option Sight := none
  /-- R439. Lowest FBUS_SENSE code since the last read. Reset: no sample since (reads 0). -/
  fbusMin : Option Nat := none
  /-- R439. Latest FBUS_SENSE code. Reset 0. -/
  fbus : Nat := 0
  /-- R435. Instant of t0, CLK_PIX cycles. Reset 0. -/
  t0 : Nat := 0
  /-- R439. The first IDLE or HOLD since power-up has been reached. Reset: no. -/
  started : Bool := false
  /-- R435. WAKE steps retried. Reset 0. -/
  wakeRetry : Nat := 0
  /-- R434. Every image has been refused; the boot waits for its retry. Reset: no. -/
  refused : Bool := false
  /-- R420. DRAM in self-refresh. Reset: no. -/
  selfRefresh : Bool := false
  /-- R420. The restart under way is a cold start. Reset: no. -/
  cold : Bool := false
  /-- R65. Firmware update open: (session, IMAGE_LEN). Reset: none. -/
  fw : Option (Nat × Nat) := none
  /-- R65. Bytes of the image written so far, by offset. Reset: none. -/
  fwImg : List Host.Cell := []
  /-- R65. FW_COMMIT under way. Reset: no. -/
  fwBusy : Bool := false
  /-- R433. The images committed to slots A and B. DESIGN CHOICE none known: as shipped (log 10). -/
  imgs : List (List Byte) := [[], []]
  /-- R434. The minimum security version in one-time-programmable memory. DESIGN CHOICE 0 (log 10). -/
  minVer : Nat := 0
  /-- R434. Slot last committed: 0 A, 1 B. DESIGN CHOICE A (log 10). -/
  slot : Nat := 0
  /-- R243. Positions take their value at the next WAKE: power-up or cold start. Reset: yes. -/
  posFresh : Bool := true
  deriving DecidableEq, Repr

/-- The device: everything but the queue of waiting commands and the shared region of DRAM. -/
structure Dev where
  /-- R30. Time since reset, CLK_PIX cycles of 1.28 ns. The MODEL's own clock, DESIGN CHOICE 0 (log 2). -/
  now : Nat := 0
  /-- The MODEL's own counter of free values taken, DESIGN CHOICE 0 (log 1). -/
  frees : Nat := 0
  /-- R45. DEV_MODE.MODE. Reset STANDBY (0x2). -/
  mode : Mode := .standby
  /-- R45. DEV_MODE.PREV. Reset RESET (0x1). -/
  prev : Mode := .reset
  /-- R45. DEV_MODE.TRANS_CNT. Reset 1. -/
  trans : Nat := 1
  /-- R38, R45. DEV_HOLD_CAUSE: bit 0 HOST, 1 PACE, 2 SUPPLY, 3 LINK, 4 FAULT, 5 STROKE_TMO. Reset 0. -/
  hold : Nat := 0
  /-- R68. The parameter words. -/
  regs : Regs := {}
  /-- R53. Open sessions, keyed by number 1 to 64. Reset: none. -/
  sess : List (Nat × Session) := []
  /-- The MODEL's own count of sessions opened, which the first event SEQ of a session depends on. DESIGN CHOICE 0 (log 5). -/
  opens : Nat := 0
  /-- R42, R58. Jobs that capture or still have pages to deliver. Reset: none. -/
  jobs : List Job := []
  /-- R461. Long operations under way. Reset: none. -/
  ops : List LongOp := []
  bzl : Bezel := {}
  seq : Seq := {}
  afe : Afe := {}
  monA : Mon := {}
  monB : Mon := {}
  /-- R156. Clamp level F by head × 4 + line, and whether it is set. Reset: none. -/
  clamp : List (Nat × Int) := []
  pages : Pages := {}
  lamp : Lamp := {}
  mot : Motion := {}
  cox : Cox := {}
  cls : Clasp := {}
  cal : Cal := {}
  dma : Dma := {}
  net : Net := {}
  tim : Tim := {}
  flt : Flt := {}
  pwr : Pwr := {}
  /-- R160, R333. Field SRAM: bytes that differ from 0, by offset. DESIGN CHOICE 0 (log 3). -/
  fsram : List Host.Cell := []
  /-- The MODEL's own record of everything sent and driven, newest first. DESIGN CHOICE empty (log 4). -/
  tx : List Out := []
  /-- R362. The MODEL's own record of the headers of the network frames sent, newest first. DESIGN CHOICE empty (log 4). -/
  txHeads : List FrameHead := []
  deriving DecidableEq, Repr

/-- The machine. -/
structure State where
  /-- The commands that wait, first in first out. Reset: none. -/
  pending : List Instr := []
  /-- R333. The shared region of DRAM and the host's view of DRAM: bytes that differ from 0, by address, in rising
  order. DESIGN CHOICE 0 (log 3). -/
  mem : List Host.Cell := []
  d : Dev := {}
  deriving DecidableEq, Repr

/-- The ways a step can stop with a fault: none. Every command of the block has an effect the spec gives. -/
inductive Fault where
  /-- Raised by nothing in this model: every meaning answers a next state, so nothing stops unsafely either. Safe. -/
  | neverRaised
  deriving DecidableEq, Repr

/-- The ways a command can be refused. -/
inductive Refusal where
  /-- Raised by an arm of `exec` whose meaning is not written yet. Safe: the machine stops. -/
  | notModelled (mnemonic : String)
  deriving DecidableEq, Repr

/-- The machine after a host cold start has left RESET (R10, R45): STANDBY, entered from RESET as the first mode
change, with no session, no job and no field side. -/
def State.reset : State := {}

end Sys2Proof.Machine
end

