-- ==== Sys2Proof/Machine/Operands.lean ====
section
/-! DEFINITION. Bit fields, signed fields, big-endian bytes, the rounding divisions and shifts of the manual, the
CRC-32C of R49, SHA-256 and HMAC (R64, R197), an integer square root, and the sorted lists that hold words and bytes. -/

namespace Sys2Proof.Machine

open Sys2Proof

/-- The field of bits `hi` to `lo` of a word. -/
def fld (w : Word) (hi lo : Nat) : Nat := w.toNat / 2 ^ lo % 2 ^ (hi + 1 - lo)

/-- Bit `i` of a natural number. -/
def bit (n i : Nat) : Bool := n / 2 ^ i % 2 == 1

/-- `n` with bit `i` set. -/
def setBit (n i : Nat) : Nat := if bit n i then n else n + 2 ^ i

/-- `n` with bit `i` clear. -/
def clrBit (n i : Nat) : Nat := if bit n i then n - 2 ^ i else n

/-- The low `w` bits of `n` as a two's-complement number. -/
def sext (w n : Nat) : Int :=
  let m := n % 2 ^ w
  if m < 2 ^ (w - 1) then (m : Int) else (m : Int) - 2 ^ w

/-- A signed number as its low `w` bits. -/
def twos (w : Nat) (i : Int) : Nat := (i % (2 ^ w : Int)).toNat

/-- A Boolean as a number. -/
def b2n (b : Bool) : Nat := if b then 1 else 0

/-- The numbers below `n` whose bit is set. -/
def bitsOf (n width : Nat) : List Nat := (List.range width).filter (bit n)

/-- The sum of a list. -/
def sumN (l : List Nat) : Nat := l.foldl (· + ·) 0

/-- The sum of a list of integers. -/
def sumI (l : List Int) : Int := l.foldl (· + ·) 0

/-- How many bits of `n` below `width` are set. -/
def popc (n width : Nat) : Nat := (bitsOf n width).length

/-- The largest of a list, 0 where it is empty. -/
def maxN (l : List Nat) : Nat := l.foldl max 0

/-- Division rounding up. -/
def ceilDiv (a b : Nat) : Nat := (a + b - 1) / b

/-- Limit to a range. -/
def clampI (lo hi x : Int) : Int := if x < lo then lo else if hi < x then hi else x

/-- (v + 2^(n−1)) >> n, the rounding shift of R150; v for n = 0. -/
def rsh (v : Int) (n : Nat) : Int := if n = 0 then v else (v + 2 ^ (n - 1)) / (2 ^ n : Int)

/-- n / k rounded to nearest, halves up. -/
def roundDiv (n : Int) (k : Nat) : Int := (2 * n + k) / (2 * (max 1 k) : Int)

/-- `n` as `k` big-endian bytes (R49). -/
def be : Nat → Nat → List Byte
  | 0, _ => []
  | k + 1, n => be k (n / 256) ++ [BitVec.ofNat 8 n]

/-- Big-endian bytes as a number. -/
def ofBe (l : List Byte) : Nat := l.foldl (fun a b => a * 256 + b.toNat) 0

/-- A word's four bytes, big-endian. -/
def beW (w : Word) : List Byte := be 4 w.toNat

/-- The bytes `i` to `i + n − 1` of a list, zero where it is shorter. -/
def slice (l : List Byte) (i n : Nat) : List Byte :=
  let s := (l.drop i).take n
  s ++ List.replicate (n - s.length) 0

/-- The big-endian number in bytes `i` to `i + n − 1`. -/
def getBe (l : List Byte) (i n : Nat) : Nat := ofBe (slice l i n)

/-- Element `i` of a list, the default where there is none. -/
def nth {α : Type} [Inhabited α] (l : List α) (i : Nat) : α := l.getD i default

/-- The list with element `i` changed by `f`. -/
def modNth {α : Type} (l : List α) (i : Nat) (f : α → α) : List α := l.modify i f

/-- One bit step of the reflected CRC-32C. -/
def crcBit (c : BitVec 32) : BitVec 32 := if c.getLsbD 0 then (c >>> 1) ^^^ 0x82F63B78#32 else c >>> 1

/-- One byte step of the reflected CRC-32C. -/
def crcByte (c : BitVec 32) (b : Byte) : BitVec 32 :=
  crcBit (crcBit (crcBit (crcBit (crcBit (crcBit (crcBit (crcBit (c ^^^ b.setWidth 32))))))))

/-- The CRC-32C of R49: polynomial 0x1EDC6F41 reflected, initial value and final XOR 0xFFFFFFFF. -/
def crc32c (l : List Byte) : Word := (l.foldl crcByte 0xFFFFFFFF#32) ^^^ 0xFFFFFFFF#32

/-- The integer `k`-th root of `x`, one bit at a time from bit `n` down, above `r`. -/
def irootFrom (k x : Nat) : Nat → Nat → Nat
  | 0, r => if (r + 1) ^ k ≤ x then r + 1 else r
  | n + 1, r => irootFrom k x n (if (r + 2 ^ (n + 1)) ^ k ≤ x then r + 2 ^ (n + 1) else r)

/-- The integer square root, for numbers below 2^256. -/
def isqrt (x : Nat) : Nat := irootFrom 2 x 128 0

/-- The primes up to 311, the 64 that SHA-256 (R64, R197) takes its constants from. -/
def shaPrimes : List Nat :=
  (List.range 312).filter fun p => decide (2 ≤ p) && (List.range 18).all fun q => q < 2 || p ≤ q || p % q != 0

/-- The first 32 fractional bits of a prime's `k`-th root: the square roots begin the hash, the cube roots are the round
constants. -/
def shaConst (k p : Nat) : Word := BitVec.ofNat 32 (irootFrom k (p * 2 ^ (32 * k)) 36 0)

/-- The hash before the first block. -/
def shaInit : List Word := (shaPrimes.take 8).map (shaConst 2)

/-- The constants of the 64 rounds. -/
def shaRoundConsts : List Word := shaPrimes.map (shaConst 3)

/-- The exclusive or of rotations of a word. -/
def rotXor (x : Word) (rs : List Nat) : Word := rs.foldl (fun a r => a ^^^ x.rotateRight r) 0

/-- What a round of SHA-256 works on. Each round makes one new `a` and one new `e`, and the words the standard calls b, c, d
and f, g, h are the three before them. -/
structure ShaRun where
  /-- The latest four `a`, newest first. -/
  as : List Word
  /-- The latest four `e`, newest first. -/
  es : List Word
  /-- The sixteen words of the schedule from this round's on. -/
  ws : List Word

/-- A round: the schedule goes one word on, and `a` and `e` with it. -/
def ShaRun.round (x : ShaRun) (k : Word) : ShaRun :=
  let a := fun i => nth x.as i
  let e := fun i => nth x.es i
  let w := fun i => nth x.ws i
  let mix := nth x.es 3 + rotXor (e 0) [6, 11, 25] + (e 2 ^^^ (e 0 &&& (e 1 ^^^ e 2))) + k + w 0
  let maj := (a 0 &&& (a 1 ||| a 2)) ||| (a 1 &&& a 2)
  let next := w 0 + (rotXor (w 1) [7, 18] ^^^ w 1 >>> 3) + w 9 + (rotXor (w 14) [17, 19] ^^^ w 14 >>> 10)
  { as := (mix + rotXor (a 0) [2, 13, 22] + maj) :: x.as.take 3
    es := (a 3 + mix) :: x.es.take 3
    ws := x.ws.drop 1 ++ [next] }

/-- The hash after the block at `i` of a padded message. -/
def shaBlock (p : List Byte) (hash : List Word) (i : Nat) : List Word :=
  let ws := (List.range 16).map fun j => BitVec.ofNat 32 (getBe p (64 * i + 4 * j) 4)
  let x := shaRoundConsts.foldl ShaRun.round ⟨hash.take 4, hash.drop 4, ws⟩
  List.zipWith (· + ·) hash (x.as ++ x.es)

/-- SHA-256 of a message: a one bit and zeros up to 8 bytes short of a block, then the length in bits. -/
def sha256 (m : List Byte) : List Byte :=
  let zeros := 63 - (m.length + 8) % 64
  let p := m ++ 0x80 :: List.replicate zeros 0 ++ be 8 (8 * m.length)
  ((List.range (p.length / 64)).foldl (shaBlock p) shaInit).flatMap beW

/-- HMAC-SHA-256 (R64, R197). -/
def hmac (key m : List Byte) : List Byte :=
  let k := if key.length > 64 then sha256 key else key
  let k := k ++ List.replicate (64 - k.length) 0
  sha256 (k.map (· ^^^ 0x5c) ++ sha256 (k.map (· ^^^ 0x36) ++ m))

/-! Lists keyed by a number in rising order. -/

/-- The value at a key. -/
def aget {α : Type} : List (Nat × α) → Nat → Option α
  | [], _ => none
  | (k, v) :: l, a => if a = k then some v else aget l a

/-- The list with a key set. -/
def aset {α : Type} : List (Nat × α) → Nat → α → List (Nat × α)
  | [], a, v => [(a, v)]
  | (k, w) :: l, a, v =>
    if a = k then (a, v) :: l else if a < k then (a, v) :: (k, w) :: l else (k, w) :: aset l a v

/-- The list with a key removed. -/
def adel {α : Type} : List (Nat × α) → Nat → List (Nat × α)
  | [], _ => []
  | (k, w) :: l, a => if a = k then adel l a else (k, w) :: adel l a

/-- The list with the value at a key changed by `f`; unchanged where the key is absent. -/
def amod {α : Type} (l : List (Nat × α)) (a : Nat) (f : α → α) : List (Nat × α) :=
  l.map (fun p => if p.1 = a then (p.1, f p.2) else p)

/-- Keys rise strictly. -/
def asorted {α : Type} : List (Nat × α) → Bool
  | [] => true
  | (k, _) :: l => l.all (fun p => decide (k < p.1)) && asorted l

/-- A byte of a memory; a byte not listed reads 0 (log 3). -/
def mget (m : List Host.Cell) (a : Nat) : Byte := (aget m a).getD 0

/-- Write one byte: 0 removes its entry. -/
def mset (m : List Host.Cell) (a : Nat) (b : Byte) : List Host.Cell := if b = 0 then adel m a else aset m a b

/-- `n` bytes from `a`. -/
def mread (m : List Host.Cell) (a n : Nat) : List Byte := (List.range n).map (fun i => mget m (a + i))

/-- Write bytes from `a`. -/
def mwrite (m : List Host.Cell) (a : Nat) : List Byte → List Host.Cell
  | [] => m
  | b :: bs => mwrite (mset m a b) (a + 1) bs

/-- A memory in canonical form: addresses rise strictly and no entry is 0. -/
def Memory.wf (m : List Host.Cell) : Bool := asorted m && m.all (fun c => c.2 != 0)

end Sys2Proof.Machine
end

