-- ==== Sys2Proof/Machine/Flags.lean ====
section
/-! DEFINITION. Codes and flags: mode codes (R37), status codes (R67), event codes (R78), opcodes (R62), fault
classes (R412), hold causes (R45), conditions behind FAULT, and the flag bits of trailers and manifests. -/

namespace Sys2Proof.Machine

open Sys2Proof

/-- The mode codes of R37. -/
def Mode.code : Mode → Nat
  | .off => 0 | .reset => 1 | .standby => 2 | .wake => 3 | .idle => 4 | .homing => 5 | .scan => 6 | .hold => 7
  | .splice => 8 | .calibrate => 9 | .service => 10 | .safe => 11

/-! Status codes (R67). -/
abbrev stOk : Nat := 0
abbrev stAccepted : Nat := 1
abbrev stBusy : Nat := 0x100
abbrev stNoSlot : Nat := 0x101
abbrev stQueueFull : Nat := 0x102
abbrev stBadOpcode : Nat := 0x200
abbrev stBadParam : Nat := 0x201
abbrev stBadState : Nat := 0x202
abbrev stBadAddress : Nat := 0x203
abbrev stReadOnly : Nat := 0x204
abbrev stOverlap : Nat := 0x205
abbrev stZero : Nat := 0x206
abbrev stFault : Nat := 0x300
abbrev stTimeout : Nat := 0x301
abbrev stNotProvisioned : Nat := 0x302
/-- No status: the reply comes later (R348). -/
abbrev stLater : Nat := 0x10000

/-! Hold causes (R45): bit numbers of DEV_HOLD_CAUSE. -/
abbrev hcHost : Nat := 0
abbrev hcPace : Nat := 1
abbrev hcSupply : Nat := 2
abbrev hcLink : Nat := 3
abbrev hcFault : Nat := 4
abbrev hcStroke : Nat := 5

/-! Conditions that keep the FAULT hold cause set, each cleared by its own rule. -/
abbrev whyLane : Nat := 0       -- R105
abbrev whyCore : Nat := 1       -- R130
abbrev whyBlack : Nat := 2      -- R131
abbrev whyVref : Nat := 3       -- R134
abbrev whyDiscard : Nat := 4    -- R181
abbrev whyLamp : Nat := 5       -- R222
abbrev whyEnc : Nat := 6        -- R239
abbrev whyFollow : Nat := 7     -- R264
abbrev whyStepWd : Nat := 8     -- R265
abbrev whyOver : Nat := 9       -- R92
abbrev whyPipe : Nat := 10      -- R389
abbrev whyPll : Nat := 11       -- R392
abbrev whyL2 : Nat := 12        -- R396
abbrev whySafe : Nat := 13      -- R399
abbrev whyMap : Nat := 14       -- R391
abbrev whyL1 : Nat := 15        -- R394

/-! SAFE causes (R401). -/
abbrev scLamp : Nat := 0
abbrev scFeedLimit : Nat := 1
abbrev scMotion : Nat := 2
abbrev scNoSpare : Nat := 3
abbrev scBlack : Nat := 4
abbrev scMap : Nat := 5
abbrev scWake : Nat := 6
abbrev scRecovery : Nat := 7
abbrev scCores : Nat := 8

/-- The opcode that starts a long operation (R62). -/
def Op.opcode : Op → Nat
  | .modeSet _ => 0x20 | .scanStart => 0x30 | .scanStop => 0x31 | .scanHold => 0x32 | .scanResume => 0x33
  | .jobAbort => 0x34 | .home => 0x42 | .calRun => 0x60 | .calStore => 0x62 | .calRestore => 0x63
  | .lampTest _ => 0x51 | .fwCommit => 0xC2 | .faultClear => 0xF1

/-- Whether the operation is one of a job, whose completion the owner hears of too (R61). -/
def Op.ofJob : Op → Bool
  | .scanStart | .scanStop | .scanHold | .scanResume | .jobAbort => true
  | _ => false

/-- The opcodes of R62. -/
def opcodes : List Nat :=
  [0x1, 0x2, 0x3, 0x4, 0x10, 0x11, 0x13, 0x14, 0x20, 0x21, 0x30, 0x31, 0x32, 0x33, 0x34, 0x40, 0x41, 0x42, 0x43, 0x44,
   0x50, 0x51, 0x60, 0x61, 0x62, 0x63, 0x70, 0x80, 0x81, 0x90, 0x91, 0xA0, 0xB0, 0xC0, 0xC1, 0xC2, 0xF0, 0xF1]

/-- Whether a payload length is one the opcode's layout allows (R62). MOVE_QUEUE's length depends on its mask (R63)
and is checked there. -/
def lenOk (op n : Nat) : Bool :=
  match op with
  | 0x1 => decide (n ≤ 64)
  | 0x2 => n == 16 | 0x10 => n == 8 | 0x11 => decide (8 ≤ n ∧ n ≤ 8192) | 0x20 => n == 4 | 0x30 => n == 16
  | 0x40 => decide (24 ≤ n ∧ n ≤ 120 ∧ n % 8 = 0) | 0x41 => n == 20 | 0x42 => n == 4 | 0x43 => n == 4 | 0x44 => n == 4
  | 0x50 => n == 8 | 0x51 => n == 4 | 0x60 => n == 4 | 0x61 => n == 8 | 0x62 => n == 4 | 0x63 => n == 8
  | 0x70 => n == 4 | 0x80 => n == 12 | 0x81 => n == 4 | 0x90 => n == 12 | 0x91 => n == 16 | 0xA0 => n == 8
  | 0xB0 => n == 36 | 0xC0 => n == 8 | 0xC1 => decide (5 ≤ n ∧ n ≤ 8192) | 0xF0 => n == 8 | 0xF1 => n == 4
  | _ => n == 0

/-- The FLAGS of a trailer that F10 forms (R171): OVR, SUSPECT, SHADE_DRIFT, OVERSPEED, SPARE_ACTIVE, LAMP_DIAG,
PACED, COMPAT. -/
def trailerFlags (ovr susp drift late spare diag paced compat : Bool) : Nat :=
  b2n ovr + 2 * b2n susp + 4 * b2n drift + 64 * b2n late + 128 * b2n spare + 256 * b2n diag + 512 * b2n paced +
    1024 * b2n compat

end Sys2Proof.Machine
end

