-- ==== Sys2Proof/Machine/RegMap.lean ====
section
/-! DEFINITION. The parameter map (R68): the address of every register of the sixteen pages, and one row for each
with its access code (R9), its reset value (R10), and its fields with their ranges, as the register tables of the
chapters give them: R4 R45 R46 R83 R111 R112 R113 R120 R146 R147 R148 R177 R178 R179 R206 R207 R232 R233 R234 R270
R271 R272 R273 R302 R303 R331 R332 R357 R358 R383 R384 R385 R386 R414 R439. -/

namespace Sys2Proof

/-! Addresses. A name with parameters is an array: its parameters are the indices, outermost first. -/
namespace Reg

abbrev DEV_COMPAT : Nat := 0x20
abbrev DEV_ID : Nat := 0x0
abbrev DEV_REV : Nat := 0x4
abbrev DEV_UID_LO : Nat := 0x8
abbrev DEV_UID_HI : Nat := 0xc
abbrev DEV_MODE : Nat := 0x10
abbrev DEV_HOLD_CAUSE : Nat := 0x14
abbrev DEV_CTRL : Nat := 0x18
abbrev DEV_CLK_STAT : Nat := 0x1c
abbrev PWR_BZL_STAT : Nat := 0xf0100
abbrev PWR_BZL_F2H_MAP : Nat := 0xf0104
abbrev PWR_BZL_H2F_MAP : Nat := 0xf0108
abbrev PWR_BZL_FRAME_TMO : Nat := 0xf010c
abbrev PWR_BZL_DEG_N : Nat := 0xf0110
abbrev PWR_BZL_DISCARD_CNT : Nat := 0xf0114
abbrev PWR_BZL_REPLAY_CNT : Nat := 0xf0118
abbrev PWR_BZL_SPARE_CNT : Nat := 0xf011c
abbrev NET_SKM_PORTS : Nat := 0xc0400
abbrev NET_SKM_KA_TMO : Nat := 0xc0404
abbrev NET_SKM_REPLY_TMO : Nat := 0xc0408
abbrev NET_SKM_EVT_RETRY : Nat := 0xc040c
abbrev NET_SKM_SESS_CNT : Nat := 0xc0410
abbrev NET_SKM_SESS_MAP_LO : Nat := 0xc0414
abbrev NET_SKM_SESS_MAP_HI : Nat := 0xc0418
abbrev NET_SKM_RX_CNT : Nat := 0xc041c
abbrev NET_SKM_CRC_DROP_CNT : Nat := 0xc0420
abbrev NET_SKM_LEN_DROP_CNT : Nat := 0xc0424
abbrev NET_SKM_ADDR_DROP_CNT : Nat := 0xc0428
abbrev NET_SKM_ERR_CNT : Nat := 0xc042c
abbrev NET_SKM_DUP_CNT : Nat := 0xc0430
abbrev NET_SKM_SLOT_REFUSE_CNT : Nat := 0xc0434
abbrev NET_SKM_EXPIRE_CNT : Nat := 0xc0438
abbrev NET_SKM_EVT_LOST_CNT : Nat := 0xc043c
abbrev SEQ_CTRL : Nat := 0x10000
abbrev SEQ_DIV_INT : Nat := 0x10004
abbrev SEQ_DIV_FRAC : Nat := 0x10008
abbrev SEQ_MIN_INTERVAL : Nat := 0x1000c
abbrev SEQ_TIMER_PERIOD : Nat := 0x10010
abbrev SEQ_STROKE_TMO : Nat := 0x10014
abbrev SEQ_ENC_HYST : Nat := 0x10018
abbrev SEQ_TEST : Nat := 0x1001c
abbrev SEQ_STAT : Nat := 0x10020
abbrev SEQ_GRID_LO : Nat := 0x10024
abbrev SEQ_GRID_HI : Nat := 0x10028
abbrev SEQ_STROKE_NO_LO : Nat := 0x1002c
abbrev SEQ_STROKE_NO_HI : Nat := 0x10030
abbrev SEQ_CATCH_CNT : Nat := 0x10034
abbrev SEQ_OVERSPEED_CNT : Nat := 0x10038
abbrev SEQ_REVERSE_CNT : Nat := 0x1003c
abbrev SEQ_LANE_ERR_CNT : Nat := 0x10040
abbrev SEQ_WITHHELD_CNT : Nat := 0x10044
abbrev SEQ_WDOG_CNT : Nat := 0x10048
abbrev SEQ_LANE_STAT (i : Nat) : Nat := 0x10080 + 0x4 * i
abbrev SEQ_H_CTRL (i : Nat) : Nat := 0x10100 + 0x40 * i
abbrev SEQ_H_INT (i j : Nat) : Nat := 0x10104 + 0x40 * i + 0x4 * j
abbrev SEQ_H_OFS (i j : Nat) : Nat := 0x10110 + 0x40 * i + 0x4 * j
abbrev SEQ_H_RAW (i : Nat) : Nat := 0x1011c + 0x40 * i
abbrev SEQ_H_OB (i : Nat) : Nat := 0x10120 + 0x40 * i
abbrev SEQ_H_OVL (i : Nat) : Nat := 0x10124 + 0x40 * i
abbrev SEQ_H_DUMMY (i : Nat) : Nat := 0x10128 + 0x40 * i
abbrev SEQ_H_OUTCFG (i : Nat) : Nat := 0x1012c + 0x40 * i
abbrev SEQ_H_LANES (i : Nat) : Nat := 0x10130 + 0x40 * i
abbrev SEQ_H_LANEWORDS (i : Nat) : Nat := 0x10134 + 0x40 * i
abbrev SEQ_H_SYNC (i : Nat) : Nat := 0x10138 + 0x40 * i
abbrev SEQ_H_STAT (i : Nat) : Nat := 0x1013c + 0x40 * i
abbrev SEQ_H_WAVE (i j : Nat) : Nat := 0x11000 + 0x200 * i + 0x4 * j
abbrev AFE_REF_CTRL : Nat := 0x20000
abbrev AFE_ROT_CTRL : Nat := 0x20004
abbrev AFE_ROT_STAT : Nat := 0x20008
abbrev AFE_BLK_LIMIT : Nat := 0x2000c
abbrev AFE_OVR_CNT : Nat := 0x20010
abbrev AFE_OVR_DUMMY_CNT : Nat := 0x20014
abbrev AFE_SUSPECT_CNT : Nat := 0x20018
abbrev AFE_TAKEOVER_CNT : Nat := 0x2001c
abbrev AFE_CHK_FAIL_CNT : Nat := 0x20020
abbrev AFE_CORE_FAULT_CNT : Nat := 0x20024
abbrev AFE_OW_CTRL : Nat := 0x20028
abbrev AFE_OW_THR : Nat := 0x2002c
abbrev AFE_CORE_MAP (i : Nat) : Nat := 0x20040 + 0x4 * i
abbrev AFE_OW_RESULT (i : Nat) : Nat := 0x20080 + 0x4 * i
abbrev AFE_CV_CTRL (i : Nat) : Nat := 0x20100 + 0x4 * i
abbrev AFE_SLOT (i j : Nat) : Nat := 0x28000 + 0x40 * i + 0x4 * j
abbrev AFE_T_CFG (i : Nat) : Nat := 0x21000 + 0x20 * i
abbrev AFE_T_CDS (i : Nat) : Nat := 0x21004 + 0x20 * i
abbrev AFE_T_CLAMP (i : Nat) : Nat := 0x21008 + 0x20 * i
abbrev AFE_T_GO (i j : Nat) : Nat := 0x2100c + 0x20 * i + 0x4 * j
abbrev AFE_T_STAT (i : Nat) : Nat := 0x2101c + 0x20 * i
abbrev MON_A_CTRL : Nat := 0x30000
abbrev MON_A_REF : Nat := 0x30004
abbrev MON_B_CTRL : Nat := 0x30008
abbrev MON_B_REF : Nat := 0x3000c
abbrev MON_DROP_CNT : Nat := 0x30010
abbrev MON_URGENT_CNT : Nat := 0x30014
abbrev MON_URGENT_ACQ : Nat := 0x30018
abbrev MON_OW_THR : Nat := 0x3001c
abbrev MON_PASS_CNT_A : Nat := 0x30020
abbrev MON_PASS_CNT_B : Nat := 0x30024
abbrev MON_A_SEQ (i : Nat) : Nat := 0x30100 + 0x4 * i
abbrev MON_B_SEQ (i : Nat) : Nat := 0x30200 + 0x4 * i
abbrev MON_A_RES_LO (i : Nat) : Nat := 0x31000 + 0x8 * i
abbrev MON_A_RES_HI (i : Nat) : Nat := 0x31004 + 0x8 * i
abbrev MON_B_RES_LO (i : Nat) : Nat := 0x31200 + 0x8 * i
abbrev MON_B_RES_HI (i : Nat) : Nat := 0x31204 + 0x8 * i
abbrev PIX_CTRL : Nat := 0x40000
abbrev PIX_OUT : Nat := 0x40004
abbrev PIX_MAPSEL : Nat := 0x40008
abbrev PIX_STITCH : Nat := 0x4000c
abbrev PIX_DRIFT : Nat := 0x40010
abbrev PIX_STAT : Nat := 0x40014
abbrev PIX_OUT_WIDTH : Nat := 0x40018
abbrev PIX_PAYLOAD_LEN : Nat := 0x4001c
abbrev PIX_OB_HOLD_CNT : Nat := 0x40020
abbrev PIX_DRIFT_CNT : Nat := 0x40024
abbrev PIX_SAT_CNT : Nat := 0x40028
abbrev PIX_DEF_UNRES_CNT : Nat := 0x4002c
abbrev PIX_MAP_REFUSE_CNT : Nat := 0x40030
abbrev PIX_LCOMP (i : Nat) : Nat := 0x40040 + 0x4 * i
abbrev PIX_MAP_STAT (i : Nat) : Nat := 0x40080 + 0x8 * i
abbrev PIX_MAP_EPOCH (i : Nat) : Nat := 0x40084 + 0x8 * i
abbrev PIX_H_OB (i : Nat) : Nat := 0x40100 + 0x10 * i
abbrev PIX_H_DEF (i : Nat) : Nat := 0x40104 + 0x10 * i
abbrev PIX_H_BLK01 (i : Nat) : Nat := 0x40108 + 0x10 * i
abbrev PIX_H_BLK2 (i : Nat) : Nat := 0x4010c + 0x10 * i
abbrev PIX_H_CG (i j k : Nat) : Nat := 0x41000 + 0x40 * i + 0x10 * j + 0x4 * k
abbrev PIX_H_SRC (i j : Nat) : Nat := 0x44000 + 0x200 * i + 0x4 * j
abbrev PIX_LUT (i j : Nat) : Nat := 0x4a000 + 0x2000 * i + 0x4 * j
abbrev PAGE_CTRL : Nat := 0x50000
abbrev PAGE_ROWS : Nat := 0x50004
abbrev PAGE_MAX_ROWS : Nat := 0x50008
abbrev PAGE_SENSOR : Nat := 0x5000c
abbrev PAGE_SENSOR_OFS : Nat := 0x50010
abbrev PAGE_MARGIN : Nat := 0x50014
abbrev PAGE_CROP_X : Nat := 0x50018
abbrev PAGE_CROP_Y : Nat := 0x5001c
abbrev PAGE_CROP_W : Nat := 0x50020
abbrev PAGE_CROP_H : Nat := 0x50024
abbrev PAGE_CROP_MARGIN : Nat := 0x50028
abbrev PAGE_EDGE : Nat := 0x5002c
abbrev PAGE_EDGE_BG : Nat := 0x50030
abbrev PAGE_ASPECT : Nat := 0x50034
abbrev PAGE_FILL : Nat := 0x50038
abbrev PAGE_JLS : Nat := 0x5003c
abbrev PAGE_BUF_SIZE : Nat := 0x50040
abbrev PAGE_UDP_RTO : Nat := 0x50044
abbrev PAGE_STAT : Nat := 0x50048
abbrev PAGE_LOAD : Nat := 0x5004c
abbrev PAGE_CONT_MAX : Nat := 0x50050
abbrev PAGE_LAST_ID : Nat := 0x50054
abbrev PAGE_DELIV_CNT : Nat := 0x50060
abbrev PAGE_CRC_ERR_CNT : Nat := 0x50064
abbrev PAGE_DUP_CNT : Nat := 0x50068
abbrev PAGE_GAP_CNT : Nat := 0x5006c
abbrev PAGE_EDGE_NONE_CNT : Nat := 0x50070
abbrev PAGE_SKEW_LIMIT_CNT : Nat := 0x50074
abbrev PAGE_JLS_SKIP_CNT : Nat := 0x50078
abbrev PAGE_ENG_FAULT_CNT : Nat := 0x5007c
abbrev PAGE_UDP_RETX_CNT : Nat := 0x50080
abbrev PAGE_SENSOR_SKIP_CNT : Nat := 0x50084
abbrev PAGE_RING_WAIT_CNT : Nat := 0x50088
abbrev PAGE_S_DELIV (i : Nat) : Nat := 0x51000 + 0x40 * i
abbrev PAGE_S_DRING_LO (i : Nat) : Nat := 0x51004 + 0x40 * i
abbrev PAGE_S_DRING_HI (i : Nat) : Nat := 0x51008 + 0x40 * i
abbrev PAGE_S_DRING_LEN (i : Nat) : Nat := 0x5100c + 0x40 * i
abbrev PAGE_S_DRING_RKEY (i : Nat) : Nat := 0x51010 + 0x40 * i
abbrev PAGE_S_CRING_LO (i : Nat) : Nat := 0x51014 + 0x40 * i
abbrev PAGE_S_CRING_HI (i : Nat) : Nat := 0x51018 + 0x40 * i
abbrev PAGE_S_CRING_N (i : Nat) : Nat := 0x5101c + 0x40 * i
abbrev PAGE_S_CRING_RKEY (i : Nat) : Nat := 0x51020 + 0x40 * i
abbrev PAGE_S_DCONS (i : Nat) : Nat := 0x51024 + 0x40 * i
abbrev PAGE_S_CCONS (i : Nat) : Nat := 0x51028 + 0x40 * i
abbrev PAGE_S_DPROD (i : Nat) : Nat := 0x5102c + 0x40 * i
abbrev PAGE_S_CPROD (i : Nat) : Nat := 0x51030 + 0x40 * i
abbrev PAGE_S_UDP_WIN (i : Nat) : Nat := 0x51034 + 0x40 * i
abbrev PAGE_S_UDP_PORT (i : Nat) : Nat := 0x51038 + 0x40 * i
abbrev LMP_CTRL : Nat := 0x60000
abbrev LMP_BLANK : Nat := 0x60004
abbrev LMP_STAT : Nat := 0x60008
abbrev LMP_REFRESH : Nat := 0x6000c
abbrev LMP_ROT_CTRL : Nat := 0x60010
abbrev LMP_ROT_TOL : Nat := 0x60014
abbrev LMP_MON_WARN : Nat := 0x60018
abbrev LMP_AC_STAT : Nat := 0x6001c
abbrev LMP_PROOF_CNT : Nat := 0x60020
abbrev LMP_SUSPECT_CNT : Nat := 0x60024
abbrev LMP_FAULT_CNT : Nat := 0x60028
abbrev LMP_TRANSIENT_CNT : Nat := 0x6002c
abbrev LMP_ROT_CNT : Nat := 0x60030
abbrev LMP_ROT_UNDO_CNT : Nat := 0x60034
abbrev LMP_AC_LOSS_CNT : Nat := 0x60038
abbrev LMP_WARN_CNT : Nat := 0x6003c
abbrev LMP_P_TEMP (i : Nat) : Nat := 0x60100 + 0x10 * i
abbrev LMP_P_TOFS (i : Nat) : Nat := 0x60104 + 0x10 * i
abbrev LMP_P_ID (i : Nat) : Nat := 0x60108 + 0x10 * i
abbrev LMP_P_LAMPT (i : Nat) : Nat := 0x6010c + 0x10 * i
abbrev LMP_P_AC (i j : Nat) : Nat := 0x60200 + 0x40 * i + 0x4 * j
abbrev LMP_C_CFG (i : Nat) : Nat := 0x60400 + 0x40 * i
abbrev LMP_C_ONDLY (i : Nat) : Nat := 0x60404 + 0x40 * i
abbrev LMP_C_LEVEL (i : Nat) : Nat := 0x60408 + 0x40 * i
abbrev LMP_C_ITHR (i : Nat) : Nat := 0x6040c + 0x40 * i
abbrev LMP_C_MTHR (i : Nat) : Nat := 0x60410 + 0x40 * i
abbrev LMP_C_SENSE (i : Nat) : Nat := 0x60414 + 0x40 * i
abbrev LMP_C_MONREF (i : Nat) : Nat := 0x60418 + 0x40 * i
abbrev LMP_C_RATIO (i : Nat) : Nat := 0x6041c + 0x40 * i
abbrev LMP_C_DIAG (i : Nat) : Nat := 0x60420 + 0x40 * i
abbrev LMP_C_LIT_MIN (i : Nat) : Nat := 0x60424 + 0x40 * i
abbrev LMP_C_ROT_MIN (i : Nat) : Nat := 0x60428 + 0x40 * i
abbrev LMP_C_ROT_N (i : Nat) : Nat := 0x6042c + 0x40 * i
abbrev LMP_C_CLASS (i j : Nat) : Nat := 0x64000 + 0x100 * i + 0x4 * j
abbrev LMP_C_ROT (i j : Nat) : Nat := 0x68000 + 0x40 * i + 0x4 * j
abbrev MOT_SW_STAT : Nat := 0x70000
abbrev MOT_SW_RAW : Nat := 0x70004
abbrev MOT_CHATTER_N : Nat := 0x70008
abbrev MOT_CHATTER_W : Nat := 0x7000c
abbrev MOT_FE_WIN : Nat := 0x70010
abbrev MOT_MOVE_CNT : Nat := 0x70020
abbrev MOT_QFULL_CNT : Nat := 0x70024
abbrev MOT_ACC_CLAMP_CNT : Nat := 0x70028
abbrev MOT_LIMIT_CNT : Nat := 0x7002c
abbrev MOT_FE_CNT : Nat := 0x70030
abbrev MOT_HOME_FAIL_CNT : Nat := 0x70034
abbrev MOT_CHATTER_CNT : Nat := 0x70038
abbrev MOT_WDOG_CNT : Nat := 0x7003c
abbrev MOT_LIMIT_REFUSE_CNT : Nat := 0x70040
abbrev MOT_A_CFG (i : Nat) : Nat := 0x70100 + 0x40 * i
abbrev MOT_A_VLIM (i : Nat) : Nat := 0x70104 + 0x40 * i
abbrev MOT_A_JUMP (i : Nat) : Nat := 0x70108 + 0x40 * i
abbrev MOT_A_ENC_RATIO (i : Nat) : Nat := 0x7010c + 0x40 * i
abbrev MOT_A_FE_CFG (i : Nat) : Nat := 0x70110 + 0x40 * i
abbrev MOT_A_LIM (i : Nat) : Nat := 0x70114 + 0x40 * i
abbrev MOT_A_LIM_DEC (i : Nat) : Nat := 0x70118 + 0x40 * i
abbrev MOT_A_HOME (i : Nat) : Nat := 0x7011c + 0x40 * i
abbrev MOT_A_HOME_V (i : Nat) : Nat := 0x70120 + 0x40 * i
abbrev MOT_A_HOME_ACC (i : Nat) : Nat := 0x70124 + 0x40 * i
abbrev MOT_A_HOME_MAX (i : Nat) : Nat := 0x70128 + 0x40 * i
abbrev MOT_A_HOME_POS (i : Nat) : Nat := 0x7012c + 0x40 * i
abbrev MOT_A_POS_LO (i : Nat) : Nat := 0x70130 + 0x40 * i
abbrev MOT_A_POS_HI (i : Nat) : Nat := 0x70134 + 0x40 * i
abbrev MOT_A_FE_NOW (i : Nat) : Nat := 0x70138 + 0x40 * i
abbrev MOT_A_STAT (i : Nat) : Nat := 0x7013c + 0x40 * i
abbrev MOT_G_CFG (i : Nat) : Nat := 0x70400 + 0x40 * i
abbrev MOT_G_STAT (i : Nat) : Nat := 0x70404 + 0x40 * i
abbrev MOT_G_MOVE_ID (i : Nat) : Nat := 0x70408 + 0x40 * i
abbrev MOT_G_VCUR (i : Nat) : Nat := 0x7040c + 0x40 * i
abbrev MOT_G_REM_LO (i : Nat) : Nat := 0x70410 + 0x40 * i
abbrev MOT_G_REM_HI (i : Nat) : Nat := 0x70414 + 0x40 * i
abbrev MOT_G_VPACE (i : Nat) : Nat := 0x70418 + 0x40 * i
abbrev MOT_G_FLAGS (i : Nat) : Nat := 0x7041c + 0x40 * i
abbrev MOT_SW_CFG (i : Nat) : Nat := 0x70600 + 0x4 * i
abbrev MOT_ENC_CFG (i : Nat) : Nat := 0x70700 + 0x20 * i
abbrev MOT_ENC_POS_LO (i : Nat) : Nat := 0x70704 + 0x20 * i
abbrev MOT_ENC_POS_HI (i : Nat) : Nat := 0x70708 + 0x20 * i
abbrev MOT_ENC_ZPOS_LO (i : Nat) : Nat := 0x7070c + 0x20 * i
abbrev MOT_ENC_ZPOS_HI (i : Nat) : Nat := 0x70710 + 0x20 * i
abbrev MOT_ENC_ERR_CNT (i : Nat) : Nat := 0x70714 + 0x20 * i
abbrev MOT_ENC_Z_CNT (i : Nat) : Nat := 0x70718 + 0x20 * i
abbrev COX_CTRL : Nat := 0x80000
abbrev COX_LWM : Nat := 0x80004
abbrev COX_HWM : Nat := 0x80008
abbrev COX_HOLD_MARK : Nat := 0x8000c
abbrev COX_VMIN : Nat := 0x80010
abbrev COX_VMAX : Nat := 0x80014
abbrev COX_TAU : Nat := 0x80018
abbrev COX_GAIN : Nat := 0x8001c
abbrev COX_FEED_RATIO : Nat := 0x80020
abbrev COX_STATE : Nat := 0x80024
abbrev COX_FILL : Nat := 0x80028
abbrev COX_DRAIN : Nat := 0x8002c
abbrev COX_VD : Nat := 0x80030
abbrev COX_BPS : Nat := 0x80034
abbrev COX_RESERVE : Nat := 0x80038
abbrev COX_PACE_CNT : Nat := 0x8003c
abbrev COX_HOLD_CNT : Nat := 0x80040
abbrev COX_PACED_CNT : Nat := 0x80044
abbrev CLS_CTRL : Nat := 0x90000
abbrev CLS_REF : Nat := 0x90004
abbrev CLS_REWIND : Nat := 0x90008
abbrev CLS_OVL : Nat := 0x9000c
abbrev CLS_SEARCH : Nat := 0x90010
abbrev CLS_MIN_CORR : Nat := 0x90014
abbrev CLS_MIN_SIGMA : Nat := 0x90018
abbrev CLS_WIN : Nat := 0x9001c
abbrev CLS_STAT : Nat := 0x90020
abbrev CLS_LAST : Nat := 0x90024
abbrev CLS_LAST_FEED : Nat := 0x90028
abbrev CLS_CORR : Nat := 0x9002c
abbrev CLS_REF_LAST_LO : Nat := 0x90030
abbrev CLS_REF_LAST_HI : Nat := 0x90034
abbrev CLS_SPLICE_CNT : Nat := 0x90038
abbrev CLS_ENC_CNT : Nat := 0x9003c
abbrev CLS_ABORT_CNT : Nat := 0x90040
abbrev CLS_DUP_CNT : Nat := 0x90044
abbrev CAL_CTRL : Nat := 0xa0000
abbrev CAL_APPLY_AT : Nat := 0xa0004
abbrev CAL_DTEMP : Nat := 0xa0008
abbrev CAL_DRIFT_LIM : Nat := 0xa000c
abbrev CAL_COMP_PERIOD : Nat := 0xa0010
abbrev CAL_COMP_STEP : Nat := 0xa0014
abbrev CAL_SHADE_N : Nat := 0xa0018
abbrev CAL_SHADE_T : Nat := 0xa001c
abbrev CAL_WHITE_TARGET : Nat := 0xa0020
abbrev CAL_DRIFT_STROKES : Nat := 0xa0024
abbrev CAL_STAT : Nat := 0xa0028
abbrev CAL_EPOCH_NOW : Nat := 0xa002c
abbrev CAL_EPOCH_NEXT : Nat := 0xa0030
abbrev CAL_LAST_EPOCH : Nat := 0xa0034
abbrev CAL_LAST_CLIP : Nat := 0xa0038
abbrev CAL_LAST_WEAK : Nat := 0xa003c
abbrev CAL_LAST_OVR : Nat := 0xa0040
abbrev CAL_VREFX_UV : Nat := 0xa0044
abbrev CAL_BG_UV : Nat := 0xa0048
abbrev CAL_BG_RATIO : Nat := 0xa004c
abbrev CAL_TQ (i : Nat) : Nat := 0xa0050 + 0x4 * i
abbrev CAL_TBZ_F : Nat := 0xa0060
abbrev CAL_TBZ_H : Nat := 0xa0064
abbrev CAL_RUN_CNT : Nat := 0xa0080
abbrev CAL_FAIL_CNT : Nat := 0xa0084
abbrev CAL_RECAL_REQ_CNT : Nat := 0xa0088
abbrev CAL_AFE_RUN_CNT : Nat := 0xa008c
abbrev CAL_BZL_RETRAIN_CNT : Nat := 0xa0090
abbrev CAL_COMP_UPD_CNT : Nat := 0xa0094
abbrev CAL_STORE_CNT : Nat := 0xa0098
abbrev CAL_FLASH_ERR_CNT : Nat := 0xa009c
abbrev CAL_FLASH_STAT : Nat := 0xa00a0
abbrev CAL_AFE_Q (i : Nat) : Nat := 0xa0100 + 0x4 * i
abbrev CAL_CORE (i : Nat) : Nat := 0xa0200 + 0x4 * i
abbrev CAL_LANE_F2H (i : Nat) : Nat := 0xa0400 + 0x4 * i
abbrev CAL_LANE_H2F (i : Nat) : Nat := 0xa0480 + 0x4 * i
abbrev CAL_TRIM (i : Nat) : Nat := 0xa4000 + 0x4 * i
abbrev CAL_BREF01 (i : Nat) : Nat := 0xa5000 + 0x8 * i
abbrev CAL_BREF2 (i : Nat) : Nat := 0xa5004 + 0x8 * i
abbrev DMA_CTRL : Nat := 0xb0000
abbrev DMA_INFLIGHT_MAX : Nat := 0xb0004
abbrev DMA_WDOG : Nat := 0xb0008
abbrev DMA_STAT : Nat := 0xb000c
abbrev DMA_INFLIGHT : Nat := 0xb0010
abbrev DMA_SHR_BASE : Nat := 0xb0014
abbrev DMA_SHR_SIZE : Nat := 0xb0018
abbrev DMA_PBUF_BASE : Nat := 0xb001c
abbrev DMA_DESC_CNT : Nat := 0xb0040
abbrev DMA_MIB_CNT : Nat := 0xb0044
abbrev DMA_ERR_CNT : Nat := 0xb0048
abbrev DMA_ZERO_CNT : Nat := 0xb004c
abbrev DMA_OVERLAP_CNT : Nat := 0xb0050
abbrev DMA_OVL_FIX_CNT : Nat := 0xb0054
abbrev DMA_WDOG_CNT : Nat := 0xb0058
abbrev DMA_STALL_CNT : Nat := 0xb005c
abbrev DMA_ECC_CORR_CNT : Nat := 0xb0060
abbrev DMA_ECC_DBL_CNT : Nat := 0xb0064
abbrev DMA_PACE_OVF_CNT : Nat := 0xb0068
abbrev DMA_FENCE_CNT : Nat := 0xb006c
abbrev DMA_CH_CTRL (i : Nat) : Nat := 0xb0100 + 0x20 * i
abbrev DMA_CH_PACE (i : Nat) : Nat := 0xb0104 + 0x20 * i
abbrev DMA_CH_STAT (i : Nat) : Nat := 0xb0108 + 0x20 * i
abbrev DMA_CH_DESC_LO (i : Nat) : Nat := 0xb010c + 0x20 * i
abbrev DMA_CH_DESC_HI (i : Nat) : Nat := 0xb0110 + 0x20 * i
abbrev DMA_CH_ERR_LO (i : Nat) : Nat := 0xb0114 + 0x20 * i
abbrev DMA_CH_ERR_HI (i : Nat) : Nat := 0xb0118 + 0x20 * i
abbrev DMA_CH_ERR_INFO (i : Nat) : Nat := 0xb011c + 0x20 * i
abbrev NET_CTRL : Nat := 0xc0000
abbrev NET_STAT : Nat := 0xc0004
abbrev NET_REASM_CNT : Nat := 0xc0008
abbrev NET_REASM_DROP_CNT : Nat := 0xc000c
abbrev NET_ROCE_ACK_TMO : Nat := 0xc0010
abbrev NET_ROCE_RETRY : Nat := 0xc0014
abbrev NET_P_CFG (i : Nat) : Nat := 0xc0100 + 0x80 * i
abbrev NET_P_STAT (i : Nat) : Nat := 0xc0104 + 0x80 * i
abbrev NET_P_MAC_HI (i : Nat) : Nat := 0xc0108 + 0x80 * i
abbrev NET_P_MAC_LO (i : Nat) : Nat := 0xc010c + 0x80 * i
abbrev NET_P_IP4 (i : Nat) : Nat := 0xc0110 + 0x80 * i
abbrev NET_P_IP4_PFX (i : Nat) : Nat := 0xc0114 + 0x80 * i
abbrev NET_P_GW4 (i : Nat) : Nat := 0xc0118 + 0x80 * i
abbrev NET_P_IP6 (i j : Nat) : Nat := 0xc011c + 0x80 * i + 0x4 * j
abbrev NET_P_IP6_PFX (i : Nat) : Nat := 0xc012c + 0x80 * i
abbrev NET_P_GW6 (i j : Nat) : Nat := 0xc0130 + 0x80 * i + 0x4 * j
abbrev NET_P_VLAN (i : Nat) : Nat := 0xc0140 + 0x80 * i
abbrev NET_P_PCP (i : Nat) : Nat := 0xc0144 + 0x80 * i
abbrev NET_P_DSCP (i : Nat) : Nat := 0xc0148 + 0x80 * i
abbrev NET_P_PFC (i : Nat) : Nat := 0xc014c + 0x80 * i
abbrev NET_P_TXEQ (i : Nat) : Nat := 0xc0150 + 0x80 * i
abbrev NET_P_FEC_CORR_CNT (i : Nat) : Nat := 0xc0154 + 0x80 * i
abbrev NET_P_FEC_UNCORR_CNT (i : Nat) : Nat := 0xc0158 + 0x80 * i
abbrev NET_P_RX_FRAME_CNT (i : Nat) : Nat := 0xc015c + 0x80 * i
abbrev NET_P_TX_FRAME_CNT (i : Nat) : Nat := 0xc0160 + 0x80 * i
abbrev NET_P_RX_DROP_CNT (i : Nat) : Nat := 0xc0164 + 0x80 * i
abbrev NET_P_PAUSE_RX_CNT (i : Nat) : Nat := 0xc0168 + 0x80 * i
abbrev NET_P_PFC_TX_CNT (i : Nat) : Nat := 0xc016c + 0x80 * i
abbrev NET_P_LINK_DOWN_CNT (i : Nat) : Nat := 0xc0170 + 0x80 * i
abbrev NET_SG_CFG : Nat := 0xc0200
abbrev NET_S_QP_CTRL (i : Nat) : Nat := 0xc1000 + 0x40 * i
abbrev NET_S_RQPN (i : Nat) : Nat := 0xc1004 + 0x40 * i
abbrev NET_S_SPSN (i : Nat) : Nat := 0xc1008 + 0x40 * i
abbrev NET_S_RPSN (i : Nat) : Nat := 0xc100c + 0x40 * i
abbrev NET_S_GID (i j : Nat) : Nat := 0xc1010 + 0x40 * i + 0x4 * j
abbrev NET_S_LQPN (i : Nat) : Nat := 0xc1020 + 0x40 * i
abbrev NET_S_RKEY (i : Nat) : Nat := 0xc1024 + 0x40 * i
abbrev NET_S_QP_STAT (i : Nat) : Nat := 0xc1028 + 0x40 * i
abbrev NET_S_TX_MIB (i : Nat) : Nat := 0xc102c + 0x40 * i
abbrev NET_S_RETX_CNT (i : Nat) : Nat := 0xc1030 + 0x40 * i
abbrev NET_S_CNP_RX_CNT (i : Nat) : Nat := 0xc1034 + 0x40 * i
abbrev TIM_STEP_THR : Nat := 0xd0000
abbrev TIM_SLEW_PPM : Nat := 0xd0004
abbrev TIM_NS_LO : Nat := 0xd0008
abbrev TIM_NS_HI : Nat := 0xd000c
abbrev TIM_FRAC : Nat := 0xd0010
abbrev TIM_INCR_LO : Nat := 0xd0014
abbrev TIM_INCR_HI : Nat := 0xd0018
abbrev TIM_SLEW_LO : Nat := 0xd001c
abbrev TIM_SLEW_HI : Nat := 0xd0020
abbrev TIM_STAT : Nat := 0xd0024
abbrev TIM_STEP_CNT : Nat := 0xd0028
abbrev TIM_ADJ_CNT : Nat := 0xd002c
abbrev TIM_SET_CNT : Nat := 0xd0030
abbrev TIM_PTP_CTRL : Nat := 0xd0100
abbrev TIM_PTP_DS : Nat := 0xd0104
abbrev TIM_PTP_INTV : Nat := 0xd0108
abbrev TIM_PTP_LAT : Nat := 0xd010c
abbrev TIM_PTP_ASYM : Nat := 0xd0110
abbrev TIM_PTP_SERVO : Nat := 0xd0114
abbrev TIM_PTP_LOCK_THR : Nat := 0xd0118
abbrev TIM_PTP_OFS : Nat := 0xd011c
abbrev TIM_PTP_MPD : Nat := 0xd0120
abbrev TIM_PTP_IRQ_LAT : Nat := 0xd0124
abbrev TIM_PTP_LAT_DROP_CNT : Nat := 0xd0128
abbrev TIM_PTP_RX_CNT : Nat := 0xd012c
abbrev TIM_PTP_TX_CNT : Nat := 0xd0130
abbrev TIM_PTP_UTC : Nat := 0xd0134
abbrev FLT_STAT : Nat := 0xe0000
abbrev FLT_SAFE_CAUSE : Nat := 0xe0004
abbrev FLT_SCRUB_CTRL : Nat := 0xe0008
abbrev FLT_WDOG : Nat := 0xe000c
abbrev FLT_ESC_WIN : Nat := 0xe0010
abbrev FLT_CORE_STAT : Nat := 0xe0014
abbrev FLT_LOG_NEXT : Nat := 0xe0018
abbrev FLT_LOG_OLDEST : Nat := 0xe001c
abbrev FLT_LOG_UNCLEARED : Nat := 0xe0020
abbrev FLT_DRAM_SCRUB_POS : Nat := 0xe0024
abbrev FLT_SCRUB_CORR_CNT : Nat := 0xe0040
abbrev FLT_SCRUB_DBL_CNT : Nat := 0xe0044
abbrev FLT_FSRAM_PASS_CNT : Nat := 0xe0048
abbrev FLT_HSRAM_PASS_CNT : Nat := 0xe004c
abbrev FLT_DRAM_PASS_CNT : Nat := 0xe0050
abbrev FLT_FLASH_VERIFY_CNT : Nat := 0xe0054
abbrev FLT_FLASH_BAD_CNT : Nat := 0xe0058
abbrev FLT_LOCKSTEP_CNT : Nat := 0xe005c
abbrev FLT_WDOG_CNT : Nat := 0xe0060
abbrev FLT_RECOV_CNT (i : Nat) : Nat := 0xe0064 + 0x4 * i
abbrev FLT_ESC_CNT : Nat := 0xe0074
abbrev FLT_SAFE_CNT : Nat := 0xe0078
abbrev FLT_PIPE_CHK_CNT : Nat := 0xe007c
abbrev FLT_TELEM_SKIP_CNT : Nat := 0xe0080
abbrev FLT_S_TELEM (i : Nat) : Nat := 0xe1000 + 0x4 * i
abbrev PWR_CTRL : Nat := 0xf0000
abbrev PWR_STAT : Nat := 0xf0004
abbrev PWR_FBUS : Nat := 0xf0008
abbrev PWR_FBUS_LOW : Nat := 0xf000c
abbrev PWR_FBUS_HYST : Nat := 0xf0010
abbrev PWR_FBUS_HIGH : Nat := 0xf0014
abbrev PWR_DIP_T : Nat := 0xf0018
abbrev PWR_FBUS_OK_T : Nat := 0xf001c
abbrev PWR_FBUS_MV : Nat := 0xf0020
abbrev PWR_RAIL_F : Nat := 0xf0024
abbrev PWR_RAIL_H : Nat := 0xf0028
abbrev PWR_LAMP_WAIT : Nat := 0xf002c
abbrev PWR_BOOT : Nat := 0xf0030
abbrev PWR_START_MS : Nat := 0xf0034
abbrev PWR_DIP_CNT : Nat := 0xf0040
abbrev PWR_SHORT_DIP_CNT : Nat := 0xf0044
abbrev PWR_SURGE_CNT : Nat := 0xf0048
abbrev PWR_AC_DIP_CNT : Nat := 0xf004c
abbrev PWR_FIELD_LOSS_CNT : Nat := 0xf0050
abbrev PWR_BOOT_FAIL_CNT : Nat := 0xf0054
abbrev PWR_LAMP_KT (i : Nat) : Nat := 0xf0060 + 0x4 * i

end Reg

/-- How a word answers reads and writes (R9). -/
inductive Acc where
  | ro | rw | wo | w1c | st | sn
  deriving DecidableEq, Repr

/-- How a field inside a word answers a write, where it differs from its word (R72). -/
inductive FAcc where
  | plain | ro | w1c | wo
  deriving DecidableEq, Repr

/-- The values a field takes: any, a range, a signed range, zero or a range, a range or one more value, a range
less one value. -/
inductive Rng where
  | any
  | rng (lo hi : Nat)
  | srng (lo hi : Int)
  | zrng (lo hi : Nat)
  | orv (lo hi v : Nat)
  | exc (lo hi v : Nat)
  deriving DecidableEq, Repr

/-- One field: bits hi to lo. Bits in no field are reserved and read 0 (R10). -/
structure Fld where
  hi : Nat
  lo : Nat
  acc : FAcc
  rng : Rng
  deriving DecidableEq, Repr

/-- One register, or one array of registers: `dims` lists its sizes and strides, outermost first. -/
structure Row where
  base : Nat
  dims : List (Nat × Nat)
  acc : Acc
  reset : Nat
  flds : List Fld
  deriving DecidableEq, Repr

/-- Rows of page 0x0, part 0. -/
def devRows0 : List Row := [
  ⟨0x0, [], .ro, 0x564838, [⟨31, 0, .plain, .any⟩]⟩,
  ⟨0x4, [], .ro, 0x4141, [⟨31, 0, .plain, .any⟩]⟩,
  ⟨0x8, [], .sn, 0, [⟨31, 0, .plain, .any⟩]⟩,
  ⟨0xc, [], .sn, 0, [⟨31, 0, .plain, .any⟩]⟩,
  ⟨0x10, [], .ro, 0, [⟨31, 16, .plain, .any⟩, ⟨8, 0, .plain, .any⟩]⟩,
  ⟨0x14, [], .ro, 0, [⟨5, 0, .plain, .any⟩]⟩,
  ⟨0x18, [], .rw, 0x0, [⟨0, 0, .plain, .any⟩]⟩,
  ⟨0x1c, [], .ro, 0x3, [⟨9, 9, .w1c, .any⟩, ⟨8, 8, .w1c, .any⟩, ⟨5, 4, .ro, .any⟩, ⟨3, 0, .ro, .any⟩]⟩,
  ⟨0x20, [], .st, 0x0, [⟨0, 0, .plain, .any⟩]⟩]

/-- The rows of page 0x0. -/
def devRows : List Row := devRows0

/-- Rows of page 0x1, part 0. -/
def seqRows0 : List Row := [
  ⟨0x10000, [], .st, 0x10, [⟨15, 12, .plain, (.rng 0 5)⟩, ⟨8, 8, .plain, .any⟩, ⟨4, 4, .plain, .any⟩, ⟨0, 0, .plain, .any⟩]⟩,
  ⟨0x10004, [], .st, 0x10, [⟨31, 0, .plain, (.rng 1 4294967295)⟩]⟩,
  ⟨0x10008, [], .st, 0x0, [⟨15, 0, .plain, .any⟩]⟩,
  ⟨0x1000c, [], .st, 0x3c00, [⟨31, 0, .plain, (.rng 3255 2097152)⟩]⟩,
  ⟨0x10010, [], .st, 0x1312d, [⟨31, 0, .plain, (.rng 3255 4294967295)⟩]⟩,
  ⟨0x10014, [], .rw, 0x64, [⟨31, 0, .plain, (.rng 1 10000)⟩]⟩,
  ⟨0x10018, [], .rw, 0x4, [⟨31, 0, .plain, (.rng 1 255)⟩]⟩,
  ⟨0x1001c, [], .st, 0x0, [⟨31, 16, .plain, .any⟩, ⟨1, 0, .plain, .any⟩]⟩,
  ⟨0x10020, [], .ro, 0, [⟨7, 5, .plain, .any⟩, ⟨2, 0, .plain, .any⟩]⟩,
  ⟨0x10024, [], .sn, 0, [⟨31, 0, .plain, .any⟩]⟩,
  ⟨0x10028, [], .sn, 0, [⟨15, 0, .plain, .any⟩]⟩,
  ⟨0x1002c, [], .sn, 0, [⟨31, 0, .plain, .any⟩]⟩,
  ⟨0x10030, [], .sn, 0, [⟨15, 0, .plain, .any⟩]⟩,
  ⟨0x10034, [], .ro, 0x0, [⟨31, 0, .plain, .any⟩]⟩,
  ⟨0x10038, [], .ro, 0x0, [⟨31, 0, .plain, .any⟩]⟩,
  ⟨0x1003c, [], .ro, 0x0, [⟨31, 0, .plain, .any⟩]⟩,
  ⟨0x10040, [], .ro, 0x0, [⟨31, 0, .plain, .any⟩]⟩,
  ⟨0x10044, [], .ro, 0x0, [⟨31, 0, .plain, .any⟩]⟩,
  ⟨0x10048, [], .ro, 0x0, [⟨31, 0, .plain, .any⟩]⟩,
  ⟨0x10080, [(8, 0x4)], .ro, 0, [⟨31, 0, .plain, .any⟩]⟩,
  ⟨0x10100, [(32, 0x40)], .st, 0x0, [⟨2, 2, .plain, .any⟩, ⟨1, 0, .plain, (.rng 0 2)⟩]⟩,
  ⟨0x10104, [(32, 0x40), (3, 0x4)], .st, 0xfa0, [⟨31, 0, .plain, (.rng 64 2097151)⟩]⟩,
  ⟨0x10110, [(32, 0x40), (3, 0x4)], .st, 0x0, [⟨14, 0, .plain, (.rng 0 16384)⟩]⟩,
  ⟨0x1011c, [(32, 0x40)], .st, 0x1, [⟨15, 0, .plain, (.rng 1 65535)⟩]⟩,
  ⟨0x10120, [(32, 0x40)], .st, 0x0, [⟨31, 16, .plain, (.rng 0 65534)⟩, ⟨7, 0, .plain, .any⟩]⟩,
  ⟨0x10124, [(32, 0x40)], .st, 0x0, [⟨31, 16, .plain, (.rng 0 1024)⟩, ⟨15, 0, .plain, (.rng 0 1024)⟩]⟩,
  ⟨0x10128, [(32, 0x40)], .st, 0x0, [⟨31, 16, .plain, (.rng 0 4096)⟩, ⟨15, 0, .plain, (.rng 0 4096)⟩]⟩,
  ⟨0x1012c, [(32, 0x40)], .st, 0x0, [⟨31, 0, .plain, .any⟩]⟩,
  ⟨0x10130, [(32, 0x40)], .st, 0x0, [⟨22, 22, .plain, .any⟩, ⟨21, 20, .plain, .any⟩, ⟨18, 16, .plain, (.rng 0 4)⟩, ⟨14, 8, .plain, (.rng 0 64)⟩, ⟨7, 0, .plain, .any⟩]⟩,
  ⟨0x10134, [(32, 0x40)], .st, 0x0, [⟨17, 0, .plain, (.rng 1 262143)⟩]⟩]

/-- Rows of page 0x1, part 1. -/
def seqRows1 : List Row := [
  ⟨0x10138, [(32, 0x40)], .st, 0x0, [⟨15, 0, .plain, .any⟩]⟩,
  ⟨0x1013c, [(32, 0x40)], .ro, 0, [⟨15, 8, .plain, .any⟩, ⟨1, 0, .plain, .any⟩]⟩,
  ⟨0x11000, [(32, 0x200), (128, 0x4)], .st, 0x0, [⟨31, 0, .plain, .any⟩]⟩]

/-- The rows of page 0x1. -/
def seqRows : List Row := seqRows0 ++ seqRows1

/-- Rows of page 0x2, part 0. -/
def afeRows0 : List Row := [
  ⟨0x20000, [], .rw, 0x0, [⟨10, 10, .w1c, .any⟩, ⟨9, 8, .ro, .any⟩, ⟨1, 0, .plain, (.rng 0 2)⟩]⟩,
  ⟨0x20004, [], .rw, 0x640001, [⟨31, 16, .plain, (.rng 10 10000)⟩, ⟨0, 0, .plain, .any⟩]⟩,
  ⟨0x20008, [], .ro, 0, [⟨7, 0, .plain, .any⟩]⟩,
  ⟨0x2000c, [], .rw, 0x100, [⟨31, 0, .plain, (.rng 16 4095)⟩]⟩,
  ⟨0x20010, [], .ro, 0x0, [⟨31, 0, .plain, .any⟩]⟩,
  ⟨0x20014, [], .ro, 0x0, [⟨31, 0, .plain, .any⟩]⟩,
  ⟨0x20018, [], .ro, 0x0, [⟨31, 0, .plain, .any⟩]⟩,
  ⟨0x2001c, [], .ro, 0x0, [⟨31, 0, .plain, .any⟩]⟩,
  ⟨0x20020, [], .ro, 0x0, [⟨31, 0, .plain, .any⟩]⟩,
  ⟨0x20024, [], .ro, 0x0, [⟨31, 0, .plain, .any⟩]⟩,
  ⟨0x20028, [], .rw, 0x140000, [⟨31, 16, .plain, (.rng 5 1000)⟩, ⟨2, 2, .plain, .any⟩, ⟨1, 1, .ro, .any⟩, ⟨0, 0, .wo, .any⟩]⟩,
  ⟨0x2002c, [], .rw, 0x800, [⟨31, 0, .plain, (.rng 16 16383)⟩]⟩,
  ⟨0x20040, [(16, 0x4)], .ro, 0, [⟨31, 0, .plain, .any⟩]⟩,
  ⟨0x20080, [(12, 0x4)], .ro, 0x0, [⟨31, 0, .plain, .any⟩]⟩,
  ⟨0x20100, [(64, 0x4)], .st, 0x6, [⟨6, 0, .plain, (.rng 1 64)⟩]⟩,
  ⟨0x21000, [(384, 0x20)], .st, 0x0, [⟨12, 8, .plain, .any⟩, ⟨5, 4, .plain, .any⟩, ⟨1, 0, .plain, .any⟩]⟩,
  ⟨0x21004, [(384, 0x20)], .st, 0x0, [⟨22, 16, .plain, .any⟩, ⟨6, 0, .plain, .any⟩]⟩,
  ⟨0x21008, [(384, 0x20)], .st, 0x0, [⟨31, 16, .plain, .any⟩, ⟨15, 0, .plain, (.rng 0 4096)⟩]⟩,
  ⟨0x2100c, [(384, 0x20), (3, 0x4)], .st, 0x80, [⟨25, 16, .plain, .any⟩, ⟨8, 0, .plain, .any⟩]⟩,
  ⟨0x21018, [(384, 0x20)], .ro, 0x0, []⟩,
  ⟨0x2101c, [(384, 0x20)], .ro, 0x0, [⟨29, 16, .ro, .any⟩, ⟨2, 1, .ro, .any⟩, ⟨0, 0, .w1c, .any⟩]⟩,
  ⟨0x28000, [(64, 0x40), (16, 0x4)], .st, 0x70707070, [⟨31, 0, .plain, .any⟩]⟩]

/-- The rows of page 0x2. -/
def afeRows : List Row := afeRows0

/-- Rows of page 0x3, part 0. -/
def monRows0 : List Row := [
  ⟨0x30000, [], .st, 0x0, [⟨31, 16, .plain, .any⟩, ⟨6, 0, .plain, (.rng 0 64)⟩]⟩,
  ⟨0x30004, [], .rw, 0x0, [⟨8, 8, .ro, .any⟩, ⟨1, 0, .plain, (.rng 0 2)⟩]⟩,
  ⟨0x30008, [], .st, 0x0, [⟨31, 16, .plain, .any⟩, ⟨6, 0, .plain, (.rng 0 64)⟩]⟩,
  ⟨0x3000c, [], .rw, 0x0, [⟨8, 8, .ro, .any⟩, ⟨1, 0, .plain, (.rng 0 2)⟩]⟩,
  ⟨0x30010, [], .ro, 0x0, [⟨31, 0, .plain, .any⟩]⟩,
  ⟨0x30014, [], .ro, 0x0, [⟨31, 0, .plain, .any⟩]⟩,
  ⟨0x30018, [], .rw, 0x1e, [⟨31, 0, .plain, (.rng 2 1023)⟩]⟩,
  ⟨0x3001c, [], .rw, 0x400, [⟨31, 0, .plain, (.rng 16 16383)⟩]⟩,
  ⟨0x30020, [], .ro, 0x0, [⟨31, 0, .plain, .any⟩]⟩,
  ⟨0x30024, [], .ro, 0x0, [⟨31, 0, .plain, .any⟩]⟩,
  ⟨0x30100, [(64, 0x4)], .st, 0x800000, [⟨31, 22, .plain, (.rng 2 1023)⟩, ⟨21, 19, .plain, .any⟩, ⟨6, 0, .plain, (.rng 0 47)⟩]⟩,
  ⟨0x30200, [(64, 0x4)], .st, 0x800030, [⟨31, 22, .plain, (.rng 2 1023)⟩, ⟨21, 19, .plain, .any⟩, ⟨6, 0, .plain, (.rng 48 95)⟩]⟩,
  ⟨0x31000, [(64, 0x8)], .sn, 0, [⟨31, 0, .plain, .any⟩]⟩,
  ⟨0x31004, [(64, 0x8)], .sn, 0, [⟨31, 31, .plain, .any⟩, ⟨15, 0, .plain, .any⟩]⟩,
  ⟨0x31200, [(64, 0x8)], .sn, 0, [⟨31, 0, .plain, .any⟩]⟩,
  ⟨0x31204, [(64, 0x8)], .sn, 0, [⟨31, 31, .plain, .any⟩, ⟨15, 0, .plain, .any⟩]⟩]

/-- The rows of page 0x3. -/
def monRows : List Row := monRows0

/-- Rows of page 0x4, part 0. -/
def pixRows0 : List Row := [
  ⟨0x40000, [], .st, 0xa3, [⟨7, 0, .plain, .any⟩]⟩,
  ⟨0x40004, [], .st, 0x0, [⟨1, 0, .plain, .any⟩]⟩,
  ⟨0x40008, [], .st, 0x0, [⟨26, 24, .plain, .any⟩, ⟨18, 16, .plain, .any⟩, ⟨10, 8, .plain, .any⟩, ⟨2, 0, .plain, .any⟩]⟩,
  ⟨0x4000c, [], .st, 0x0, [⟨30, 0, .plain, .any⟩]⟩,
  ⟨0x40010, [], .rw, 0x30, [⟨15, 0, .plain, (.rng 1 1600)⟩]⟩,
  ⟨0x40014, [], .ro, 0, [⟨19, 16, .plain, .any⟩, ⟨15, 0, .plain, .any⟩]⟩,
  ⟨0x40018, [], .ro, 0, [⟨31, 0, .plain, .any⟩]⟩,
  ⟨0x4001c, [], .ro, 0, [⟨31, 0, .plain, .any⟩]⟩,
  ⟨0x40020, [], .ro, 0x0, [⟨31, 0, .plain, .any⟩]⟩,
  ⟨0x40024, [], .ro, 0x0, [⟨31, 0, .plain, .any⟩]⟩,
  ⟨0x40028, [], .ro, 0x0, [⟨31, 0, .plain, .any⟩]⟩,
  ⟨0x4002c, [], .ro, 0x0, [⟨31, 0, .plain, .any⟩]⟩,
  ⟨0x40030, [], .ro, 0x0, [⟨31, 0, .plain, .any⟩]⟩,
  ⟨0x40040, [(4, 0x4)], .ro, 0x4000, [⟨15, 0, .plain, .any⟩]⟩,
  ⟨0x40080, [(8, 0x8)], .ro, 0, [⟨2, 0, .plain, .any⟩]⟩,
  ⟨0x40084, [(8, 0x8)], .ro, 0, [⟨31, 0, .plain, .any⟩]⟩,
  ⟨0x40100, [(32, 0x10)], .st, 0x4000000, [⟨31, 16, .plain, .any⟩, ⟨2, 0, .plain, .any⟩]⟩,
  ⟨0x40104, [(32, 0x10)], .st, 0x0, [⟨31, 31, .plain, .any⟩, ⟨12, 0, .plain, (.rng 0 4096)⟩]⟩,
  ⟨0x40108, [(32, 0x10)], .ro, 0, [⟨31, 0, .plain, .any⟩]⟩,
  ⟨0x4010c, [(32, 0x10)], .ro, 0, [⟨15, 0, .plain, .any⟩]⟩,
  ⟨0x41000, [(32, 0x40), (4, 0x10), (3, 0x4)], .st, 0x4000, [⟨31, 0, .plain, .any⟩]⟩,
  ⟨0x4100c, [(32, 0x40), (4, 0x10)], .ro, 0x0, []⟩,
  ⟨0x44000, [(32, 0x200), (128, 0x4)], .st, 0x0, [⟨31, 30, .plain, .any⟩, ⟨29, 28, .plain, .any⟩, ⟨25, 18, .plain, .any⟩, ⟨16, 0, .plain, .any⟩]⟩,
  ⟨0x4a000, [(3, 0x2000), (2048, 0x4)], .st, 0, [⟨31, 0, .plain, .any⟩]⟩]

/-- The rows of page 0x4. -/
def pixRows : List Row := pixRows0

/-- Rows of page 0x5, part 0. -/
def pageRows0 : List Row := [
  ⟨0x50000, [], .st, 0x7, [⟨9, 8, .plain, (.rng 0 1)⟩, ⟨7, 7, .plain, .any⟩, ⟨6, 6, .plain, .any⟩, ⟨5, 4, .plain, .any⟩, ⟨2, 0, .plain, .any⟩]⟩,
  ⟨0x50004, [], .st, 0x2000, [⟨31, 0, .plain, (.rng 1 1048576)⟩]⟩,
  ⟨0x50008, [], .st, 0x40000, [⟨31, 0, .plain, (.rng 1 1048576)⟩]⟩,
  ⟨0x5000c, [], .st, 0x0, [⟨7, 7, .plain, .any⟩, ⟨4, 0, .plain, (.rng 0 17)⟩]⟩,
  ⟨0x50010, [], .st, 0x0, [⟨31, 0, .plain, (.srng (-1048576) 1048575)⟩]⟩,
  ⟨0x50014, [], .st, 0x400040, [⟨31, 16, .plain, .any⟩, ⟨15, 0, .plain, .any⟩]⟩,
  ⟨0x50018, [], .st, 0x0, [⟨31, 0, .plain, (.rng 0 65535)⟩]⟩,
  ⟨0x5001c, [], .st, 0x0, [⟨31, 0, .plain, (.rng 0 1048575)⟩]⟩,
  ⟨0x50020, [], .st, 0x10000, [⟨31, 0, .plain, (.rng 1 65536)⟩]⟩,
  ⟨0x50024, [], .st, 0x100000, [⟨31, 0, .plain, (.rng 1 1048576)⟩]⟩,
  ⟨0x50028, [], .st, 0x100010, [⟨31, 16, .plain, (.rng 0 4096)⟩, ⟨15, 0, .plain, (.rng 0 4096)⟩]⟩,
  ⟨0x5002c, [], .st, 0x8000804, [⟨31, 16, .plain, (.rng 1 65535)⟩, ⟨15, 8, .plain, (.rng 1 255)⟩, ⟨3, 2, .plain, .any⟩, ⟨1, 0, .plain, .any⟩]⟩,
  ⟨0x50030, [], .st, 0x0, [⟨15, 0, .plain, .any⟩]⟩,
  ⟨0x50034, [], .st, 0x10000, [⟨31, 0, .plain, (.rng 16384 262144)⟩]⟩,
  ⟨0x50038, [], .st, 0xffff, [⟨15, 0, .plain, .any⟩]⟩,
  ⟨0x5003c, [], .st, 0x0, [⟨31, 16, .plain, .any⟩, ⟨0, 0, .plain, .any⟩]⟩,
  ⟨0x50040, [], .st, 0xc000, [⟨31, 0, .plain, (.rng 4096 51200)⟩]⟩,
  ⟨0x50044, [], .rw, 0x3e8, [⟨31, 0, .plain, (.rng 200 100000)⟩]⟩,
  ⟨0x50048, [], .ro, 0, [⟨23, 8, .plain, .any⟩, ⟨3, 0, .plain, .any⟩]⟩,
  ⟨0x5004c, [], .ro, 0x0, [⟨15, 0, .plain, .any⟩]⟩,
  ⟨0x50050, [], .ro, 0, [⟨31, 0, .plain, .any⟩]⟩,
  ⟨0x50054, [], .ro, 0x0, [⟨31, 0, .plain, .any⟩]⟩,
  ⟨0x50060, [], .ro, 0x0, [⟨31, 0, .plain, .any⟩]⟩,
  ⟨0x50064, [], .ro, 0x0, [⟨31, 0, .plain, .any⟩]⟩,
  ⟨0x50068, [], .ro, 0x0, [⟨31, 0, .plain, .any⟩]⟩,
  ⟨0x5006c, [], .ro, 0x0, [⟨31, 0, .plain, .any⟩]⟩,
  ⟨0x50070, [], .ro, 0x0, [⟨31, 0, .plain, .any⟩]⟩,
  ⟨0x50074, [], .ro, 0x0, [⟨31, 0, .plain, .any⟩]⟩,
  ⟨0x50078, [], .ro, 0x0, [⟨31, 0, .plain, .any⟩]⟩,
  ⟨0x5007c, [], .ro, 0x0, [⟨31, 0, .plain, .any⟩]⟩]

/-- Rows of page 0x5, part 1. -/
def pageRows1 : List Row := [
  ⟨0x50080, [], .ro, 0x0, [⟨31, 0, .plain, .any⟩]⟩,
  ⟨0x50084, [], .ro, 0x0, [⟨31, 0, .plain, .any⟩]⟩,
  ⟨0x50088, [], .ro, 0x0, [⟨31, 0, .plain, .any⟩]⟩,
  ⟨0x51000, [(64, 0x40)], .rw, 0x0, [⟨1, 0, .plain, (.rng 0 2)⟩]⟩,
  ⟨0x51004, [(64, 0x40)], .rw, 0x0, [⟨31, 0, .plain, .any⟩]⟩,
  ⟨0x51008, [(64, 0x40)], .rw, 0x0, [⟨31, 0, .plain, .any⟩]⟩,
  ⟨0x5100c, [(64, 0x40)], .rw, 0x0, [⟨31, 0, .plain, (.zrng 16 1048576)⟩]⟩,
  ⟨0x51010, [(64, 0x40)], .rw, 0x0, [⟨31, 0, .plain, .any⟩]⟩,
  ⟨0x51014, [(64, 0x40)], .rw, 0x0, [⟨31, 0, .plain, .any⟩]⟩,
  ⟨0x51018, [(64, 0x40)], .rw, 0x0, [⟨31, 0, .plain, .any⟩]⟩,
  ⟨0x5101c, [(64, 0x40)], .rw, 0x0, [⟨31, 0, .plain, (.zrng 16 65536)⟩]⟩,
  ⟨0x51020, [(64, 0x40)], .rw, 0x0, [⟨31, 0, .plain, .any⟩]⟩,
  ⟨0x51024, [(64, 0x40)], .rw, 0x0, [⟨31, 0, .plain, .any⟩]⟩,
  ⟨0x51028, [(64, 0x40)], .rw, 0x0, [⟨31, 0, .plain, .any⟩]⟩,
  ⟨0x5102c, [(64, 0x40)], .ro, 0x0, [⟨31, 0, .plain, .any⟩]⟩,
  ⟨0x51030, [(64, 0x40)], .ro, 0x0, [⟨31, 0, .plain, .any⟩]⟩,
  ⟨0x51034, [(64, 0x40)], .rw, 0x1000, [⟨31, 0, .plain, (.rng 64 65535)⟩]⟩,
  ⟨0x51038, [(64, 0x40)], .rw, 0xc117, [⟨15, 0, .plain, (.rng 1 65535)⟩]⟩,
  ⟨0x5103c, [(64, 0x40)], .ro, 0x0, []⟩]

/-- The rows of page 0x5. -/
def pageRows : List Row := pageRows0 ++ pageRows1

/-- Rows of page 0x6, part 0. -/
def lmpRows0 : List Row := [
  ⟨0x60000, [], .st, 0x10, [⟨5, 4, .plain, .any⟩, ⟨1, 0, .plain, .any⟩]⟩,
  ⟨0x60004, [], .st, 0x30e, [⟨31, 0, .plain, (.rng 782 65535)⟩]⟩,
  ⟨0x60008, [], .ro, 0, [⟨31, 30, .plain, .any⟩, ⟨15, 0, .plain, .any⟩]⟩,
  ⟨0x6000c, [], .rw, 0xa, [⟨31, 0, .plain, (.rng 1 1000)⟩]⟩,
  ⟨0x60010, [], .rw, 0x640001, [⟨31, 16, .plain, (.rng 1 65535)⟩, ⟨0, 0, .plain, .any⟩]⟩,
  ⟨0x60014, [], .rw, 0x32, [⟨15, 0, .plain, (.rng 1 1000)⟩]⟩,
  ⟨0x60018, [], .rw, 0x32, [⟨15, 0, .plain, (.rng 1 500)⟩]⟩,
  ⟨0x6001c, [], .ro, 0, [⟨31, 31, .plain, .any⟩, ⟨15, 0, .plain, .any⟩]⟩,
  ⟨0x60020, [], .ro, 0x0, [⟨31, 0, .plain, .any⟩]⟩,
  ⟨0x60024, [], .ro, 0x0, [⟨31, 0, .plain, .any⟩]⟩,
  ⟨0x60028, [], .ro, 0x0, [⟨31, 0, .plain, .any⟩]⟩,
  ⟨0x6002c, [], .ro, 0x0, [⟨31, 0, .plain, .any⟩]⟩,
  ⟨0x60030, [], .ro, 0x0, [⟨31, 0, .plain, .any⟩]⟩,
  ⟨0x60034, [], .ro, 0x0, [⟨31, 0, .plain, .any⟩]⟩,
  ⟨0x60038, [], .ro, 0x0, [⟨31, 0, .plain, .any⟩]⟩,
  ⟨0x6003c, [], .ro, 0x0, [⟨31, 0, .plain, .any⟩]⟩,
  ⟨0x60100, [(4, 0x10)], .st, 0x4000007f, [⟨31, 16, .plain, .any⟩, ⟨6, 0, .plain, (.orv 0 95 127)⟩]⟩,
  ⟨0x60104, [(4, 0x10)], .st, 0x0, [⟨15, 0, .plain, .any⟩]⟩,
  ⟨0x60108, [(4, 0x10)], .ro, 0, [⟨31, 0, .plain, .any⟩]⟩,
  ⟨0x6010c, [(4, 0x10)], .ro, 0, [⟨15, 0, .plain, .any⟩]⟩,
  ⟨0x60200, [(4, 0x40), (16, 0x4)], .st, 0x40004000, [⟨31, 16, .plain, .any⟩, ⟨15, 0, .plain, .any⟩]⟩,
  ⟨0x60400, [(16, 0x40)], .st, 0x1800000, [⟨31, 31, .plain, .any⟩, ⟨29, 28, .plain, .any⟩, ⟨24, 16, .plain, (.rng 8 384)⟩]⟩,
  ⟨0x60404, [(16, 0x40)], .st, 0x80, [⟨20, 0, .plain, (.rng 128 2097151)⟩]⟩,
  ⟨0x60408, [(16, 0x40)], .ro, 0, [⟨31, 23, .plain, .any⟩, ⟨20, 0, .plain, .any⟩]⟩,
  ⟨0x6040c, [(16, 0x40)], .st, 0xf000100, [⟨27, 16, .plain, .any⟩, ⟨11, 0, .plain, .any⟩]⟩,
  ⟨0x60410, [(16, 0x40)], .st, 0x80, [⟨11, 0, .plain, .any⟩]⟩,
  ⟨0x60414, [(16, 0x40)], .ro, 0x0, [⟨27, 16, .plain, .any⟩, ⟨11, 0, .plain, .any⟩]⟩,
  ⟨0x60418, [(16, 0x40)], .ro, 0x0, [⟨15, 0, .plain, .any⟩]⟩,
  ⟨0x6041c, [(16, 0x40)], .ro, 0x0, [⟨15, 0, .plain, .any⟩]⟩,
  ⟨0x60420, [(16, 0x40)], .ro, 0x0, [⟨31, 24, .ro, .any⟩, ⟨5, 5, .w1c, .any⟩, ⟨3, 3, .ro, .any⟩, ⟨2, 0, .w1c, .any⟩]⟩]

/-- Rows of page 0x6, part 1. -/
def lmpRows1 : List Row := [
  ⟨0x60424, [(16, 0x40)], .ro, 0x0, [⟨31, 0, .plain, .any⟩]⟩,
  ⟨0x60428, [(16, 0x40)], .ro, 0x0, [⟨31, 0, .plain, .any⟩]⟩,
  ⟨0x6042c, [(16, 0x40)], .ro, 0x0, [⟨31, 0, .plain, .any⟩]⟩,
  ⟨0x60430, [(16, 0x40), (4, 0x4)], .ro, 0x0, []⟩,
  ⟨0x64000, [(16, 0x100), (48, 0x4)], .st, 0x0, [⟨31, 0, .plain, .any⟩]⟩,
  ⟨0x68000, [(16, 0x40), (14, 0x4)], .ro, 0x0, [⟨8, 0, .plain, .any⟩]⟩]

/-- The rows of page 0x6. -/
def lmpRows : List Row := lmpRows0 ++ lmpRows1

/-- Rows of page 0x7, part 0. -/
def motRows0 : List Row := [
  ⟨0x70000, [], .ro, 0x0, [⟨17, 0, .plain, .any⟩]⟩,
  ⟨0x70004, [], .ro, 0x0, [⟨17, 0, .plain, .any⟩]⟩,
  ⟨0x70008, [], .rw, 0x8, [⟨31, 0, .plain, (.rng 2 255)⟩]⟩,
  ⟨0x7000c, [], .rw, 0x5, [⟨31, 0, .plain, (.rng 1 1000)⟩]⟩,
  ⟨0x70010, [], .rw, 0xa, [⟨31, 0, .plain, (.rng 1 3600)⟩]⟩,
  ⟨0x70020, [], .ro, 0x0, [⟨31, 0, .plain, .any⟩]⟩,
  ⟨0x70024, [], .ro, 0x0, [⟨31, 0, .plain, .any⟩]⟩,
  ⟨0x70028, [], .ro, 0x0, [⟨31, 0, .plain, .any⟩]⟩,
  ⟨0x7002c, [], .ro, 0x0, [⟨31, 0, .plain, .any⟩]⟩,
  ⟨0x70030, [], .ro, 0x0, [⟨31, 0, .plain, .any⟩]⟩,
  ⟨0x70034, [], .ro, 0x0, [⟨31, 0, .plain, .any⟩]⟩,
  ⟨0x70038, [], .ro, 0x0, [⟨31, 0, .plain, .any⟩]⟩,
  ⟨0x7003c, [], .ro, 0x0, [⟨31, 0, .plain, .any⟩]⟩,
  ⟨0x70040, [], .ro, 0x0, [⟨31, 0, .plain, .any⟩]⟩,
  ⟨0x70100, [(12, 0x40)], .st, 0x40701905, [⟨31, 26, .plain, .any⟩, ⟨22, 20, .plain, (.exc 0 7 6)⟩, ⟨15, 8, .plain, (.rng 1 255)⟩, ⟨6, 0, .plain, (.rng 5 127)⟩]⟩,
  ⟨0x70104, [(12, 0x40)], .st, 0x7a120, [⟨31, 0, .plain, (.rng 1 5000000)⟩]⟩,
  ⟨0x70108, [(12, 0x40)], .st, 0x0, [⟨31, 0, .plain, (.rng 0 5000000)⟩]⟩,
  ⟨0x7010c, [(12, 0x40)], .st, 0x10000, [⟨31, 0, .plain, .any⟩]⟩,
  ⟨0x70110, [(12, 0x40)], .st, 0x100, [⟨31, 16, .plain, .any⟩, ⟨15, 0, .plain, (.rng 1 65535)⟩]⟩,
  ⟨0x70114, [(12, 0x40)], .st, 0x1f1f, [⟨16, 16, .plain, .any⟩, ⟨12, 8, .plain, (.orv 0 17 31)⟩, ⟨4, 0, .plain, (.orv 0 17 31)⟩]⟩,
  ⟨0x70118, [(12, 0x40)], .st, 0xf4240, [⟨31, 0, .plain, (.rng 1 4294967295)⟩]⟩,
  ⟨0x7011c, [(12, 0x40)], .st, 0x1f, [⟨31, 30, .plain, .any⟩, ⟨4, 0, .plain, (.orv 0 17 31)⟩]⟩,
  ⟨0x70120, [(12, 0x40)], .st, 0x2710, [⟨31, 0, .plain, (.rng 1 4294967295)⟩]⟩,
  ⟨0x70124, [(12, 0x40)], .st, 0x186a0, [⟨31, 0, .plain, (.rng 1 4294967295)⟩]⟩,
  ⟨0x70128, [(12, 0x40)], .st, 0x1000000, [⟨31, 0, .plain, (.rng 1 4294967295)⟩]⟩,
  ⟨0x7012c, [(12, 0x40)], .st, 0x0, [⟨31, 0, .plain, .any⟩]⟩,
  ⟨0x70130, [(12, 0x40)], .sn, 0, [⟨31, 0, .plain, .any⟩]⟩,
  ⟨0x70134, [(12, 0x40)], .sn, 0, [⟨31, 0, .plain, .any⟩]⟩,
  ⟨0x70138, [(12, 0x40)], .ro, 0, [⟨31, 0, .plain, .any⟩]⟩,
  ⟨0x7013c, [(12, 0x40)], .ro, 0, [⟨31, 26, .ro, .any⟩, ⟨3, 0, .w1c, .any⟩]⟩]

/-- Rows of page 0x7, part 1. -/
def motRows1 : List Row := [
  ⟨0x70400, [(4, 0x40)], .st, 0x0, [⟨1, 0, .plain, .any⟩]⟩,
  ⟨0x70404, [(4, 0x40)], .ro, 0, [⟨31, 28, .plain, .any⟩, ⟨21, 16, .plain, .any⟩, ⟨11, 8, .plain, .any⟩, ⟨2, 0, .plain, .any⟩]⟩,
  ⟨0x70408, [(4, 0x40)], .ro, 0, [⟨31, 0, .plain, .any⟩]⟩,
  ⟨0x7040c, [(4, 0x40)], .ro, 0, [⟨31, 0, .plain, .any⟩]⟩,
  ⟨0x70410, [(4, 0x40)], .sn, 0, [⟨31, 0, .plain, .any⟩]⟩,
  ⟨0x70414, [(4, 0x40)], .sn, 0, [⟨31, 0, .plain, .any⟩]⟩,
  ⟨0x70418, [(4, 0x40)], .ro, 0, [⟨31, 0, .plain, .any⟩]⟩,
  ⟨0x7041c, [(4, 0x40)], .w1c, 0x0, [⟨5, 0, .w1c, .any⟩]⟩,
  ⟨0x70420, [(4, 0x40), (8, 0x4)], .ro, 0x0, []⟩,
  ⟨0x70600, [(18, 0x4)], .st, 0x10, [⟨31, 31, .plain, .any⟩, ⟨15, 0, .plain, (.rng 1 65535)⟩]⟩,
  ⟨0x70700, [(6, 0x20)], .st, 0x4, [⟨8, 8, .plain, .any⟩, ⟨3, 0, .plain, .any⟩]⟩,
  ⟨0x70704, [(6, 0x20)], .sn, 0, [⟨31, 0, .plain, .any⟩]⟩,
  ⟨0x70708, [(6, 0x20)], .sn, 0, [⟨15, 0, .plain, .any⟩]⟩,
  ⟨0x7070c, [(6, 0x20)], .sn, 0, [⟨31, 0, .plain, .any⟩]⟩,
  ⟨0x70710, [(6, 0x20)], .sn, 0, [⟨15, 0, .plain, .any⟩]⟩,
  ⟨0x70714, [(6, 0x20)], .ro, 0x0, [⟨31, 0, .plain, .any⟩]⟩,
  ⟨0x70718, [(6, 0x20)], .ro, 0x0, [⟨31, 0, .plain, .any⟩]⟩,
  ⟨0x7071c, [(6, 0x20)], .ro, 0x0, []⟩]

/-- The rows of page 0x7. -/
def motRows : List Row := motRows0 ++ motRows1

/-- Rows of page 0x8, part 0. -/
def coxRows0 : List Row := [
  ⟨0x80000, [], .st, 0x1, [⟨0, 0, .plain, .any⟩]⟩,
  ⟨0x80004, [], .st, 0x1000, [⟨31, 0, .plain, (.rng 64 51200)⟩]⟩,
  ⟨0x80008, [], .st, 0x2000, [⟨31, 0, .plain, (.rng 64 51200)⟩]⟩,
  ⟨0x8000c, [], .st, 0x4000, [⟨31, 0, .plain, (.rng 64 51200)⟩]⟩,
  ⟨0x80010, [], .st, 0x3e8, [⟨31, 0, .plain, (.rng 1 5000000)⟩]⟩,
  ⟨0x80014, [], .st, 0x4c4b40, [⟨31, 0, .plain, (.rng 1 5000000)⟩]⟩,
  ⟨0x80018, [], .st, 0xc8, [⟨31, 0, .plain, (.rng 10 10000)⟩]⟩,
  ⟨0x8001c, [], .st, 0x2000, [⟨15, 0, .plain, (.rng 1638 16384)⟩]⟩,
  ⟨0x80020, [], .st, 0x10000, [⟨31, 0, .plain, (.rng 4096 4294967295)⟩]⟩,
  ⟨0x80024, [], .ro, 0, [⟨31, 26, .plain, .any⟩, ⟨23, 16, .plain, .any⟩]⟩,
  ⟨0x80028, [], .ro, 0, [⟨31, 0, .plain, .any⟩]⟩,
  ⟨0x8002c, [], .ro, 0, [⟨31, 0, .plain, .any⟩]⟩,
  ⟨0x80030, [], .ro, 0, [⟨31, 0, .plain, .any⟩]⟩,
  ⟨0x80034, [], .ro, 0, [⟨31, 0, .plain, .any⟩]⟩,
  ⟨0x80038, [], .ro, 0, [⟨31, 0, .plain, .any⟩]⟩,
  ⟨0x8003c, [], .ro, 0x0, [⟨31, 0, .plain, .any⟩]⟩,
  ⟨0x80040, [], .ro, 0x0, [⟨31, 0, .plain, .any⟩]⟩,
  ⟨0x80044, [], .ro, 0x0, [⟨31, 0, .plain, .any⟩]⟩]

/-- The rows of page 0x8. -/
def coxRows : List Row := coxRows0

/-- Rows of page 0x9, part 0. -/
def clsRows0 : List Row := [
  ⟨0x90000, [], .st, 0x103, [⟨9, 8, .plain, (.rng 0 2)⟩, ⟨5, 4, .plain, .any⟩, ⟨1, 0, .plain, .any⟩]⟩,
  ⟨0x90004, [], .st, 0x20, [⟨31, 0, .plain, (.rng 8 64)⟩]⟩,
  ⟨0x90008, [], .st, 0x30, [⟨31, 0, .plain, (.rng 16 4096)⟩]⟩,
  ⟨0x9000c, [], .st, 0x40, [⟨31, 0, .plain, (.rng 16 64)⟩]⟩,
  ⟨0x90010, [], .st, 0x4, [⟨31, 0, .plain, (.rng 1 8)⟩]⟩,
  ⟨0x90014, [], .st, 0x999a, [⟨31, 0, .plain, (.rng 1 65535)⟩]⟩,
  ⟨0x90018, [], .st, 0x100, [⟨31, 0, .plain, (.rng 0 65535)⟩]⟩,
  ⟨0x9001c, [], .st, 0x800, [⟨31, 16, .plain, .any⟩, ⟨15, 0, .plain, (.rng 256 4096)⟩]⟩,
  ⟨0x90020, [], .ro, 0, [⟨31, 28, .plain, .any⟩, ⟨23, 16, .plain, .any⟩, ⟨7, 0, .plain, .any⟩]⟩,
  ⟨0x90024, [], .ro, 0x0, [⟨31, 8, .plain, .any⟩, ⟨0, 0, .plain, .any⟩]⟩,
  ⟨0x90028, [], .ro, 0x0, [⟨15, 0, .plain, .any⟩]⟩,
  ⟨0x9002c, [], .ro, 0, [⟨31, 0, .plain, .any⟩]⟩,
  ⟨0x90030, [], .sn, 0, [⟨31, 0, .plain, .any⟩]⟩,
  ⟨0x90034, [], .sn, 0, [⟨15, 0, .plain, .any⟩]⟩,
  ⟨0x90038, [], .ro, 0x0, [⟨31, 0, .plain, .any⟩]⟩,
  ⟨0x9003c, [], .ro, 0x0, [⟨31, 0, .plain, .any⟩]⟩,
  ⟨0x90040, [], .ro, 0x0, [⟨31, 0, .plain, .any⟩]⟩,
  ⟨0x90044, [], .ro, 0x0, [⟨31, 0, .plain, .any⟩]⟩]

/-- The rows of page 0x9. -/
def clsRows : List Row := clsRows0

/-- Rows of page 0xa, part 0. -/
def calRows0 : List Row := [
  ⟨0xa0000, [], .rw, 0x7, [⟨2, 0, .plain, .any⟩]⟩,
  ⟨0xa0004, [], .rw, 0x0, [⟨0, 0, .plain, .any⟩]⟩,
  ⟨0xa0008, [], .rw, 0x40, [⟨31, 0, .plain, (.rng 16 320)⟩]⟩,
  ⟨0xa000c, [], .rw, 0x32, [⟨31, 0, .plain, (.rng 1 500)⟩]⟩,
  ⟨0xa0010, [], .rw, 0x3e8, [⟨31, 0, .plain, (.rng 1000 60000)⟩]⟩,
  ⟨0xa0014, [], .rw, 0x8, [⟨31, 0, .plain, (.rng 1 1024)⟩]⟩,
  ⟨0xa0018, [], .rw, 0x1000040, [⟨31, 16, .plain, (.rng 16 4096)⟩, ⟨15, 0, .plain, (.rng 16 4096)⟩]⟩,
  ⟨0xa001c, [], .rw, 0x140064, [⟨31, 16, .plain, (.rng 0 10000)⟩, ⟨15, 0, .plain, (.rng 1 500)⟩]⟩,
  ⟨0xa0020, [], .rw, 0xea60, [⟨15, 0, .plain, (.rng 1024 65535)⟩]⟩,
  ⟨0xa0024, [], .rw, 0x400, [⟨31, 0, .plain, (.rng 1 65535)⟩]⟩,
  ⟨0xa0028, [], .ro, 0, [⟨31, 16, .plain, .any⟩, ⟨11, 4, .plain, .any⟩, ⟨0, 0, .plain, .any⟩]⟩,
  ⟨0xa002c, [], .ro, 0x0, [⟨31, 0, .plain, .any⟩]⟩,
  ⟨0xa0030, [], .ro, 0x1, [⟨31, 0, .plain, .any⟩]⟩,
  ⟨0xa0034, [], .ro, 0x0, [⟨31, 0, .plain, .any⟩]⟩,
  ⟨0xa0038, [], .ro, 0x0, [⟨31, 0, .plain, .any⟩]⟩,
  ⟨0xa003c, [], .ro, 0x0, [⟨31, 0, .plain, .any⟩]⟩,
  ⟨0xa0040, [], .ro, 0x0, [⟨31, 0, .plain, .any⟩]⟩,
  ⟨0xa0044, [], .rw, 0x0, [⟨31, 0, .plain, (.zrng 1140000 1260000)⟩]⟩,
  ⟨0xa0048, [], .ro, 0x0, [⟨31, 0, .plain, .any⟩]⟩,
  ⟨0xa004c, [], .ro, 0x40000000, [⟨31, 0, .plain, .any⟩]⟩,
  ⟨0xa0050, [(4, 0x4)], .ro, 0x0, [⟨15, 0, .plain, .any⟩]⟩,
  ⟨0xa0060, [], .ro, 0x0, [⟨15, 0, .plain, .any⟩]⟩,
  ⟨0xa0064, [], .ro, 0x0, [⟨15, 0, .plain, .any⟩]⟩,
  ⟨0xa0080, [], .ro, 0x0, [⟨31, 0, .plain, .any⟩]⟩,
  ⟨0xa0084, [], .ro, 0x0, [⟨31, 0, .plain, .any⟩]⟩,
  ⟨0xa0088, [], .ro, 0x0, [⟨31, 0, .plain, .any⟩]⟩,
  ⟨0xa008c, [], .ro, 0x0, [⟨31, 0, .plain, .any⟩]⟩,
  ⟨0xa0090, [], .ro, 0x0, [⟨31, 0, .plain, .any⟩]⟩,
  ⟨0xa0094, [], .ro, 0x0, [⟨31, 0, .plain, .any⟩]⟩,
  ⟨0xa0098, [], .ro, 0x0, [⟨31, 0, .plain, .any⟩]⟩]

/-- Rows of page 0xa, part 1. CAL_BREF reads unset from RESET on (R311), where the Reset column of R332 has 0 (DESIGN CHOICE,
log 203). -/
def calRows1 : List Row := [
  ⟨0xa009c, [], .ro, 0x0, [⟨31, 0, .plain, .any⟩]⟩,
  ⟨0xa00a0, [], .ro, 0x400000, [⟨23, 0, .plain, .any⟩]⟩,
  ⟨0xa0100, [(4, 0x4)], .ro, 0x0, [⟨31, 0, .plain, .any⟩]⟩,
  ⟨0xa0200, [(68, 0x4)], .ro, 0x0, [⟨31, 16, .plain, .any⟩, ⟨0, 0, .plain, .any⟩]⟩,
  ⟨0xa0400, [(24, 0x4)], .ro, 0x0, [⟨31, 16, .plain, .any⟩]⟩,
  ⟨0xa0480, [(4, 0x4)], .ro, 0x0, [⟨31, 16, .plain, .any⟩]⟩,
  ⟨0xa4000, [(384, 0x4)], .ro, 0x0, [⟨23, 0, .plain, .any⟩]⟩,
  ⟨0xa5000, [(384, 0x8)], .ro, 0xffffffff, [⟨31, 0, .plain, .any⟩]⟩,
  ⟨0xa5004, [(384, 0x8)], .ro, 0xffff, [⟨15, 0, .plain, .any⟩]⟩]

/-- The rows of page 0xa. -/
def calRows : List Row := calRows0 ++ calRows1

/-- Rows of page 0xb, part 0. -/
def dmaRows0 : List Row := [
  ⟨0xb0000, [], .rw, 0x200000, [⟨31, 16, .plain, (.rng 1 200)⟩]⟩,
  ⟨0xb0004, [], .rw, 0x400, [⟨31, 0, .plain, (.rng 64 2048)⟩]⟩,
  ⟨0xb0008, [], .rw, 0xa, [⟨31, 0, .plain, (.rng 1 1000)⟩]⟩,
  ⟨0xb000c, [], .ro, 0, [⟨31, 0, .plain, .any⟩]⟩,
  ⟨0xb0010, [], .ro, 0, [⟨28, 16, .plain, .any⟩, ⟨12, 0, .plain, .any⟩]⟩,
  ⟨0xb0014, [], .ro, 0xc0000000, [⟨31, 0, .plain, .any⟩]⟩,
  ⟨0xb0018, [], .ro, 0, [⟨31, 0, .plain, .any⟩]⟩,
  ⟨0xb001c, [], .ro, 0, [⟨31, 0, .plain, .any⟩]⟩,
  ⟨0xb0040, [], .ro, 0x0, [⟨31, 0, .plain, .any⟩]⟩,
  ⟨0xb0044, [], .ro, 0x0, [⟨31, 0, .plain, .any⟩]⟩,
  ⟨0xb0048, [], .ro, 0x0, [⟨31, 0, .plain, .any⟩]⟩,
  ⟨0xb004c, [], .ro, 0x0, [⟨31, 0, .plain, .any⟩]⟩,
  ⟨0xb0050, [], .ro, 0x0, [⟨31, 0, .plain, .any⟩]⟩,
  ⟨0xb0054, [], .ro, 0x0, [⟨31, 0, .plain, .any⟩]⟩,
  ⟨0xb0058, [], .ro, 0x0, [⟨31, 0, .plain, .any⟩]⟩,
  ⟨0xb005c, [], .ro, 0x0, [⟨31, 0, .plain, .any⟩]⟩,
  ⟨0xb0060, [], .ro, 0x0, [⟨31, 0, .plain, .any⟩]⟩,
  ⟨0xb0064, [], .ro, 0x0, [⟨31, 0, .plain, .any⟩]⟩,
  ⟨0xb0068, [], .ro, 0x0, [⟨31, 0, .plain, .any⟩]⟩,
  ⟨0xb006c, [], .ro, 0x0, [⟨31, 0, .plain, .any⟩]⟩,
  ⟨0xb0100, [(16, 0x20)], .rw, 0x1, [⟨19, 16, .plain, .any⟩, ⟨10, 8, .plain, (.rng 0 4)⟩, ⟨5, 4, .plain, .any⟩, ⟨2, 2, .plain, .any⟩, ⟨1, 1, .wo, .any⟩, ⟨0, 0, .plain, .any⟩]⟩,
  ⟨0xb0104, [(16, 0x20)], .rw, 0x3e8, [⟨31, 0, .plain, (.rng 1 1000000)⟩]⟩,
  ⟨0xb0108, [(16, 0x20)], .ro, 0, [⟨31, 28, .ro, .any⟩, ⟨20, 8, .ro, .any⟩, ⟨2, 0, .w1c, .any⟩]⟩,
  ⟨0xb010c, [(16, 0x20)], .sn, 0, [⟨31, 0, .plain, .any⟩]⟩,
  ⟨0xb0110, [(16, 0x20)], .sn, 0, [⟨31, 0, .plain, .any⟩]⟩,
  ⟨0xb0114, [(16, 0x20)], .sn, 0, [⟨31, 0, .plain, .any⟩]⟩,
  ⟨0xb0118, [(16, 0x20)], .sn, 0, [⟨31, 0, .plain, .any⟩]⟩,
  ⟨0xb011c, [(16, 0x20)], .ro, 0x0, [⟨31, 24, .ro, .any⟩, ⟨23, 23, .w1c, .any⟩, ⟨22, 22, .ro, .any⟩, ⟨15, 0, .ro, .any⟩]⟩]

/-- The rows of page 0xb. -/
def dmaRows : List Row := dmaRows0

/-- Rows of page 0xc, part 0. -/
def netRows0 : List Row := [
  ⟨0xc0200, [], .rw, 0x800005dc, [⟨31, 31, .plain, .any⟩, ⟨29, 28, .ro, .any⟩, ⟨27, 20, .plain, .any⟩, ⟨17, 16, .plain, (.rng 0 0)⟩, ⟨13, 0, .plain, (.rng 1280 1500)⟩]⟩,
  ⟨0xc024c, [], .ro, 0x0, []⟩,
  ⟨0xc0250, [], .ro, 0x0, []⟩,
  ⟨0xc0254, [(2, 0x4)], .ro, 0x0, []⟩,
  ⟨0xc026c, [], .ro, 0x0, []⟩,
  ⟨0xc0000, [], .wo, 0x0, [⟨0, 0, .wo, .any⟩]⟩,
  ⟨0xc0004, [], .ro, 0, [⟨2, 0, .plain, .any⟩]⟩,
  ⟨0xc0008, [], .ro, 0x0, [⟨31, 0, .plain, .any⟩]⟩,
  ⟨0xc000c, [], .ro, 0x0, [⟨31, 0, .plain, .any⟩]⟩,
  ⟨0xc0010, [], .rw, 0x3e8, [⟨31, 0, .plain, (.rng 100 100000)⟩]⟩,
  ⟨0xc0014, [], .rw, 0x7, [⟨31, 0, .plain, (.rng 0 7)⟩]⟩,
  ⟨0xc0100, [(2, 0x80)], .rw, 0x800005dc, [⟨31, 31, .plain, .any⟩, ⟨29, 28, .plain, (.rng 0 1)⟩, ⟨27, 20, .plain, .any⟩, ⟨17, 16, .plain, (.rng 0 2)⟩, ⟨13, 0, .plain, (.rng 1280 9000)⟩]⟩,
  ⟨0xc0104, [(3, 0x80)], .ro, 0x0, [⟨31, 29, .plain, .any⟩, ⟨27, 24, .plain, .any⟩]⟩,
  ⟨0xc0108, [(3, 0x80)], .ro, 0, [⟨15, 0, .plain, .any⟩]⟩,
  ⟨0xc010c, [(3, 0x80)], .ro, 0, [⟨31, 0, .plain, .any⟩]⟩,
  ⟨0xc0110, [(3, 0x80)], .rw, 0x0, [⟨31, 0, .plain, .any⟩]⟩,
  ⟨0xc0114, [(3, 0x80)], .rw, 0x18, [⟨5, 0, .plain, (.rng 1 32)⟩]⟩,
  ⟨0xc0118, [(3, 0x80)], .rw, 0x0, [⟨31, 0, .plain, .any⟩]⟩,
  ⟨0xc011c, [(3, 0x80), (4, 0x4)], .rw, 0x0, [⟨31, 0, .plain, .any⟩]⟩,
  ⟨0xc012c, [(3, 0x80)], .rw, 0x40, [⟨7, 0, .plain, (.rng 1 128)⟩]⟩,
  ⟨0xc0130, [(3, 0x80), (4, 0x4)], .rw, 0x0, [⟨31, 0, .plain, .any⟩]⟩,
  ⟨0xc0140, [(3, 0x80)], .rw, 0x0, [⟨16, 16, .plain, .any⟩, ⟨11, 0, .plain, (.rng 1 4094)⟩]⟩,
  ⟨0xc0144, [(3, 0x80)], .rw, 0x7060003, [⟨26, 24, .plain, .any⟩, ⟨18, 16, .plain, .any⟩, ⟨10, 8, .plain, .any⟩, ⟨2, 0, .plain, .any⟩]⟩,
  ⟨0xc0148, [(3, 0x80)], .rw, 0x2e10001a, [⟨29, 24, .plain, .any⟩, ⟨21, 16, .plain, .any⟩, ⟨13, 8, .plain, .any⟩, ⟨5, 0, .plain, .any⟩]⟩,
  ⟨0xc014c, [(2, 0x80)], .rw, 0x808, [⟨15, 0, .plain, .any⟩]⟩,
  ⟨0xc0150, [(2, 0x80)], .rw, 0x21800, [⟨19, 16, .plain, (.rng 0 7)⟩, ⟨12, 8, .plain, (.rng 16 31)⟩, ⟨3, 0, .plain, (.rng 0 7)⟩]⟩,
  ⟨0xc0154, [(2, 0x80)], .ro, 0x0, [⟨31, 0, .plain, .any⟩]⟩,
  ⟨0xc0158, [(2, 0x80)], .ro, 0x0, [⟨31, 0, .plain, .any⟩]⟩,
  ⟨0xc015c, [(3, 0x80)], .ro, 0x0, [⟨31, 0, .plain, .any⟩]⟩,
  ⟨0xc0160, [(3, 0x80)], .ro, 0x0, [⟨31, 0, .plain, .any⟩]⟩]

/-- Rows of page 0xc, part 1. -/
def netRows1 : List Row := [
  ⟨0xc0164, [(3, 0x80)], .ro, 0x0, [⟨31, 0, .plain, .any⟩]⟩,
  ⟨0xc0168, [(3, 0x80)], .ro, 0x0, [⟨31, 0, .plain, .any⟩]⟩,
  ⟨0xc016c, [(2, 0x80)], .ro, 0x0, [⟨31, 0, .plain, .any⟩]⟩,
  ⟨0xc0170, [(3, 0x80)], .ro, 0x0, [⟨31, 0, .plain, .any⟩]⟩,
  ⟨0xc0174, [(3, 0x80), (3, 0x4)], .ro, 0x0, []⟩,
  ⟨0xc0400, [], .ro, 0xc116c117, [⟨31, 0, .plain, .any⟩]⟩,
  ⟨0xc0404, [], .rw, 0x7d0, [⟨31, 0, .plain, (.rng 100 60000)⟩]⟩,
  ⟨0xc0408, [], .rw, 0x7d0, [⟨31, 0, .plain, (.rng 10 60000)⟩]⟩,
  ⟨0xc040c, [], .rw, 0x64, [⟨31, 0, .plain, (.rng 10 10000)⟩]⟩,
  ⟨0xc0410, [], .ro, 0, [⟨31, 0, .plain, .any⟩]⟩,
  ⟨0xc0414, [], .sn, 0, [⟨31, 0, .plain, .any⟩]⟩,
  ⟨0xc0418, [], .sn, 0, [⟨31, 0, .plain, .any⟩]⟩,
  ⟨0xc041c, [], .ro, 0x0, [⟨31, 0, .plain, .any⟩]⟩,
  ⟨0xc0420, [], .ro, 0x0, [⟨31, 0, .plain, .any⟩]⟩,
  ⟨0xc0424, [], .ro, 0x0, [⟨31, 0, .plain, .any⟩]⟩,
  ⟨0xc0428, [], .ro, 0x0, [⟨31, 0, .plain, .any⟩]⟩,
  ⟨0xc042c, [], .ro, 0x0, [⟨31, 0, .plain, .any⟩]⟩,
  ⟨0xc0430, [], .ro, 0x0, [⟨31, 0, .plain, .any⟩]⟩,
  ⟨0xc0434, [], .ro, 0x0, [⟨31, 0, .plain, .any⟩]⟩,
  ⟨0xc0438, [], .ro, 0x0, [⟨31, 0, .plain, .any⟩]⟩,
  ⟨0xc043c, [], .ro, 0x0, [⟨31, 0, .plain, .any⟩]⟩,
  ⟨0xc1000, [(64, 0x40)], .rw, 0x0, [⟨31, 29, .plain, .any⟩, ⟨24, 24, .plain, .any⟩, ⟨17, 16, .plain, (.rng 0 2)⟩]⟩,
  ⟨0xc1004, [(64, 0x40)], .rw, 0x0, [⟨23, 0, .plain, .any⟩]⟩,
  ⟨0xc1008, [(64, 0x40)], .rw, 0x0, [⟨23, 0, .plain, .any⟩]⟩,
  ⟨0xc100c, [(64, 0x40)], .rw, 0x0, [⟨23, 0, .plain, .any⟩]⟩,
  ⟨0xc1010, [(64, 0x40), (4, 0x4)], .rw, 0x0, [⟨31, 0, .plain, .any⟩]⟩,
  ⟨0xc1020, [(64, 0x40)], .ro, 0, [⟨23, 0, .plain, .any⟩]⟩,
  ⟨0xc1024, [(64, 0x40)], .ro, 0, [⟨31, 0, .plain, .any⟩]⟩,
  ⟨0xc1028, [(64, 0x40)], .ro, 0, [⟨31, 24, .plain, .any⟩, ⟨2, 0, .plain, .any⟩]⟩,
  ⟨0xc102c, [(64, 0x40)], .ro, 0x0, [⟨31, 0, .plain, .any⟩]⟩]

/-- Rows of page 0xc, part 2. -/
def netRows2 : List Row := [
  ⟨0xc1030, [(64, 0x40)], .ro, 0x0, [⟨31, 0, .plain, .any⟩]⟩,
  ⟨0xc1034, [(64, 0x40)], .ro, 0x0, [⟨31, 0, .plain, .any⟩]⟩,
  ⟨0xc1038, [(64, 0x40), (2, 0x4)], .ro, 0x0, []⟩]

/-- The rows of page 0xc. -/
def netRows : List Row := netRows0 ++ netRows1 ++ netRows2

/-- Rows of page 0xd, part 0. -/
def timRows0 : List Row := [
  ⟨0xd0000, [], .rw, 0xf4240, [⟨31, 0, .plain, (.rng 1000 1000000000)⟩]⟩,
  ⟨0xd0004, [], .rw, 0x1f4, [⟨31, 0, .plain, (.rng 1 1000)⟩]⟩,
  ⟨0xd0008, [], .sn, 0, [⟨31, 0, .plain, .any⟩]⟩,
  ⟨0xd000c, [], .sn, 0, [⟨31, 0, .plain, .any⟩]⟩,
  ⟨0xd0010, [], .sn, 0, [⟨31, 0, .plain, .any⟩]⟩,
  ⟨0xd0014, [], .sn, 0, [⟨31, 0, .plain, .any⟩]⟩,
  ⟨0xd0018, [], .sn, 0, [⟨31, 0, .plain, .any⟩]⟩,
  ⟨0xd001c, [], .sn, 0, [⟨31, 0, .plain, .any⟩]⟩,
  ⟨0xd0020, [], .sn, 0, [⟨31, 0, .plain, .any⟩]⟩,
  ⟨0xd0024, [], .ro, 0, [⟨31, 31, .plain, .any⟩, ⟨27, 24, .plain, .any⟩, ⟨16, 16, .plain, .any⟩, ⟨1, 0, .plain, .any⟩]⟩,
  ⟨0xd0028, [], .ro, 0x0, [⟨31, 0, .plain, .any⟩]⟩,
  ⟨0xd002c, [], .ro, 0x0, [⟨31, 0, .plain, .any⟩]⟩,
  ⟨0xd0030, [], .ro, 0x0, [⟨31, 0, .plain, .any⟩]⟩,
  ⟨0xd0100, [], .rw, 0x20000000, [⟨31, 28, .plain, .any⟩, ⟨25, 24, .plain, (.rng 0 2)⟩, ⟨15, 8, .plain, (.rng 0 127)⟩]⟩,
  ⟨0xd0104, [], .rw, 0x8080f8fe, [⟨31, 0, .plain, .any⟩]⟩,
  ⟨0xd0108, [], .rw, 0x10003, [⟨31, 24, .plain, (.srng (-4) 4)⟩, ⟨23, 16, .plain, (.srng (-3) 4)⟩, ⟨15, 8, .plain, (.srng (-4) 5)⟩, ⟨7, 0, .plain, (.rng 2 10)⟩]⟩,
  ⟨0xd010c, [], .rw, 0x0, [⟨31, 0, .plain, .any⟩]⟩,
  ⟨0xd0110, [], .rw, 0x0, [⟨31, 0, .plain, (.srng (-1000000) 1000000)⟩]⟩,
  ⟨0xd0114, [], .rw, 0x4ccd0ccd, [⟨31, 0, .plain, .any⟩]⟩,
  ⟨0xd0118, [], .rw, 0x64, [⟨31, 0, .plain, (.rng 1 1000000)⟩]⟩,
  ⟨0xd011c, [], .ro, 0x0, [⟨31, 0, .plain, .any⟩]⟩,
  ⟨0xd0120, [], .ro, 0x0, [⟨31, 0, .plain, .any⟩]⟩,
  ⟨0xd0124, [], .ro, 0x0, [⟨31, 0, .plain, .any⟩]⟩,
  ⟨0xd0128, [], .ro, 0x0, [⟨31, 0, .plain, .any⟩]⟩,
  ⟨0xd012c, [], .ro, 0x0, [⟨31, 0, .plain, .any⟩]⟩,
  ⟨0xd0130, [], .ro, 0x0, [⟨31, 0, .plain, .any⟩]⟩,
  ⟨0xd0134, [], .ro, 0x0, [⟨16, 0, .plain, .any⟩]⟩]

/-- The rows of page 0xd. -/
def timRows : List Row := timRows0

/-- Rows of page 0xe, part 0. -/
def fltRows0 : List Row := [
  ⟨0xe0000, [], .ro, 0, [⟨31, 28, .plain, .any⟩, ⟨2, 0, .plain, .any⟩]⟩,
  ⟨0xe0004, [], .ro, 0x0, [⟨8, 0, .plain, .any⟩]⟩,
  ⟨0xe0008, [], .rw, 0xf, [⟨3, 0, .plain, .any⟩]⟩,
  ⟨0xe000c, [], .rw, 0xa000a, [⟨31, 16, .plain, (.rng 2 100)⟩, ⟨15, 0, .plain, (.rng 2 100)⟩]⟩,
  ⟨0xe0010, [], .rw, 0x3c, [⟨31, 0, .plain, (.rng 1 3600)⟩]⟩,
  ⟨0xe0014, [], .ro, 0x87, [⟨11, 0, .plain, .any⟩]⟩,
  ⟨0xe0018, [], .ro, 0, [⟨31, 0, .plain, .any⟩]⟩,
  ⟨0xe001c, [], .ro, 0, [⟨31, 0, .plain, .any⟩]⟩,
  ⟨0xe0020, [], .ro, 0, [⟨31, 0, .plain, .any⟩]⟩,
  ⟨0xe0024, [], .ro, 0x0, [⟨16, 0, .plain, .any⟩]⟩,
  ⟨0xe0040, [], .ro, 0x0, [⟨31, 0, .plain, .any⟩]⟩,
  ⟨0xe0044, [], .ro, 0x0, [⟨31, 0, .plain, .any⟩]⟩,
  ⟨0xe0048, [], .ro, 0x0, [⟨31, 0, .plain, .any⟩]⟩,
  ⟨0xe004c, [], .ro, 0x0, [⟨31, 0, .plain, .any⟩]⟩,
  ⟨0xe0050, [], .ro, 0x0, [⟨31, 0, .plain, .any⟩]⟩,
  ⟨0xe0054, [], .ro, 0x0, [⟨31, 0, .plain, .any⟩]⟩,
  ⟨0xe0058, [], .ro, 0x0, [⟨31, 0, .plain, .any⟩]⟩,
  ⟨0xe005c, [], .ro, 0x0, [⟨31, 0, .plain, .any⟩]⟩,
  ⟨0xe0060, [], .ro, 0x0, [⟨31, 0, .plain, .any⟩]⟩,
  ⟨0xe0064, [(4, 0x4)], .ro, 0x0, [⟨31, 0, .plain, .any⟩]⟩,
  ⟨0xe0074, [], .ro, 0x0, [⟨31, 0, .plain, .any⟩]⟩,
  ⟨0xe0078, [], .ro, 0x0, [⟨31, 0, .plain, .any⟩]⟩,
  ⟨0xe007c, [], .ro, 0x0, [⟨31, 0, .plain, .any⟩]⟩,
  ⟨0xe0080, [], .ro, 0x0, [⟨31, 0, .plain, .any⟩]⟩,
  ⟨0xe1000, [(64, 0x4)], .ro, 0, [⟨25, 16, .plain, .any⟩, ⟨13, 0, .plain, .any⟩]⟩]

/-- The rows of page 0xe. -/
def fltRows : List Row := fltRows0

/-- Rows of page 0xf, part 0. -/
def pwrRows0 : List Row := [
  ⟨0xf0000, [], .rw, 0x0, [⟨0, 0, .plain, .any⟩]⟩,
  ⟨0xf0004, [], .ro, 0x0, [⟨5, 5, .ro, .any⟩, ⟨4, 4, .w1c, .any⟩, ⟨3, 0, .ro, .any⟩]⟩,
  ⟨0xf0008, [], .ro, 0, [⟨27, 16, .plain, .any⟩, ⟨11, 0, .plain, .any⟩]⟩,
  ⟨0xf000c, [], .rw, 0x99a, [⟨11, 0, .plain, (.rng 1 4094)⟩]⟩,
  ⟨0xf0010, [], .rw, 0x52, [⟨9, 0, .plain, .any⟩]⟩,
  ⟨0xf0014, [], .rw, 0xf5c, [⟨11, 0, .plain, (.rng 2 4095)⟩]⟩,
  ⟨0xf0018, [], .rw, 0x5, [⟨31, 0, .plain, (.rng 1 8)⟩]⟩,
  ⟨0xf001c, [], .rw, 0x64, [⟨31, 0, .plain, (.rng 1 10000)⟩]⟩,
  ⟨0xf0020, [], .rw, 0xea6, [⟨15, 0, .plain, .any⟩]⟩,
  ⟨0xf0024, [], .ro, 0x0, [⟨4, 0, .plain, .any⟩]⟩,
  ⟨0xf0028, [], .ro, 0x3f, [⟨5, 0, .plain, .any⟩]⟩,
  ⟨0xf002c, [], .rw, 0x14, [⟨31, 0, .plain, (.rng 1 50)⟩]⟩,
  ⟨0xf0030, [], .ro, 0x0, [⟨3, 0, .plain, .any⟩]⟩,
  ⟨0xf0034, [], .ro, 0x0, [⟨31, 0, .plain, .any⟩]⟩,
  ⟨0xf0040, [], .ro, 0x0, [⟨31, 0, .plain, .any⟩]⟩,
  ⟨0xf0044, [], .ro, 0x0, [⟨31, 0, .plain, .any⟩]⟩,
  ⟨0xf0048, [], .ro, 0x0, [⟨31, 0, .plain, .any⟩]⟩,
  ⟨0xf004c, [], .ro, 0x0, [⟨31, 0, .plain, .any⟩]⟩,
  ⟨0xf0050, [], .ro, 0x0, [⟨31, 0, .plain, .any⟩]⟩,
  ⟨0xf0054, [], .ro, 0x0, [⟨31, 0, .plain, .any⟩]⟩,
  ⟨0xf0060, [(4, 0x4)], .st, 0x0, [⟨15, 0, .plain, (.srng (-1000) 1000)⟩]⟩,
  ⟨0xf0100, [], .ro, 0, [⟨23, 16, .plain, .any⟩, ⟨11, 0, .plain, .any⟩]⟩,
  ⟨0xf0104, [], .ro, 0, [⟨23, 0, .plain, .any⟩]⟩,
  ⟨0xf0108, [], .ro, 0, [⟨3, 0, .plain, .any⟩]⟩,
  ⟨0xf010c, [], .rw, 0x5, [⟨31, 0, .plain, (.rng 1 100)⟩]⟩,
  ⟨0xf0110, [], .rw, 0x4, [⟨31, 0, .plain, (.rng 1 255)⟩]⟩,
  ⟨0xf0114, [], .ro, 0x0, [⟨31, 0, .plain, .any⟩]⟩,
  ⟨0xf0118, [], .ro, 0x0, [⟨31, 0, .plain, .any⟩]⟩,
  ⟨0xf011c, [], .ro, 0x0, [⟨31, 0, .plain, .any⟩]⟩]

/-- The rows of page 0xf. -/
def pwrRows : List Row := pwrRows0

/-- The rows of a page (R68). -/
def rowsOf : Nat → List Row
  | 0 => devRows
  | 1 => seqRows
  | 2 => afeRows
  | 3 => monRows
  | 4 => pixRows
  | 5 => pageRows
  | 6 => lmpRows
  | 7 => motRows
  | 8 => coxRows
  | 9 => clsRows
  | 10 => calRows
  | 11 => dmaRows
  | 12 => netRows
  | 13 => timRows
  | 14 => fltRows
  | 15 => pwrRows
  | _ => []

/-- Whether the offset `o` from an array's base is one of its words. -/
def inDims : List (Nat × Nat) → Nat → Bool
  | [], o => o == 0
  | (n, s) :: ds, o => o / s < n && inDims ds (o % s)

/-- Whether the address is one of the row's words. -/
def Row.has (r : Row) (a : Nat) : Bool := decide (r.base ≤ a) && inDims r.dims (a - r.base)

/-- The row an address belongs to; none where it is not assigned (R68). -/
def rowOf (a : Nat) : Option Row :=
  if a % 4 = 0 then (rowsOf (a / 65536)).find? (fun r => r.has a) else none

/-- The reset value of an address (R10); the output LUTs reset to the identity (R179), and the core maps and the
session words to the values their tables list (R146, R385). SGMII's address without a network record is 169.254.x.y, prefix length 16 (R366). -/
def resetWord (a : Nat) : Nat :=
  if a = Reg.NET_P_IP4 2 then
    let u := Config.devUid.toNat
    0xA9FE0000 + (1 + u / 256 % 256 % 254) * 256 + u % 256
  else if a = Reg.NET_P_IP4_PFX 2 then 16
  else if 0x04A000 ≤ a ∧ a < 0x050000 then
    let w := (a - 0x04A000) % 0x2000 / 4
    32 * w * 65536 + 32 * w + 16
  else match rowOf a with
    | some r => r.reset
    | none => 0

end Sys2Proof
end

