-- ==== Sys2Proof/Machine/Ops.lean ====
section
/-! DEFINITION. The shared operations: parameter words, time, free values, sending on the ports, sessions with their
events and replies, the checks of R51 every request passes, long operations, and the fault log. -/

namespace Sys2Proof.Machine

open Sys2Proof

/-! Time. One unit of `Dev.now` is a CLK_PIX cycle of 1.28 ns (R30). -/

/-- CLK_PIX cycles in a microsecond, times 4. -/
abbrev usCyc4 : Nat := 3125
/-- Microseconds as CLK_PIX cycles, rounded up. -/
def usCyc (us : Nat) : Nat := ceilDiv (us * usCyc4) 4
/-- Milliseconds as CLK_PIX cycles. -/
def msCyc (ms : Nat) : Nat := ms * 781250
/-- One profile period: 1,024 CLK_MOT cycles (R244). -/
abbrev periodCyc : Nat := 16384
/-- The nominal TIM_INCR (R375). -/
abbrev nominalIncr : Nat := 0x51EB851EC

/-! Parameter words. -/

/-- A word of a committed set. -/
def rdA (act : List (Nat × Word)) (a : Nat) : Nat :=
  match aget act a with
  | some w => w.toNat
  | none => resetWord a

/-- A set with a word changed; a word at its reset value is not listed. -/
def putA (act : List (Nat × Word)) (a v : Nat) : List (Nat × Word) :=
  if v % 2 ^ 32 = resetWord a then adel act a else aset act a (w32 v)

/-- The active value of a word; the NET page has a set of its own, which no COMMIT concerns. -/
def Dev.rd (d : Dev) (a : Nat) : Nat := if a / 65536 = 12 then rdA d.regs.net a else rdA d.regs.act a

/-- A field of an active word. -/
def Dev.rf (d : Dev) (a hi lo : Nat) : Nat := d.rd a / 2 ^ lo % 2 ^ (hi + 1 - lo)

/-- A field of a word of a committed set. -/
def rfA (act : List (Nat × Word)) (a hi lo : Nat) : Nat := rdA act a / 2 ^ lo % 2 ^ (hi + 1 - lo)

/-- The words with one of them set. -/
def Regs.put (r : Regs) (a v : Nat) : Regs :=
  if a / 65536 = 12 then { r with net := putA r.net a v } else { r with act := putA r.act a v }

/-- Set the active value of a word. -/
def Dev.put (d : Dev) (a v : Nat) : Dev := { d with regs := d.regs.put a v }

/-- Set several active words. -/
def Dev.putAll (d : Dev) (l : List (Nat × Word)) : Dev := l.foldl (fun d p => d.put p.1 p.2.toNat) d

/-- `v` with the field hi to lo replaced by `x`. -/
def withFld (v hi lo x : Nat) : Nat :=
  v - v / 2 ^ lo % 2 ^ (hi + 1 - lo) * 2 ^ lo + x % 2 ^ (hi + 1 - lo) * 2 ^ lo

/-- Set a field of a word. -/
def Dev.putF (d : Dev) (a hi lo x : Nat) : Dev := d.put a (withFld (d.rd a) hi lo x)

/-- Add to a counter, saturating at 0xFFFF_FFFF (R46, R83). -/
def Dev.bumpBy (d : Dev) (a n : Nat) : Dev := d.put a (min 0xFFFFFFFF (d.rd a + n))

/-- Count one. -/
def Dev.bump (d : Dev) (a : Nat) : Dev := d.bumpBy a 1

/-- Count one where a condition holds. -/
def Dev.bumpIf (d : Dev) (b : Bool) (a : Nat) : Dev := if b then d.bump a else d

/-- The SN pairs of the map: the low word of the pair an SN high word belongs to (R70). -/
def snLow (a : Nat) : Nat := if a = Reg.TIM_FRAC then Reg.TIM_NS_LO else a - 4

/-- A meaning that acts on the device alone: the queue and the DRAM stay as they are. -/
def State.onDev (s : State) (f : Dev → Dev) : Host.Outcome State Fault Refusal := .next { s with d := f s.d }

/-! Free values (log 1). -/

/-- The next free value of a kind. -/
def Dev.free (d : Dev) (site : Nat) : BitVec 64 × Dev :=
  (Config.freeValue site d.frees, { d with frees := d.frees + 1 })

/-! The clock (R375, R377, R33). -/

/-- The slew step of R377. -/
def Dev.slewStep (d : Dev) : Nat := d.tim.incr * d.rd Reg.TIM_SLEW_PPM / 1000000

/-- The counter, its slew remainder and the replica after `n` CLK_ADC ticks. -/
def Dev.ticks (d : Dev) (n : Nat) : Dev :=
  let m := min (n * d.slewStep) d.tim.slew.natAbs
  let m' : Int := if d.tim.slew < 0 then -(m : Int) else m
  { d with tim := { d.tim with
      cnt := (((d.tim.cnt + n * d.tim.incr : Nat) : Int) + m').toNat % 2 ^ 96
      slew := d.tim.slew - m'
      rep := (d.tim.rep + n * d.tim.repIncr) % 2 ^ 96 } }

/-- Let `n` CLK_PIX cycles pass. -/
def Dev.elapse (d : Dev) (n : Nat) : Dev :=
  let d' := d.ticks ((d.now + n) / 4 - d.now / 4)
  { d' with now := d.now + n }

/-- Let time pass up to the instant `t`; a `t` already past changes nothing. -/
def Dev.until_ (d : Dev) (t : Nat) : Dev := d.elapse (t - d.now)

/-- The time counter's integer, ns. -/
def Dev.ns (d : Dev) : Nat := d.tim.cnt / 2 ^ 32

/-! Status words. -/

/-- The job that captures; none where no job is held (R42). -/
def Dev.job? (d : Dev) : Option Job := d.jobs.find? (fun j => !j.ended)

/-- DEV_MODE.JOB_HELD (R42). -/
def Dev.jobHeld (d : Dev) : Bool := d.job?.isSome

/-- The current job's identifier, 0 if none. -/
def Dev.jobId (d : Dev) : Word := match d.job? with | some j => j.id | none => 0

/-- The session that owns the captured job. -/
def Dev.owner (d : Dev) : Option Nat := d.job?.bind (·.owner)

/-- DEV_MODE (R45). -/
def Dev.modeWord (d : Dev) : Nat :=
  d.trans % 65536 * 65536 + b2n d.jobHeld * 256 + d.prev.code * 16 + d.mode.code

/-- Whether SKM is served (R37). -/
def Dev.served (d : Dev) : Bool := d.mode != .reset && d.mode != .off && !d.bzl.xtalDead

/-- A mode in which the field side runs. -/
def Dev.fieldRuns (d : Dev) : Bool :=
  match d.mode with
  | .off | .reset | .standby => false
  | _ => true

/-- The modes in which a job scans, holds or splices. -/
def Dev.jobMode (d : Dev) : Bool := d.mode == .scan || d.mode == .hold || d.mode == .splice

/-- FLT_STAT bits: a mechanism of R388 is off its required value. -/
def Dev.mechOff (d : Dev) : Bool :=
  !(bit (d.rd Reg.AFE_ROT_CTRL) 0 && bit (d.rd Reg.CAL_CTRL) 2 && bit (d.rd Reg.CAL_CTRL) 1
    && d.rf Reg.LMP_CTRL 4 4 == 1 && d.rd Reg.FLT_SCRUB_CTRL == 15
    && decide (d.rf Reg.FLT_WDOG 31 16 ≤ 10) && decide (d.rf Reg.FLT_WDOG 15 0 ≤ 10)
    && decide (d.rd Reg.PWR_BZL_FRAME_TMO ≤ 5) && decide (d.rd Reg.PWR_BZL_DEG_N ≤ 4)
    && decide (d.rd Reg.AFE_BLK_LIMIT ≤ 256) && decide (d.rd Reg.DMA_WDOG ≤ 10))

/-- FLT_STAT.PROMISE (R387, R388). -/
def Dev.promise (d : Dev) : Bool :=
  d.flt.roc == 0 && !d.mechOff && d.rd Reg.FLT_SCRUB_CTRL == 15 && d.mode != .service

/-! Sending (R47, R48, R362 to R364). Traffic classes: 0 PTP, 1 SKM, 2 STREAM, 3 ROCE. -/

/-- A port's number. -/
def portIx : NetPort → Nat
  | .eth0 => 0 | .eth1 => 1 | .sgmii => 2

/-- A port of a number. -/
def portOf : Nat → NetPort
  | 0 => .eth0 | 1 => .eth1 | _ => .sgmii

/-- NET_Pp_CFG or NET_SG_CFG. -/
def cfgAddr (p : NetPort) : Nat := match p with | .sgmii => Reg.NET_SG_CFG | p => Reg.NET_P_CFG (portIx p)

/-- The port's IP MTU (R384). -/
def Dev.mtu (d : Dev) (p : NetPort) : Nat := d.rf (cfgAddr p) 13 0

/-- NET_Pp_STAT.LINK. -/
def Dev.link (d : Dev) (p : NetPort) : Bool := bit (d.rd (Reg.NET_P_STAT (portIx p))) 31

/-- The priority of a class on a port (NET_Pp_PCP). -/
def Dev.pcp (d : Dev) (p : NetPort) (c : Nat) : Nat :=
  d.rd (Reg.NET_P_PCP (portIx p)) / 2 ^ (24 - 8 * min c 3) % 8

/-- Whether the class can be sent on the port now (R363, R364); while the host side boots or stands still its transmitters
are idle (R425). -/
def Dev.canSend (d : Dev) (p : NetPort) (c : Nat) : Bool :=
  let q := nth d.net.ports (portIx p)
  d.served && d.link p && !q.paused && !bit q.pfc (d.pcp p c)

/-- A frame accepted on a port (R362). -/
def Dev.rxFrame (d : Dev) (p : NetPort) : Dev := d.bump (Reg.NET_P_RX_FRAME_CNT (portIx p))

/-- Four words as an IPv6 address, the most significant first. -/
def Dev.words128 (d : Dev) (w : Nat → Nat) : Nat := (List.range 4).foldl (fun n j => n * 2 ^ 32 + d.rd (w j)) 0

/-- The global IPv6 address of a port, 0 where it has none. -/
def Dev.ip6 (d : Dev) (p : NetPort) : Nat := d.words128 (Reg.NET_P_IP6 (portIx p))

/-- The address of a queue pair's client: a GID ::ffff:a.b.c.d is IPv4 (R371). -/
def Dev.peerIp (d : Dev) (n : Nat) : Nat :=
  let g := d.words128 (Reg.NET_S_GID (n - 1))
  if g / 2 ^ 32 = 0xFFFF then g % 2 ^ 32 else g

/-- The session whose queue pair sends a message. -/
def Out.qp? : Out → Option Nat
  | .roceWrite n _ _ _ _ | .roceAck n _ | .roceNak n _ _ | .roceReadResp n _ _ _ _ | .cnp n => some n
  | _ => none

/-- The IP address a unicast message is for. -/
def Dev.ipDst (d : Dev) (o : Out) : Option Nat :=
  match o with
  | .skm e _ _ | .stream e _ | .echoReply _ e _ => some e.ip
  | o => o.qp?.map d.peerIp

/-- The next hop (R366): a destination outside the port's prefix is reached through the gateway, where it has one. IPv6
link-local addresses are on the link. -/
def Dev.nextHop (d : Dev) (p : NetPort) (ip : Nat) : Nat :=
  let i := portIx p
  let via := fun (own pfx width gw : Nat) =>
    if ip / 2 ^ (width - pfx) = own / 2 ^ (width - pfx) ∨ gw = 0 then ip else gw
  if ip < 2 ^ 32 then via (d.rd (Reg.NET_P_IP4 i)) (d.rd (Reg.NET_P_IP4_PFX i)) 32 (d.rd (Reg.NET_P_GW4 i))
  else if ip / 2 ^ 118 = 0x3FA then ip
  else via (d.ip6 p) (d.rd (Reg.NET_P_IP6_PFX i)) 128 (d.words128 (Reg.NET_P_GW6 i))

/-- The UDP ports of a message, source and destination (R369, R371; PTP as IEEE 1588 divides event and general). -/
def Out.udp (o : Out) : Option (Nat × Nat) :=
  match o with
  | .skm e _ _ => some (49430, e.port)
  | .stream e _ => some (49431, e.port)
  | .ptp kind _ _ _ => let q := if kind < 4 then 319 else 320; some (q, q)
  | o => o.qp?.map fun n => (0xC000 + (0x100 + n) % 0x4000, 4791)

/-- The headers that a message of a class carries on a port: PCP and DSCP by class, a tag where VLAN is enabled, no
DSCP where it is no IP packet (R362); DF on every IPv4 packet (R368); ECT(0) on RoCEv2 packets (R370). -/
def Dev.frameHead (d : Dev) (p : NetPort) (c : Nat) (o : Out) : FrameHead :=
  let w := d.rd (Reg.NET_P_VLAN (portIx p))
  let dst := d.ipDst o
  { port := p
    vid := if bit w 16 then some (w % 4096) else none
    pcp := d.pcp p c
    dscp := match o with
      | .arpReply _ _ _ | .arpQuery _ _ => none
      | _ => some (d.rd (Reg.NET_P_DSCP (portIx p)) / 2 ^ (24 - 8 * min c 3) % 64)
    hop := dst.map (d.nextHop p)
    df := match o with
      | .ptp _ _ _ h => !h.ip6
      | _ => dst.any (fun ip => decide (ip < 2 ^ 32))
    ecn := if o.qp?.isSome then 2 else 0
    udp := o.udp
    qp := o.qp?.map fun n => d.rd (Reg.NET_S_RQPN (n - 1)) }

/-- Put a message on the record of what was sent. -/
def Dev.emit (d : Dev) (o : Out) : Dev := { d with tx := o :: d.tx }

/-- A frame leaves on a port: it is recorded and counted. -/
def Dev.sendNow (d : Dev) (p : NetPort) (c : Nat) (o : Out) : Dev :=
  { (d.emit o).bump (Reg.NET_P_TX_FRAME_CNT (portIx p)) with txHeads := d.frameHead p c o :: d.txHeads }

/-- Change a port's bookkeeping. -/
def Dev.modPort (d : Dev) (p : NetPort) (f : Port → Port) : Dev :=
  { d with net := { d.net with ports := modNth d.net.ports (portIx p) f } }

/-- A next hop that is not resolved yet is asked for first (R367); its answer comes at once (DESIGN CHOICE, log 189). -/
def Dev.resolve (d : Dev) (p : NetPort) (hop : Option Nat) : Dev :=
  match hop with
  | none => d
  | some ip =>
    if (nth d.net.ports (portIx p)).neigh.contains ip then d
    else (d.sendNow p 1 (if ip < 2 ^ 32 then .arpQuery p ip else .ndQuery p ip)).modPort p
      fun q => { q with neigh := ip :: q.neigh }

/-- Send a message of a class on a port, or let it wait. -/
def Dev.send (d : Dev) (p : NetPort) (c : Nat) (o : Out) : Dev :=
  if d.canSend p c then
    ((d.resolve p ((d.ipDst o).map (d.nextHop p))).modPort p
      (fun q => { q with roceLast := if c < 2 then q.roceLast else c == 3 })).sendNow p c o
  else { d with net := { d.net with
    ports := modNth d.net.ports (portIx p) (fun q => { q with waitq := q.waitq ++ [(c, o)] }) } }

/-- Two lists in turn, beginning with the first. -/
def inTurn {α : Type} (a b : List α) : List α :=
  (List.range (max a.length b.length)).flatMap fun i => (a[i]?).toList ++ (b[i]?).toList

/-- Send what waits on a port as far as it may be sent: PTP before SKM, SKM before STREAM and ROCE, and these two in turn
(R362). -/
def Dev.drain (d : Dev) (p : NetPort) : Dev :=
  let w := (nth d.net.ports (portIx p)).waitq
  let d0 := { d with net := { d.net with ports := modNth d.net.ports (portIx p) (fun q => { q with waitq := [] }) } }
  let cls := fun c => w.filter (fun m => m.1 == c)
  let rr := if (nth d.net.ports (portIx p)).roceLast then inTurn (cls 2) (cls 3) else inTurn (cls 3) (cls 2)
  (cls 0 ++ cls 1 ++ rr).foldl (fun d m => d.send p m.1 m.2) d0

/-! Packets. -/

/-- Header and payload of an SKM datagram (R49). -/
def Packet.body (p : Packet) : List Byte :=
  [0xA7, 0x02] ++ be 2 p.opcode ++ beW p.seq ++ be 2 p.session ++ be 2 p.flags ++ be 2 p.payload.length
    ++ be 2 p.status ++ p.payload

/-- A packet as sent, with the CRC-32C over its header and payload (R49). -/
def mkPacket (opcode : Nat) (seq : Word) (session flags status : Nat) (payload : List Byte) : Packet :=
  let p : Packet := ⟨opcode, seq, session, flags, status, payload, 0⟩
  { p with crc := crc32c p.body }

/-- The bytes of one SKM datagram (R49). -/
def Packet.bytes (p : Packet) : List Byte := p.body ++ beW p.crc

/-- The bytes an IP header and a UDP header take before an SKM datagram: IPv6 for an address above 32 bits. -/
def ipOverhead (e : Endpoint) : Nat := if e.ip < 2 ^ 32 then 28 else 48

/-- The most payload bytes of one part of a reply (R48). -/
def Dev.partMax (d : Dev) (p : NetPort) (e : Endpoint) : Nat := d.mtu p - ipOverhead e - 20

/-- The parts of a payload: `n` bounds their number. -/
def parts (m : Nat) : Nat → List Byte → List (List Byte)
  | 0, b => [b]
  | n + 1, b => if b.length ≤ m then [b] else b.take m :: parts m n (b.drop m)

/-- Send a reply, in parts where the datagram exceeds the MTU (R48). -/
def Dev.sendReply (d : Dev) (dst : Endpoint) (port : NetPort) (session : Nat) (seq : Word) (op st : Nat)
    (body : List Byte) : Dev :=
  let ps := parts (max 1 (d.partMax port dst)) body.length body
  (ps.zipIdx).foldl (fun d x =>
    d.send port 1 (.skm dst port
      (mkPacket op seq session (if x.2 + 1 = ps.length then 1 else 9) st x.1))) d

/-! Sessions. -/

/-- An open session. -/
def Dev.ses? (d : Dev) (s : Nat) : Option Session := aget d.sess s

/-- Change an open session; nothing where it is not open. -/
def Dev.modSes (d : Dev) (s : Nat) (f : Session → Session) : Dev := { d with sess := amod d.sess s f }

/-- The numbers of the open sessions. -/
def Dev.sesIds (d : Dev) : List Nat := d.sess.map (·.1)

/-! Events (R77 to R80). -/

/-- The payload of an event (R77). -/
def Ev.payload (e : Ev) : List Byte :=
  be 2 e.code ++ be 2 0 ++ beW e.reqSeq ++ be 8 e.time ++ be 6 e.stroke ++ be 2 0 ++ e.body

/-- The packet of an event. TELEMETRY carries no ACK_REQ (R79). -/
def Ev.packet (e : Ev) (s : Nat) : Packet :=
  mkPacket e.opcode e.seq s (if e.code = 0x20 then 4 else 6) e.status e.payload

/-- Send the events of a session that may be outstanding and are not sent yet: the oldest 16 (R80). -/
def Dev.pump (d : Dev) (s : Nat) : Dev :=
  if d.served then
    match aget d.sess s with
    | none => d
    | some x =>
      let now := x.evq.take 16
      let d := d.modSes s fun x =>
        { x with evq := (x.evq.take 16).map (fun e => { e with sent := true }) ++ x.evq.drop 16 }
      (now.filter (fun e => !e.sent)).foldl (fun d e => d.send x.port 1 (.skm x.ep x.port (e.packet s))) d
  else d

/-- Queue an event for a session (R80); it takes the session's next event SEQ (R77). -/
def Dev.pushEv (d : Dev) (s : Nat) (e : Ev) : Dev :=
  match aget d.sess s with
  | none => d
  | some x =>
    if 256 ≤ x.evq.length then
      (d.modSes s fun x => { x with evLost := x.evLost + 1 }).bump Reg.NET_SKM_EVT_LOST_CNT
    else
      (d.modSes s fun x => { x with evNext := x.evNext + 1, evq := x.evq ++ [{ e with seq := x.evNext }] }).pump s

/-- An event of this instant for a session. -/
def Dev.queueEv (d : Dev) (s code opcode : Nat) (reqSeq : Word) (status stroke : Nat) (body : List Byte) : Dev :=
  d.pushEv s ⟨code, opcode, 0, reqSeq, status, d.ns, stroke, body, false⟩

/-- An asynchronous event to one session. -/
def Dev.ev (d : Dev) (s code : Nat) (body : List Byte) : Dev := d.queueEv s code 0 0 0 d.seq.strokeNo body

/-- An asynchronous event to all open sessions. -/
def Dev.evAll (d : Dev) (code : Nat) (body : List Byte) : Dev := d.sesIds.foldl (fun d s => d.ev s code body) d

/-- A job event (R58, R59): to the owner, or into the job event queue, which keeps the most recent 256. -/
def Dev.jobEv (d : Dev) (serial code : Nat) (body : List Byte) : Dev :=
  match d.jobs.find? (fun j => j.serial == serial) with
  | none => d
  | some j =>
    match j.owner with
    | some s => d.ev s code body
    | none => { d with jobs := d.jobs.map (fun j =>
        if j.serial == serial then
          { j with evq := (j.evq ++ [JobEv.mk code d.ns d.seq.strokeNo body]).drop (j.evq.length + 1 - 256) }
        else j) }

/-! Long operations (R62, R461). -/

/-- Send an OP_DONE to the requester and, for a job opcode, to the owner (R61, R78). -/
def Dev.opDone (d : Dev) (o : LongOp) (owner : Option Nat) (status id : Nat) : Dev :=
  let send := fun (d : Dev) s => d.queueEv s 3 o.op.opcode o.seq status d.seq.strokeNo (be 4 id)
  let d := send d o.session
  match owner with
  | some s => if o.op.ofJob && s != o.session then send d s else d
  | none => d

/-- Start a long operation. -/
def Dev.startOp (d : Dev) (h : Req) (op : Op) : Dev := { d with ops := d.ops ++ [⟨op, h.session, h.seq⟩] }

/-- End every long operation that `p` names, with a status; `owner` is the session that owns the job. -/
def Dev.endOps (d : Dev) (owner : Option Nat) (p : Op → Bool) (status id : Nat) : Dev :=
  let d0 := { d with ops := d.ops.filter (fun o => !p o.op) }
  (d.ops.filter (fun o => p o.op)).foldl (fun d o => d.opDone o owner status id) d0

/-- End the long operation of one request, with a status. -/
def Dev.endRequest (d : Dev) (op : Op) (session : Nat) (seq : Word) (status id : Nat) : Dev :=
  match d.ops.find? (fun o => o.op == op && o.seq == seq && (o.session == session || o.session == 0)) with
  | none => d
  | some o => ({ d with ops := d.ops.erase o }).opDone o none status id

/-- Whether a long operation that `p` names is under way. -/
def Dev.opRuns (d : Dev) (p : Op → Bool) : Bool := d.ops.any (fun o => p o.op)

/-! Requests (R50 to R57). -/

/-- What an opcode answers: a status, a reply payload, and the device after it. -/
abbrev Answer := Nat × List Byte × Dev

/-- Whether a reply is sent: always with ACK_REQ, otherwise only when it is neither OK nor ACCEPTED (R50). -/
def replySent (h : Req) (st : Nat) : Bool := h.flags.getLsbD 1 || (st != stOk && st != stAccepted)

/-- Answer a request on an open session: count an error (R83), cache the reply (R56), send it. -/
def Dev.answer (d : Dev) (h : Req) (op st : Nat) (body : List Byte) : Dev :=
  let d := d.bumpIf (decide (0x200 ≤ st)) Reg.NET_SKM_ERR_CNT
  let d := d.modSes h.session (fun x => { x with cache := (⟨h.seq, op, st, body⟩ :: x.cache).take 16 })
  if replySent h st then d.sendReply h.src h.port h.session h.seq op st body else d

/-- Answer a request that is on no open session. -/
def Dev.refuse (d : Dev) (h : Req) (op st : Nat) : Dev :=
  let d := d.bumpIf (decide (0x200 ≤ st)) Reg.NET_SKM_ERR_CNT
  d.sendReply h.src h.port h.session h.seq op st []

/-- Row 9 of R51 as far as the header decides it: a reserved FLAGS bit, MORE or a STATUS. -/
def badHeader (h : Req) : Bool := h.flags &&& 0xFFF8#16 != 0 || h.status != 0

/-- A valid request (R54): it sets the port and ends the window of the open record. -/
def Dev.valid (d : Dev) (h : Req) : Dev :=
  d.modSes h.session (fun x => { x with port := h.port, openLive := false })

/-- Send a cached reply again (R56). -/
def Dev.resend (d : Dev) (h : Req) (c : Cached) : Dev :=
  let d := d.bump Reg.NET_SKM_DUP_CNT
  if replySent h c.status then d.sendReply h.src h.port h.session c.seq c.opcode c.status c.body else d

/-- EVENTS_LOST once the queue has room again (R80). -/
def Dev.reportLost (d : Dev) (n : Nat) : Dev :=
  match d.ses? n with
  | none => d
  | some x =>
    if x.evLost = 0 ∨ 256 ≤ x.evq.length then d
    else (d.modSes n fun x => { x with evLost := 0 }).ev n 0xFF (be 4 x.evLost)

/-- Row 5 of R51: an event acknowledgement, with no payload (`bare`) or dropped. One whose SEQ matches no event that was
sent and waits for it is ignored (R79; log 148). -/
def Dev.ackEvent (d : Dev) (h : Req) (bare : Bool) : Dev :=
  match d.ses? h.session with
  | none => d
  | some x =>
    if h.src ≠ x.ep then d.bump Reg.NET_SKM_ADDR_DROP_CNT
    else if !bare then d
    else
      let d := (d.valid h).modSes h.session fun x =>
        { x with evq := x.evq.filter (fun e => !(e.sent && e.seq == h.seq)) }
      (d.reportLost h.session).pump h.session

/-- Rows 4 and 5 of R51: REPLY or EVENT is set. -/
def Dev.notRequest (d : Dev) (h : Req) (bare : Bool) : Option Dev :=
  match h.flags.getLsbD 0, h.flags.getLsbD 2 with
  | false, false => none
  | true, true => some (d.ackEvent h bare)
  | _, _ => some (d.bump Reg.NET_SKM_LEN_DROP_CNT)

/-- The opcodes whose request carries no payload (R62). -/
def bareOp (op : Nat) : Bool := [0x03, 0x04, 0x13, 0x14, 0x21, 0x31, 0x32, 0x33, 0x34, 0xC2].contains op

/-- A level 1 restart of the runtime (R390, R391, R393). -/
def ofRuntime (x : Recov) : Bool := x.level == 1 && (x.cls == 0xE && x.code == 1 || x.cls == 0xC && x.code != 2)

/-- A recovery completes: it is remembered for R395. -/
def Dev.recovered (d : Dev) (x : Recov) : Dev :=
  { d with flt := { d.flt with
    recs := d.flt.recs.filter (fun y => !(y == x))
    hist := (x.cls, x.code, x.unit, x.entry, d.ns, x.level) ::
      d.flt.hist.filter (fun h => !(h.1 == x.cls && h.2.1 == x.code && h.2.2.1 == x.unit)) } }

/-- A request that arrives while the runtime restarts is applied after the restart (R393): the model lets it complete
first (DESIGN CHOICE, log 194). -/
def Dev.runtimeBack (d : Dev) : Dev := (d.flt.recs.filter ofRuntime).foldl (fun d x => d.recovered x) d

/-- A request of an opcode other than PING and SESSION_OPEN: rows 4, 5 and 7 to 10 of R51, then the opcode's own checks
and effect `k`, its answer, and what it does after that (`post`). -/
def Dev.serveThen (d : Dev) (h : Req) (op : Nat) (k : Dev → Answer) (post : Nat → Dev → Dev) : Dev :=
  if !d.served then d else
  let d := d.runtimeBack.bump (Reg.NET_P_RX_FRAME_CNT (portIx h.port))
  match d.notRequest h (bareOp op) with
  | some d => d
  | none =>
  match d.ses? h.session with
  | none => d.refuse h op stBadParam
  | some x =>
    if h.src ≠ x.ep then d.bump Reg.NET_SKM_ADDR_DROP_CNT else
    let d := d.valid h
    if badHeader h then d.answer h op stBadParam [] else
    match x.cache.find? (fun c => c.seq == h.seq) with
    | some c => d.resend h c
    | none =>
      let d := d.bump Reg.NET_SKM_RX_CNT
      if h.rsv then d.answer h op stBadParam [] else
      let r := k d
      post r.1 (if r.1 = stLater then r.2.2 else r.2.2.answer h op r.1 r.2.1)

/-- A request whose effect is complete when it is answered. -/
def Dev.serve (d : Dev) (h : Req) (op : Nat) (k : Dev → Answer) : Dev := d.serveThen h op k (fun _ d => d)

/-- A refusal by the opcode's own checks: it changes nothing. Its reply carries no payload, also where the opcode's layout
gives reply bytes (DESIGN CHOICE, log 147). -/
def no (st : Nat) (d : Dev) : Answer := (st, [], d)

/-! Bezel frames (R19 to R21). -/

def Dev.bzlLink (d : Dev) : Dir → Link
  | .f2h => d.bzl.f2h
  | .h2f => d.bzl.h2f

def Dev.modLink (d : Dev) (r : Dir) (f : Link → Link) : Dev :=
  match r with
  | .f2h => { d with bzl := { d.bzl with f2h := f d.bzl.f2h } }
  | .h2f => { d with bzl := { d.bzl with h2f := f d.bzl.h2f } }

/-- The other direction. -/
def otherDir : Dir → Dir
  | .f2h => .h2f | .h2f => .f2h

/-- The last SEQ received in order in a direction (R20). -/
def Link.ackSeq (l : Link) : Nat := (l.rxNext + 65535) % 65536

/-- The 16 header bytes of a frame (R20). -/
def frameHeader (f : Frame) : List Byte :=
  be 1 (f.typ * 16) ++ be 1 (b2n f.nak + 2 * b2n f.replay + 4 * b2n f.first + 8 * b2n f.last) ++ be 2 f.seq ++ be 2 f.ack
    ++ be 2 f.len ++ be 4 f.offset ++ be 4 f.tag

/-- The CRC-32C over a frame's header and payload (R20). -/
def frameCrc (f : Frame) : Word := crc32c (frameHeader f ++ f.payload)

/-- A frame as its transmitter sends it, with its CRC. -/
def sealFrame (f : Frame) : Frame := { f with crc := frameCrc f, blocks := true }

/-- The bytes of a frame on the lanes (R20). -/
def frameBytes (f : Frame) : List Byte := frameHeader f ++ f.payload ++ beW f.crc

/-- A frame of a type, command tag and payload, not yet numbered. -/
def newFrame (typ tag : Nat) (payload : List Byte) : Frame :=
  { typ := typ, nak := false, replay := false, first := false, last := false, seq := 0, ack := 0, len := payload.length
    offset := 0, tag := tag, payload := payload, crc := 0, blocks := true }

/-- Send a new frame of a direction: it takes the next SEQ and stays in the retry buffer (R20, R21). -/
def Dev.sendFrame (d : Dev) (r : Dir) (f : Frame) : Dev :=
  let l := d.bzlLink r
  let f := sealFrame { f with seq := l.txSeq, ack := (d.bzlLink (otherDir r)).ackSeq }
  (d.emit (.bezel r f)).modLink r (fun l => { l with txSeq := (l.txSeq + 1) % 65536, retry := l.retry ++ [f] })

/-- A direction takes a new frame: it is up and its retry buffer holds fewer than 64 frames (R21). -/
def Link.room (l : Link) : Bool := l.up && decide (l.retry.length < 64)

/-- Staged frames go out while the retry buffer holds fewer than 64 (R21). -/
def Dev.sendStaged (d : Dev) : Nat → Dev
  | 0 => d
  | n + 1 =>
    match d.bzl.stage with
    | [] => d
    | f :: rest =>
      if d.bzl.f2h.room then ({ d with bzl := { d.bzl with stage := rest } }.sendFrame .f2h f).sendStaged n else d

/-- CMD frames that wait go out while the retry buffer holds fewer than 64 (R21). -/
def Dev.sendWaiting (d : Dev) : Nat → Dev
  | 0 => d
  | n + 1 =>
    match d.bzl.wait with
    | [] => d
    | f :: rest =>
      if d.bzl.h2f.room then ({ d with bzl := { d.bzl with wait := rest } }.sendFrame .h2f f).sendWaiting n else d

/-- The field side has a frame for the host (R21): behind what the staging buffer holds, and at once where it can go.
Without a link that works or is being retrained nothing is sent. -/
def Dev.fieldFrame (d : Dev) (f : Frame) : Dev :=
  if d.fieldRuns && (d.bzl.f2h.up || d.bzl.inhibit) then
    if d.bzl.stage.isEmpty && d.bzl.f2h.room then d.sendFrame .f2h f
    else { d with bzl := { d.bzl with stage := d.bzl.stage ++ [f] } }
  else d

/-- The payload of a CMD frame (R19). The spec gives it no layout but for the data of a field SRAM write, which fill the
frame alone (R344); the rest is the model's own (log 142): a kind and its operands. -/
def cmdPayload : FieldCmd → List Byte
  | .mode m => be 1 0 ++ be 1 m
  | .coxLimit v => be 1 1 ++ be 4 v
  | .coxRelease => be 1 2
  | .coxStop x => be 1 3 ++ be 8 (twos 64 x)
  | .sramWrite _ data => data
  | .sramRead o n => be 1 5 ++ be 4 o ++ be 4 n
  | .paramWrite a v => be 1 4 ++ be 3 a ++ beW v

/-- The host sends a CMD frame (R18, R19): it takes the next command tag, waits for its REPLY, and goes at once where it
can. Without a link that works or is being retrained nothing is sent. -/
def Dev.sendCmd (d : Dev) (c : FieldCmd) : Dev :=
  if d.fieldRuns && (d.bzl.h2f.up || d.bzl.inhibit) then
    let tag := d.bzl.cmdTag
    let d := { d with bzl := { d.bzl with
      cmdTag := (tag + 1) % 2 ^ 32, cmds := d.bzl.cmds ++ [tag]
      wait := d.bzl.wait ++ [{ newFrame 4 tag (cmdPayload c) with
        offset := match c with | .sramWrite o _ => o | .sramRead o _ => o | _ => 0 }] } }
    d.sendWaiting d.bzl.wait.length
  else d

/-- A field window frame of a DMA descriptor goes out (R344). The field side has answered it before the descriptor ends, and
the model lets it act then: `applied` keeps its tag, so that its arrival only draws the REPLY (log 187). -/
def Dev.sendWindow (d : Dev) (c : FieldCmd) : Dev :=
  let tag := d.bzl.cmdTag
  let d' := d.sendCmd c
  if d'.bzl.cmdTag = tag then d' else { d' with bzl := { d'.bzl with applied := d'.bzl.applied ++ [tag] } }

/-- A link loss or a loss of the field's power meets the descriptors that run (R344). -/
def Dev.cutChannels (d : Dev) : Dev :=
  { d with dma := { d.dma with ch := d.dma.ch.map (fun (c : Chan) => if c.st = .run then { c with cut := true } else c) } }

/-- What accesses to `n` words of DRAM find: how many words had a single error that was corrected, and how many issues
waited for the limit of R352, are free values (R335, R352; log 188). -/
def Dev.dramUse (d : Dev) (n : Nat) : Dev :=
  let (v, d) := d.free 36
  let (u, d) := d.free 25
  (d.bumpBy Reg.DMA_ECC_CORR_CNT (v.toNat % (n + 1))).bumpBy Reg.DMA_STALL_CNT (u.toNat % (n / 8 + 2))

/-- The pages whose words the field side works on: SEQ, AFE, MON, PIX, LMP and MOT (R68; DESIGN CHOICE, log 175). -/
def fieldPage (a : Nat) : Bool := [1, 2, 3, 4, 6, 7].contains (a / 65536)

/-- Accepted parameter words of the field side go to it, one CMD frame each (R19; log 175). -/
def Dev.forward (d : Dev) (ws : List (Nat × Word)) : Dev :=
  (ws.filter (fun p => fieldPage p.1)).foldl (fun d p => d.sendCmd (.paramWrite p.1 p.2)) d

/-! The fault log (R410 to R412). -/

/-- What a new entry says beside the state it is taken in. -/
structure FaultRec where
  cls    : Nat
  code   : Nat
  unit   : Nat := 0
  action : Nat := 0
  field  : Bool := false
  esc    : Bool := false
  a      : Nat := 0
  b      : Nat := 0
  c      : Nat := 0
  job    : Option Word := none     -- of an entry that names another job than the current one (R391)
  seen   : Option Sight := none    -- of a fault detected before its entry is written (R388, R411)
  deriving DecidableEq, Repr, Inhabited

/-- What is seen of a fault detected now (R388, R411). -/
def Dev.sight (d : Dev) : Sight := ⟨d.ns, d.mode.code, d.promise⟩

/-- A new entry (R411). -/
def Dev.logEntry (d : Dev) (r : FaultRec) (m1 m2 : Mode) : FEntry :=
  { index := d.flt.next, cls := r.cls, code := r.code, time := (r.seen.map Sight.time).getD d.ns, stroke := d.seq.strokeNo
    mode1 := (r.seen.map Sight.mode).getD m1.code, mode2 := m2.code, action := r.action, unit := r.unit
    flags := 2 * b2n r.esc + 4 * b2n ((r.seen.map Sight.promise).getD d.promise) + 8 * b2n r.field, cleared := false
    hold := d.hold, a := r.a, b := r.b, c := r.c, job := r.job.getD d.jobId }

/-- An entry's 64 bytes (R411). -/
def FEntry.bytes (e : FEntry) : List Byte :=
  let p := fun (c : Bool) => be 4 e.index ++ be 2 e.cls ++ be 2 e.code ++ be 8 e.time ++ be 6 e.stroke
    ++ be 1 (e.mode1 * 16 + e.mode2) ++ be 1 e.action ++ be 2 e.unit ++ be 2 (e.flags + b2n c) ++ be 4 e.hold
    ++ be 8 e.a ++ be 8 e.b ++ be 8 e.c ++ beW e.job
  p e.cleared ++ beW (crc32c (p false))

/-- An entry joins the log: `m1` is DEV_MODE at detection and `m2` the mode the action leads to (R410, R411). -/
def Dev.logAdd (d : Dev) (r : FaultRec) (m1 m2 : Mode) : Dev :=
  { d with flt := { d.flt with log := (d.logEntry r m1 m2 :: d.flt.log).take 4096, next := d.flt.next + 1 } }

/-- A fault that the field side detects goes to the host in an EVENT frame (R19). The spec gives its payload no layout;
the model's is CLASS, CODE, UNIT, A and B (log 142). -/
def Dev.fieldEvent (d : Dev) (r : FaultRec) : Dev :=
  if r.field then d.fieldFrame (newFrame 3 0 (be 2 r.cls ++ be 2 r.code ++ be 2 r.unit ++ be 8 r.a ++ be 8 r.b)) else d

/-- Write an entry and send it as a FAULT event to every open session (R78, R410; log 131). -/
def Dev.log (d : Dev) (r : FaultRec) (m1 m2 : Mode) : Dev :=
  ((d.logAdd r m1 m2).evAll 0x10 (d.logEntry r m1 m2).bytes).fieldEvent r

/-- Write an entry of an action without a mode change. -/
def Dev.logHere (d : Dev) (r : FaultRec) : Dev := d.log r d.mode d.mode

/-- FLT_LOG_UNCLEARED (R414). -/
def Dev.uncleared (d : Dev) : Nat := (d.flt.log.filter (fun e => !e.cleared)).length

end Sys2Proof.Machine
end

