-- ==== Sys2Proof/Machine/Flash.lean ====
section
/-! DEFINITION. The calibration region of the flash (R327, R405): records, the ring of 64 sectors they are appended to,
retirement and reclaiming. -/

namespace Sys2Proof.Machine

open Sys2Proof

/-! Heads of results in force (R327, R328). -/

/-- The key of a kind and unit. -/
def headKey (kind unit : Nat) : Nat := 65536 * kind + unit

/-- What a record of the result in force of a kind and unit says of it; all 0 where the device has made none. -/
def Dev.headOf (d : Dev) (kind unit : Nat) : CalHead := (aget d.cal.heads (headKey kind unit)).getD default

/-- A result of a kind and unit comes into force. -/
def Dev.setHead (d : Dev) (kind unit : Nat) (h : CalHead) : Dev :=
  { d with cal := { d.cal with heads := aset d.cal.heads (headKey kind unit) h } }

/-- A kind and unit has no result of the device in force any more. -/
def Dev.dropHead (d : Dev) (kind unit : Nat) : Dev :=
  { d with cal := { d.cal with heads := adel d.cal.heads (headKey kind unit) } }

/-- The head of a record. -/
def CalRec.head (r : CalRec) : CalHead := ⟨r.epoch, r.temp, r.time⟩

/-! Records (R327). -/

/-- A record as the flash holds it (R327): its header, with the CRC over bytes 0 to 27 and the body, and its body. The spec
lays out no body: its words in order, big-endian, behind a map set's bytes (DESIGN CHOICE, log 168). -/
def CalRec.bytes (r : CalRec) : List Byte :=
  let set := if r.cells.isEmpty then [] else mread r.cells 0 983104
  let body := set ++ r.body.flatMap (be 4)
  let head := be 4 0x56484352 ++ be 2 r.kind ++ be 2 r.unit ++ beW r.epoch ++ be 4 body.length ++ be 2 r.temp ++ be 2 0
    ++ be 8 r.time
  head ++ beW (crc32c (head ++ body)) ++ body

/-- The length of a record. -/
def CalRec.size (r : CalRec) : Nat := 32 + (if r.cells.isEmpty then 0 else 983104) + 4 * r.body.length

/-! Sectors (R405). -/

/-- What a sector holds behind its 16-byte header. -/
abbrev sectorBytes : Nat := 262128

/-- A sector's header (R405). -/
def sectorHeader (erases ring : Nat) : List Byte :=
  let b := be 4 0x56485343 ++ be 4 erases ++ be 4 ring
  b ++ beW (crc32c b)

/-- A sector that is erased and not retired is free. -/
def Sector.free (x : Sector) : Bool := !x.bad && !x.used

/-- Free sectors. -/
def Flash.freeN (f : Flash) : Nat := (f.sects.filter Sector.free).length

/-- Sectors not retired. -/
def Flash.usable (f : Flash) : Nat := (f.sects.filter (fun x => !x.bad)).length

def Flash.sect (f : Flash) (i : Nat) : Sector := nth f.sects i
def Flash.modSect (f : Flash) (i : Nat) (g : Sector → Sector) : Flash := { f with sects := modNth f.sects i g }

/-- The next free sector of the ring after the head, if there is one. -/
def Flash.nextFree (f : Flash) : Option Nat :=
  ((List.range' 1 64).map (fun k => (f.head + k) % 64)).find? (fun i => (f.sect i).free)

/-- The head goes on to a sector, whose header is written with the next sequence number of the ring. -/
def Flash.openSect (f : Flash) (i : Nat) : Flash :=
  { f.modSect i (fun x => { x with used := true, fill := 0, seq := f.ring + 1 }) with head := i, ring := f.ring + 1 }

/-- Bytes that the head sector still takes. -/
def Flash.room (f : Flash) : Nat :=
  let x := f.sect f.head
  if x.used && !x.bad then sectorBytes - x.fill else 0

/-- Append `n` bytes from the head on, in sector order around the region (R327), over at most `k` sectors: the region and
the sectors that hold them. With no sector free the rest has no place (the spec is silent; DESIGN CHOICE, log 180). -/
def Flash.append : Nat → Nat → Flash → Flash × List Nat
  | 0, _, f => (f, [])
  | k + 1, n, f =>
    if n = 0 then (f, [])
    else if f.room = 0 then
      match (if (f.sect f.head).free then some f.head else f.nextFree) with
      | some i =>
        let g := f.openSect i
        let m := min n sectorBytes
        let r := Flash.append k (n - m) (g.modSect i (fun x => { x with fill := m }))
        (r.1, i :: r.2)
      | none => (f, [])
    else
      let m := min n f.room
      let r := Flash.append k (n - m) (f.modSect f.head (fun x => { x with fill := x.fill + m }))
      (r.1, f.head :: r.2)

/-- A sector in which every record has been superseded is erased (R327); that is when the model erases it (log 180). -/
def Flash.sweep (f : Flash) : Flash :=
  { f with sects := (f.sects.zipIdx).map (fun x =>
      if x.1.used && !x.1.bad && x.2 != f.head && !f.place.any (fun p => p.contains x.2) then
        { x.1 with used := false, fill := 0, seq := 0, erases := x.1.erases + 1 }
      else x.1) }

/-- CAL_FLASH_STAT (R331, R405): free sectors and the highest erase count. -/
def Flash.stat (f : Flash) : Nat := f.freeN * 65536 + min 65535 (maxN (f.sects.map (·.erases)))

/-- What the flash is given to write its new state: the headers of the sectors opened since `f0`. -/
def Flash.headers (f0 f : Flash) : List Out :=
  (f.sects.zipIdx).filterMap (fun x =>
    if x.1.used && x.1.seq != (f0.sect x.2).seq then some (.flashHeader x.2 (sectorHeader x.1.erases x.1.seq)) else none)

/-- The region takes a new state: superseded sectors are erased and CAL_FLASH_STAT follows. -/
def Dev.setFlash (d : Dev) (f : Flash) : Dev :=
  let g := f.sweep
  ({ d with
    cal := { d.cal with flash := g }
    tx := (d.cal.flash.headers f).reverse ++ d.tx }).put Reg.CAL_FLASH_STAT g.stat

/-- The places of the store's records that `keep` names, by their index. -/
def keepPlaces (l : List (List Nat)) (n : Nat) (keep : Nat → Bool) : List (List Nat) :=
  ((List.range n).filter keep).map (fun i => l.getD i [])

/-- The records that a new one of its kind and unit supersedes: the two newest of each kind and unit are kept (R327). -/
def superseded (l : List CalRec) (r : CalRec) : List CalRec :=
  let same := l.filter (fun x => x.kind == r.kind && x.unit == r.unit)
  same.take (same.length - 1)

/-- A record is appended to the store. -/
def storeAdd (l : List CalRec) (r : CalRec) : List CalRec := l.filter (fun x => !(superseded l r).contains x) ++ [r]

/-- A record is written at the head of the ring (R327). -/
def Dev.storeRec (d : Dev) (r : CalRec) : Dev :=
  let l := d.cal.store
  let gone := superseded l r
  let (f, p) := d.cal.flash.append 65 r.size
  let kept := keepPlaces d.cal.flash.place l.length (fun i => !(l[i]?.any gone.contains))
  ({ d with cal := { d.cal with store := storeAdd l r } }.bump Reg.CAL_STORE_CNT).setFlash { f with place := kept ++ [p] }
    |>.emit (.flashRecord r.bytes)

/-- Records leave the store (R406). -/
def Dev.dropRec (d : Dev) (r : CalRec) : Dev :=
  let l := d.cal.store
  { d with cal := { d.cal with store := l.filter (fun x => !(x == r)) } }.setFlash
    { d.cal.flash with place := keepPlaces d.cal.flash.place l.length (fun i => !(l[i]?.any (· == r))) }

/-- A write to the head sector has failed (R328, R405): the next write goes to the next sector; a sector that fails twice is
retired. -/
def Dev.sectorFails (d : Dev) : Dev :=
  let f := d.cal.flash
  let f := if (f.sect f.head).free then f.openSect f.head else f
  let f := f.modSect f.head (fun x => { x with fails := x.fails + 1, fill := sectorBytes, bad := decide (1 ≤ x.fails) })
  let d := d.setFlash f
  if d.cal.flash.usable < 16 ∧ d.flt.flashLow = false then
    let d := d.logHere { cls := 0x11, code := 2 }
    { d with flt := { d.flt with flashLow := true } }
  else d

/-- The sector that holds the oldest live record. -/
def Flash.oldest (f : Flash) : Option Nat := (f.place.find? (fun p => !p.isEmpty)).bind List.head?

/-- Reclaiming (R405): with fewer than 4 free sectors the live records of the sector that holds the oldest one are copied
to the head of the ring and read back, and it is erased. `size` gives the length of the record of a place in the store. -/
def Flash.reclaim (f : Flash) (size : Nat → Nat) : Flash :=
  match f.oldest with
  | none => f
  | some s =>
    if 4 ≤ f.freeN then f else
    (List.range f.place.length).foldl (fun g i =>
      if (f.place.getD i []).contains s then
        let r := g.append 65 (size i)
        { r.1 with place := g.place.set i r.2 }
      else g) f

end Sys2Proof.Machine
end

