-- ==== Sys2Proof/Machine/Layout.lean ====
section
/-! DEFINITION. What a committed set fixes about a stroke: sources, samples and lengths (R100, R115, R153, R154), the
output width and payload length (R166, R169), lamp chains, patterns and levels (R209, R213, R217), and the Cox quantities
of a configuration (R274, R280). -/

namespace Sys2Proof.Machine

open Sys2Proof

/-! Configuration. -/

/-- A head's source: 0 disabled, 1 analogue, 2 digital (R112). -/
def headSrc (c : List (Nat × Word)) (n : Nat) : Nat := rfA c (Reg.SEQ_H_CTRL n) 1 0
/-- READ_LAG (R99). -/
def headLag (c : List (Nat × Word)) (n : Nat) : Bool := rfA c (Reg.SEQ_H_CTRL n) 2 2 == 1
/-- The enabled heads, in ascending order. -/
def headsOf (c : List (Nat × Word)) : List Nat := (List.range 32).filter (fun n => headSrc c n != 0)
/-- Colour lines per head (R100). -/
def linesOf (c : List (Nat × Word)) : Nat := if rfA c Reg.SEQ_CTRL 4 4 = 1 then 3 else 1
/-- Lamp phases in use (R216). -/
def nphOf (c : List (Nat × Word)) : Nat := rfA c Reg.LMP_CTRL 1 0 + 1

/-- The committed pitch D, 1/65,536 quarter-count (R85). -/
def pitchOf (c : List (Nat × Word)) : Nat := rdA c Reg.SEQ_DIV_INT * 65536 + rdA c Reg.SEQ_DIV_FRAC

/-- RAW.COUNT of a head. -/
def rawCount (c : List (Nat × Word)) (n : Nat) : Nat := rfA c (Reg.SEQ_H_RAW n) 15 0
/-- OB_START of a head. -/
def obStart (c : List (Nat × Word)) (n : Nat) : Nat := rfA c (Reg.SEQ_H_OB n) 31 16
/-- OB_COUNT of a head. -/
def obCount (c : List (Nat × Word)) (n : Nat) : Nat := rfA c (Reg.SEQ_H_OB n) 7 0
/-- OVL_LEFT of a head. -/
def ovlLeft (c : List (Nat × Word)) (n : Nat) : Nat := rfA c (Reg.SEQ_H_OVL n) 31 16
/-- OVL_RIGHT of a head. -/
def ovlRight (c : List (Nat × Word)) (n : Nat) : Nat := rfA c (Reg.SEQ_H_OVL n) 15 0
/-- LEAD of a head. -/
def leadOf (c : List (Nat × Word)) (n : Nat) : Nat := rfA c (Reg.SEQ_H_DUMMY n) 15 0
/-- E, the extended length of a line (R154). -/
def extLen (c : List (Nat × Word)) (n : Nat) : Nat := leadOf c n + rawCount c n + rfA c (Reg.SEQ_H_DUMMY n) 31 16
/-- The sum of RAW.COUNT over the enabled heads. -/
def sumRaw (c : List (Nat × Word)) : Nat := sumN ((headsOf c).map (rawCount c))
/-- The map index of a head's raw pixel 0 (R158). -/
def rawBase (c : List (Nat × Word)) (n : Nat) : Nat := sumN (((headsOf c).filter (· < n)).map (rawCount c))

/-- MODE of a tap. -/
def tapMode (c : List (Nat × Word)) (t : Nat) : Nat := rfA c (Reg.AFE_T_CFG t) 1 0
/-- HEAD of a tap. -/
def tapHead (c : List (Nat × Word)) (t : Nat) : Nat := rfA c (Reg.AFE_T_CFG t) 12 8
/-- The taps of a head (R115). -/
def tapsOf (c : List (Nat × Word)) (n : Nat) : List Nat :=
  (List.range 384).filter (fun t => tapMode c t != 0 && tapHead c t == n)

/-- The lanes of a digital head. -/
def lanesOfHead (c : List (Nat × Word)) (n : Nat) : List Nat :=
  if headSrc c n = 2 then List.range' (rfA c (Reg.SEQ_H_LANES n) 7 0) (rfA c (Reg.SEQ_H_LANES n) 14 8) else []

/-- The lanes of every enabled digital head. -/
def lanesNeeded (c : List (Nat × Word)) : List Nat := (headsOf c).flatMap (lanesOfHead c)

/-- The word width of a digital head (R112). -/
def laneWidth (c : List (Nat × Word)) (n : Nat) : Nat := 8 + 2 * rfA c (Reg.SEQ_H_LANES n) 18 16

/-- The inputs of a head in source order (R153): taps or lanes. -/
def sourcesOf (c : List (Nat × Word)) (n : Nat) : List Nat :=
  if headSrc c n = 1 then tapsOf c n else lanesOfHead c n

/-- S, the samples a source of a head delivers per stroke (R154). -/
def sampleCount (c : List (Nat × Word)) (n : Nat) : Nat :=
  if headSrc c n = 1 then extLen c n * linesOf c / max 1 (tapsOf c n).length
  else rfA c (Reg.SEQ_H_LANEWORDS n) 17 0

/-- Line and extended position of sample `i` of a source (R154). -/
def samplePos (c : List (Nat × Word)) (n s i : Nat) : Nat × Int :=
  let w := rdA c (Reg.PIX_H_SRC n s)
  let third := max 1 (sampleCount c n / 3)
  let ci := match w / 2 ^ 30 with
    | 0 => (w / 2 ^ 28 % 4, i)
    | 1 => (i / third, i % third)
    | _ => (i % 3, i / 3)
  (ci.1, ((w % 2 ^ 17 : Nat) : Int) + sext 8 (w / 2 ^ 18) * ci.2)

/-- F8 is enabled. -/
def stitchOn (c : List (Nat × Word)) : Bool := rfA c Reg.PIX_CTRL 5 5 == 1

/-- Pairs of neighbours in a list. -/
def pairs (l : List Nat) : List (Nat × Nat) := l.zip (l.drop 1)

/-- W (R166). -/
def outWidth (c : List (Nat × Word)) : Nat :=
  let hs := headsOf c
  let all := sumN (hs.map (fun n => rawCount c n - obCount c n))
  if stitchOn c then all - sumN ((pairs hs).map (fun p => ovlLeft c p.2)) else all

/-- N of PIX_OUT.BITS (R169). -/
def outBits (c : List (Nat × Word)) : Nat :=
  match rfA c Reg.PIX_OUT 1 0 with | 0 => 16 | 1 => 12 | 2 => 10 | _ => 8

/-- P (R169). -/
def payloadLen (c : List (Nat × Word)) : Nat := linesOf c * (ceilDiv (outWidth c * outBits c) 64 * 8)

/-- b_s (R274). -/
def bytesPerStroke (c : List (Nat × Word)) : Nat := payloadLen c + 64

/-- COX_RESERVE (R280), MiB. -/
def coxReserve (c : List (Nat × Word)) : Nat :=
  ceilDiv ((4096 * nphOf c + 64) * bytesPerStroke c + 2097152) 1048576

/-! Waveform tables (R98). -/

/-- Entry `i` of a head's waveform table: its two words. -/
def waveOf (c : List (Nat × Word)) (n i : Nat) : Nat × Nat := (rdA c (Reg.SEQ_H_WAVE n (2 * i)), rdA c (Reg.SEQ_H_WAVE n (2 * i + 1)))
/-- KIND of an entry. -/
def wKind (e : Nat × Nat) : Nat := e.1 / 2 ^ 29
/-- OUT of an entry. -/
def wOut (e : Nat × Nat) : Nat := e.1 / 2 ^ 27 % 4
/-- A PIXCLK burst. -/
def wPix (e : Nat × Nat) : Bool := wKind e == 3 && bit e.1 23
/-- COUNT, PERIOD and HIGH of a burst. -/
def wCount (e : Nat × Nat) : Nat := e.2 / 2 ^ 14
def wPeriod (e : Nat × Nat) : Nat := e.2 / 2 ^ 7 % 128
def wHigh (e : Nat × Nat) : Nat := e.2 % 128

/-- The resolved time of an entry (R98). -/
def wTime (c : List (Nat × Word)) (n : Nat) (e : Nat × Nat) : Int :=
  if wKind e = 2 then ((rdA c (Reg.SEQ_H_INT n (e.1 / 2 ^ 25 % 4)) : Nat) : Int) + sext 21 e.1 else ((e.1 % 2 ^ 21 : Nat) : Int)

/-- Until when an entry occupies its output. -/
def wUntil (c : List (Nat × Word)) (n : Nat) (e : Nat × Nat) : Int :=
  if wKind e = 3 then wTime c n e + ((wCount e * wPeriod e : Nat) : Int) else wTime c n e

/-- The entries a table executes: those before the first END. -/
def waveBody (c : List (Nat × Word)) (n : Nat) : List (Nat × Nat) :=
  ((List.range 64).map (waveOf c n)).takeWhile (fun e => wKind e != 0)

/-- What an entry drives. -/
def wEvent (c : List (Nat × Word)) (n : Nat) (e : Nat × Nat) : HtEv :=
  if wKind e = 3 then .burst (wTime c n e) (wOut e) (wCount e) (wPeriod e) (wHigh e)
  else .edge (wTime c n e) (wOut e) (bit e.1 24)

/-- The level an event leaves on its output: a burst ends low. -/
def HtEv.leaves : HtEv → Nat × Bool
  | .edge _ o l => (o, l)
  | .burst _ o _ _ _ => (o, false)

/-- A head's waveform table runs once from an instant (R97, R98). -/
def Dev.headRun (d : Dev) (c : List (Nat × Word)) (t n : Nat) : Dev :=
  let evs := (waveBody c n).map (wEvent c n)
  let d := { d with seq := { d.seq with
    ht := evs.foldl (fun l e => aset l (4 * n + e.leaves.1) e.leaves.2) d.seq.ht } }
  if evs.isEmpty then d else d.emit (.headTiming n t evs)

/-- The level of a head's table-driven output between waveforms (R97): what the last entry left, else its IDLE level. -/
def Dev.htLevel (d : Dev) (n o : Nat) : Bool :=
  (aget d.seq.ht (4 * n + o)).getD (bit (d.rd (Reg.SEQ_H_OUTCFG n)) (30 - 8 * o))

/-! Lamp chains (R209, R213, R215, R217). -/

/-- CHAIN_EN. -/
def chainEn (c : List (Nat × Word)) (n : Nat) : Bool := rfA c (Reg.LMP_C_CFG n) 31 31 == 1
/-- A chain's phase. -/
def chainPhase (c : List (Nat × Word)) (n : Nat) : Nat := rfA c (Reg.LMP_C_CFG n) 29 28
/-- BITS of a chain. -/
def chainBits (c : List (Nat × Word)) (n : Nat) : Nat := rfA c (Reg.LMP_C_CFG n) 24 16
/-- The enabled chains of a phase, ascending. -/
def phaseChains (c : List (Nat × Word)) (p : Nat) : List Nat :=
  (List.range 16).filter (fun n => chainEn c n && chainPhase c n == p)

/-- The class of position `i` of a chain: four bits, eight positions a word, the first in the top bits (R209). -/
def classOf (c : List (Nat × Word)) (n i : Nat) : Nat := rdA c (Reg.LMP_C_CLASS n (i / 8)) / 2 ^ (28 - 4 * (i % 8)) % 16

/-- The positions of a class among the BITS positions of a chain, ascending. -/
def classList (c : List (Nat × Word)) (n g : Nat) : List Nat :=
  (List.range (chainBits c n)).filter (fun i => classOf c n i == g)

/-- Populated positions: every class but 0. -/
def populated (c : List (Nat × Word)) (n : Nat) : Nat := chainBits c n - (classList c n 0).length

/-- One round of dealing shunts over the groups 2 to 15 (R213). -/
def dealRound (sizes : List Nat) (cnt : List Nat) (s : Nat) : List Nat × Nat :=
  (sizes.zip cnt).foldl (fun (a : List Nat × Nat) x =>
    if 0 < a.2 ∧ x.2 < x.1 then (a.1 ++ [x.2 + 1], a.2 - 1) else (a.1 ++ [x.2], a.2)) ([], s)

/-- cnt[2] to cnt[15] for `s` shunts (R213). -/
def deal : Nat → List Nat → List Nat → Nat → List Nat
  | 0, _, cnt, _ => cnt
  | f + 1, sizes, cnt, s =>
    if s = 0 then cnt else
    let r := dealRound sizes cnt s
    deal f sizes r.1 r.2

/-- cnt[2] to cnt[15] of a chain at a level. -/
def shuntCounts (c : List (Nat × Word)) (n : Nat) (level : Word) : List Nat :=
  let sizes := (List.range 14).map (fun g => (classList c n (g + 2)).length)
  deal 384 sizes (List.replicate 14 0) (populated c n - fld level 31 23)

/-- LMP_Pp_ID for chains with their levels (R217). -/
def patternId (c : List (Nat × Word)) (p : Nat) (level : Nat → Word) : Word :=
  let rec1 := fun (n : Nat) =>
    let map := (List.range 48).flatMap (fun i => be 4 (rdA c (Reg.LMP_C_CLASS n i)))
    be 1 n ++ be 1 0 ++ (shuntCounts c n (level n)).flatMap (be 2) ++ beW (crc32c map) ++ be 2 (chainBits c n)
  let cs := phaseChains c p
  if cs.isEmpty then 0 else crc32c (cs.flatMap rec1)

/-- LMP_Cn_LEVEL (R213). -/
def Dev.level (d : Dev) (n : Nat) : Word := w32 (d.rd (Reg.LMP_C_LEVEL n))

/-- The level of a phase (R217): its lowest-numbered enabled chain's, and 0 for a phase without one (DESIGN CHOICE,
log 185). -/
def Dev.phaseLevel (d : Dev) (p : Nat) : Word := match (phaseChains d.regs.act p).head? with
  | some n => d.level n | none => 0

/-- LMP_Pp_ID. -/
def Dev.phaseId (d : Dev) (p : Nat) : Word := patternId d.regs.act p d.level

/-- The MON entry of lowest number that converts an input: the converter and the entry. -/
def Dev.monEntry (d : Dev) (input : Nat) : Option (Bool × Nat) :=
  let b := decide (48 ≤ input)
  let len := d.rf (if b then Reg.MON_B_CTRL else Reg.MON_A_CTRL) 6 0
  ((List.range len).find? (fun e => d.rd (if b then Reg.MON_B_SEQ e else Reg.MON_A_SEQ e) % 128 == input)).map
    (fun e => (b, e))

/-- The result of a MON entry (R138). -/
def Dev.monResult (d : Dev) (b : Bool) (e : Nat) : Nat := (aget (if b then d.monB else d.monA).res e).getD 0

/-- LMP_Pp_LAMPT (R217), 1/16 °C; none where no valid result exists. -/
def Dev.lampT (d : Dev) (p : Nat) : Option Int :=
  let w := d.rd (Reg.LMP_P_TEMP p)
  match d.monEntry (w % 128) with
  | some (b, e) =>
    let r := d.monResult b e
    if bit r 5 then some (rsh (((r / 2 ^ 10 % 2 ^ 14 : Nat) : Int) * sext 16 (w / 2 ^ 16)) 14 +
      sext 16 (d.rd (Reg.LMP_P_TOFS p)))
    else none
  | none => none

/-- LMP_Pp_LAMPT as a field (R217): 0x8000 without a valid result; beyond 16 bits the spec states no value, and it is free
(log 156). -/
def Dev.lamptField (d : Dev) : Option Int → Nat
  | some t => if -32768 ≤ t ∧ t ≤ 32767 then twos 16 t else (Config.freeValue 35 d.frees).toNat % 65536
  | none => 0x8000

/-! The Cox quantities (R274). -/

/-- B, bytes. -/
def Dev.pageFill (d : Dev) : Nat := sumN (d.pages.list.map (·.alloc))

/-- r_d, bytes/s. -/
def Dev.drainRate (d : Dev) : Nat :=
  let tau := d.rd Reg.COX_TAU
  sumN ((d.cox.rel.filter (fun x => decide (d.now ≤ x.1 + msCyc tau))).map (·.2)) * 1000 / max 1 tau

/-- v_d, lead steps/s (R274): r_d / b_s × s_st. -/
def Dev.drainSpeed (d : Dev) (r : Nat) : Nat :=
  r * pitchOf d.regs.act / (bytesPerStroke d.regs.act * max 1 (d.rd Reg.COX_FEED_RATIO))

/-- The law's speed v (R277): min (v_d × (1 − K × e), COX_VMAX), limited to 0 and above. -/
def Dev.lawSpeed (d : Dev) (r : Nat) : Nat :=
  let mib : Int := 1048576
  let hwm : Int := d.rd Reg.COX_HWM
  let band : Int := ((d.rd Reg.COX_HOLD_MARK : Nat) : Int) - hwm
  let k : Int := d.rf Reg.COX_GAIN 15 0
  let den : Int := 16384 * band * mib
  let num : Int := den - k * ((d.pageFill : Nat) - hwm * mib)
  let v : Int := if den ≤ 0 then 0 else
    ((r * pitchOf d.regs.act : Nat) : Int) * num /
      (((bytesPerStroke d.regs.act * max 1 (d.rd Reg.COX_FEED_RATIO) : Nat) : Int) * den)
  min v.toNat (d.rd Reg.COX_VMAX)

end Sys2Proof.Machine
end

