-- ==== Sys2Proof/Machine/Modes.lean ====
section
/-! DEFINITION. What many commands share beyond the SKM layer: taking staged values into force (R12, R13, R76, R308),
enabling and disabling Catches (R94), hold causes (R38), mode changes with their events and completions (R36, R461),
stopping motion groups, SAFE (R399), the loss of the field side (R422), recoveries and their escalation (R394, R395),
and the level 3 restart (R397). -/

namespace Sys2Proof.Machine

open Sys2Proof

/-! Staged values. -/

/-- The bits of a word that are image bits (R76). -/
def imageMask (a : Nat) : Nat :=
  if a = Reg.PIX_CTRL then 0xDF
  else if a = Reg.PIX_MAPSEL then 0xFFFFFFFF
  else if 0x04A000 ≤ a ∧ a < 0x050000 then 0xFFFFFFFF
  else if 0x021000 ≤ a ∧ a < 0x024000 ∧ 12 ≤ (a - 0x021000) % 32 ∧ (a - 0x021000) % 32 < 24 then 0xFFFFFFFF
  else if 0x040100 ≤ a ∧ a < 0x040300 ∧ (a - 0x040100) % 16 < 8 then 0xFFFFFFFF
  else if 0x041000 ≤ a ∧ a < 0x041800 ∧ (a - 0x041000) % 16 < 12 then 0xFFFFFFFF
  else 0

/-- Replace the bits of `m` in `old` by those of `v`. -/
def maskPut (old v m : Nat) : Nat := (old &&& (0xFFFFFFFF ^^^ m)) ||| (v &&& m)

/-- The tap whose CFG, CDS, CLAMP or GO word this is (R311). -/
def tapOf (a : Nat) : Option Nat :=
  if 0x021000 ≤ a ∧ a < 0x024000 ∧ (a - 0x021000) % 32 < 24 then some ((a - 0x021000) / 32) else none

/-- Corrections of taps return to their unset state when the tap's words change (R311). -/
def Dev.clearTrim (d : Dev) (t : Nat) : Dev :=
  ((d.put (Reg.CAL_TRIM t) 0).put (Reg.CAL_BREF01 t) 0xFFFFFFFF).put (Reg.CAL_BREF2 t) 0xFFFF

/-- A committed sequence change (R137): at once between conversions, else at the end of the running one. A changed
entry's result is reset. -/
def Mon.change (m : Mon) (e : Option Nat) : Mon :=
  if m.entry.isSome then { m with changed := some (m.changed.getD [] ++ e.toList) }
  else { m with res := e.toList.foldl adel m.res }

/-- A tap's word has changed. -/
def Dev.tapChanged (d : Dev) (a : Nat) : Dev := match tapOf a with | some t => d.clearTrim t | none => d

/-- The count of the feed encoder in the feed frame (R85), quarter-counts. -/
def Dev.feedCount (d : Dev) : Int :=
  let n := d.mot.enc.getD (d.rf Reg.SEQ_CTRL 15 12) 0
  if d.rf Reg.SEQ_CTRL 8 8 = 1 then -n else n

/-- The first grid point of the overlap band: grid points are counted from 1 (R85, R291). -/
def Clasp.first (c : Clasp) : Nat := (max 1 c.kb).toNat

/-- The feed position interpolated at an instant, 1/65,536 quarter-count: from the two latest edges, to less than one
quarter-count beyond the latest (R90). -/
def Dev.feedPos (d : Dev) (t : Int) : Int :=
  let q := d.seq
  let base := d.feedCount * 65536
  if q.edgeT ≤ q.edgeT1 ∨ d.feedCount ≠ q.edgeQ then base else
  let x := (q.edgeQ - q.edgeQ1) * 65536 * (t - q.edgeT) / ((q.edgeT - q.edgeT1 : Nat) : Int)
  base + clampI (-65535) 65535 x

/-- A new grid at the present feed position (R85). -/
def Dev.newGrid (d : Dev) : Dev :=
  { d with seq := { d.seq with p0 := d.feedPos d.now, k0 := 0, pitch := pitchOf d.regs.act, old := [], high := 0, passed := 0,
                               pend := [], limit := false } }

/-- SEQ_CTRL was `old` before a set came into force: the Catches of a timer just selected are counted from here (R107,
R170), and the encoder selected in its place while Catches are enabled starts a new grid, at the new pitch (R85). -/
def Dev.seqChanged (d : Dev) (old : Nat) : Dev :=
  let new := d.rd Reg.SEQ_CTRL
  if old % 2 = 0 ∧ new % 2 = 1 then { d with seq := { d.seq with timerN := 0 } }
  else if old % 2 = 1 ∧ new % 2 = 0 ∧ d.seq.en then d.newGrid else d

/-- The head whose SEQ_Hn_OUTCFG this is. -/
def headOfOut (a : Nat) : Option Nat := (List.range 32).find? (fun n => Reg.SEQ_H_OUTCFG n == a)

/-- DIV of an output in SEQ_Hn_OUTCFG where CONT = 1, else 0 (R97, R112). -/
def contDiv (w k : Nat) : Nat := if bit w (31 - 8 * k) then w / 2 ^ (24 - 8 * k) % 64 else 0

/-- The continuous clock of an output takes a divisor, 0 to stop (R97): one that runs stops at the end of its period. None
starts during a warm restart (R396). -/
def Dev.setClock (d : Dev) (n k div : Nat) : Dev :=
  let o := 4 * n + k
  if d.flt.l2run then d else
  match aget d.seq.clk o with
  | some (v, t) =>
    if v = div then d else
    let z := t + ceilDiv (d.now - t) (max 1 v) * v
    let d := { d with seq := { d.seq with clk := if div = 0 then adel d.seq.clk o else aset d.seq.clk o (div, z) } }
    d.emit (.headClock n k z div (div / 2))
  | none =>
    if div = 0 then d else
    { d with seq := { d.seq with clk := aset d.seq.clk o (div, d.now) } }.emit (.headClock n k d.now div (div / 2))

/-- A head's SEQ_Hn_OUTCFG has changed: its continuous clocks start and stop (R97). -/
def Dev.outChanged (d : Dev) (a : Nat) : Dev :=
  match headOfOut a with
  | some n => (List.range 4).foldl (fun d k => d.setClock n k (contDiv (d.rd a) k)) d
  | none => d

/-- The continuous clocks of the committed set run once the field clocks have locked (R97), and after a warm restart
(R396). -/
def Dev.startClocks (d : Dev) : Dev :=
  (List.range 32).foldl (fun d n => d.outChanged (Reg.SEQ_H_OUTCFG n)) { d with seq := { d.seq with clk := [] } }

/-- The continuous clocks that run stop at the end of their periods: the head timing outputs rest at their IDLE levels
(R396). -/
def Dev.stopClocks (d : Dev) : Dev := d.seq.clk.foldl (fun d x => d.setClock (x.1 / 4) (x.1 % 4) 0) d

/-- The head whose SEQ_Hn_CTRL this is. -/
def headOfCtrl (a : Nat) : Option Nat := (List.range 32).find? (fun n => Reg.SEQ_H_CTRL n == a)

/-- A head's outputs rest at their IDLE levels from the moment it is enabled (R97). -/
def Dev.headEnabled (d : Dev) (a old : Nat) : Dev :=
  if old % 4 = 0 then
    match headOfCtrl a with
    | some n => { d with seq := { d.seq with ht := d.seq.ht.filter (fun x => x.1 / 4 != n) } }
    | none => d
  else d

/-- The channel whose AFE_CVc_CTRL or slot table word this is. -/
def channelOf (a : Nat) : Option Nat :=
  if Reg.AFE_CV_CTRL 0 ≤ a ∧ a ≤ Reg.AFE_CV_CTRL 63 then some ((a - Reg.AFE_CV_CTRL 0) / 4)
  else if Reg.AFE_SLOT 0 0 ≤ a ∧ a ≤ Reg.AFE_SLOT 63 15 then some ((a - Reg.AFE_SLOT 0 0) / 64)
  else none

/-- An instant at which a channel's slot pointer stood at 0, for the pointer at instant `t` (R120): before a new table has
started, that of the table before it. -/
def Dev.slotZero (d : Dev) (ch t : Nat) : Nat :=
  match aget d.afe.slot0 ch with
  | some (o, z) => if t < z then o else z
  | none => d.afe.lockAt

/-- A channel's slot table has changed (R120): the new table runs from position 0 once the pointer has wrapped. -/
def Dev.tableChanged (d : Dev) (a old : Nat) : Dev :=
  match channelOf a with
  | none => d
  | some ch =>
    let len := max 1 ((if a = Reg.AFE_CV_CTRL ch then old else d.rd (Reg.AFE_CV_CTRL ch)) % 128)
    let z := d.slotZero ch d.now
    { d with afe := { d.afe with slot0 := aset d.afe.slot0 ch (z, z + ceilDiv (d.now - z) (4 * len) * (4 * len)) } }

/-- A word of a MON sequence has changed (R137). -/
def Dev.monChanged (d : Dev) (a : Nat) : Dev :=
  if a = Reg.MON_A_CTRL then { d with monA := d.monA.change none }
  else if a = Reg.MON_B_CTRL then { d with monB := d.monB.change none }
  else if Reg.MON_A_SEQ 0 ≤ a ∧ a < Reg.MON_B_SEQ 0 then
    { d with monA := d.monA.change (some ((a - Reg.MON_A_SEQ 0) / 4)) }
  else if Reg.MON_B_SEQ 0 ≤ a ∧ a ≤ Reg.MON_B_SEQ 63 then
    { d with monB := d.monB.change (some ((a - Reg.MON_B_SEQ 0) / 4)) }
  else d

/-! Motion words. -/

def Dev.axEn (d : Dev) (a : Nat) : Bool := d.rf (Reg.MOT_A_CFG a) 31 31 == 1
def Dev.axHomeReq (d : Dev) (a : Nat) : Bool := d.rf (Reg.MOT_A_CFG a) 30 30 == 1
def Dev.axGroup (d : Dev) (a : Nat) : Nat := d.rf (Reg.MOT_A_CFG a) 29 28
/-- An axis's encoder; none where ENC = 7. -/
def Dev.axEnc (d : Dev) (a : Nat) : Option Nat :=
  let e := d.rf (Reg.MOT_A_CFG a) 22 20
  if e < 6 then some e else none
/-- The enabled axes of a group. -/
def Dev.groupAxes (d : Dev) (g : Nat) : List Nat :=
  (List.range 12).filter (fun a => d.axEn a && d.axGroup a == g)
def Dev.ax (d : Dev) (a : Nat) : Axis := nth d.mot.axes a
def Dev.grp (d : Dev) (g : Nat) : Group := nth d.mot.groups g
def Dev.modAx (d : Dev) (a : Nat) (f : Axis → Axis) : Dev :=
  { d with mot := { d.mot with axes := modNth d.mot.axes a f } }
def Dev.modGrp (d : Dev) (g : Nat) (f : Group → Group) : Dev :=
  { d with mot := { d.mot with groups := modNth d.mot.groups g f } }
/-- AENAg is active (R237). -/
def Dev.aena (d : Dev) (g : Nat) : Bool :=
  (d.grp g).drive == some true || d.mode == .safe && decide (d.now < (d.grp g).aenaOff)

/-- What AENAg is to be in the present mode, with its level `was` before (R237, R424): a level 3 restart holds it
(R397). -/
def Dev.driveWant (d : Dev) (g : Nat) (was : Bool) : Option Bool :=
  let on := d.rf (Reg.MOT_G_CFG g) 0 0 == 1
  match d.mode with
  | .idle | .homing | .scan | .hold | .splice | .calibrate | .service => some on
  | .safe => (d.grp g).drive
  | .wake => some (was && d.flt.l3run)
  | .reset | .standby => if d.flt.l3run then (d.grp g).drive.map fun _ => was else none
  | .off => none

/-- The pin AENAg: its level, none where it is high-impedance (R237, R424). -/
def Dev.drivePin (d : Dev) (g : Nat) (x : Option Bool) : Option Bool :=
  x.map fun on => on != (d.rf (Reg.MOT_G_CFG g) 1 1 == 1)

/-- The drive-enable outputs follow the mode and AENA_ON. -/
def Dev.driveOut (d : Dev) (was : Nat → Bool) : Dev :=
  (List.range 4).foldl (fun d g =>
    let w := d.driveWant g (was g)
    if w = (d.grp g).drive then d
    else (d.modGrp g fun x => { x with drive := w }).emit (.drive g (d.drivePin g w) d.now)) d

/-- In SAFE the drive-enable outputs that are active go inactive one profile period after entry (R237). -/
def Dev.driveDrop (d : Dev) : Dev :=
  (List.range 4).foldl (fun d g =>
    let off := d.now + periodCyc
    if (d.grp g).drive = some true then
      (d.modGrp g fun x => { x with drive := some false, aenaOff := off }).emit (.drive g (d.drivePin g (some false)) off)
    else d.modGrp g fun x => { x with aenaOff := 0 }) d

/-- AENA_POL of a group has changed with the state of its drive enable `was` unchanged: the pin takes its new level. -/
def Dev.polChanged (d : Dev) (g : Nat) (was : Option Bool) : Dev :=
  if (d.grp g).drive = was ∧ was.isSome = true then d.emit (.drive g (d.drivePin g (some (d.aena g))) d.now) else d

/-- A MOT word has changed from `old`: an axis just enabled takes its references (R263), a changed AENA_ON its output. -/
def Dev.motChanged (d : Dev) (a old : Nat) : Dev :=
  match (List.range 4).find? (fun g => Reg.MOT_G_CFG g == a) with
  | some g =>
    let d' := d.driveOut (fun g => d.aena g)
    if bit old 1 = (d.rf a 1 1 == 1) then d' else d'.polChanged g (d.grp g).drive
  | none =>
    match (List.range 12).find? (fun x => Reg.MOT_A_CFG x == a) with
    | some x =>
      if !bit old 31 && d.axEn x then
        let c := match d.axEnc x with | some e => d.mot.enc.getD e 0 | none => 0
        d.modAx x fun y => { y with pref := y.pos, cref := c, resync := false, feN := 0, feOk := 0 }
      else d
    | none => d

/-- One word of a committed set comes into force: with the bits `m` of `v`. -/
def Dev.commitWord (d : Dev) (a v m : Nat) : Dev :=
  let old := d.rd a
  let new := maskPut old v m
  if new = old then d
  else
    ((((((d.put a new).tapChanged a).tableChanged a old).outChanged a).headEnabled a old).monChanged a).motChanged a old

/-- CAL_APPLY_AT as it reads: BOUNDARY while DEV_COMPAT.VH4 = 1 (R5, R308). -/
def Dev.boundaryMode (d : Dev) : Bool := bit (d.rd Reg.DEV_COMPAT) 0 || bit (d.rd Reg.CAL_APPLY_AT) 0

/-- A commanded capture run has made its first Catch and has not ended (R309). -/
def Dev.runHolds (d : Dev) : Bool := match d.cal.run with | some r => decide (0 < r.catches) | none => false

/-- The intervals of R76 and R309 in which no image word and no correction comes into force. -/
def Dev.imageClosed (d : Dev) : Bool := d.jobHeld && d.mode != .scan && d.mode != .idle || d.runHolds

/-- Send COMMIT_DONE to a request (R78). -/
def Dev.commitDone (d : Dev) (s : Nat) (q : Word) (stroke : Nat) : Dev := d.queueEv s 2 0x13 q stOk stroke []

/-- Send every COMMIT_DONE that waits and whose values are all in force; `stroke` is the first stroke made with them. -/
def Dev.settleCommits (d : Dev) (stroke : Nat) : Dev :=
  let d0 := { d with regs := { d.regs with heldBy := d.regs.heldBy.filter (fun x => x.2.2.isSome) } }
  (d.regs.heldBy.filter (fun x => x.2.2.isNone)).foldl (fun d x => d.commitDone x.1 x.2.1 stroke) d0

/-- The COMMITs whose values wait in place `n` wait in `m`; with none, their values are in force. -/
def Dev.waitMoves (d : Dev) (n : Nat) (m : Option Nat) : Dev :=
  { d with regs := { d.regs with heldBy := d.regs.heldBy.map (fun x => if x.2.2 = some n then (x.1, x.2.1, m) else x) } }

/-- A number for image values that are to wait under R308, unlike those of every COMMIT that waits. -/
def Dev.newGroup (d : Dev) : Nat := 1 + maxN (d.regs.heldBy.map (fun x => x.2.2.getD 0))

/-- The image values that wait under R76 and R308, in the order in which they come into force. -/
def Dev.heldVals (d : Dev) : List (Nat × Word) :=
  (d.cal.due ++ d.cal.held).flatMap (fun c => if c.kind = 0 then c.vals else []) ++ d.regs.held

/-- The active set as it will be with every held image value in force (R175: the set that a COMMIT is checked against;
R161). -/
def Dev.withHeld (d : Dev) : List (Nat × Word) :=
  d.heldVals.foldl (fun c p => putA c p.1 (maskPut (rdA c p.1) p.2.toNat (imageMask p.1))) d.regs.act

/-- The value a word's image bits are to have: the one held last, else the active one. -/
def Dev.imageNow (d : Dev) (a : Nat) : Nat :=
  match (d.heldVals.filter (fun p => p.1 == a)).getLast? with
  | some p => p.2.toNat
  | none => d.rd a

/-- The image part of a COMMIT: the words whose image bits it changes (R76). -/
def Dev.imagePart (d : Dev) (vals : List (Nat × Word)) : List (Nat × Word) :=
  vals.filter (fun p => p.2.toNat &&& imageMask p.1 != d.imageNow p.1 &&& imageMask p.1)

/-- Hold image values (R76): a later value of a word replaces an earlier one. -/
def Dev.holdImage (d : Dev) (img : List (Nat × Word)) : Dev :=
  { d with regs := { d.regs with held := img.foldl (fun l p => aset l p.1 p.2) d.regs.held } }

/-- The grid index of the next Catch to occur. -/
def Dev.nextIndex (d : Dev) : Nat := match d.seq.pend with | x :: _ => x.1 | [] => d.seq.high + 1

/-- The grid index k0 of the next page to open, at or after index `k`, where it is known (R183, R308). -/
def Dev.nextPageAt (d : Dev) (k : Int) : Option Int :=
  let next := if d.rf Reg.PAGE_CTRL 9 8 ≠ 0 then none
    else if k ≤ d.pages.nextK0 then some d.pages.nextK0
    else
      let lg : Int := ((max 1 (d.rd Reg.PAGE_ROWS) : Nat) : Int)
      some (d.pages.nextK0 + (k - d.pages.nextK0 + lg - 1) / lg * lg)
  match ((d.pages.list.filter (fun p => !p.closed && decide (k ≤ p.k0))).map (·.k0)).head? with
  | some k0 => some k0
  | none => next

/-- Image values come into force now, or as group `n` wait for the k0 of the next page at or after index `k` under
BOUNDARY while a job is held (R308). -/
def Dev.takeImage (d : Dev) (n : Nat) (k : Int) (img : List (Nat × Word)) : Dev :=
  if img.isEmpty then d
  else if d.boundaryMode && d.jobHeld then
    { d with cal := { d.cal with held := d.cal.held ++ [⟨0, n, 0, d.nextPageAt k, img, []⟩] } }
  else img.foldl (fun d p => d.commitWord p.1 p.2.toNat (imageMask p.1)) d

/-- Where the image values of a COMMIT wait once it has been taken. -/
def Dev.imageWait (d : Dev) (closed : Bool) (n : Nat) (img : List (Nat × Word)) : Option Nat :=
  if img.isEmpty then none else if closed then some 0 else if d.boundaryMode && d.jobHeld then some n else none

/-- The values held under R76 leave that state at grid index `k`. -/
def Dev.takeHeld (d : Dev) (k : Int) : Dev :=
  let img := d.regs.held
  let n := d.newGroup
  let d := ({ d with regs := { d.regs with held := [] } }).waitMoves 0 (d.imageWait false n img)
  d.takeImage n k img

/-- The chain whose CFG or class map word this is. -/
def chainOf (a : Nat) : Option Nat :=
  if 0x060400 ≤ a ∧ a < 0x060800 ∧ (a - 0x060400) % 64 = 0 then some ((a - 0x060400) / 64)
  else if 0x064000 ≤ a ∧ a < 0x065000 ∧ (a - 0x064000) % 256 < 192 then some ((a - 0x064000) / 256)
  else none

/-- A chain's level when its class map or BITS has changed: every LED lit, no on-time (R214); its rotation offsets and
ROT_MIN return to 0 (R227). A LAMP_LEVEL accepted and not yet latched stays to be latched over it (DESIGN CHOICE, log 186). -/
def Dev.resetChain (d : Dev) (n : Nat) : Dev :=
  let d := d.put (Reg.LMP_C_LEVEL n) (populated d.regs.act n * 8388608)
  let d := (List.range 14).foldl (fun d g => d.put (Reg.LMP_C_ROT n g) 0) d
  d.put (Reg.LMP_C_ROT_MIN n) 0

/-- The chains whose class map or BITS a COMMIT changes. -/
def Dev.chainsChanged (d : Dev) (vals : List (Nat × Word)) : List Nat :=
  ((vals.filter (fun p => if p.1 < 0x064000 then
      d.rd p.1 / 65536 % 512 != p.2.toNat / 65536 % 512 else d.rd p.1 != p.2.toNat)).filterMap
    (fun p => chainOf p.1)).eraseDups

/-- The values of a COMMIT take effect, image words as R76 and R308 say; `closed` says that image words are held. -/
def Dev.takeCommit (d : Dev) (closed : Bool) (vals : List (Nat × Word)) : Dev :=
  let cs := d.chainsChanged vals
  let img := d.imagePart vals
  let was := d.rd Reg.SEQ_CTRL
  let d := vals.foldl (fun d p => d.commitWord p.1 p.2.toNat (0xFFFFFFFF ^^^ imageMask p.1)) d
  let d := (cs.foldl (fun d n => d.resetChain n) d).seqChanged was
  if closed then d.holdImage img else d.takeImage d.newGroup d.nextIndex img

/-- The accepted COMMIT takes effect: at a Catch, or (`closed`) because Catches are disabled while the job stays held,
where R13 and R76 hold its image words. -/
def Dev.forceCommit (d : Dev) (closed : Bool) : Dev :=
  match d.regs.com with
  | none => { d with regs := { d.regs with comDue := false } }
  | some c =>
    let img := d.imagePart c.vals
    let shut := closed && d.jobHeld || d.imageClosed
    let d := { d with regs := { d.regs with com := none, comDue := false } }
    let d := d.takeCommit shut c.vals
    { d with regs := { d.regs with heldBy := d.regs.heldBy ++ [(c.session, c.seq, d.imageWait shut d.newGroup img)] } }

/-- A stroke under way has not been read out, a Catch is still to occur, or the flush cycle is due or runs (R13, R99). -/
def Dev.strokeRuns (d : Dev) : Bool :=
  d.seq.flight.any (fun x => x.px.isNone) || !d.seq.pend.isEmpty || d.seq.flushDue || d.seq.flush

/-- With Catches disabled the accepted COMMIT takes effect once the stroke under way and its flush cycle are over (R13);
its COMMIT_DONE follows at once where no job is held. -/
def Dev.commitDue (d : Dev) : Dev :=
  if d.regs.comDue && !d.strokeRuns then
    let d := d.forceCommit true
    if d.jobHeld then d else d.settleCommits 0
  else d

/-- A correction comes into force. -/
def Dev.applyCorr (d : Dev) (c : HeldCorr) : Dev :=
  if c.kind = 0 then (c.vals.foldl (fun d p => d.commitWord p.1 p.2.toNat (imageMask p.1)) d).waitMoves c.unit none
  else
    let d := { d.putAll c.vals with cal := { d.cal with heads := c.heads.foldl (fun l x => aset l x.1 x.2) d.cal.heads } }
    if c.epoch = 0 then d else d.put Reg.CAL_EPOCH_NOW (max (d.rd Reg.CAL_EPOCH_NOW) c.epoch.toNat)

/-- Apply corrections in order; the highest of their epochs is the one in force (R307). -/
def Dev.applyCorrs (d : Dev) (l : List HeldCorr) : Dev :=
  let es := (l.filter (fun c => c.kind != 0 && c.epoch != 0)).map (fun c => c.epoch.toNat)
  let d := l.foldl (fun d c => d.applyCorr c) d
  if es.isEmpty then d else d.put Reg.CAL_EPOCH_NOW (maxN es)

/-- A correction is ready: it waits for the next Catch, or for the next page's k0 under BOUNDARY (R308). -/
def Dev.correction (d : Dev) (c : HeldCorr) : Dev :=
  if d.boundaryMode && d.jobHeld then
    { d with cal := { d.cal with held := d.cal.held ++ [{ c with k0 := d.nextPageAt d.nextIndex }] } }
  else { d with cal := { d.cal with due := d.cal.due ++ [c] } }

/-- Everything held comes into force: on entry to IDLE (R76, R308), with COMMIT_DONE of stroke 0. A correction due at the
next Catch goes on waiting for it. -/
def Dev.releaseHeld (d : Dev) : Dev :=
  let held := d.regs.held
  let corr := d.cal.due.filter (fun c => c.kind == 0) ++ d.cal.held
  let d := { d with
    regs := { d.regs with held := [] }
    cal := { d.cal with held := [], due := d.cal.due.filter (fun c => c.kind != 0) } }
  let d := d.applyCorrs corr
  let d := held.foldl (fun d p => d.commitWord p.1 p.2.toNat (imageMask p.1)) d
  (d.waitMoves 0 none).settleCommits 0

/-- The next epoch (R306). A block of 4,096 is reserved in the store before its first epoch is issued. -/
def Dev.takeEpoch (d : Dev) : Word × Dev :=
  let e := d.rd Reg.CAL_EPOCH_NEXT
  let d := if d.cal.block ≤ e then
      { d with cal := { d.cal with block := e + 4096 } }.storeRec ⟨0xFFFE, 0, w32 e, 0, d.ns, [], []⟩
    else d
  (w32 e, (d.put Reg.CAL_EPOCH_NEXT (e + 1)))

/-- An enabled head has READ_LAG = 1. -/
def Dev.anyLag (d : Dev) : Bool := (headsOf d.regs.act).any (headLag d.regs.act)

/-- The feed group of the captured job (R253). -/
def Dev.feed (d : Dev) : Option Nat := d.job?.map (·.group)
/-- Whether a group is at rest. -/
def Group.still (g : Group) : Bool :=
  match g.st with
  | .run | .halting | .splice => false
  | .homing => false
  | _ => g.v == 0
/-- Whether the feed group is at rest; true where no job is held. -/
def Dev.feedStill (d : Dev) : Bool := match d.feed with | some g => (d.grp g).still | none => true

/-- The sessions with a move queued or current in a group (R78). -/
def Group.sessions (g : Group) : List Nat :=
  (((match g.cur with | some m => [m] | none => []) ++ (match g.heldMove with | some m => [m] | none => []) ++ g.q).map
    (·.session)).eraseDups

/-- The MOVE_ID of the current move, 0 where there is none. -/
def Group.moveId (g : Group) : Word := match g.cur with | some m => m.id | none => 0

/-- A MOTION event (R267). -/
def Dev.motEv (d : Dev) (g cond : Nat) (id : Word) : Dev :=
  (d.grp g).sessions.foldl (fun d s => d.ev s 0x12 (be 2 g ++ be 2 cond ++ beW id)) d

/-- One axis stops hard (R243). -/
def Dev.axHard (d : Dev) (a : Nat) : Dev :=
  let x := d.ax a
  if x.rate = 0 then d
  else if (d.axEnc a).isSome then d.modAx a (fun x => { x with rate := 0, moving := false, resync := true })
  else if d.axHomeReq a then
    d.modAx a (fun x => { x with rate := 0, moving := false, valid := false, homed := false })
  else d.modAx a (fun x => { x with rate := 0, moving := false })

/-- A group stops hard and takes a state; its move and its queue are kept. -/
def Dev.hardStop (d : Dev) (g : Nat) (st : GSt) : Dev :=
  let d := (d.groupAxes g).foldl (fun d a => d.axHard a) d
  d.modGrp g (fun x => { x with st := st, v := 0, stopAt := none, stopDue := false, hard := false, clamp := none,
                                limitBy := none, restEnd := false, ending := none })

/-- The feed group is to stop on a grid point at the next boundary (R281, R284). A stop under way stays as it is, but for
the one that ends a band without a held move (R290). -/
def Dev.stopFeed (d : Dev) : Dev :=
  match d.feed with
  | none => d
  | some g => d.modGrp g fun x =>
      if (x.st = .run ∨ x.st = .splice) ∧ (x.stopAt = none ∨ x.bandStop = true) then { x with stopDue := true, bandStop := false }
      else x

/-- Every other group in motion ramps to HALTED at its current move's DEC (R255). -/
def Dev.rampOthers (d : Dev) : Dev :=
  (List.range 4).foldl (fun d g =>
    if d.feed = some g then d else
    d.modGrp g fun x => match x.st, x.cur with
      | .run, some m => { x with st := .halting, haltDec := m.dec }
      | _, _ => x) d

/-- A group's queue and current move are dropped, with QUEUE_FLUSHED (R255, R266). -/
def Dev.flushQ (d : Dev) (g : Nat) (report : Bool) : Dev :=
  let d := if report then d.motEv g 0xB 0 else d
  d.modGrp g (fun x => { x with cur := none, q := [], heldMove := none, intern := 0, u := 0, ending := none })

/-! Hold causes (R38). -/

/-- Set a hold cause. -/
def Dev.setHold (d : Dev) (c : Nat) : Dev :=
  { d with hold := setBit d.hold c, cls := { d.cls with causes := setBit d.cls.causes c } }
/-- Clear a hold cause. -/
def Dev.clrHold (d : Dev) (c : Nat) : Dev := { d with hold := clrBit d.hold c }
/-- Set FAULT for a condition. -/
def Dev.setFault (d : Dev) (w : Nat) : Dev :=
  ({ d with flt := { d.flt with why := setBit d.flt.why w } }).setHold hcFault
/-- A condition behind FAULT ends: FAULT clears with the last of them. -/
def Dev.clrFault (d : Dev) (w : Nat) : Dev :=
  let d := { d with flt := { d.flt with why := clrBit d.flt.why w } }
  if d.flt.why = 0 then d.clrHold hcFault else d

/-- The mode a fault that sets FAULT leads to: HOLD where strokes are captured, else the present mode. -/
def Dev.faultMode (d : Dev) : Mode := if d.mode == .scan || d.mode == .splice then .hold else d.mode
/-- The mode that an action leads to where it changes none itself: HOLD under a hold cause. -/
def Dev.leadsTo (d : Dev) : Mode := if d.hold = 0 then d.mode else d.faultMode
/-- The ACTION code of such a fault: 6 HOLD in SCAN and SPLICE, else 0. -/
def Dev.faultAction (d : Dev) : Nat := if d.mode == .scan || d.mode == .splice then 6 else 0

/-! Catches (R94, R99). -/

/-- Every LCnn_BLK goes high: no window, pulse or dwell goes on. -/
def Dev.darken (d : Dev) : Dev :=
  { d with lamp := { d.lamp with chains := d.lamp.chains.map (fun (c : Chain) => { c with gate := [] }) } }

def Dev.chain (d : Dev) (n : Nat) : Chain := nth d.lamp.chains n
def Dev.modChain (d : Dev) (n : Nat) (f : Chain → Chain) : Dev :=
  { d with lamp := { d.lamp with chains := modNth d.lamp.chains n f } }

/-- Lit time of a chain grows; whole minutes are counted (R227, R234). -/
def Dev.lit (d : Dev) (n cyc : Nat) : Dev :=
  let t := (d.chain n).litCyc + cyc
  let m := t / 46875000000
  let d := d.modChain n fun c => { c with litCyc := t % 46875000000 }
  if m = 0 then d else (d.bumpBy (Reg.LMP_C_LIT_MIN n) m).bumpBy (Reg.LMP_C_ROT_MIN n) m

/-- A wear rotation is abandoned (R226): the dwell under way ends, and its light so far counts. -/
def Dev.rotAbandon (d : Dev) : Dev :=
  match d.lamp.rot with
  | none => d
  | some n =>
    let past := sumN ((d.chain n).gate.map (fun g => min d.now g.2 - g.1))
    let d := (d.lit n past).modChain n fun c => { c with gate := [] }
    { d with lamp := { d.lamp with rot := none } }

/-- The sequencer takes no more Catches; READ_LAG heads are due a flush cycle (R99). -/
def Dev.catchDis (d : Dev) (hold : Bool) : Dev :=
  if d.seq.en then
    { d with seq := { d.seq with
      en := false, flushDue := d.anyLag && (d.seq.lagPrimed || hold && !d.seq.pend.isEmpty)
      pend := if hold then d.seq.pend else [] } }
  else d

/-- Catches are disabled: an accepted COMMIT takes effect once the stroke under way is over (R13). Only on a hold do
pending Catches remain. No lamp window opens from now on; an open one runs to its end (R211, R284). -/
def Dev.catchOff (d : Dev) (hold : Bool) : Dev :=
  let d := d.catchDis hold
  { d with regs := { d.regs with comDue := d.regs.com.isSome } }.commitDue

/-- Catches are enabled, but for a link loss under way (R29); `first` says that a run begins (R156). -/
def Dev.catchOn (d : Dev) (first : Bool) : Dev :=
  { d with seq := { d.seq with en := !d.bzl.inhibit, lagPrimed := false, flushDue := false, flush := false,
                               firstRun := d.seq.firstRun || first } }

/-- The commanded run is one that captures strokes in CALIBRATE: AFE_OFFSET, SHADING, LAMP_ABS. -/
def Dev.captures (d : Dev) : Bool :=
  match d.cal.run with | some r => r.kind == 2 || r.kind == 5 || r.kind == 6 | none => false

/-- Whether the mode and the configuration call for Catches outside a job (R94): SERVICE with a head enabled, CALIBRATE
while a calibration captures strokes, and no link loss under way (R29). -/
def Dev.wantsCatches (d : Dev) : Bool :=
  (d.mode == .service && !(headsOf d.regs.act).isEmpty || d.mode == .calibrate && d.captures) && !d.bzl.inhibit

/-- Catches outside a job are enabled or disabled as R94 says; the encoder's grid then starts anew (R85). -/
def Dev.serviceCatches (d : Dev) : Dev :=
  if d.mode == .service || d.mode == .calibrate then
    if d.wantsCatches && !d.seq.en then
      (if d.rf Reg.SEQ_CTRL 0 0 = 0 then d.newGrid else d).catchOn true
    else if !d.wantsCatches && d.seq.en then d.catchOff false else d
  else d

/-! Commanded runs (R318, R323). -/

/-- A commanded calibration run ends without a result, with a status; lanes it named and has not come to stay as they are. -/
def Dev.failRun (d : Dev) (st : Nat) (count : Bool) : Dev :=
  match d.cal.run with
  | none => d
  | some r =>
    let d := { d with
      cal := { d.cal with run := none, afeRun := if r.kind = 2 then d.cal.afeRun.filter (fun x => !r.left.contains x.quad) else d.cal.afeRun }
      bzl := { d.bzl with f2h := { d.bzl.f2h with todo := [] }, h2f := { d.bzl.h2f with todo := [] } } }
    let d := d.bumpIf count Reg.CAL_FAIL_CNT
    (if d.mode == .calibrate then d.catchOff false else d).endOps d.owner (fun o => o == .calRun) st 0

/-! Mode changes (R36). -/

/-- The long operations a mode change completes or cancels (R39, R461). -/
def opAfter (new : Mode) : Op → Option Nat
  | .modeSet m => if new == m then some stOk else if m == .idle && new == .wake then none else some stBadState
  | .scanStart => if new == .scan then some stOk else if new == .idle then none else some stBadState
  | .scanStop => if new == .scan || new == .hold || new == .splice || new == .idle then none else some stBadState
  | .scanHold => if new == .hold then some stOk else if new == .scan || new == .splice then none else some stBadState
  | .scanResume => if new == .scan then some stOk else if new == .hold || new == .splice then none else some stBadState
  | .jobAbort => if new == .idle then some stOk else some stBadState
  | .home => if new == .homing then none else if new == .safe then some stFault else some stBadState
  | .faultClear => if new == .hold || new == .idle then some stOk else some stBadState
  | .calRun => if new == .reset || new == .off || new == .standby then some stBadState else none
  | .lampTest _ => if new == .reset || new == .off || new == .standby then some stBadState else none
  | .calStore | .calRestore | .fwCommit => if new == .reset || new == .off then some stBadState else none

/-- Complete the long operations that a change to `new` ends. -/
def Dev.settleOps (d : Dev) (new : Mode) (owner : Option Nat) : Dev :=
  let d0 := { d with ops := d.ops.filter (fun o => (opAfter new o.op).isNone) }
  d.ops.foldl (fun d o => match opAfter new o.op with | some st => d.opDone o owner st 0 | none => d) d0

/-- SERVICE or CALIBRATE is left: the internal timer is no longer selected (R93), and after SERVICE no test pattern
(R108). -/
def Dev.leaveTest (d : Dev) (old : Mode) : Dev :=
  match old with
  | .service => (d.putF Reg.SEQ_CTRL 0 0 0).putF Reg.SEQ_TEST 1 0 0
  | .calibrate => d.putF Reg.SEQ_CTRL 0 0 0
  | _ => d

/-- Sequences run from WAKE onward in every mode except STANDBY (R137): a pass under way ends there. -/
def Mon.stop (m : Mon) : Mon :=
  { m with entry := none, changed := none, res := (m.changed.getD []).foldl adel m.res }

/-- The MON passes end where no sequence runs. -/
def Dev.monStop (d : Dev) : Dev :=
  if d.fieldRuns then d else { d with monA := d.monA.stop, monB := d.monB.stop }

/-- The device in its new mode, before anything is sent. A wear rotation is abandoned on leaving IDLE (R226). -/
def Dev.entered (d : Dev) (m : Mode) : Dev :=
  (((({ d.rotAbandon with mode := m, prev := d.mode, trans := (d.trans + 1) % 65536 }).leaveTest d.mode).monStop).driveOut
    (fun g => d.aena g))

/-- A job whose SCAN_START a change to `m` cancels exists no longer (R42). -/
def Dev.cancelStart (d : Dev) (starting : Bool) (m : Mode) : Dev :=
  if starting && m != .scan && m != .idle then
    { d with jobs := d.jobs.filter (fun j => j.ended), seq := { d.seq with scanWait := false } }
  else d

/-- Outside a job no page waits for a SCAN_STOP. -/
def Dev.forgetStop (d : Dev) (m : Mode) : Dev :=
  if m != .scan && m != .hold && m != .splice && m != .idle then
    { d with pages := { d.pages with stopPages := none } } else d

/-- DEV_MODE changes (R36): TRANS_CNT, PREV, MODE_CHANGE to all open sessions, the completions of R461, and the CMD
frame that tells the field supervisor (R17). -/
def Dev.setMode (d : Dev) (m : Mode) : Dev :=
  if d.mode == m then d
  else
    (((((d.entered m).evAll 1 (be 1 d.mode.code ++ be 1 m.code ++ be 4 d.hold)).settleOps m d.owner).cancelStart
      (d.opRuns (fun o => o == .scanStart)) m).forgetStop m).sendCmd (.mode m.code)

/-- After leaving SCAN, HOLD and SPLICE the Cox is OFF, no limit is in force, and a feed group left at a stop point is
HALTED or at rest (R253, R276). -/
def Dev.feedLeft (d : Dev) : Dev :=
  let d := { d with cox := { d.cox with st := 0 } }
  { d with mot := { d.mot with groups := d.mot.groups.map (fun (g : Group) =>
      let g := { g with vpace := none, paceNext := none }
      match g.st with
      | .paceStop => { g with st := if g.cur.isSome || !g.q.isEmpty then .halted else .rest }
      | _ => g) } }

/-- DEV_MODE goes to IDLE: Catches are disabled and held values come into force (R76, R308). -/
def Dev.toIdle (d : Dev) : Dev := ((d.catchOff false).setMode .idle).feedLeft.releaseHeld

/-- A commanded run ends early for a cause of R323 that changes no mode itself: a run accepted in IDLE returns there. -/
def Dev.endRun (d : Dev) (st : Nat) (count : Bool) : Dev :=
  let back := d.mode == .calibrate && (match d.cal.run with | some r => r.fromIdle | none => false)
  let d := d.failRun st count
  if back then d.toIdle else d

/-- Strokes are withheld (R105, R130): those of `p` leave the pipeline and are counted. In a job every later stroke
up to the stop follows. A commanded run fails with a stroke withheld (R323). -/
def Dev.withhold (d : Dev) (p : Stroke → Bool) : Dev :=
  let gone := d.seq.flight.filter p
  let d := { d with seq := { d.seq with flight := d.seq.flight.filter (fun s => !p s),
                                        withhold := d.seq.withhold || d.jobMode } }
  let d := (d.bumpBy Reg.SEQ_WITHHELD_CNT gone.length).commitDue
  if gone.isEmpty then d else d.endRun stFault true

/-! Capture's end (R38, R42, R461). -/

/-- JOB_END once a job has ended and every page of it is delivered (R58, R78). -/
def Dev.jobEndCheck (d : Dev) (serial : Nat) : Dev :=
  match d.jobs.find? (fun j => j.serial == serial && j.ended) with
  | none => d
  | some j =>
    if !d.pages.list.any (fun p => p.serial == serial) then
      let d := d.jobEv serial 5 (beW j.id ++ be 4 j.delivered)
      { d with jobs := d.jobs.filter (fun j => !(j.serial == serial && j.ended)) }
    else d

/-- The captured job's capture ends: HOST, PACE and STROKE_TMO clear, SCAN_STOP completes with `st`, SCAN_RESUME with
BAD_STATE, and the device goes to IDLE from SCAN, HOLD and SPLICE. -/
def Dev.captureEnd (d : Dev) (st : Nat) : Dev :=
  match d.job? with
  | none => d
  | some j =>
    let owner := j.owner
    let d := ((d.clrHold hcHost).clrHold hcPace).clrHold hcStroke
    let d := d.endOps owner (fun o => o == .scanStop) st 0
    let d := d.endOps owner (fun o => o == .scanResume || o == .scanHold) stBadState 0
    let d := d.catchOff false
    let aborts := d.ops.filter (fun (o : LongOp) => o.op == Op.jobAbort)
    let d := { d with ops := d.ops.filter (fun (o : LongOp) => o.op != Op.jobAbort) }
    let d := { d with
      jobs := d.jobs.map (fun (x : Job) => if x.serial == j.serial then { x with ended := true } else x)
      pages := { d.pages with stopPages := none }
      cls := { d.cls with step := 0, refs := [], fixed := false, staging := [], band := 0, causes := 0, breakAt := none }
      seq := { d.seq with withhold := false, limit := false, bandWait := false } }
    let d := if d.jobMode then { d with cal := { d.cal with afeRun := [], afeAgain := [] } }.toIdle else d.feedLeft
    let d := aborts.foldl (fun d o => d.opDone o owner stOk 0) d
    d.jobEndCheck j.serial

/-- A hold begins in SCAN: its causes, and the last stroke framed before it; in SPLICE it interrupts the splice (R287,
R298, R299). -/
def Dev.holdBegins (d : Dev) : Dev :=
  if d.mode == .scan then { d with cls := { d.cls with causes := d.hold, holdNo := d.seq.strokeNo } }
  else d.bumpIf (d.mode == .splice) Reg.CLS_ABORT_CNT

/-- FAULT of a group ends with SAFE (R266). -/
def Group.unfault (x : Group) : Group := if x.st = .fault then { x with st := .rest } else x

/-! SAFE (R399). -/

/-- SAFE is entered with a cause of R401 and the fault-log entry that names it. In STANDBY, RESET and OFF only the
cause and the entry are recorded. From HOMING and WAKE SAFE is entered for every cause, as R264, R390 and R399 give it,
although R37 names HOME_FAIL and a failed wake step alone (DEDUCED, log 144). -/
def Dev.enterSafe (d : Dev) (cause : Nat) (r : FaultRec) : Dev :=
  let m1 := d.mode
  let d := d.put Reg.FLT_SAFE_CAUSE (setBit (d.rd Reg.FLT_SAFE_CAUSE) cause)
  if !d.fieldRuns then d.log { r with action := 7 } m1 .safe
  else if d.mode == .safe then d.log { r with action := 7 } m1 .safe
  else
    let d := if d.jobHeld then (d.setFault whySafe).holdBegins else d
    let d := d.bump Reg.FLT_SAFE_CNT
    let d := if d.jobHeld then { d with cox := { d.cox with stop := 2 } } else d
    let d := d.failRun stFault false
    let d := { d with cal := { d.cal with afeRun := [] } }.catchOff false
    let d := d.log { r with action := 7 } m1 .safe
    let d := (List.range 4).foldl (fun d g =>
      (d.hardStop g .fault).flushQ g true) d
    let d := { d with
      seq := { d.seq with ht := [] }
      lamp := { d.darken.lamp with rot := none, confirm := false }
      mot := { d.mot with axes := d.mot.axes.map (fun (a : Axis) => { a with home := none }) } }
    (d.setMode .safe).feedLeft.driveDrop

/-! The field side goes down (R421, R422, R424). -/

/-- Everything the field side loses when it is held or unpowered: strokes and frames, the link, the lamps' and the axes'
drive. -/
def Dev.fieldOutputs (d : Dev) : Dev :=
  let d := d.cutChannels.bumpBy Reg.SEQ_WITHHELD_CNT d.seq.flight.length
  { d with
    -- R23: strokes framed and not yet ingested are lost
    pages := { d.pages with
      gapNext := if !d.bzl.framed.isEmpty && d.jobHeld then some (d.pages.gapNext.getD 0) else d.pages.gapNext }
    seq := { d.seq with en := false, pend := [], flight := [], flush := false, flushDue := false, lanes := 0, reacq := 0,
                        errHeads := 0, withhold := false, bandWait := false, last := none, ht := [], clk := [] }
    bzl := { d.bzl with
      stage := [], framed := [], asm := none, inhibit := false, cmds := [], wait := [], applied := [], fieldMode := .standby
      fieldWords := [], stageLast := sumN (d.bzl.stage.map (fun f => f.len))
      holdover := false, localOsc := false, goodStatus := 0
      f2h := { d.bzl.f2h with retry := [], up := false, await := false, swap := [], test := 0, retrain := 0, todo := [] }
      h2f := { d.bzl.h2f with retry := [], up := false, await := false, swap := [], test := 0, retrain := 0, todo := [] } }
    lamp := { d.lamp with
      chains := d.lamp.chains.map (fun (c : Chain) => { c with
        gate := [], want := none, shifting := false, shifted := false, next := none })
      confirm := false
      rot := none
      test := none }
    mot := { d.mot with
      axes := d.mot.axes.map (fun (a : Axis) => { a with rate := 0, moving := false, home := none, resync := false })
      groups := d.mot.groups.map (fun (g : Group) => { g with
        st := .rest, cur := none, q := [], u := 0, v := 0, vpace := none, paceNext := none, stopDue := false, stopAt := none
        hard := false, heldMove := none, intern := 0, ending := none, drive := none }) } }

/-- DEV_MODE goes to STANDBY from a mode in which the field side runs; its outputs float. -/
def Dev.toStandby (d : Dev) : Dev :=
  let d := d.failRun stBadState false
  let d := { d with cal := { d.cal with afeRun := [] } }
  (((d.catchOff false).setMode .standby).feedLeft).fieldOutputs.commitDue

/-- The field side is lost (R422): by a rail, by nRST_F or by the absence of STATUS frames. -/
def Dev.fieldLost (d : Dev) : Dev :=
  let d := { d with bzl := { d.bzl with goodStatus := 0 } }
  let d := if d.jobHeld && !d.pwr.gridLost then
      ((({ d with pwr := { d.pwr with gridLost := true } }).setHold hcHost).bump Reg.PWR_FIELD_LOSS_CNT).holdBegins else d
  if d.fieldRuns then d.toStandby else d

/-! The level 3 restart (R397, R355) and recoveries (R394, R395). -/

/-- DMA channels and their words are reset (R355). -/
def Dev.dmaReset (d : Dev) : Dev :=
  (List.range 16).foldl (fun d n =>
    (((d.put (Reg.DMA_CH_CTRL n) 1).put (Reg.DMA_CH_PACE n) 1000).put (Reg.DMA_CH_STAT n) 0).put (Reg.DMA_CH_ERR_INFO n) 0)
    { d with dma := { d.dma with ch := d.dma.ch.map (fun _ => {}), fences := [] } }

/-- A level 3 restart begins: everything R397 preserves stays, frames not ingested are lost, the device is in RESET.
`recs` is the fault that it recovers from, if one does. -/
def Dev.level3Run (d : Dev) (recs : List Recov) : Dev :=
  if d.mode == .off then d else
  let late := match d.flt.l3 with
    | some t => decide (d.ns ≤ t + d.rd Reg.FLT_ESC_WIN * 1000000000)
    | none => false
  let d := d.bump (Reg.FLT_RECOV_CNT 3)
  let d := { d with flt := { d.flt with l3run := true } }.failRun stBadState false
  -- R287, R299: the break point of the splice after WAKE, and the splice that the restart interrupts
  let safe := d.mode == .safe
  let d := d.holdBegins
  let d := ({ d with cal := { d.cal with afeRun := [] } }.catchOff false).setMode .reset
  let d := d.dmaReset
  -- R397: strokes framed and not yet ingested are lost; R195: a gap open by then spans the restart too
  let lost := !d.bzl.framed.isEmpty
  let d := d.bumpBy Reg.SEQ_WITHHELD_CNT d.seq.flight.length
  let d := { d with seq := { d.seq with flight := [], pend := [], flush := false, flushDue := false } }.commitDue
  { d with
    flt := { d.flt with l3run := true, l3fail := late || d.flt.l3fail, recs := recs, l2due := false, l2run := false }
    pages := { d.pages with
      deliv := none
      gapNext := if (lost || d.pages.gapNext.isSome) && d.jobHeld then some ((d.pages.gapNext.getD 0) ||| 4)
        else d.pages.gapNext }
    cox := { d.cox with st := 0 }
    bzl := { d.bzl with
      stage := [], framed := [], asm := none, cmds := [], wait := [], applied := [], goodStatus := 0
      f2h := { d.bzl.f2h with retry := [], up := false, await := false }
      h2f := { d.bzl.h2f with retry := [], up := false, await := false } }
    mot := (if safe then { d with mot := { d.mot with groups := d.mot.groups.map Group.unfault } }
      else d).stopFeed.rampOthers.feedLeft.mot
    pwr := { d.pwr with selfRefresh := true, cold := false } }

/-- A level 3 restart that no fault's own entry records (R412): its RECOVERY entry is written. -/
def Dev.level3 (d : Dev) : Dev :=
  if d.mode == .off then d else (d.log { cls := 0x12, code := 2, action := 5 } d.mode .reset).level3Run []

/-- Recoveries of a class, code and unit complete. -/
def Dev.recEnd (d : Dev) (cls code : Nat) (unit : Option Nat) : Dev :=
  (d.flt.recs.filter (fun x => x.cls == cls && x.code == code && unit.all (· == x.unit))).foldl
    (fun d x => d.recovered x) d

/-- A recovery of a level starts for a fault, with its entry already written. -/
def Dev.startLevel (d : Dev) (level cls code unit entry : Nat) (hold : Bool) : Dev :=
  if level = 0 ∨ level = 1 then
    let d := if hold then d.setFault whyL1 else d
    { (d.bump (Reg.FLT_RECOV_CNT level)) with
      flt := { (d.bump (Reg.FLT_RECOV_CNT level)).flt with recs := d.flt.recs ++ [⟨level, cls, code, unit, hold, entry, d.now⟩] } }
  else if level = 2 then
    let d := (d.bump (Reg.FLT_RECOV_CNT 2)).setFault whyL2
    { d with flt := { d.flt with l2due := true, recs := d.flt.recs ++ [⟨2, cls, code, unit, true, entry, d.now⟩] } }
  else d.level3Run [⟨3, cls, code, unit, false, entry, d.now⟩]

/-- The same fault's latest recovery that completed within FLT_ESC_WIN (R395): the index of its entry, and its level. -/
def Dev.recurs (d : Dev) (cls code unit : Nat) : Option (Nat × Nat) :=
  (d.flt.hist.find? (fun h => h.1 == cls && h.2.1 == code && h.2.2.1 == unit &&
    decide (d.ns ≤ h.2.2.2.2.1 + d.rd Reg.FLT_ESC_WIN * 1000000000))).map (fun h => (h.2.2.2.1, h.2.2.2.2.2))

/-- Milliseconds since an entry of the log. -/
def Dev.msSince (d : Dev) (index : Nat) : Nat :=
  match d.flt.log.find? (fun e => e.index == index) with
  | some e => (d.ns - e.time) / 1000000
  | none => 0

/-- A fault that a recovery of a level answers (R394): its entry is written, and a fault that recurs within FLT_ESC_WIN
goes one level up with ESCALATED (R395, R412). -/
def Dev.recover (d : Dev) (r : FaultRec) (level : Nat) (hold : Bool) : Dev :=
  match d.recurs r.cls r.code r.unit with
  | none =>
    let i := d.flt.next
    let d := if level = 2 then d.setFault whyL2 else if hold then d.setFault whyL1 else d
    (d.log { r with action := level + 2 } d.mode d.leadsTo).startLevel level r.cls r.code r.unit i hold
  | some (e, was) =>
    let i := d.flt.next
    let up := min 3 (max level was + 1)
    let d := if up = 2 then d.setFault whyL2 else if up = 1 && hold then d.setFault whyL1 else d
    let d := d.log { r with action := up + 2, esc := true, a := e, b := d.msSince e } d.mode
      (if up = 3 then .reset else d.leadsTo)
    (d.bump Reg.FLT_ESC_CNT).startLevel up r.cls r.code r.unit i (hold || up = 2)

/-- A recovery that misses its bound goes one level up, the Bezel link's from level 0 to level 2 (R398), with a RECOVERY
entry of CODE 1 (R395, R412). -/
def Dev.escalate (d : Dev) (x : Recov) : Dev :=
  let d := { d with flt := { d.flt with recs := d.flt.recs.filter (fun y => !(y == x)) } }
  let i := d.flt.next
  let up := if x.cls = 2 ∧ x.code = 3 then max 2 (min 3 (x.level + 1)) else min 3 (x.level + 1)
  let d := if up = 2 then d.setFault whyL2 else if up = 1 && x.hold then d.setFault whyL1 else d
  let d := d.log { cls := 0x12, code := 1, action := up + 2, esc := true, a := x.entry, b := d.msSince x.entry } d.mode
    (if up = 3 then .reset else d.leadsTo)
  (d.bump Reg.FLT_ESC_CNT).startLevel up x.cls x.code x.unit i (x.hold || up = 2)

/-- RECAL_REQUEST (R325): once while its condition lasts. -/
def Dev.recal (d : Dev) (kind unit reason : Nat) : Dev :=
  if d.cal.asked.contains (kind, unit, reason) then d else
  let d := { d with cal := { d.cal with asked := (kind, unit, reason) :: d.cal.asked } }
  (d.bump Reg.CAL_RECAL_REQ_CNT).evAll 0x11 (be 2 kind ++ be 2 unit ++ be 4 reason)

/-- The condition behind a RECAL_REQUEST has ended. -/
def Dev.recalEnd (d : Dev) (kind unit reason : Nat) : Dev :=
  { d with cal := { d.cal with asked := d.cal.asked.filter (fun x => !(x == (kind, unit, reason))) } }

/-- The unit a SHADING request names for a phase (R325): the phase in bits 5:4, its selected slot in bits 2:0. -/
def Dev.shadeUnit (d : Dev) (p : Nat) : Nat := p * 16 + d.rd Reg.PIX_MAPSEL / 2 ^ (24 - 8 * p) % 8

end Sys2Proof.Machine
end

