-- ==== Sys2Proof/Machine/Motion.lean ====
section
/-! DEFINITION. Motion axes and profiles (R235 to R268): the profile generator in exact integers, queues and blends,
halts, limits, homing, following errors, and the stop points and internal moves of the feed group (R281, R282, R288 to
R290). Positions are in 1/65,536 step, path speeds in 1/48,828,125 step/s, path coordinates in 1/65,536 step divided by
48,828,125². -/

namespace Sys2Proof.Machine

open Sys2Proof

/-- CLK_MOT, Hz (R30). -/
abbrev motHz : Nat := 48828125
/-- The unit of path coordinates in 1/65,536 step. -/
abbrev motHz2 : Nat := motHz * motHz

/-! Moves. -/

/-- A move's distances by axis. -/
def Move.dist (m : Move) : List (Nat × Int) :=
  (m.target.zip m.start).map (fun (x : (Nat × Int) × (Nat × Int)) => (x.1.1, x.1.2 - x.2.2))

/-- L of R245, 1/65,536 step. -/
def Move.len (m : Move) : Nat := maxN (m.dist.map (fun x => x.2.natAbs))

/-- L as a path coordinate. -/
def Move.lenU (m : Move) : Nat := m.len * motHz2

/-- The lead axis: the largest distance, the lowest number on a tie. -/
def Move.lead (m : Move) : Option Nat := (m.dist.find? (fun x => x.2.natAbs == m.len)).map (·.1)

/-- An axis's distance in a move, 0 where it is not masked. -/
def Move.d (m : Move) (a : Nat) : Int := ((m.dist.find? (fun x => x.1 == a)).map (·.2)).getD 0

/-- The positions at a path coordinate (R245). -/
def Move.pos (m : Move) (u : Nat) : List (Nat × Int) :=
  (m.start.zip m.dist).map (fun (x : (Nat × Int) × (Nat × Int)) =>
    (x.1.1, x.1.2 + (if m.lenU = 0 then x.2.2 else roundDiv (x.2.2 * u) m.lenU)))

/-! Exit speeds (R246, R249, R250). -/

/-- The largest joint speed JUMP allows between two moves, in the unit of path speeds; none where every axis keeps its
rate. -/
def Dev.jumpSpeed (d : Dev) (g : Nat) (m n : Move) : Option Nat :=
  (d.groupAxes g).foldl (fun (b : Option Nat) a =>
    let k := (m.d a * n.len - n.d a * m.len).natAbs
    if k = 0 then b
    else
      let v := d.rd (Reg.MOT_A_JUMP a) * motHz * m.len * n.len / k
      some (match b with | some x => min x v | none => v)) none

/-- v with v² = e² + 2 × dec × L, at the start of a move that ends at e. -/
def entryMax (e dec len : Nat) : Nat := isqrt (e * e + 2 * dec * len * motHz2 / 65536)

/-- The exit speed of a move before the entries of a queue under a Cox limit (R249, R250): 0 unless the next blends. -/
def Dev.exitSpeed (d : Dev) (g : Nat) (vp : Option Nat) (m : Move) : List Move → Nat
  | [] => 0
  | n :: rest =>
    if n.blend && m.len != 0 && n.len != 0 then
      let e := d.exitSpeed g vp n rest
      let v := min (min (m.vmax * motHz) (n.vmax * motHz)) (entryMax e n.dec n.len)
      let v := match d.jumpSpeed g m n with | some j => min v j | none => v
      match vp with | some p => min v (p * motHz) | none => v
    else 0

/-! Outputs. -/

/-- A switch's debounced level. -/
def Dev.sw (d : Dev) (s : Nat) : Bool := decide (s < 18) && bit (d.rd Reg.MOT_SW_STAT) s
/-- Whether an axis's limit is active, positive or negative. -/
def Dev.limAct (d : Dev) (a : Nat) (pos : Bool) : Bool :=
  d.sw (if pos then d.rf (Reg.MOT_A_LIM a) 4 0 else d.rf (Reg.MOT_A_LIM a) 12 8)
/-- An entry drives an axis further toward an active limit (R259). -/
def Dev.towardLimit (d : Dev) (m : Move) : Bool :=
  m.dist.any (fun x => (decide (0 < x.2) && d.limAct x.1 true) || (decide (x.2 < 0) && d.limAct x.1 false))
/-- An entry moves away from every active limit of the group (R258). -/
def Dev.awayFromAll (d : Dev) (g : Nat) (m : Move) : Bool :=
  (d.groupAxes g).all (fun a =>
    (!d.limAct a true || decide (m.d a < 0)) && (!d.limAct a false || decide (0 < m.d a)))

/-- Set flag bits of a group: 0 ACC_CLAMP, 1 HALTED, 2 LIMIT, 3 LIMIT_REFUSED, 4 FE, 5 STEP_WDOG (R272). -/
def Dev.gFlag (d : Dev) (g b : Nat) : Dev := d.put (Reg.MOT_G_FLAGS g) (setBit (d.rd (Reg.MOT_G_FLAGS g)) b)

/-- A move of the queue completed (R247); the sessions that have one queued or current are told. -/
def Dev.moveDone (d : Dev) (g : Nat) (m : Move) : Dev :=
  (d.bump Reg.MOT_MOVE_CNT).motEv g 1 m.id

/-- The group's next entries become current, as far as they complete at once (R247, R248, R259); `v` is the speed at
the joint. -/
def Dev.startNext (d : Dev) (g v : Nat) : Nat → Dev
  | 0 => d
  | n + 1 =>
    let x := d.grp g
    match x.q with
    | [] => d.modGrp g fun x => { x with cur := none, st := .rest, u := 0, v := 0, ending := none }
    | m :: rest =>
      if m.len = 0 then
        let d := (d.modGrp g fun x => { x with cur := some m, q := rest })
        ((d.moveDone g m).modGrp g fun x => { x with cur := none }).startNext g 0 n
      else if d.towardLimit m then
        let d := ((d.modGrp g fun x => { x with cur := some m, q := rest }).bump Reg.MOT_LIMIT_REFUSE_CNT).gFlag g 3
        let d := d.motEv g 4 m.id
        (d.flushQ g false).modGrp g fun x => { x with st := .limit, v := 0 }
      else
        d.modGrp g fun x => { x with cur := some m, q := rest, st := .run, u := 0, v := v, clamp := none, decel := false
                                     ending := none, lastMove := if d.feed = some g then some m else x.lastMove }

/-! Stop points (R281, R282). -/

/-- The grid's origins, newest first (R85, R87). -/
def Seq.origins (q : Seq) : List (Nat × Int × Nat) := (q.k0, q.p0, q.pitch) :: q.old

/-- G(k) on a list of origins. -/
def gridOn (k : Int) : List (Nat × Int × Nat) → Int
  | [] => 0
  | [(k0, p0, w)] => p0 + (k - k0) * w
  | (k0, p0, w) :: l => if (k0 : Int) ≤ k then p0 + (k - k0) * w else gridOn k l

/-- The greatest index with G(k) at or before a position. -/
def indexOn (p : Int) : List (Nat × Int × Nat) → Int
  | [] => 0
  | [(k0, p0, w)] => k0 + (p - p0) / (max 1 w : Int)
  | (k0, p0, w) :: l => if p0 ≤ p then k0 + (p - p0) / (max 1 w : Int) else indexOn p l

/-- G(k), 1/65,536 quarter-count (R85, R87). -/
def Seq.grid (q : Seq) (k : Int) : Int := gridOn k q.origins

/-- The greatest index with G(k) at or before a position. -/
def Seq.index (q : Seq) (p : Int) : Int := indexOn p q.origins

/-- The smallest index with G(k) at or beyond a position. -/
def Seq.gridAt (q : Seq) (p : Int) : Nat := (q.index (p - 1) + 1).toNat

/-- ρ (R275). -/
def Dev.rho (d : Dev) : Nat := max 1 (d.rd Reg.COX_FEED_RATIO)

/-- The distance in 1/65,536 lead step from the present feed position to the first grid point that a ramp at `dec` from
speed `v` can stop on. -/
def Dev.stopDist (d : Dev) (v dec : Nat) : Nat :=
  let need := ceilDiv (v * v * 65536) (2 * (max 1 dec) * motHz2)
  let p := d.feedPos d.now
  let k := d.seq.gridAt (p + ((need * d.rho / 65536 : Nat) : Int))
  let far := fun (k : Nat) => ((d.seq.grid k - p) * 65536 / (d.rho : Int)).toNat
  if far k < need then far (k + 1) else far k

/-- The same against the feed direction, for a rewind (R281, R299). -/
def Dev.stopBack (d : Dev) (v dec : Nat) : Nat :=
  let need := ceilDiv (v * v * 65536) (2 * (max 1 dec) * motHz2)
  let p := d.feedPos d.now
  let k := d.seq.index (p - ((need * d.rho / 65536 : Nat) : Int))
  let far := fun (k : Int) => ((p - d.seq.grid k) * 65536 / (d.rho : Int)).toNat
  if far k < need then far (k - 1) else far k

/-- The speed limit on a group: the Cox's, and what a stop beyond the current move has braked to, path steps/s. -/
def Group.limit (x : Group) : Option Nat :=
  match x.vpace, x.brake with
  | some a, some b => some (min a b)
  | some a, none => some a
  | none, b => b

/-- A stop comes into force on a group at this boundary. One that lies beyond the current move brakes until a later move
holds its point. -/
def Dev.makeStop (d : Dev) (g : Nat) : Dev :=
  let x := d.grp g
  match x.cur with
  | none => d.modGrp g fun x => { x with stopDue := false }
  | some m =>
    if x.v = 0 ∧ x.st = .run then
      d.modGrp g fun x => { x with stopDue := false, stopAt := some x.u }
    else if x.intern = 1 then
      let u := x.u + d.stopBack x.v m.dec * motHz2
      d.modGrp g fun x => { x with stopDue := false, stopAt := some (min u m.lenU) }
    else if x.v = 0 then d.modGrp g fun x => { x with stopDue := false }
    else
      let u := x.u + d.stopDist x.v m.dec * motHz2
      -- R290: without a held move the run-up also reaches the place where the group rested at the hold
      let u := if x.bandStop then max u ((maxN ((x.heldPos.zip m.start).map (fun (y : (Nat × Int) × (Nat × Int)) =>
        (y.1.2 - y.2.2).natAbs))) * motHz2) else u
      if u ≤ m.lenU then d.modGrp g fun x => { x with stopDue := false, stopAt := some u }
      else if x.intern = 3 ∨ d.exitSpeed g x.limit m x.q = 0 ∧ x.intern ≠ 2 then
        d.modGrp g fun x => { x with stopDue := false, stopAt := some m.lenU }
      else d.modGrp g fun x => { x with brake := some ((x.v - m.dec * 1024) / motHz) }

/-! One profile period of one group. -/

/-- A deceleration as a fraction, path steps/s². -/
def Group.decOf (x : Group) (m : Move) : Nat × Nat := x.clamp.getD (m.dec, 1)

/-- The largest speed of the next period from which the exit speed `e` is still reached at distance `rem` (R246). -/
def rampSpeed (dec : Nat × Nat) (e rem : Nat) : Nat :=
  let a := dec.1 * 1024 / dec.2
  isqrt (a * a + e * e + 2 * dec.1 * rem / (65536 * dec.2)) - a

/-- The group is at rest on its stop point (R253). -/
def Dev.atStop (d : Dev) (g : Nat) (m : Move) (u : Nat) : Dev :=
  let x := d.grp g
  if x.intern = 3 ∧ (d.mode = .scan ∨ x.bandStop = true) then
    (d.modGrp g fun x =>
      { x with cur := none, v := 0, u := 0, stopAt := none, bandStop := false, intern := 0, st := .rest, heldPos := [] }).startNext
        g 0 33
  else if x.intern = 0 ∧ m.lenU ≤ u then
    let d := d.moveDone g m
    d.modGrp g fun x => { x with cur := none, v := 0, u := 0, stopAt := none, clamp := none, decel := false,
                                 st := if d.jobMode then .paceStop else if x.q.isEmpty then .rest else .halted }
  else d.modGrp g fun x => { x with v := 0, u := u, stopAt := none, clamp := none, decel := false,
                                    st := if d.jobMode then .paceStop else .halted }

/-- A move reached its end at its exit speed: an internal move is followed by the next part of the splice, a queued one
by the queue (R247, R254). -/
def Dev.endOfMove (d : Dev) (g : Nat) (m : Move) (e : Nat) : Dev :=
  let x := d.grp g
  match x.intern with
  | 1 =>
    let d := if d.cls.step = 2 then { d with cls := { d.cls with step := 3 } } else d
    let start := m.target
    let fwd := x.heldPos
    let up : Move := { m with start := start, target := fwd, vmax := x.vs }
    match x.heldMove with
    | some _ => d.modGrp g fun x => { x with cur := some up, u := 0, v := 0, intern := 2 }
    | none =>
      let far := m.start.zipWith (fun (s t : Nat × Int) => (s.1, s.2 + (s.2 - t.2) * 1048576)) m.target
      d.modGrp g fun x => { x with cur := some { up with target := far }, u := 0, v := 0, intern := 3 }
  | 2 =>
    d.modGrp g fun x => { x with cur := x.heldMove, heldMove := none, u := x.heldU, v := e, intern := 0, st := .run
                                 decel := false, clamp := none }
  | 3 => (d.modGrp g fun x => { x with cur := none, intern := 0, heldPos := [] }).startNext g 0 33
  | _ =>
    let d := (d.modGrp g fun x => { x with u := m.lenU, v := e }).moveDone g m
    (d.modGrp g fun x => { x with cur := none }).startNext g e 33

/-- How a period's steps look at an axis's pins (R236). -/
def Dev.stepPins (d : Dev) (a : Nat) (dir : Bool) : StepPins :=
  { pulse := d.rf (Reg.MOT_A_CFG a) 27 27 == 0
    dir := dir != (d.rf (Reg.MOT_A_CFG a) 26 26 == 1)
    width := d.rf (Reg.MOT_A_CFG a) 6 0
    setup := if dir = (d.ax a).dir then 0 else d.rf (Reg.MOT_A_CFG a) 15 8 }

/-- An axis's commanded position at the next boundary (R243, R244): one step pulse for each change of its integer. A
disabled axis drives no pulses and stays (R235). -/
def Dev.axMove (d : Dev) (a : Nat) (p : Int) : Dev :=
  if !d.axEn a then d.modAx a fun x => { x with rate := 0, moving := false } else
  let x := d.ax a
  let n := p / 65536 - x.pos / 65536
  let dir := decide (0 < n)
  let pins := d.stepPins a dir
  let d := d.modAx a fun x => { x with pos := p, rate := p - x.pos, moving := decide (n ≠ 0),
                                       dir := if n = 0 then x.dir else dir }
  if n = 0 then d else d.emit (.steps a n.natAbs dir pins)

/-- Put the axes where a move's path coordinate has them, with the rates of the period. -/
def Dev.place (d : Dev) (m : Move) (u : Nat) : Dev := (m.pos u).foldl (fun d p => d.axMove p.1 p.2) d

/-- The rates of a group's axes are 0. -/
def Dev.noRate (d : Dev) (g : Nat) : Dev :=
  (d.groupAxes g).foldl (fun d a => d.modAx a fun x => { x with rate := 0, moving := false }) d

/-- The speed limit of the current move: VMAX or the Cox limit where that is lower (R246, R253). -/
def Group.cap (x : Group) (m : Move) : Nat :=
  match x.limit with | some p => min m.vmax p * motHz | none => m.vmax * motHz

/-- A limit has brought a group to rest (R258). -/
def Dev.limitEnd (d : Dev) (g : Nat) : Dev :=
  let d := (d.gFlag g 2).motEv g 3 (d.grp g).moveId
  ((d.modGrp g fun x => { x with v := 0, st := .limit, limitBy := none }).flushQ g false).noRate g

/-- The end of JOB_ABORT's ramp (R255): the queue is flushed and the group is at REST. -/
def Dev.abortEnd (d : Dev) (g : Nat) : Dev :=
  (d.flushQ g true).modGrp g fun x => { x with v := 0, st := .rest, restEnd := false, heldPos := [] }

/-- A ramp halt has come to rest: it ends in LIMIT, REST or HALTED (R255, R256, R258). -/
def Dev.haltEnd (d : Dev) (g : Nat) : Dev :=
  let x := d.grp g
  if x.limitBy.isSome then d.limitEnd g
  else if x.restEnd then d.abortEnd g
  else if x.intern ≠ 0 then
    d.modGrp g fun x => { x with
      v := 0, u := x.heldU, cur := x.heldMove, heldMove := none, intern := 0, heldPos := []
      st := if x.heldMove.isSome then .halted else .rest }
  else
    ((d.gFlag g 1).motEv g 2 x.moveId).modGrp g fun x =>
      { x with v := 0, st := .halted, clamp := none, decel := false }

/-- The path deceleration at which the axis that tripped decelerates at LIM_DEC in a move (R258). -/
def Dev.limitDec (d : Dev) (a : Nat) (m : Move) : Nat :=
  if m.d a = 0 then m.dec else d.rd (Reg.MOT_A_LIM_DEC a) * m.len / (m.d a).natAbs

/-- A halting move has reached its end at speed `v`: the ramp goes on in a move that blends with it (R249, R256). -/
def Dev.haltOn (d : Dev) (g : Nat) (m : Move) (v : Nat) : Dev :=
  let x := d.grp g
  let joins := match x.q with | n :: _ => n.blend && n.len != 0 | [] => false
  if v = 0 ∨ x.intern ≠ 0 ∨ !joins then d.haltEnd g
  else
    let d := ((d.moveDone g m).modGrp g fun x => { x with cur := none }).startNext g v 1
    d.modGrp g fun y => match y.st, y.cur with
      | .run, some n => { y with
          st := .halting, haltDec := match x.limitBy with | some a => d.limitDec a n | none => n.dec }
      | _, _ => { y with limitBy := none, restEnd := false, st := if x.restEnd then .rest else y.st }

/-- What the end of a period does that ends a move or rests on a stop point. -/
def Dev.periodEnd (d : Dev) (g : Nat) : Dev :=
  let x := d.grp g
  let d := d.modGrp g fun x => { x with ending := none }
  match x.ending, x.cur with
  | some (.move v), some m => if x.st = .halting then d.haltOn g m v else d.endOfMove g m v
  | some .stop, some m => if x.st = .halting then d.haltEnd g else d.atStop g m x.u
  | _, _ => d

/-- A ramp halt for one period (R255, R256, R258). -/
def Dev.haltPeriod (d : Dev) (g : Nat) (m : Move) : Dev :=
  let x := d.grp g
  let v := x.v - x.haltDec * 1024
  let u := min m.lenU (x.u + v * 67108864)
  if v = 0 ∨ x.u = u then (d.place m u).haltEnd g
  else (d.place m u).modGrp g fun x =>
    { x with v := v, u := u, ending := if u = m.lenU then some (.move v) else none }

/-- A new DEC that no longer reaches the target is clamped (R252). -/
def Dev.judgeDec (d : Dev) (g : Nat) (m : Move) (e : Nat) : Dev :=
  let x := d.grp g
  if !x.decNew then d else
  let d := d.modGrp g fun x => { x with decNew := false, clamp := none }
  let rem := m.lenU - x.u
  let need := x.v * x.v - e * e
  if rem ≠ 0 ∧ 2 * m.dec * rem < need * 65536 then
    let d := d.modGrp g fun x => { x with clamp := some (need * 65536, 2 * rem) }
    ((d.gFlag g 0).bump Reg.MOT_ACC_CLAMP_CNT).motEv g 5 m.id
  else d

/-- One profile period of a group that runs. A rest below 1/65,536 step, the resolution of a commanded position, is carried
by the period before it (R244, R245; log 42). -/
def Dev.runPeriod (d : Dev) (g : Nat) (m : Move) : Dev :=
  let x := d.grp g
  let e := if x.intern = 2 then min (x.vs * motHz) (m.vmax * motHz) else if x.intern ≠ 0 then 0 else d.exitSpeed g x.limit m x.q
  let d := d.judgeDec g m e
  let x := d.grp g
  match x.stopAt with
  | some s =>
    let rem := s - x.u
    let num := x.v * x.v * 65536
    let den := 2 * max 1 rem
    let a := num * 1024 / den
    let v := isqrt (a * a + x.v * x.v) - a
    if rem = 0 then (d.place m s).atStop g m s
    else if x.v = 0 ∨ rem ≤ x.v * 67108864 ∧ v * 67108864 < 67108864 * motHz ∨ rem < v * 67108864 + motHz2 then
      (d.place m s).modGrp g fun x => { x with v := max 1 v, u := s, ending := some .stop }
    else (d.place m (x.u + v * 67108864)).modGrp g fun x => { x with v := v, u := x.u + v * 67108864 }
  | none =>
    let dec := x.decOf m
    let rem := m.lenU - x.u
    let cap := x.cap m
    -- R250, R252: once it decelerates toward its exit speed, the move does not accelerate again
    let held := x.decel && x.v != 0
    let up := if cap < x.v then max cap (x.v - m.dec * 1024) else if held then x.v else min cap (x.v + m.acc * 1024)
    let ramp := max e (rampSpeed dec e rem)
    let v := max (min up ramp) (min up motHz)
    let d := d.modGrp g fun x => { x with decel := held || decide (ramp < x.v) }
    if rem = 0 then (d.place m m.lenU).endOfMove g m (min x.v e)
    else if rem < v * 67108864 + motHz2 then
      (d.place m m.lenU).modGrp g fun x => { x with u := m.lenU, v := v, ending := some (.move (min v e)) }
    else (d.place m (x.u + v * 67108864)).modGrp g fun x => { x with v := v, u := x.u + v * 67108864 }

/-- AXIS_HALT with MODE 1 at its boundary (R256): a ramp that was to end in LIMIT or in REST ends there. -/
def Dev.hardHalt (d : Dev) (g : Nat) : Dev :=
  let x := d.grp g
  if x.st ≠ .run ∧ x.st ≠ .halting then d.modGrp g fun x => { x with hard := false }
  else if x.restEnd then (d.hardStop g .rest).abortEnd g
  else
    let d := ((d.hardStop g .halted).gFlag g 1).motEv g 2 (if x.intern = 0 then x.moveId else 0)
    if x.limitBy.isSome then d.limitEnd g
    else if x.intern = 0 then d
    else d.modGrp g fun x => { x with u := x.heldU, cur := x.heldMove, heldMove := none, intern := 0, heldPos := [] }

/-- What a boundary does to one group: the period before it ends, a Cox command comes into force, then its axes' next
positions (R244, R253). -/
def Dev.groupPeriod (d : Dev) (g : Nat) : Dev :=
  let d := d.periodEnd g
  let d := match (d.grp g).paceNext with
    | some v => d.modGrp g fun x => { x with vpace := v, paceNext := none }
    | none => d
  let d := if (d.grp g).hard then d.hardHalt g else d
  let d := if (d.grp g).stopDue then d.makeStop g else d.modGrp g fun x => { x with brake := none }
  let x := d.grp g
  if !d.aena g then d.noRate g else
  match x.st, x.cur with
  | .run, some m => d.runPeriod g m
  | .splice, some m => d.runPeriod g m
  | .halting, some m => d.haltPeriod g m
  | .homing, _ => d
  | _, _ => d.noRate g

/-! Following error (R263). -/

/-- The encoder position of an axis, 1/65,536 step. -/
def Dev.encPos (d : Dev) (a : Nat) : Option Int :=
  match d.axEnc a with
  | none => none
  | some e =>
    let x := d.ax a
    let ratio := sext 32 (d.rd (Reg.MOT_A_ENC_RATIO a))
    if ratio = 0 then none
    else some (x.pref + (d.mot.enc.getD e 0 - x.cref) * 4294967296 / ratio)

/-- The commanded position now, 1/65,536 step: `pos` is that at the next boundary (R244). -/
def Dev.axPos (d : Dev) (a : Nat) : Int :=
  let x := d.ax a
  x.pos - x.rate * ((periodCyc - d.now % periodCyc : Nat) : Int) / (periodCyc : Int)

/-- The following error, 1/65,536 step; 0 without an encoder. -/
def Dev.fe (d : Dev) (a : Nat) : Int := match d.encPos a with | some p => d.axPos a - p | none => 0

/-- An axis is resynchronised to a position (R263). -/
def Dev.resyncTo (d : Dev) (a : Nat) (p : Int) : Dev :=
  let c := match d.axEnc a with | some e => d.mot.enc.getD e 0 | none => 0
  d.modAx a fun x => { x with pos := p, pref := p, cref := c, resync := false, feN := 0, feOk := 0 }

/-- Boundaries in succession above and within FE_LIMIT. -/
def Dev.feCheck (d : Dev) (a : Nat) : Dev :=
  if d.axEn a && (d.axEnc a).isSome && !(d.ax a).resync then
    if d.rf (Reg.MOT_A_FE_CFG a) 15 0 * 65536 < (d.fe a).natAbs then
      d.modAx a fun x => { x with feN := min 4 (x.feN + 1), feOk := 0 }
    else d.modAx a fun x => { x with feN := 0, feOk := min 4 (x.feOk + 1) }
  else d.modAx a fun x => { x with feN := 0 }

/-! Homing (R260 to R262). -/

/-- The axes being homed. -/
def Dev.homingAxes (d : Dev) : List Nat := (List.range 12).filter (fun a => (d.ax a).home.isSome)

/-- The home switch of an axis. -/
def Dev.homeSw (d : Dev) (a : Nat) : Nat := d.rf (Reg.MOT_A_HOME a) 4 0
/-- HOME.DIR: positive. -/
def Dev.homeDir (d : Dev) (a : Nat) : Bool := d.rf (Reg.MOT_A_HOME a) 31 31 == 1

/-- Homing has ended on an axis; its group is at rest once no axis of it homes. -/
def Dev.homeOff (d : Dev) (a : Nat) : Dev :=
  let d := d.modAx a fun x => { x with home := none, rate := 0, moving := false }
  let g := d.axGroup a
  if (d.groupAxes g).any (fun b => (d.ax b).home.isSome) then d
  else if (d.grp g).limitBy.isSome then d.limitEnd g
  else d.modGrp g fun x =>
    if x.st = .homing ∨ x.st = .halted ∧ x.cur = none ∧ x.q = [] then { x with st := .rest } else x

/-- Every axis has homed: HOME completes and DEV_MODE returns to IDLE (R260). -/
def Dev.homeCheck (d : Dev) : Dev :=
  if d.mode == .homing && d.homingAxes.isEmpty then
    (d.endOps d.owner (fun o => o == .home) stOk 0).toIdle
  else d

/-- An attempt fails (R262): the axis stops hard; a first failure waits for its retry, a second one ends in SAFE. `cond`
is the condition of R267 that is sent, 0 where the cause has sent its own. -/
def Dev.homeFail (d : Dev) (a cond : Nat) : Dev :=
  match (d.ax a).home with
  | none => d
  | some hm =>
    let d := d.axHard a
    let d := d.put (Reg.MOT_A_STAT a) (setBit (d.rd (Reg.MOT_A_STAT a)) 3)
    let d := d.bump Reg.MOT_HOME_FAIL_CNT
    let d := if cond = 0 then d else d.motEv (d.axGroup a) cond 0
    if hm.tries = 0 then
      d.modAx a fun x => { x with home := some { hm with st := .retryDue, tries := 1, speed := 0 }, valid := false,
                                  homed := false }
    else
      let d := d.modAx a fun x => { x with home := none, valid := false, homed := false }
      d.enterSafe scMotion { cls := 0xB, code := 3, unit := a, field := true }

/-- An attempt begins at a speed in quarter steps/s: with the home switch active it starts with the latch step, and with a limit of a
homing axis active in its seek direction it fails at once (R261, R262). -/
def Dev.homeStart (d : Dev) (a v tries : Nat) : Dev :=
  let on := d.sw (d.homeSw a)
  let d := d.modAx a fun x => { x with
    home := some { st := if on then .latch else .seek, tries := tries, v := v, speed := 0, frac := 0, moved := 0, latch := 0 }
    valid := false, homed := false, raws := [] }
  let l := if d.homeDir a then d.rf (Reg.MOT_A_LIM a) 4 0 else d.rf (Reg.MOT_A_LIM a) 12 8
  if d.sw l && l != d.homeSw a then d.homeFail a 8 else d

/-- One profile period of a homing axis. -/
def Dev.homePeriod (d : Dev) (a : Nat) : Dev :=
  match (d.ax a).home with
  | none => d
  | some hm =>
    -- R237, R265: no step on a group whose drive enable is inactive, or that the step watchdog halted
    if !d.aena (d.axGroup a) || (d.grp (d.axGroup a)).st != .homing then
      d.modAx a fun x => { x with rate := 0, moving := false }
    else
    let acc := d.rd (if hm.st = .limit then Reg.MOT_A_LIM_DEC a else Reg.MOT_A_HOME_ACC a) * 1024
    let goal := match hm.st with
      | .seek => hm.v * motHz / 4
      | .latch | .index => hm.v * motHz / 32
      | _ => 0
    let v := if hm.speed ≤ goal then min goal (hm.speed + acc) else max goal (hm.speed - acc)
    let fwd := match hm.st with
      | .seek | .seekRamp => d.homeDir a
      | .wait | .limit => (d.ax a).dir
      | _ => !d.homeDir a
    let step := v * 67108864 + hm.frac
    let n := step / motHz2
    let dpos : Int := if fwd then (n : Int) else -(n : Int)
    let hm := { hm with speed := v, frac := step % motHz2, moved := hm.moved + n }
    let d := (d.axMove a ((d.ax a).pos + dpos)).modAx a fun x => { x with home := some hm }
    if d.rd (Reg.MOT_A_HOME_MAX a) * 65536 < hm.moved ∧
        (hm.st = .seek ∨ hm.st = .seekRamp ∨ hm.st = .latch ∨ hm.st = .index) then
      d.homeFail a 8
    else if v = 0 then
      match hm.st with
      | .seekRamp => d.modAx a fun x => { x with home := some { hm with st := .latch } }
      | .ramp =>
        let p := sext 32 (d.rd (Reg.MOT_A_HOME_POS a)) * 65536 + ((d.ax a).pos - hm.latch)
        let d := (d.resyncTo a p).modAx a fun x => { x with valid := true, homed := true }
        d.homeOff a
      | .wait => d.homeOff a
      | .limit => d.homeOff a
      | _ => d
    else d

/-- The latch or the index of an axis is taken at a position, and the axis goes on to the index or ramps to rest. -/
def Dev.homeLatch (d : Dev) (a : Nat) (hm : Homing) (p : Int) (index : Bool) : Dev :=
  d.modAx a fun x => { x with home := some { hm with latch := p, st := if index then .index else .ramp, moved := 0 } }

/-! Switches (R241, R258). -/

/-- A group stops hard at a limit; what an abandoned homing left of its axes' ramps ends too (R258). -/
def Dev.limitHard (d : Dev) (g : Nat) : Dev :=
  let d := (d.groupAxes g).foldl (fun d a => d.modAx a fun x => { x with home := none }) (d.hardStop g .limit)
  d.limitEnd g

/-- A limit of an axis trips outside homing (R258): the feed of a job takes the device to SAFE; a group stops hard in
SERVICE and with ACTION = 1, and else ramps so that the axis decelerates at LIM_DEC. -/
def Dev.limitTrip (d : Dev) (a : Nat) : Dev :=
  let g := d.axGroup a
  let d := (d.put (Reg.MOT_A_STAT a) (setBit (d.rd (Reg.MOT_A_STAT a)) 1)).bump Reg.MOT_LIMIT_CNT
  if d.jobMode && d.feed == some g then d.enterSafe scFeedLimit { cls := 0xB, code := 2, unit := a, field := true }
  else if d.mode == .service || d.rf (Reg.MOT_A_LIM a) 16 16 == 1 then d.limitHard g
  else
    match (d.ax a).home, (d.grp g).cur with
    | some hm, _ => (d.modAx a fun x => { x with home := some { hm with st := .limit } }).modGrp g fun x =>
        { x with limitBy := some a }
    | none, some m => d.modGrp g fun x => { x with st := .halting, haltDec := d.limitDec a m, limitBy := some a }
    | none, none => d.limitHard g

/-- An axis's rate runs toward a limit switch of its own (R258). -/
def Dev.runsToward (d : Dev) (a s : Nat) : Bool :=
  (decide (0 < (d.ax a).rate) && s == d.rf (Reg.MOT_A_LIM a) 4 0) ||
    (decide ((d.ax a).rate < 0) && s == d.rf (Reg.MOT_A_LIM a) 12 8)

/-- A sample of a switch (R241): a raw edge latches the positions, and counts for an attempt that homes on it (R242). The
feed position is the one beyond the latest encoder edge until the next edge comes (`SwLatch.close`; log 182). -/
def Dev.swSample (d : Dev) (s : Nat) (active : Bool) : Dev :=
  if bit (d.rd Reg.MOT_SW_RAW) s = active then d else
  let d := d.put Reg.MOT_SW_RAW ((if active then setBit else clrBit) (d.rd Reg.MOT_SW_RAW) s)
  let l : SwLatch := ⟨d.feedPos d.now, (List.range 12).map d.axPos, d.now, true⟩
  let win := msCyc (d.rd Reg.MOT_CHATTER_W)
  { d with mot := { d.mot with
    sw := d.mot.sw.set s l
    axes := d.mot.axes.zipIdx.map (fun (y : Axis × Nat) =>
      if y.1.home.isSome && d.homeSw y.2 == s then
        { y.1 with raws := d.now :: y.1.raws.filter (fun t => decide (d.now ≤ t + win)) }
      else y.1) } }

/-- The axis's position that a switch's debounced edge reports (R241). -/
def Dev.swPos (d : Dev) (s a : Nat) : Int := (nth d.mot.sw s).axes.getD a (d.axPos a)

/-- A debounced edge of a switch, for one axis: its home switch, and the limits it runs toward. -/
def Dev.swAxis (d : Dev) (s : Nat) (active : Bool) (a : Nat) : Dev :=
  if !d.axEn a then d else
  match (d.ax a).home with
  | some hm =>
    if hm.st = .wait ∨ hm.st = .limit then (if active && d.runsToward a s && hm.st == .wait then d.limitTrip a else d)
    else if s = d.homeSw a then
      match active, hm.st with
      | true, .seek => d.modAx a fun x => { x with home := some { hm with st := .seekRamp } }
      | false, .latch => d.homeLatch a hm (d.swPos s a) (d.rf (Reg.MOT_A_HOME a) 30 30 == 1)
      | _, _ => d
    else if active && d.runsToward a s then
      ((d.put (Reg.MOT_A_STAT a) (setBit (d.rd (Reg.MOT_A_STAT a)) 1)).bump Reg.MOT_LIMIT_CNT).homeFail a 8
    else d
  | none => if active && d.runsToward a s then d.limitTrip a else d

/-- A debounced switch edge, as the motion block takes it: levels, limits, homing. -/
def Dev.swMotion (d : Dev) (s : Nat) (active : Bool) : Dev :=
  let d := d.put Reg.MOT_SW_STAT ((if active then setBit else clrBit) (d.rd Reg.MOT_SW_STAT) s)
  (List.range 12).foldl (fun d a => d.swAxis s active a) d

/-! Commands (R247 to R257, R260). -/

/-- The entries a group holds, the current move first; internal moves are none (R247, R254). -/
def Group.entries (x : Group) : List Move :=
  (match x.heldMove with | some m => [m] | none => if x.intern = 0 then x.cur.toList else []) ++ x.q

/-- The position an entry starts from: the planned end of the group (R247). -/
def Dev.planned (d : Dev) (g a : Nat) : Int :=
  (d.grp g).entries.foldl
    (fun p m => match m.target.find? (fun t => t.1 == a) with | some t => t.2 | none => p) (d.ax a).pos

/-- How many entries a group holds, the current move included. -/
def Group.count (x : Group) : Nat := x.entries.length

/-- Whether an entry breaks VLIM on an axis (R247). -/
def Dev.overVlim (d : Dev) (m : Move) (vmax : Nat) : Bool :=
  m.dist.any (fun x => decide (d.rd (Reg.MOT_A_VLIM x.1) * m.len < vmax * x.2.natAbs))

/-- MOVE_QUEUE (R247, R248, R63). -/
def execMoveQueue (h : Req) (m : MoveReq) (s : State) : Host.Outcome State Fault Refusal :=
  s.onDev fun d => d.serve h 0x40 fun d =>
  let g := m.group
  let axes := (List.range 12).filter (fun a => m.mask.getLsbD a)
  let rel := m.mflags.getLsbD 0
  if m.mflags &&& 0xFFFC#16 != 0 || m.mask &&& 0xF000#16 != 0 then no stBadParam d
  else if d.mode == .standby || d.mode == .wake || d.mode == .reset || d.mode == .safe then no stBadState d
  else if 4 ≤ g then no stBadParam d
  else if (d.groupAxes g).any (fun a => (d.ax a).home.isSome) || d.rf (Reg.MOT_G_CFG g) 0 0 == 0 then no stBadState d
  else if !rel && axes.any (fun a => !(d.ax a).valid) then no stBadState d
  else if axes.isEmpty || axes.any (fun a => !(d.groupAxes g).contains a) || m.targets.length != axes.length then
    no stBadParam d
  else if m.vmax = 0 ∨ 5000000 < m.vmax ∨ m.acc = 0 ∨ m.dec = 0 then no stBadParam d
  else
    let start := axes.map (fun a => (a, d.planned g a))
    let target := (start.zip m.targets).map (fun (x : (Nat × Int) × Int) => (x.1.1, if rel then x.1.2 + x.2 else x.2))
    let e : Move := ⟨m.moveId, m.vmax, m.acc, m.dec, m.mflags.getLsbD 1, target, start, h.session⟩
    let x := d.grp g
    if d.overVlim e m.vmax then no stBadParam d
    else if target.any (fun t => decide (t.2 < -(2 ^ 63) ∨ 2 ^ 63 ≤ t.2)) then no stBadParam d
    else if x.entries.any (fun y => y.id == m.moveId) then no stBadParam d
    else if 32 ≤ x.count then (stQueueFull, [], d.bump Reg.MOT_QFULL_CNT)
    else
      let d := d.modGrp g fun x => { x with q := x.q ++ [e] }
      -- R250: an entry that raises the exit speed of the running move lets it accelerate again
      let d := match x.cur with
        | some c => if d.exitSpeed g none c x.q < d.exitSpeed g none c (x.q ++ [e]) then
            d.modGrp g fun x => { x with decel := false } else d
        | none => d
      let first := x.q.headD e
      let d := if x.st = .rest ∧ x.cur = none then d.startNext g 0 33
        else if x.st = .limit ∧ (d.awayFromAll g first || d.towardLimit first) = true then d.startNext g 0 33 else d
      (stOk, be 4 (32 - (d.grp g).count), d)

/-- MOVE_MODIFY (R251, R252). -/
def execMoveModify (h : Req) (group : Nat) (moveId : Word) (vmax acc dec : Nat) (s : State) :
    Host.Outcome State Fault Refusal := s.onDev fun d => d.serve h 0x41 fun d =>
  if 4 ≤ group then no stBadParam d else
  let x := d.grp group
  let isIt := fun (m : Move) => m.id == moveId
  let new := fun (m : Move) => { m with
    vmax := if vmax = 0 then m.vmax else vmax, acc := if acc = 0 then m.acc else acc
    dec := if dec = 0 then m.dec else dec }
  match x.entries.find? isIt with
  | none => no stBadParam d
  | some m =>
    if 5000000 < vmax || d.overVlim m (new m).vmax then no stBadParam d
    else (stOk, [], d.modGrp group fun x => { x with
      cur := if x.intern = 0 then x.cur.map (fun m => if isIt m then new m else m) else x.cur
      heldMove := x.heldMove.map (fun m => if isIt m then new m else m)
      q := x.q.map (fun m => if isIt m then new m else m)
      decNew := x.decNew || (dec != 0 && x.intern == 0 && x.cur.any isIt) })

/-- Axes of a mask. -/
def maskAxes (m : BitVec 16) : List Nat := (List.range 12).filter (fun a => m.getLsbD a)

/-- HOME (R260): the named axes start their first attempt at HOME_V. -/
def execHome (h : Req) (mask : BitVec 16) (s : State) : Host.Outcome State Fault Refusal :=
  s.onDev fun d => d.serve h 0x42 fun d =>
  let axes := maskAxes mask
  let idle := fun (a : Nat) =>
    let x := d.grp (d.axGroup a)
    x.q.isEmpty && x.cur.isNone && x.still && x.st != .homing
  if mask &&& 0xF000#16 != 0 then no stBadParam d
  else if d.mode != .idle then no stBadState d
  else if axes.any (fun a => d.axEn a && !idle a) then no stBadState d
  else if axes.isEmpty || axes.any (fun a => !d.axEn a || decide (17 < d.homeSw a)) then no stBadParam d
  else
    let d := d.rotAbandon
    let d := (d.startOp h .home).setMode .homing
    let d := axes.foldl (fun d a => d.modGrp (d.axGroup a) fun x => { x with st := .homing }) d
    let d := axes.foldl (fun d a => d.homeStart a (4 * d.rd (Reg.MOT_A_HOME_V a)) 0) d
    (stAccepted, [], d)

/-- Homing is abandoned (R256, R260): ramps to rest, or stops hard. -/
def Dev.homeAbandon (d : Dev) (hard : Bool) : Dev :=
  let d := d.homingAxes.foldl (fun d a =>
    if hard || (match (d.ax a).home with | some hm => hm.speed == 0 | none => true) then (d.axHard a).homeOff a
    else d.modAx a fun x => { x with home := x.home.map (fun hm => { hm with st := .wait }) }) d
  (d.endOps d.owner (fun o => o == .home) stBadState 0).toIdle

/-- What an abandoned homing, or the limit it met then, has left of an axis's attempt is a ramp to rest. -/
def Axis.homeRamp (x : Axis) : Bool := match x.home with | some hm => hm.st == .wait || hm.st == .limit | none => false

/-- AXIS_HALT (R255, R256), MODE 0 or 1. -/
def Dev.axisHalt (d : Dev) (mask : BitVec 16) (hard : Bool) : Answer :=
  let axes := maskAxes mask
  if mask &&& 0xF000#16 != 0 then no stBadParam d
  else if d.mode == .standby || d.mode == .wake then no stBadState d
  else if d.jobMode && axes.any (fun a => d.axEn a && d.feed == some (d.axGroup a)) then no stBadState d
  else if axes.isEmpty || axes.any (fun a => !d.axEn a) then no stBadParam d
  else if d.mode == .safe then (stOk, [], d)
  else
    let d := if d.mode == .homing && axes.any (fun a => (d.ax a).home.isSome) then d.homeAbandon hard else d
    let halt := fun (d : Dev) (g : Nat) =>
      let x := d.grp g
      match x.st, x.cur with
      | .run, some m =>
        if hard then d.modGrp g fun x => { x with hard := true }
        else d.modGrp g fun x => { x with st := .halting, haltDec := m.dec }
      | .halting, some _ => if hard then d.modGrp g fun x => { x with hard := true } else d
      | .homing, _ =>
        if hard then (d.groupAxes g).foldl (fun d a =>
          if (d.ax a).homeRamp then (d.axHard a).homeOff a else d) d
        else d
      | _, _ => d
    (stOk, [], ((axes.map d.axGroup).eraseDups).foldl halt d)

/-- AXIS_HALT with MODE 0. -/
def execAxisHaltRamp (h : Req) (mask : BitVec 16) (s : State) : Host.Outcome State Fault Refusal :=
  s.onDev fun d => d.serve h 0x43 fun d => d.axisHalt mask false

/-- AXIS_HALT with MODE 1. -/
def execAxisHaltHard (h : Req) (mask : BitVec 16) (s : State) : Host.Outcome State Fault Refusal :=
  s.onDev fun d => d.serve h 0x43 fun d => d.axisHalt mask true

/-- The current move continues from where its axes stand (R256, R257). -/
def Dev.rebase (d : Dev) (g : Nat) : Dev :=
  match (d.grp g).cur with
  | none => d
  | some m =>
    match m.lead with
    | none => d
    | some a =>
      let done := ((d.ax a).pos - ((m.start.find? (fun x => x.1 == a)).map (·.2)).getD 0) * (if 0 ≤ m.d a then 1 else -1)
      d.modGrp g fun x => { x with u := min m.lenU (done.toNat * motHz2) }

/-- MOVE_RESUME (R255, R257). -/
def execMoveResume (h : Req) (group : Nat) (s : State) : Host.Outcome State Fault Refusal :=
  s.onDev fun d => d.serve h 0x44 fun d =>
  if 4 ≤ group then no stBadParam d
  else if d.jobMode && d.feed == some group then no stBadState d
  else if (d.grp group).st ≠ .halted then no stBadState d
  else
    let d := d.rebase group
    -- R265: a group that the step watchdog halted while it homed takes up its attempts from rest
    if (d.groupAxes group).any (fun a => (d.ax a).home.isSome) then (stOk, [], d.modGrp group fun x => { x with st := .homing })
    else
    match (d.grp group).cur with
    | some _ => (stOk, [], d.modGrp group fun x => { x with st := .run, v := 0 })
    | none => (stOk, [], d.startNext group 0 33)

/-- An axis is in the middle of a homing attempt (R261). -/
def Axis.attempting (x : Axis) : Bool :=
  match x.home with
  | some hm => hm.st == .seek || hm.st == .seekRamp || hm.st == .latch || hm.st == .index || hm.st == .ramp
  | none => false

/-- SWITCH_CHATTER (R242): with more than MOT_CHATTER_N raw edges of its home switch in the window, the axis fails its
homing attempt. -/
def execSwitchChatter (axis : Nat) (s : State) : Host.Outcome State Fault Refusal := s.onDev fun d =>
  if (d.ax axis).attempting && decide (d.rd Reg.MOT_CHATTER_N < (d.ax axis).raws.length) then
    let d := d.put (Reg.MOT_A_STAT axis) (setBit (d.rd (Reg.MOT_A_STAT axis)) 2)
    (d.bump Reg.MOT_CHATTER_CNT).homeFail axis 9
  else d

/-- HOME_RETRY (R262): the automatic retry at HOME_V / 4. -/
def execHomeRetry (axis : Nat) (s : State) : Host.Outcome State Fault Refusal := s.onDev fun d =>
  match (d.ax axis).home with
  | some hm =>
    if hm.st = .retryDue then
      (d.motEv (d.axGroup axis) 0xA 0).homeStart axis (d.rd (Reg.MOT_A_HOME_V axis)) 1
    else d
  | none => d

/-- FOLLOWING_ERROR (R263, R264): declared once the error has been above FE_LIMIT at four boundaries in succession. -/
def execFollowingError (axis : Nat) (s : State) : Host.Outcome State Fault Refusal := s.onDev fun d =>
  if !d.axEn axis || (d.axEnc axis).isNone || decide ((d.ax axis).feN < 4) then d else
  let g := d.axGroup axis
  let err := (d.fe axis).natAbs / 65536
  let homing := (d.ax axis).home.isSome && !(d.ax axis).homeRamp
  let id := (d.grp g).moveId
  let d := (d.put (Reg.MOT_A_STAT axis) (setBit (d.rd (Reg.MOT_A_STAT axis)) 0)).bump Reg.MOT_FE_CNT
  let d := ((d.gFlag g 4).motEv g 6 id).modAx axis fun x => { x with feN := 0 }
  let r : FaultRec := { cls := 0xB, code := 1, unit := axis, field := true, a := err }
  if homing then (d.log { r with action := 0 } d.mode d.mode).homeFail axis 0
  else if d.jobMode && d.feed == some g then
    let again := match (d.grp g).feLast with
      | some t => decide (d.ns ≤ t + d.rd Reg.MOT_FE_WIN * 1000000000)
      | none => false
    let d := d.modGrp g fun x => { x with feLast := some d.ns }
    if again then d.enterSafe scMotion r
    else
      let d := (d.hardStop g .fault).setFault whyFollow
      { d.log { r with action := 6 } s.d.mode .hold with cox := { d.cox with stop := 2 } }
  else (d.hardStop g .fault).enterSafe scMotion r

/-- AXIS_RESYNC (R243, R263, R264): the position is set to the encoder's. When every axis of the feed group is
resynchronised, its FAULT clears and the held move's remaining distance is taken from there. -/
def execAxisResync (axis : Nat) (s : State) : Host.Outcome State Fault Refusal := s.onDev fun d =>
  if !(d.ax axis).resync then d else
  let g := d.axGroup axis
  let d := match d.encPos axis with | some p => d.resyncTo axis p | none => d.resyncTo axis (d.ax axis).pos
  if (d.groupAxes g).any (fun a => (d.ax a).resync) then d
  else
    let d := d.rebase g
    if d.feed = some g ∧ d.jobMode = true then
      (d.modGrp g fun x => if x.st = .fault then { x with st := .paceStop } else x).clrFault whyFollow
    else if d.mode == .safe then d
    else d.modGrp g fun x => if x.st = .fault then { x with st := .rest } else x

/-- STEP_WDOG (R265): a missing segment stops the group hard and its profile generator restarts. A group that homes is
HALTED like any other, and its attempts go on from rest with MOVE_RESUME (DEDUCED, log 158). -/
def execStepWdog (g : Nat) (s : State) : Host.Outcome State Fault Refusal := s.onDev fun d =>
  let x := d.grp g
  if x.still then d else
  let id := x.moveId
  let feed := d.jobMode && d.feed == some g
  let d := (d.gFlag g 5).bump Reg.MOT_WDOG_CNT
  let d := if feed then { d.hardStop g .paceStop with cox := { d.cox with stop := 2 } }
    else ((d.groupAxes g).foldl (fun d a => d.modAx a fun y => { y with
        home := y.home.map fun hm => { hm with speed := 0, frac := 0 } }) (d.hardStop g .halted)).motEv g 7 id
  -- R255, R258: a ramp that was to end in REST or in LIMIT ends there
  let d := if x.restEnd then d.abortEnd g else if x.limitBy.isSome && !feed then d.limitEnd g else d
  let d := if feed then d.setFault whyStepWd else d
  d.recover { cls := 0xB, code := 4, unit := (d.groupAxes g).headD 0, field := true } 1 false

/-- A group's profile generator has restarted (R265): FAULT clears for the feed. -/
def Dev.profileRestarted (d : Dev) (g : Nat) : Dev :=
  let d := d.recEnd 0xB 4 (some ((d.groupAxes g).headD 0))
  let d := d.rebase g
  if d.feed = some g then d.clrFault whyStepWd else d

/-- PROFILE_RESTART_DONE (R265). -/
def execProfileRestartDone (g : Nat) (s : State) : Host.Outcome State Fault Refusal :=
  s.onDev fun d => d.profileRestarted g

end Sys2Proof.Machine
end

