-- ==== Sys2Proof/Machine/Bezel.lean ====
section
/-! DEFINITION. The Bezel (R19 to R29, R314, R315) and the clocks (R30 to R33, R392): frames with their numbers,
acknowledgements and replays, lanes and spares, link loss, holdover, TIME frames. -/

namespace Sys2Proof.Machine

open Sys2Proof

/-! Frames. -/

/-- An IDLE frame of a direction: it carries the next SEQ without using it (log 44), and the other direction's ACK_SEQ. -/
def Dev.idleFrame (d : Dev) (r : Dir) (nak : Bool) : Frame :=
  sealFrame { newFrame 0 0 [] with nak := nak, seq := (d.bzlLink r).txSeq, ack := (d.bzlLink (otherDir r)).ackSeq }

/-- A receiver answers a damaged or missing frame of direction `r` with a NAK and waits for the replay (R22). -/
def Dev.sendNak (d : Dev) (r : Dir) : Dev :=
  (d.emit (.bezel (otherDir r) (d.idleFrame (otherDir r) true))).modLink r (fun l => { l with await := true })

/-- A frame arrives undamaged: its blocks are good and its CRC is that of its header and payload (R20, R22). -/
def frameGood (f : Frame) : Bool := f.blocks && f.crc == frameCrc f

/-- Types a direction carries (R19). -/
def typeOk (r : Dir) (t : Nat) : Bool :=
  match r with
  | .f2h => [0, 1, 2, 3, 5].contains t
  | .h2f => [0, 4, 6].contains t

/-- The faults for which R19 discards a frame. -/
def frameBad (r : Dir) (f : Frame) : Bool :=
  !typeOk r f.typ || decide (4096 < f.len) || decide (f.len < f.payload.length)

/-- Frames up to an ACK_SEQ leave a direction's retry buffer (R21). -/
def Link.acked (l : Link) (a : Nat) : Link :=
  { l with retry := l.retry.filter (fun f => decide (32768 ≤ (a + 65536 - f.seq) % 65536)) }

/-- The transmitter of a direction sends again what stands in its retry buffer (R22). -/
def Dev.resendFrames (d : Dev) (r : Dir) : Dev :=
  (d.bzlLink r).retry.foldl (fun d f => d.emit (.bezel r (sealFrame { f with replay := true }))) d

/-- A NAK makes the transmitter of a direction resend what stands in its retry buffer (R22), and is counted (R46). -/
def Dev.replay (d : Dev) (r : Dir) : Dev :=
  (d.bumpIf (!(d.bzlLink r).retry.isEmpty) Reg.PWR_BZL_REPLAY_CNT).resendFrames r

/-- What an accepted frame of direction `r` says of the other direction: its ACK_SEQ and a NAK (R21, R22). A CMD frame
that waited for room goes out. -/
def Dev.takeAck (d : Dev) (r : Dir) (f : Frame) : Dev :=
  let d := d.modLink (otherDir r) (fun l => l.acked f.ack)
  let d := if f.nak then d.replay (otherDir r) else d
  match r with
  | .f2h => d.sendWaiting d.bzl.wait.length
  | .h2f => d

/-- A frame of direction `r` arrives at its receiver (R19 to R22): the device after it, and whether the frame is taken.
Numbers up to the last good one belong to frames taken before and are not taken twice. After a NAK every frame is
discarded until the replay arrives, which shows by REPLAY or by the number the receiver waits for; damage in the replay
itself is answered with a NAK again (log 145). -/
def Dev.bzlRx (d : Dev) (r : Dir) (f : Frame) : Dev × Bool :=
  let l := d.bzlLink r
  if l.await && !f.replay && !(frameGood f && f.seq == l.rxNext) then (d, false)
  else if !frameGood f then (d.sendNak r, false)
  else if frameBad r f then (d.bump Reg.PWR_BZL_DISCARD_CNT, false)
  else
    if f.seq = l.rxNext then
      let d := d.modLink r (fun l => { l with
        await := false, rxNext := if f.typ = 0 then l.rxNext else (l.rxNext + 1) % 65536 })
      (d.takeAck r f, true)
    else if f.replay && decide ((l.rxNext + 65536 - f.seq) % 65536 < 32768) then (d.takeAck r f, false)
    else (d.sendNak r, false)

/-- Bytes in the staging buffer (R23). -/
def Dev.staged (d : Dev) : Nat := sumN (d.bzl.stage.map (fun f => f.payload.length))

/-- BZL_IDLE_RX (R21, R22): an IDLE frame arrives, or a frame that must be refused with a NAK. -/
def execBzlIdleRx (r : Dir) (f : Frame) (s : State) : Host.Outcome State Fault Refusal :=
  s.onDev fun d => (d.bzlRx r f).1

/-- BZL_IDLE_TX (R21). -/
def execBzlIdleTx (r : Dir) (s : State) : Host.Outcome State Fault Refusal :=
  s.onDev fun d => if (d.bzlLink r).up then d.emit (.bezel r (d.idleFrame r false)) else d

/-- BZL_FRAME_DISCARD (R19): a discarded frame has no other effect than its count. -/
def execBzlFrameDiscard (r : Dir) (f : Frame) (s : State) : Host.Outcome State Fault Refusal :=
  s.onDev fun d => if frameBad r f then d.bump Reg.PWR_BZL_DISCARD_CNT else d

/-- BZL_REPLAY (R22): a frame with NAK set arrives. -/
def execBzlReplay (r : Dir) (f : Frame) (s : State) : Host.Outcome State Fault Refusal :=
  s.onDev fun d => (d.bzlRx r { f with nak := true }).1

/-- STROKE_FRAME_TX (R21). -/
def execStrokeFrameTx (s : State) : Host.Outcome State Fault Refusal :=
  s.onDev fun d => d.sendStaged d.bzl.stage.length

/-- BZL_EVENT_RX (R19): an EVENT frame is taken; what it reports is in the command of that event. -/
def execBzlEventRx (f : Frame) (s : State) : Host.Outcome State Fault Refusal :=
  s.onDev fun d => (d.bzlRx .f2h f).1

/-- BZL_REPLY_RX (R19): a REPLY answers the CMD of its tag. -/
def execBzlReplyRx (f : Frame) (s : State) : Host.Outcome State Fault Refusal := s.onDev fun d =>
  let r := d.bzlRx .f2h f
  if r.2 then { r.1 with bzl := { r.1.bzl with cmds := r.1.bzl.cmds.filter (· != f.tag) } } else r.1

/-- The payload of a TIME frame (R33): the counter value at the tick of sending and TIM_INCR. The spec names the two and
gives them no layout; 12 bytes of counter, 64 integer and 32 fraction bits, before 8 bytes of TIM_INCR are the model's
choice (DESIGN CHOICE, log 142). -/
def timePayload (counter incr : Nat) : List Byte := be 12 counter ++ be 8 incr

/-- BZL_TIME_RX (R33): the replica takes the frame's counter value, corrected for the link latency, and its increment. -/
def execBzlTimeRx (f : Frame) (s : State) : Host.Outcome State Fault Refusal := s.onDev fun d =>
  let r := d.bzlRx .h2f f
  if r.2 && f.typ == 6 then
    { r.1 with tim := { r.1.tim with rep := getBe f.payload 0 12 + d.bzl.lat, repIncr := getBe f.payload 12 8 } }
  else r.1

/-- TIME_FRAME_TX (R33): the frame carries the counter and TIM_INCR, in the layout of `timePayload` (log 142). -/
def execTimeFrameTx (s : State) : Host.Outcome State Fault Refusal := s.onDev fun d =>
  if d.bzl.h2f.room then
    let d := d.sendFrame .h2f (newFrame 6 0 (timePayload d.tim.cnt d.tim.incr))
    { d with bzl := { d.bzl with timeTx := d.tim.cnt } }
  else d

/-! Lanes (R24 to R27). -/

/-- A direction's lane count. -/
def lanesOf : Dir → Nat
  | .f2h => 24 | .h2f => 4

/-- A lane's number as a unit (R304): 32 to 35 for host to field. -/
def laneUnit (r : Dir) (n : Nat) : Nat := match r with | .f2h => n | .h2f => 32 + n

/-- The lowest ready spare. -/
def Link.spare? (l : Link) : Option Nat := (bitsOf l.spares 24).head?

/-- SPARE_ACTIVE (R25): a lane that entered the stripe as a spare carries strokes. -/
def Dev.spareActive (d : Dev) : Bool := d.bzl.f2h.sub &&& d.bzl.f2h.map != 0

/-- A lane is declared failed or degraded (R24): it is to leave the stripe, or stops being a spare, and is retrained in
the background as recovery level 0 (R26). -/
def Dev.laneBad (d : Dev) (r : Dir) (n errs : Nat) : Dev :=
  let l := d.bzlLink r
  if lanesOf r ≤ n ∨ bit l.bad n then d
  else if bit l.map n then
    (d.modLink r (fun l => { l with bad := setBit l.bad n })).recover
      { cls := 2, code := 1, unit := laneUnit r n, a := errs } 0 false
  else if bit l.spares n then
    (d.modLink r (fun l => { l with spares := clrBit l.spares n, retrain := setBit l.retrain n })).recover
      { cls := 2, code := 1, unit := laneUnit r n, a := errs } 0 false
  else d

/-- BZL_LANE_FAIL (R24). -/
def execBzlLaneFail (r : Dir) (n : Nat) (s : State) : Host.Outcome State Fault Refusal :=
  s.onDev fun d => d.laneBad r n 0

/-- BZL_LANE_DEGRADED (R24): at least PWR_BZL_DEG_N errored blocks in 10 µs. -/
def execBzlLaneDegraded (r : Dir) (n errs : Nat) (s : State) : Host.Outcome State Fault Refusal :=
  s.onDev fun d => if d.rd Reg.PWR_BZL_DEG_N ≤ errs then d.laneBad r n errs else d

/-- One bad lane leaves the stripe and the lowest ready spare enters it (R25). -/
def Dev.spareLane (d : Dev) (r : Dir) (n : Nat) : Dev :=
  let d := d.bump Reg.PWR_BZL_SPARE_CNT
  d.modLink r (fun l =>
    let l := { l with map := clrBit l.map n, bad := clrBit l.bad n, retrain := setBit l.retrain n, sub := clrBit l.sub n
                      swap := l.swap.filter (fun x => x.2 != n) }
    match l.spare? with
    | some k => { l with map := setBit l.map k, spares := clrBit l.spares k, sub := setBit l.sub k }
    | none => l)

/-- BZL_LANE_SPARE (R25): at the next frame boundary every lane declared bad leaves the stripe. -/
def execBzlLaneSpare (r : Dir) (s : State) : Host.Outcome State Fault Refusal := s.onDev fun d =>
  (bitsOf (d.bzlLink r).bad (lanesOf r)).foldl (fun d n => d.spareLane r n) d

/-! Planned retraining (R314, R315). -/

/-- CAL_LANEk of a lane (R332). -/
def laneWord (r : Dir) (n : Nat) : Nat := match r with | .f2h => Reg.CAL_LANE_F2H n | .h2f => Reg.CAL_LANE_H2F n

/-- The die-end temperature of a direction's lanes: that of the end that transmits (R314; DESIGN CHOICE, log 176). -/
def Dev.laneTemp (d : Dev) (r : Dir) : Nat := d.rf (match r with | .f2h => Reg.CAL_TBZ_F | .h2f => Reg.CAL_TBZ_H) 15 0

/-- A lane has been trained: its temperature is kept (R332). -/
def Dev.laneTrained (d : Dev) (r : Dir) (n : Nat) : Dev :=
  (d.put (laneWord r n) (d.laneTemp r * 65536)).setHead 3 (laneUnit r n) ⟨0, d.laneTemp r, d.ns⟩

/-- Every lane of the stripe and every spare has been trained with the link. -/
def Dev.lanesTrained (d : Dev) : Dev :=
  let of := fun (r : Dir) => bitsOf ((d.bzlLink r).map ||| (d.bzlLink r).spares) (lanesOf r)
  (of .h2f).foldl (fun (d : Dev) n => d.laneTrained .h2f n) ((of .f2h).foldl (fun (d : Dev) n => d.laneTrained .f2h n) d)

/-- A planned swap starts: the spare `k` takes the place of the lane `n`, which leaves the stripe (R46) and is retrained. -/
def Dev.swapLane (d : Dev) (r : Dir) (n k : Nat) : Dev :=
  (d.bump Reg.PWR_BZL_SPARE_CNT).modLink r (fun l => { l with
    map := setBit (clrBit l.map n) k, spares := clrBit l.spares k, retrain := setBit l.retrain n
    sub := setBit (clrBit l.sub n) k
    swap := l.swap ++ [(n, k)] })

/-- The commanded run of a direction goes on with its next named lane (R315): one lane at a time; an in-stripe lane
waits for a ready spare. -/
def Dev.nextLane (d : Dev) (r : Dir) : Dev :=
  let l := d.bzlLink r
  if l.retrain ≠ 0 ∨ l.test ≠ 0 then d else
  match l.todo with
  | [] => d
  | n :: _ =>
    if bit l.map n then
      match l.spare? with
      | some k => d.swapLane r n k
      | none => d
    else d.modLink r (fun l => { l with spares := clrBit l.spares n, retrain := setBit l.retrain n })

/-- The commanded BEZEL_LANE run has ended in both directions, with epoch 0 (R315, R331). -/
def Dev.bezelRunCheck (d : Dev) : Dev :=
  match d.cal.run with
  | some c =>
    if c.kind = 3 ∧ d.bzl.f2h.todo.isEmpty ∧ d.bzl.h2f.todo.isEmpty then
      (({ d with cal := { d.cal with run := none } }.bump Reg.CAL_RUN_CNT).put Reg.CAL_LAST_EPOCH 0).endOps d.owner
        (fun o => o == Op.calRun) (if c.stage = 1 then stFault else stOk) 0
    else d
  | none => d

/-- BZL_LANE_RETRAIN_DONE (R26, R314): the lane starts its 1 ms of IDLE traffic. -/
def execBzlLaneRetrainDone (r : Dir) (n : Nat) (s : State) : Host.Outcome State Fault Refusal := s.onDev fun d =>
  if !bit (d.bzlLink r).retrain n then d else
  let l := d.bzlLink r
  let planned := l.swap.any (fun x => x.1 == n) || l.todo.head? == some n
  (((d.modLink r (fun l => { l with retrain := clrBit l.retrain n, test := setBit l.test n })).laneTrained r n).bumpIf planned
    Reg.CAL_BZL_RETRAIN_CNT).recEnd 2 1 (some (laneUnit r n))

/-- BZL_LANE_TEST_DONE (R26, R314, R315). -/
def execBzlLaneTestDone (r : Dir) (n : Nat) (pass : Bool) (s : State) : Host.Outcome State Fault Refusal :=
  s.onDev fun d =>
  if !bit (d.bzlLink r).test n then d else
  let back := ((d.bzlLink r).swap.find? (fun x => x.1 == n)).map (·.2)
  let d := d.modLink r (fun l =>
    let l := { l with test := clrBit l.test n, swap := l.swap.filter (fun x => x.1 != n) }
    match pass, back with
    | true, some k => { l with map := setBit (clrBit l.map k) n, spares := setBit l.spares k, sub := clrBit l.sub k }
    | true, none => { l with spares := setBit l.spares n }
    | false, _ => l)
  let d := if pass then d else d.logHere { cls := 2, code := 2, unit := laneUnit r n }
  let named := (d.bzlLink r).todo.head? == some n
  let d := if named then d.modLink r (fun l => { l with todo := l.todo.drop 1 }) else d
  let d := if named && !pass then
      { d with cal := { d.cal with run := d.cal.run.map (fun c => { c with stage := 1 }) } } else d
  (d.nextLane r).bezelRunCheck

/-- A lane of the stripe is due for retraining (R314): its temperature has moved by more than CAL_DTEMP since its last
training. -/
def Dev.laneDue (d : Dev) (r : Dir) (n : Nat) : Bool :=
  let l := d.bzlLink r
  bit l.map n && !bit l.bad n &&
    decide (d.rd Reg.CAL_DTEMP < (sext 16 (d.laneTemp r) - sext 16 (d.rf (laneWord r n) 31 16)).natAbs)

/-- BZL_LANE_TEMP_RETRAIN (R314): the lowest due lane, one per direction at a time, with a ready spare, while
CAL_CTRL.BZL_AUTO = 1. -/
def execBzlLaneTempRetrain (r : Dir) (n : Nat) (s : State) : Host.Outcome State Fault Refusal := s.onDev fun d =>
  let l := d.bzlLink r
  if bit (d.rd Reg.CAL_CTRL) 2 && d.laneDue r n && (List.range n).all (fun m => !d.laneDue r m) && l.retrain == 0 &&
      l.test == 0 then
    match l.spare? with
    | some k => d.swapLane r n k
    | none => d
  else d

/-- RETRAIN_SPARE_WAIT_TIMEOUT (R315): the run ends with TIMEOUT while a direction waits for a spare. -/
def execRetrainSpareWaitTimeout (s : State) : Host.Outcome State Fault Refusal := s.onDev fun d =>
  let waits := fun (r : Dir) =>
    let l := d.bzlLink r
    match l.todo with
    | n :: _ => bit l.map n && l.spares == 0 && l.retrain == 0 && l.test == 0
    | [] => false
  match d.cal.run with
  | some c =>
    if c.kind == 3 && (waits .f2h || waits .h2f) then
      (({ d with cal := { d.cal with run := none } }.modLink .f2h (fun l => { l with todo := [] })).modLink .h2f
        (fun l => { l with todo := [] })).endOps d.owner (fun o => o == Op.calRun) stTimeout 0
    else d
  | none => d

/-! Staging, link loss and holdover (R23, R28, R29, R31). -/

/-- BZL_STAGE_HIGH (R23): at 75 % of 1 MiB the LINK hold cause is set. -/
def execBzlStageHigh (s : State) : Host.Outcome State Fault Refusal :=
  s.onDev fun d => if 3 * 1048576 ≤ 4 * d.staged then d.setHold hcLink else d

/-- No Catch occurs any more (R28, R29): none pending remains, also of a hold entered before. With the medium at rest the
lamps go dark. -/
def Dev.inhibitCatches (d : Dev) : Dev :=
  let d := { d with bzl := { d.bzl with inhibit := true } }.catchOff false
  let d := { d with seq := { d.seq with pend := [] } }.commitDue
  if d.feedStill then d.darken else d

/-- A link loss (R28): Catches are inhibited, the LINK hold cause is set and the stop commanded;
window descriptors that run end (R344). -/
def Dev.linkLoss (d : Dev) : Dev := (d.cutChannels.inhibitCatches.setHold hcLink).stopFeed

/-- BZL_LINK_DOWN (R28, R395): retraining starts at once as recovery level 0. -/
def execBzlLinkDown (r : Dir) (s : State) : Host.Outcome State Fault Refusal := s.onDev fun d =>
  if !(d.bzlLink r).up || !d.fieldRuns then d else
  ((d.modLink r (fun l => { l with up := false })).linkLoss).recover { cls := 2, code := 3 } 0 false

/-- FIELD_HOLDOVER (R28, R31). -/
def execFieldHoldover (s : State) : Host.Outcome State Fault Refusal := s.onDev fun d =>
  if d.bzl.localOsc then d else { d with bzl := { d.bzl with holdover := true, fieldLock := false } }

/-- The h2f lane of lowest number in service (R30). -/
def Dev.refLane (d : Dev) : Nat := ((bitsOf d.bzl.h2f.map 4).filter (fun n => !bit d.bzl.h2f.bad n)).headD 0

/-- FIELD_PLL_RELOCK (R31): within holdover the PLL relocks to a lane in service. -/
def execFieldPllRelock (s : State) : Host.Outcome State Fault Refusal := s.onDev fun d =>
  if d.bzl.localOsc || !d.bzl.holdover || (d.bzl.h2f.map &&& (15 ^^^ d.bzl.h2f.bad)) == 0 then d
  else { d with bzl := { d.bzl with holdover := false, fieldLock := true, refLane := d.refLane } }

/-- FIELD_LOCAL_OSC (R28, R29): every stroke that has not left F10 is cut off and withheld, and the outage is a link
loss. -/
def execFieldLocalOsc (s : State) : Host.Outcome State Fault Refusal := s.onDev fun d =>
  if !d.bzl.holdover then d else
  let d := { d with bzl := { d.bzl with holdover := false, localOsc := true, fieldLock := false }
                    seq := { d.seq with ht := [] } }
  let d := d.withhold (fun _ => true)
  if d.bzl.inhibit then d
  else if d.fieldRuns then
    ((d.modLink .h2f (fun l => { l with up := false })).linkLoss).recover { cls := 2, code := 3 } 0 false
  else d

/-- BZL_LINK_UP (R28, R33, R392): both directions are up after a training that measured the link latency, the field clocks
are locked, the frames still in the retry buffers are replayed, and what waited follows. Catches that SERVICE calls for
are enabled again (R94), and a FAULT from the root PLL clears. -/
def execBzlLinkUp (lat : Nat) (s : State) : Host.Outcome State Fault Refusal := s.onDev fun d =>
  if !d.fieldRuns || d.mode == .wake || !d.bzl.rootLock then d else
  let up := fun (l : Link) => { l with up := true, await := false }
  let d := (d.modLink .f2h up).modLink .h2f up
  let d := if d.bzl.localOsc then { d with afe := { d.afe with lockAt := d.now, slot0 := [] } } else d
  let d := { d with bzl := { d.bzl with
    inhibit := false, holdover := false, localOsc := false, fieldLock := true, refLane := d.refLane, lat := lat } }
  let d := (((d.resendFrames .f2h).resendFrames .h2f).sendWaiting d.bzl.wait.length).lanesTrained
  let d := (d.recEnd 2 3 none).serviceCatches
  if bit d.flt.why whyPll then d.clrFault whyPll else d

/-- LINK_CAUSE_CLEAR (R38): with the link up and the staging buffer below 25 %, LINK clears. -/
def execLinkCauseClear (s : State) : Host.Outcome State Fault Refusal := s.onDev fun d =>
  if d.bzl.f2h.up && d.bzl.h2f.up && !d.bzl.inhibit && decide (4 * d.staged < 1048576) then d.clrHold hcLink else d

/-! Clocks (R32, R392). -/

/-- ROOT_PLL_UNLOCK (R392): the PLL is relocked at recovery level 1. -/
def execRootPllUnlock (s : State) : Host.Outcome State Fault Refusal := s.onDev fun d =>
  if !d.bzl.rootLock then d else
  let d := d.put Reg.DEV_CLK_STAT (setBit (d.rd Reg.DEV_CLK_STAT) 8)
  let d := { d with bzl := { d.bzl with rootLock := false } }
  (d.setFault whyPll).recover { cls := 3, code := 1 } 1 false

/-- XTAL_FAIL (R32, R392): the host side stops; the field side, on its local oscillator, makes its controlled stop and
keeps a record of the event. -/
def execXtalFail (s : State) : Host.Outcome State Fault Refusal := s.onDev fun d =>
  let d := d.put Reg.DEV_CLK_STAT (setBit (d.rd Reg.DEV_CLK_STAT) 9)
  let d := { d with
    flt := { d.flt with fieldRec := some (d.flt.fieldRec.getD d.sight) }
    bzl := { d.bzl with
      xtalDead := true, rootLock := false, fieldLock := false, holdover := false, inhibit := true
      localOsc := d.fieldRuns
      f2h := { d.bzl.f2h with up := false }
      h2f := { d.bzl.h2f with up := false } } }
  (d.withhold (fun _ => true)).inhibitCatches.stopFeed

/-- XTAL_RESUME (R392): the host supervisor makes a level 3 restart. -/
def execXtalResume (s : State) : Host.Outcome State Fault Refusal := s.onDev fun d =>
  if !d.bzl.xtalDead then d else
  { d with bzl := { d.bzl with xtalDead := false, rootLock := true } }.level3

end Sys2Proof.Machine
end

