-- ==== Sys2Proof/Machine/Lamp.lean ====
section
/-! DEFINITION. Lamps (R208 to R234): shifts and latches, levels, windows and blanking at a Catch, diagnosis with its
confirmation, LAMP_TEST, wear rotation, and mains compensation. -/

namespace Sys2Proof.Machine

open Sys2Proof

/-- A LAMP event (R230). Conditions of a chain become its LAST. -/
def Dev.lampEv (d : Dev) (n cond : Nat) : Dev :=
  let d := if n < 16 then d.putF (Reg.LMP_C_DIAG n) 31 24 cond else d
  d.evAll 0x13 (be 2 n ++ be 2 cond)

/-! Mains tables, windows and duty (R215, R218, R219, R228). -/

/-- K_p[b]. -/
def mainsK (c : List (Nat × Word)) (p b : Nat) : Nat :=
  rdA c (Reg.LMP_P_AC p (b / 2)) / (if b % 2 = 0 then 65536 else 1) % 65536
/-- AC_EN. -/
def acEn (c : List (Nat × Word)) : Bool := rfA c Reg.LMP_CTRL 5 5 == 1
/-- DIAG_EN. -/
def diagEn (c : List (Nat × Word)) : Bool := rfA c Reg.LMP_CTRL 4 4 == 1
/-- K_max. -/
def kMax (c : List (Nat × Word)) (p : Nat) : Nat := if acEn c then maxN ((List.range 32).map (mainsK c p)) else 16384
/-- K_min. -/
def kMin (c : List (Nat × Word)) (p : Nat) : Nat :=
  if acEn c then ((List.range 32).map (mainsK c p)).foldl min 65536 else 16384

/-- The window limit (R215). -/
def windowLimit (c : List (Nat × Word)) : Nat :=
  rdA c Reg.SEQ_MIN_INTERVAL - (if nphOf c = 1 then 0 else rdA c Reg.LMP_BLANK)

/-- ON of a level. -/
def levelOn (w : Word) : Nat := fld w 20 0
/-- LIT of a level. -/
def levelLit (w : Word) : Nat := fld w 31 23
/-- The fixed count of a chain (R209). -/
def fixedCount (c : List (Nat × Word)) (n : Nat) : Nat := (classList c n 1).length

/-- ON_DLY + ON × K_max / 16,384 of a chain, times 16,384. -/
def windowEnd (c : List (Nat × Word)) (n : Nat) (w : Word) : Nat :=
  rfA c (Reg.LMP_C_ONDLY n) 20 0 * 16384 + levelOn w * kMax c (chainPhase c n)

/-- A chain's window can fit (R214, R218). -/
def windowFits (c : List (Nat × Word)) (n : Nat) (w : Word) : Bool := decide (windowEnd c n w ≤ windowLimit c * 16384)

/-- A chain is normal-duty at a level (R219). -/
def normalDuty (c : List (Nat × Word)) (n : Nat) (w : Word) : Bool :=
  decide (1172 ≤ levelOn w * kMin c (chainPhase c n) / 16384)
/-- A chain is low-duty at a level (R219). -/
def lowDuty (c : List (Nat × Word)) (n : Nat) (w : Word) : Bool := levelOn w != 0 && !normalDuty c n w

/-- The gain K in force at an instant (R228, R229). -/
def Dev.mainsNow (d : Dev) (p t : Nat) : Nat :=
  match d.lamp.acLock && acEn d.regs.act, d.lamp.acEdge with
  | true, some e => mainsK d.regs.act p (min (128 * (t - e) / max 1 d.lamp.acT) 31)
  | _, _ => 16384

/-- ON_eff of a chain (R215, R228). -/
def Dev.onEff (d : Dev) (n t : Nat) : Nat :=
  (levelOn (d.level n) * d.mainsNow (chainPhase d.regs.act n) t + 8192) / 16384

/-! Shifting and latching (R210 to R214). -/

/-- A shifted pattern is latched: LIT and ON come into force together (R211, R214). -/
def Dev.latchChain (d : Dev) (n : Nat) : Dev :=
  let c := d.chain n
  match c.shifted, c.want with
  | true, some w => (d.put (Reg.LMP_C_LEVEL n) w.toNat).modChain n fun c => { c with want := none, shifted := false }
  | _, _ => d

/-- The patterns of a phase are latched at a Catch of it once every chain of the phase has finished its shift (R211). -/
def Dev.latchPhase (d : Dev) (p : Nat) : Dev :=
  let cs := phaseChains d.regs.act p
  if cs.any (fun n => (d.chain n).shifting) then d else cs.foldl (fun d n => d.latchChain n) d

/-- The rotation offsets of a chain, groups 2 to 15. -/
def Dev.rots (d : Dev) (n : Nat) : List Nat := (List.range 14).map (fun g => d.rd (Reg.LMP_C_ROT n g))

/-- The shunted positions of a chain at a level with rotation offsets (R213). -/
def shuntedAt (c : List (Nat × Word)) (n : Nat) (level : Word) (rot : List Nat) : List Nat :=
  let cnt := shuntCounts c n level
  (List.range 14).flatMap (fun g =>
    let l := classList c n (g + 2)
    (List.range (cnt.getD g 0)).map (fun i => l.getD ((rot.getD g 0 + i) % max 1 l.length) 0))

/-- The bits of a shift, position BITS − 1 first (R209, R210). -/
def shiftBits (c : List (Nat × Word)) (n : Nat) (level : Word) (rot : List Nat) : List Bool :=
  let l := shuntedAt c n level rot
  (List.range (chainBits c n)).reverse.map (fun i => l.contains i)

/-- A shift of a chain's pattern at a level goes out (R210), but not during a warm restart (R396). -/
def Dev.shiftOut (d : Dev) (n : Nat) (level : Word) : Dev :=
  if d.flt.l2run then d else d.emit (.lampShift n (shiftBits d.regs.act n level (d.rots n)))

/-- After a warm restart every enabled chain's pattern is shifted again (R396): a level that waits, or the one in force. -/
def Dev.shiftAll (d : Dev) : Dev :=
  (List.range 16).foldl (fun d n =>
    if chainEn d.regs.act n then
      (d.modChain n fun x => { x with shifting := true }).shiftOut n ((d.chain n).want.getD (d.level n))
    else d) d

/-- LAMP_LEVEL (R214). -/
def execLampLevel (h : Req) (chain : Nat) (level : Word) (s : State) : Host.Outcome State Fault Refusal :=
  s.onDev fun d => d.serve h 0x50 fun d =>
  let c := d.regs.act
  if fld level 22 21 ≠ 0 then no stBadParam d
  else if d.mode == .standby || d.mode == .wake || d.mode == .hold || d.mode == .splice then no stBadState d
  else if 16 ≤ chain || !chainEn c chain then no stBadParam d
  else if levelLit level < fixedCount c chain ∨ populated c chain < levelLit level then no stBadParam d
  else if levelOn level ≠ 0 ∧ levelOn level < 8 then no stBadParam d
  else if !windowFits c chain level then no stBadParam d
  else
    if (d.chain chain).shifting then (stOk, [], d.modChain chain fun x => { x with next := some level })
    else (stOk, [], (d.modChain chain fun x => { x with want := some level, shifting := true, shifted := false }).shiftOut
      chain level)

/-- LAMP_SHIFT_END (R210, R211): a newer pattern is shifted next; otherwise the pattern awaits its latch. -/
def execLampShiftEnd (chain : Nat) (s : State) : Host.Outcome State Fault Refusal := s.onDev fun d =>
  let x := d.chain chain
  if !x.shifting || d.flt.l2run then d else
  match x.next with
  | some w => (d.modChain chain fun x =>
      { x with want := some w, next := none, shifting := true, shifted := false }).shiftOut chain w
  | none => d.modChain chain fun x => { x with shifting := false, shifted := x.want.isSome }

/-- LAMP_LATCH (R211): with Catches disabled, 40 ns after the shift ends and the chain's last window is over. -/
def execLampLatch (chain : Nat) (s : State) : Host.Outcome State Fault Refusal :=
  s.onDev fun d => if d.seq.en || (d.chain chain).gate.any (fun g => decide (d.now < g.2)) then d else d.latchChain chain

/-- LAMP_REFRESH (R212): where no other shift is pending, active patterns are shifted again. -/
def execLampRefresh (s : State) : Host.Outcome State Fault Refusal := s.onDev fun d =>
  if !d.fieldRuns || d.bzl.inhibit || d.flt.l2run then d else
  (List.range 16).foldl (fun d n =>
    if chainEn d.regs.act n && !(d.chain n).shifting && (d.chain n).want.isNone then
      (d.modChain n fun x => { x with shifting := true }).shiftOut n (d.level n)
    else d) d

/-! What a Catch does to the lamps (R211, R215, R219, R221, R227). -/

/-- LCnn_BLK is low from one instant to another; it stays high during a warm restart (R396). -/
def Dev.gateOpen (d : Dev) (n opens closes : Nat) : Dev :=
  if d.flt.l2run then d else
  (d.modChain n fun c => { c with gate := c.gate.filter (fun g => decide (d.now < g.2)) ++ [(opens, closes)] }).emit
    (.lampGate n opens closes)

/-- LCnn_BLK is low, and the time counts as lit. -/
def Dev.shine (d : Dev) (n opens closes : Nat) : Dev := (d.gateOpen n opens closes).lit n (closes - opens)

/-- The two proof pulses of R222 and R224, 1,250 cycles each and 100 µs apart; when the first one starts, within `bound`
cycles, is free (log 154). -/
def Dev.twoPulses (d : Dev) (n bound : Nat) : Dev :=
  let (v, d) := d.free 33
  let t := d.now + v.toNat % bound
  ((d.shine n t (t + 1250)).shine n (t + 78125) (t + 79375)).bumpBy Reg.LMP_PROOF_CNT 2

/-- The chain whose proof pulse the stroke of the present SEQ_CATCH_CNT carries (R221). -/
def Dev.proofChain (d : Dev) : Option Nat :=
  let x := d.rd Reg.SEQ_CATCH_CNT % 256
  let n := x / 16
  let c := d.regs.act
  if x % 16 = 0 ∧ diagEn c ∧ chainEn c n ∧ lowDuty c n (d.level n) then some n else none

/-- T_P (R221): the longest integration in use and 64 cycles. -/
def proofTime (c : List (Nat × Word)) : Nat :=
  maxN ((headsOf c).flatMap (fun n => (List.range (linesOf c)).map (fun l => rdA c (Reg.SEQ_H_INT n l)))) + 64

/-- The lamps at a Catch of phase `p`, after SEQ_CATCH_CNT has counted it: latches, windows, lit time. Answers the chains
whose diagnosis F10 waits for and whether the stroke carries LAMP_DIAG: for a ratio out of its band, where the last
window diagnosed before the Catch found it so (R223; DEDUCED, log 155). A dark stroke opens no lamp window (R313, R319);
proof pulses go on. -/
def Dev.lampCatch (d : Dev) (p t : Nat) (dark : Bool) : Dev × List Nat × Bool :=
  let d := d.latchPhase p
  let c := d.regs.act
  let first := d.lamp.diagNext && d.mode == .scan
  let litC := if dark then [] else (phaseChains c p).filter (fun n => levelOn (d.level n) != 0 && d.mode != .safe)
  -- the guard of R215: every BLK is high from the window limit to the next Catch
  let last := t + windowLimit c
  let d := litC.foldl (fun d n =>
    let a := t + d.rf (Reg.LMP_C_ONDLY n) 20 0
    d.shine n (min a last) (min (a + d.onEff n t) last)) d
  let d := { d with lamp := { d.lamp with diagNext := d.lamp.diagNext && d.mode != .scan } }
  let normal := litC.filter (fun n => normalDuty c n (d.level n))
  let proof := d.proofChain.toList
  let tp := t + proofTime c
  let d := proof.foldl (fun d n => d.shine n (min tp last) (min (tp + 1250) last)) d
  let warn := (phaseChains c p).any (fun n => bit (d.rd (Reg.LMP_C_DIAG n)) 3)
  (d, normal ++ proof, !proof.isEmpty || warn || first)

/-! Diagnosis (R219 to R223). -/

/-- The monitor filter and the ratio of a diagnosed window or pulse, with the warning band (R223). -/
def Dev.monitor (d : Dev) (n i m : Nat) : Dev :=
  let d := d.put (Reg.LMP_C_SENSE n) (i % 4096 * 65536 + m % 4096)
  let f : Int := (d.chain n).monf
  -- R437: the filter starts at 16 × M of the first diagnosed window after WAKE
  let f' := if (d.chain n).diagN = 0 then 16 * m else (f + (16 * (m : Int) - f + 8) / 16).toNat
  let d := d.modChain n fun c => { c with monf := f', diagN := c.diagN + 1 }
  let ref := d.rf (Reg.LMP_C_MONREF n) 15 0
  if ref = 0 then d.put (Reg.LMP_C_RATIO n) 0
  else
    let r := min ((f' * 16384 + ref / 2) / ref) 65535
    let d := d.put (Reg.LMP_C_RATIO n) r
    let out := decide (d.rf Reg.LMP_MON_WARN 15 0 * 16384 < 1000 * ((r : Int) - 16384).natAbs)
    let was := bit (d.rd (Reg.LMP_C_DIAG n)) 3
    let d := d.bumpIf out Reg.LMP_WARN_CNT
    let d := d.putF (Reg.LMP_C_DIAG n) 3 3 (b2n out)
    if out && !was then d.lampEv n 6 else if was && !out then d.lampEv n 7 else d

/-- The thresholds of a chain: OPEN, SHORT, MTHR. -/
def Dev.lampThr (d : Dev) (n : Nat) : Nat × Nat × Nat :=
  (d.rf (Reg.LMP_C_ITHR n) 11 0, d.rf (Reg.LMP_C_ITHR n) 27 16, d.rf (Reg.LMP_C_MTHR n) 11 0)

/-- The stroke in flight that waits for a chain's result: its position among them. -/
def Dev.waitsFor (d : Dev) (n : Nat) : Option (Nat × Stroke) :=
  ((d.seq.flight.zipIdx).find? (fun x => x.1.waits.contains n)).map (fun x => (x.2, x.1))

/-- A stroke's result of a chain has come. -/
def Dev.settleWait (d : Dev) (i n : Nat) : Dev :=
  { d with seq := { d.seq with flight := modNth d.seq.flight i (fun (x : Stroke) =>
      { x with waits := x.waits.filter (· != n) }) } }

/-- A failing window or proof pulse (R220 to R222, R323). -/
def Dev.lampFail (d : Dev) (n : Nat) (at_ : Option (Nat × Stroke)) : Dev :=
  if d.mode == .scan || d.mode == .splice then
    -- the strokes caught before it are framed yet
    let last := d.seq.strokeNo + (match at_ with | some x => x.1 | none => 0)
    let d := match at_ with
      | some x => d.withhold (fun y => decide (x.2.at_ ≤ y.at_))
      | none => d.withhold (fun _ => false)
    let d := (d.modChain n fun c => { c with suspect := true, lastB := last }).bump Reg.LMP_SUSPECT_CNT
    let d := (d.setFault whyLamp).recover { cls := 0xA, code := 1, unit := n, field := true, a := (d.chain n).lastProof, b := last }
      1 false
    d.lampEv n 1
  else
    let d := d.lampEv n 1
    match d.cal.run with
    | some r => if r.kind = 5 ∨ r.kind = 6 ∨ r.kind = 2 ∧ d.mode = .calibrate then d.endRun stFault true else d
    | none => d

/-- The length of a chain's latest window. -/
def Dev.windowLen (d : Dev) (n : Nat) : Nat :=
  match (d.chain n).gate.getLast? with | some g => g.2 - g.1 | none => d.onEff n d.now

/-- LAMP_WINDOW_DIAG (R219, R220): I and M of a window of a normal-duty chain, and the second sample of a long one. -/
def execLampWindowDiag (chain i m : Nat) (second : Option (Nat × Nat)) (s : State) : Host.Outcome State Fault Refusal :=
  s.onDev fun d =>
  if !normalDuty d.regs.act chain (d.level chain) || second.isSome != decide (2344 ≤ d.windowLen chain) then d else
  let w := d.waitsFor chain
  let d := d.monitor chain i m
  let d := match second with
    | some x => d.put (Reg.LMP_C_SENSE chain) (x.1 % 4096 * 65536 + x.2 % 4096)
    | none => d
  let (lo, hi, _) := d.lampThr chain
  let bad := fun (x : Nat) => decide (x < lo) || decide (hi < x)
  let d := match w with | some x => d.settleWait x.1 chain | none => d
  if bad i || (second.any fun x => bad x.1) then d.lampFail chain w else d

/-- LAMP_PROOF_RESULT (R221). -/
def execLampProofResult (chain i m : Nat) (s : State) : Host.Outcome State Fault Refusal := s.onDev fun d =>
  if levelOn (d.level chain) = 0 then d else
  let w := d.waitsFor chain
  let d := (d.monitor chain i m).bump Reg.LMP_PROOF_CNT
  let (lo, hi, mt) := d.lampThr chain
  let d := match w with | some x => d.settleWait x.1 chain | none => d
  if i < lo ∨ hi < i ∨ m < mt then d.lampFail chain w
  else match w with
    | some x => d.modChain chain fun c => { c with lastProof := d.seq.strokeNo + x.1 + 1 }
    | none => d

/-- The finding of dark samples and two proof pulses (R222): 2 TRANSIENT, 3 OPEN, 4 SHORT, 5 SENSE. -/
def finding (thr : Nat × Nat × Nat) (dark p1 p2 : Nat × Nat) : Nat :=
  let (lo, hi, mt) := thr
  let one := fun (p : Nat × Nat) =>
    if lo ≤ p.1 ∧ p.1 ≤ hi ∧ mt ≤ p.2 then 2
    else if p.1 < lo ∧ p.2 < mt then 3
    else if hi < p.1 then 4
    else 5
  if lo ≤ dark.1 ∨ mt ≤ dark.2 then 5
  else if one p1 = 2 then one p2
  else if one p2 = 2 ∨ one p2 = one p1 then one p1
  else 5

/-- LAMP_CONFIRM_START (R222): Catches are ignored under the hold and no flush cycle runs. -/
def execLampConfirmStart (s : State) : Host.Outcome State Fault Refusal := s.onDev fun d =>
  if d.lamp.chains.any (·.suspect) && !d.seq.en && d.seq.pend.isEmpty && !d.seq.flush && !d.seq.flushDue
      && (d.mode == .hold) then
    -- R222: the patterns are shifted and latched again, and two proof pulses are made
    let cs := (List.range 16).filter (fun n => (d.chain n).suspect)
    cs.foldl (fun (d : Dev) n => (d.shiftOut n (d.level n)).twoPulses n 700000) { d with lamp := { d.lamp with confirm := true } }
  else d

/-- The class bit of a finding in LMP_Cn_DIAG. -/
def Dev.classBit (d : Dev) (n f : Nat) : Dev :=
  if 3 ≤ f ∧ f ≤ 5 then d.put (Reg.LMP_C_DIAG n) (setBit (d.rd (Reg.LMP_C_DIAG n)) (f - 3)) else d

/-- LAMP_CONFIRM_DONE (R222). -/
def execLampConfirmDone (chain : Nat) (dark p1 p2 : Nat × Nat) (s : State) : Host.Outcome State Fault Refusal :=
  s.onDev fun d =>
  let f := finding (d.lampThr chain) dark p1 p2
  if d.flt.clearing && d.flt.lampClr.contains chain then
    -- R401: the confirmation that FAULT_CLEAR asked for
    let d := (d.monitor chain p1.1 p1.2).monitor chain p2.1 p2.2
    if f = 2 then
      ({ d with flt := { d.flt with lampClr := d.flt.lampClr.filter (· != chain) } }.bump Reg.LMP_TRANSIENT_CNT).lampEv chain 2
    else (d.classBit chain f).lampEv chain f
  else if !d.lamp.confirm || !(d.chain chain).suspect then d else
  let d := (d.monitor chain p1.1 p1.2).monitor chain p2.1 p2.2
  let d := (d.modChain chain fun c => { c with suspect := false, shifted := false, want := none }).recEnd 0xA 1 (some chain)
  let left := d.lamp.chains.any (·.suspect)
  let d := { d with lamp := { d.lamp with confirm := left } }
  let r : FaultRec := { cls := 0xA, code := f, unit := chain, field := true, a := (d.chain chain).lastProof, b := (d.chain chain).lastB }
  if f = 2 then
    let d := (d.bump Reg.LMP_TRANSIENT_CNT).lampEv chain 2
    let d := { d.logHere { r with code := 5 } with lamp := { d.lamp with diagNext := true } }
    if left then d else d.clrFault whyLamp
  else
    ((d.bump Reg.LMP_FAULT_CNT).classBit chain f).lampEv chain f |>.enterSafe scLamp { r with code := f - 1 }

/-- LAMP_TEST (R224). -/
def execLampTest (h : Req) (chain : Nat) (s : State) : Host.Outcome State Fault Refusal :=
  s.onDev fun d => d.serve h 0x51 fun d =>
  if d.mode != .idle && d.mode != .calibrate && d.mode != .service then no stBadState d
  else if 16 ≤ chain || !chainEn d.regs.act chain then no stBadParam d
  else (stAccepted, [], { d.startOp h (.lampTest chain) with lamp := { d.lamp with test := some chain } }.twoPulses chain 3500000)

/-- LAMP_TEST_DONE (R224). -/
def execLampTestDone (chain : Nat) (dark p1 p2 : Nat × Nat) (s : State) : Host.Outcome State Fault Refusal :=
  s.onDev fun d =>
  if !d.opRuns (fun o => o == .lampTest chain) then d else
  let f := finding (d.lampThr chain) dark p1 p2
  let d := (d.monitor chain p1.1 p1.2).monitor chain p2.1 p2.2
  let d := { d with lamp := { d.lamp with test := none } }
  ((d.classBit chain f).lampEv chain f).endOps d.owner (fun o => o == .lampTest chain) (if f = 2 then stOk else stFault) 0

/-! Wear rotation (R225 to R227). -/

/-- The groups a rotation moves: 0 < cnt[g] < size[g]. -/
def Dev.rotGroups (d : Dev) (n : Nat) : List Nat :=
  let c := d.regs.act
  let cnt := shuntCounts c n (d.level n)
  (List.range 14).filter (fun g =>
    decide (0 < cnt.getD g 0 ∧ cnt.getD g 0 < (classList c n (g + 2)).length))

/-- The lamp record of a chain (R227): its offsets, LIT_MIN and ROT_MIN. -/
def Dev.lampRecord (d : Dev) (n : Nat) : CalRec :=
  ⟨8, n, 0, 0, d.ns, (List.range 14).map (fun g => d.rd (Reg.LMP_C_ROT n g)) ++
    [d.rd (Reg.LMP_C_LIT_MIN n), d.rd (Reg.LMP_C_ROT_MIN n)], []⟩

/-- A lamp record is written to the calibration store. -/
def Dev.storeLamp (d : Dev) (n : Nat) : Dev :=
  { d with cal := { d.cal with writes := d.cal.writes ++ [d.lampRecord n] } }

/-- The offsets of a chain one place on in every group that a rotation moves. -/
def Dev.rotNext (d : Dev) (n : Nat) : List Nat :=
  let gs := d.rotGroups n
  (d.rots n).zipIdx.map (fun x =>
    if gs.contains x.2 then (x.1 + 1) % max 1 (classList d.regs.act n (x.2 + 2)).length else x.1)

/-- A rotation starts: dwells with the present pattern, the pattern one place on, and the present one (R225). -/
def Dev.rotStart (d : Dev) (n : Nat) : Dev :=
  let d := { d with lamp := { d.lamp with rot := some n } }
  let dwell := msCyc 2
  -- the rotation takes 6 to 7 ms (R231): what its three dwells leave of it is free
  let gap := fun (i : Nat) => (Config.freeValue 34 (d.frees + i)).toNat % 260000
  let t1 := d.now + gap 0
  let t2 := t1 + dwell + gap 1
  let t3 := t2 + dwell + gap 2
  let d := { d with frees := d.frees + 3 }.gateOpen n t1 (t1 + dwell)
  let d := (d.emit (.lampShift n (shiftBits d.regs.act n (d.level n) (d.rotNext n)))).gateOpen n t2 (t2 + dwell)
  (d.shiftOut n (d.level n)).gateOpen n t3 (t3 + dwell)

/-- LAMP_ROT_CHECK (R225): due chains in ascending number; one with no group to move has ROT_MIN reset. -/
def Dev.rotCheck (d : Dev) : Dev :=
  if d.mode == .idle && !d.seq.scanWait && d.lamp.rot.isNone && d.rf Reg.LMP_ROT_CTRL 0 0 == 1 then
    let hours := d.rf Reg.LMP_ROT_CTRL 31 16
    (List.range 16).foldl (fun d n =>
      let due := chainEn d.regs.act n && decide (60 * hours ≤ d.rd (Reg.LMP_C_ROT_MIN n))
        && !bit (d.rd (Reg.LMP_C_DIAG n)) 5
      if !due || d.lamp.rot.isSome then d
      else if (d.rotGroups n).isEmpty then d.put (Reg.LMP_C_ROT_MIN n) 0
      else d.rotStart n) d
  else d

/-- LAMP_ROT_CHECK (R225). -/
def execLampRotCheck (s : State) : Host.Outcome State Fault Refusal := s.onDev fun d => d.rotCheck

/-- LAMP_ROT_DONE (R225): the three dwell means decide whether the rotation is kept. -/
def execLampRotDone (chain m1 m2 m3 : Nat) (s : State) : Host.Outcome State Fault Refusal := s.onDev fun d =>
  if d.lamp.rot ≠ some chain ∨ d.mode ≠ .idle then d else
  let d := ({ d with lamp := { d.lamp with rot := none } }.lit chain (msCyc 6)).modChain chain fun c => { c with gate := [] }
  let a2 := m1 + m3
  if ((2 * m2 : Int) - a2).natAbs * 10000 ≤ d.rf Reg.LMP_ROT_TOL 15 0 * a2 then
    let d := (d.rotNext chain).zipIdx.foldl (fun (d : Dev) x => d.put (Reg.LMP_C_ROT chain x.2) x.1) d
    let d := d.shiftOut chain (d.level chain)
    let d := ((d.bump (Reg.LMP_C_ROT_N chain)).bump Reg.LMP_ROT_CNT).put (Reg.LMP_C_ROT_MIN chain) 0
    ((d.modChain chain fun c => { c with undone := 0 }).lampEv chain 8).storeLamp chain
  else
    let n := (d.chain chain).undone + 1
    let d := ((d.bump Reg.LMP_ROT_UNDO_CNT).lampEv chain 9).modChain chain fun c => { c with undone := n % 3 }
    if 3 ≤ n then (d.put (Reg.LMP_C_DIAG chain) (setBit (d.rd (Reg.LMP_C_DIAG chain)) 5)).lampEv chain 10 else d

/-- LAMP_RECORD_STORE (R227): after each hour of lit time. -/
def execLampRecordStore (chain : Nat) (s : State) : Host.Outcome State Fault Refusal :=
  s.onDev fun d => d.storeLamp chain

/-! Mains (R228, R229). -/

/-- Four intervals that lock: each 15,385 to 22,222 µs and within 1 % of their mean. Answers their sum, four
times the mean. -/
def mainsLock (l : List Nat) : Option Nat :=
  let sum := sumN l
  if l.length = 4 ∧ l.all (fun x => decide (usCyc 15385 ≤ x ∧ x ≤ usCyc 22222 ∧
      (4 * (x : Int) - (sum : Int)).natAbs * 100 ≤ sum)) then some sum else none

/-- AC_SYNC_EDGE (R228): an edge at instant `t`. -/
def execAcSyncEdge (t : Nat) (s : State) : Host.Outcome State Fault Refusal := s.onDev fun d =>
  let d := d.until_ t
  if !acEn d.regs.act then d else
  match d.lamp.acEdge with
  | none => { d with lamp := { d.lamp with acEdge := some t } }
  | some e =>
    if t < e + msCyc 5 then d
    else
      let l := ((t - e) :: d.lamp.acInt).take 4
      let d := { d with lamp := { d.lamp with acEdge := some t, acInt := l } }
      match mainsLock l with
      | none => d
      | some m =>
        let was := d.lamp.acLock
        let d := { d with lamp := { d.lamp with acLock := true, acT := m } }
        if was then d else d.lampEv 0xFFFF 11

/-- AC_LOSS (R229). -/
def execAcLoss (s : State) : Host.Outcome State Fault Refusal := s.onDev fun d =>
  if !d.lamp.acLock then d else
  ({ d with lamp := { d.lamp with acLock := false, acInt := [], acEdge := none } }.bump Reg.LMP_AC_LOSS_CNT).lampEv 0xFFFF 12

end Sys2Proof.Machine
end

