-- ==== Sys2Proof/Machine/Pixel.lean ====
section
/-! DEFINITION. The field pixel pipeline F1 to F9 (R149 to R169) as a function of the samples of a stroke, its committed
set, the field SRAM and the clamp levels. -/

namespace Sys2Proof.Machine

open Sys2Proof

/-- A working value with its tags (R149). -/
structure Px where
  x  : Int := 0
  hi : Bool := false
  lo : Bool := false
  su : Bool := false
  deriving DecidableEq, Repr, Inhabited

/-- The range of working values (R150). -/
def lim20 (v : Int) : Int := clampI (-524288) 524287 v

/-- The union of two pixels' tags, with a value. -/
def Px.join (a b : Px) (x : Int) : Px := ⟨x, a.hi || b.hi, a.lo || b.lo, a.su || b.su⟩

/-! The conversion of a tap's samples (R116, R120, R123, R311). -/

/-- The greatest number below 2 ^ `k` above `n` that satisfies a falling predicate. -/
def bisect (p : Nat → Bool) : Nat → Nat → Nat
  | 0, n => n
  | k + 1, n => if p (n + 2 ^ k) then bisect p k (n + 2 ^ k) else bisect p k n

/-- round(a × 2 ^ (pga / 128) / b), compared exactly in 128th powers and limited to ±32,767; halves go up. -/
def roundGain (a : Int) (b pga : Nat) : Int :=
  let y := (2 * a.natAbs) ^ 128 * 2 ^ pga
  if 0 ≤ a then ((bisect (fun n => decide (((2 * n - 1) * b) ^ 128 ≤ y)) 15 0 : Nat) : Int)
  else -((bisect (fun n => decide (((2 * n - 1) * b) ^ 128 < y)) 15 0 : Nat) : Int)

/-- V of R116, µV, from a tap's two levels. -/
def tapVolts (c : List (Nat × Word)) (t : Nat) (l : Int × Int) : Int :=
  let v := match tapMode c t with | 2 => l.2 - l.1 | _ => l.1 - l.2
  if rfA c (Reg.AFE_T_CFG t) 5 5 = 1 then -v else v

/-- The code of a signal voltage under a gain set (R116): `vref` in µV; OFS takes the tap's trim (R311). -/
def tapCode (c : List (Nat × Word)) (t g vref : Nat) (v : Int) : Nat :=
  let w := rdA c (Reg.AFE_T_GO t g)
  let ofs := clampI (-512) 511 (sext 10 (w / 65536) + sext 8 (rdA c (Reg.CAL_TRIM t) / 2 ^ (8 * g)))
  (clampI 0 16383 (roundGain (16383 * v) (2 * vref) (w % 512) + ofs)).toNat

/-- Entry `i` of a channel's slot table (R120). -/
def slotEntry (c : List (Nat × Word)) (ch i : Nat) : Nat :=
  rdA c (Reg.AFE_SLOT ch (i / 4)) / 2 ^ (24 - 8 * (i % 4)) % 256

/-- LEN of a channel's slot table. -/
def slotLen (c : List (Nat × Word)) (ch : Nat) : Nat := max 1 (rfA c (Reg.AFE_CV_CTRL ch) 6 0)

/-- GSET of the entry that converts a result of a tap that is convertible at `r` (R119, R120): that of the first
conversion boundary from then on whose entry names the tap. `z` gives an instant at which the channel's pointer stood at 0. -/
def slotGset (c : List (Nat × Word)) (t : Nat) (z : Nat → Nat → Nat) (r : Nat) : Nat :=
  let len := slotLen c (t / 6)
  let j := ceilDiv (r - z (t / 6) r) 4
  ((List.range len).findSome? (fun k =>
    let e := slotEntry c (t / 6) ((j + k) % len)
    if e / 16 % 8 = t % 6 then some (e % 4) else none)).getD 3

/-- When sample `i` of a tap is convertible (R117, R119): 2 CLK_PIX cycles after its SHD instant in the PIXCLK burst of the
waveform that runs from `at_`. -/
def convertible (c : List (Nat × Word)) (n t at_ i : Nat) : Nat :=
  match (waveBody c n).find? wPix with
  | some e => at_ + (wTime c n e).toNat + i * wPeriod e + rfA c (Reg.AFE_T_CDS t) 6 0 + 2
  | none => at_

/-- The gain set of sample `i` of a tap, source `s` of its head, in the burst of the waveform that runs from `at_` (R120). -/
def sampleGset (c cg : List (Nat × Word)) (head t s : Nat) (z : Nat → Nat → Nat) (at_ i : Nat) : Nat :=
  let e := slotGset cg t z (convertible cg head t at_ i)
  if e = 3 then (samplePos c head s i).1 else e

/-- A tap's codes from its levels (R116, R123). `cg` is the set in force at the samples' SHD instants and `at_` the instant
of the waveform that reads them out; `z` gives the channels' pointers and `ref` each core's reference (none: the codes are
free values from `n0` on). -/
def convert (c cg : List (Nat × Word)) (ref : Nat → Option Nat) (z : Nat → Nat → Nat) (at_ n0 : Nat) (x : SourceData) :
    SourceData :=
  if x.levels.isEmpty || headSrc c x.head != 1 then x else
  let t := x.src
  let s := (sourcesOf c x.head).findIdx (· == t)
  { x with
    levels := []
    codes := (x.levels.zipIdx).map (fun (y : (Int × Int) × Nat) =>
      let g := sampleGset c cg x.head t s z at_ y.2
      match ref (t / 6) with
      | some r => (tapCode cg t g r (tapVolts cg t y.1), false)
      | none => ((Config.freeValue 24 (n0 + 262144 * (t + 1) + y.2)).toNat % 16384, false)) }

/-! F1 (R149, R124 to R126). -/

/-- F1 of one code. -/
def f1 (digital : Bool) (w code : Nat) (su : Bool) : Px :=
  if digital then ⟨((code % 2 ^ w * 2 ^ (16 - w) : Nat) : Int), code % 2 ^ w == 2 ^ w - 1, false, false⟩
  else ⟨((4 * (code % 16384) : Nat) : Int), code % 16384 == 16383, code % 16384 == 0, su⟩

/-- The tags of a tap's samples: SUSPECT on the three samples after an overrange one (R125). An overrange sample within the
count restarts it and carries OVR alone, as in the section's worked example, although the rule's words could have it carry
SUSPECT too (DEDUCED, log 146). Answers the pixels and the samples still to mark. -/
def suspects : Nat → List (Nat × Bool) → List Px × Nat
  | n, [] => ([], n)
  | n, (code, su) :: l =>
    let ovr := code % 16384 == 16383 || code % 16384 == 0
    let p := f1 false 14 code (su || n != 0 && !ovr)
    let n' := if p.hi || p.lo then 3 else n - 1
    let r := suspects n' l
    (p :: r.1, r.2)

/-- A test code (R108). -/
def testCode (c : List (Nat × Word)) (k n r : Nat) : Nat :=
  let w := if headSrc c n = 2 then laneWidth c n else 14
  match rfA c Reg.SEQ_TEST 1 0 with
  | 1 => r % 2 ^ w
  | 2 => rfA c Reg.SEQ_TEST 31 16 % 2 ^ w
  | _ => k % 2 ^ w

/-- The raw pixels of one head: line, raw index and pixel, from its sources (R154). Dummy positions are dropped. -/
def f2Samples (c : List (Nat × Word)) (n s : Nat) (l : List Px) : List ((Nat × Nat) × Px) :=
  (l.zipIdx).filterMap (fun x =>
    let q := samplePos c n s x.2
    let r := q.2 - leadOf c n
    if 0 ≤ r ∧ r < rawCount c n ∧ x.2 < sampleCount c n then some ((q.1, r.toNat), x.1) else none)

/-- A head's lines in raw order, from its placed samples. -/
def headLines (c : List (Nat × Word)) (n : Nat) (l : List ((Nat × Nat) × Px)) : List (List Px) :=
  (List.range (linesOf c)).map (fun ln =>
    (List.range (rawCount c n)).map (fun r =>
      ((l.find? (fun x => x.1.1 == ln && x.1.2 == r)).map (·.2)).getD {}))

/-- A head's lines of test codes. -/
def testLines (c : List (Nat × Word)) (k n : Nat) : List (List Px) :=
  let w := if headSrc c n = 2 then laneWidth c n else 14
  List.replicate (linesOf c) ((List.range (rawCount c n)).map (fun r =>
    { x := ((testCode c k n r * 2 ^ (16 - w) : Nat) : Int) }))

/-! Defect lists (R160, R164). -/

/-- The offset of a head's active defect bank. -/
def defBank (c : List (Nat × Word)) (n : Nat) : Nat :=
  (if rfA c (Reg.PIX_H_DEF n) 31 31 = 1 then 0x880000 else 0x800000) + 0x4000 * n

/-- A head's active defect list, as words. -/
def defects (c : List (Nat × Word)) (sram : List Host.Cell) (n : Nat) : List Nat :=
  (List.range (rfA c (Reg.PIX_H_DEF n) 12 0)).map (fun i => ofBe (mread sram (defBank c n + 4 * i) 4))

/-- The entry that names a raw pixel as defective on a line. -/
def defectAt (ds : List Nat) (ln r : Nat) : Option Nat :=
  ds.find? (fun w => w % 65536 == r && bit w (27 + ln))

/-! F3 (R155, R156). -/

/-- An index lies in the optical-black region. -/
def inOb (c : List (Nat × Word)) (n r : Nat) : Bool :=
  decide (obStart c n ≤ r ∧ r < obStart c n + obCount c n)

/-- F3 on one line: the line, its clamp level, and whether the level was held for want of pixels. -/
def f3 (c : List (Nat × Word)) (n ln : Nat) (ds : List Nat) (first : Bool) (prev : Int) (l : List Px) :
    List Px × Int × Bool :=
  let ob := ((l.zipIdx).filter (fun x => inOb c n x.2 && !(x.1.hi || x.1.lo || x.1.su) &&
    (defectAt ds ln x.2).isNone)).map (fun x => x.1.x)
  let cnt := ob.length
  let m := (sumI ob + ((cnt / 2 : Nat) : Int)) / (max 1 cnt : Int)
  let f := if cnt = 0 then (if first then 0 else prev)
    else if first then m else prev + rsh (m - prev) (rfA c (Reg.PIX_H_OB n) 2 0)
  let ped : Int := rfA c (Reg.PIX_H_OB n) 31 16
  (l.map (fun p => { p with x := lim20 (p.x - f + ped) }), f, cnt == 0)

/-! F4 to F6 (R157, R162). -/

/-- The effective gain of F4. -/
def f4Gain (c : List (Nat × Word)) (cp n p ln : Nat) : Nat :=
  min 65535 ((rfA c (Reg.PIX_H_CG n p ln) 15 0 * cp + 8192) / 16384)

/-- F4 on one line. -/
def f4 (c : List (Nat × Word)) (cp n p ln : Nat) (l : List Px) : List Px :=
  let ofs := sext 16 (rfA c (Reg.PIX_H_CG n p ln) 31 16)
  let g : Int := f4Gain c cp n p ln
  l.map (fun q => { q with x := lim20 (rsh ((q.x + ofs) * g) 14) })

/-- A map entry: DARK and GAIN of line `ln`, index `j` (R158). -/
def mapEntry (sram : List Host.Cell) (slot ln j : Nat) : Int × Int :=
  let b := mread sram (0x100000 * slot + 4 * (81920 * ln + j)) 4
  (sext 16 (getBe b 0 2), (getBe b 2 2 : Nat))

/-- F5 and F6 on one line; optical-black pixels read no entry. -/
def f56 (c : List (Nat × Word)) (sram : List Host.Cell) (slot n ln : Nat) (dark gain : Bool) (l : List Px) : List Px :=
  (l.zipIdx).map (fun q =>
    if inOb c n q.2 then q.1 else
    let e := mapEntry sram slot ln (rawBase c n + q.2)
    let x := if dark then lim20 (q.1.x - e.1) else q.1.x
    { q.1 with x := if gain then lim20 (rsh (x * e.2) 14) else x })

/-! F7 (R165). -/

/-- The nearest good neighbour on one side: its distance and pixel. -/
def neighbour (c : List (Nat × Word)) (n ln : Nat) (ds : List Nat) (l : List Px) (r : Nat) (right : Bool) :
    Option (Nat × Px) :=
  ([1, 2, 3, 4].find? (fun k =>
    let i := if right then r + k else r - k
    (right || decide (k ≤ r)) && decide (i < l.length) && !inOb c n i && (defectAt ds ln i).isNone)).map
    (fun k => (k, nth l (if right then r + k else r - k)))

/-- F7 on one line: the line and the defects left unresolved. A substituted pixel has the tags of both its neighbours. -/
def f7 (c : List (Nat × Word)) (n ln : Nat) (ds : List Nat) (l : List Px) : List Px × Nat :=
  let one := fun (q : Px × Nat) =>
    match (if inOb c n q.2 then none else defectAt ds ln q.2) with
    | none => (q.1, 0)
    | some w =>
      let a := neighbour c n ln ds l q.2 false
      let b := neighbour c n ln ds l q.2 true
      match w / 2 ^ 30, a, b with
      | _, none, none => (q.1, 1)
      | 0, some (dl, x), some (dr, y) =>
        (x.join y ((x.x * dr + y.x * dl + (((dl + dr) / 2 : Nat) : Int)) / ((dl + dr : Nat) : Int)), 0)
      | 2, some (_, x), some (_, y) => (x.join y y.x, 0)
      | _, some (_, x), some (_, y) => (x.join y x.x, 0)
      | _, some (_, x), none => (x, 0)
      | _, none, some (_, y) => (y, 0)
  let r := (l.zipIdx).map one
  (r.map (·.1), sumN (r.map (·.2)))

/-! F8 (R166, R167). -/

/-- The pixels of an overlap. -/
def blend (cut : Bool) (a b : List Px) : List Px :=
  let v := a.length
  ((a.zip b).zipIdx).map (fun (x : (Px × Px) × Nat) =>
    if cut then (if 2 * x.2 < v + v % 2 then x.1.1 else x.1.2)
    else
      let w : Int := (((2 * x.2 + 1) * 65536 / (2 * v) : Nat) : Int)
      x.1.1.join x.1.2 (lim20 ((x.1.1.x * (65536 - w) + x.1.2.x * w + 32768) / 65536)))

/-- Join further heads of one line, each with its non-OB pixels, to what stands left of seam `s`. -/
def f8Join (c : List (Nat × Word)) (on : Bool) : Nat → List Px → List (Nat × List Px) → List Px
  | _, acc, [] => acc
  | s, acc, (n, p) :: rest =>
    if on then
      let v := ovlLeft c n
      let a := acc.drop (acc.length - v)
      f8Join c on (s + 1) (acc.take (acc.length - v) ++ blend (bit (rdA c Reg.PIX_STITCH) s) a (p.take v) ++ p.drop v) rest
    else f8Join c on (s + 1) (acc ++ p) rest

/-- F8 of one line: the heads in ascending number, each with its non-OB pixels. -/
def f8 (c : List (Nat × Word)) (on : Bool) : List (Nat × List Px) → List Px
  | [] => []
  | (_, p) :: rest => f8Join c on 0 p rest

/-! F9 (R168, R169). -/

/-- Entry `i` of a line's LUT (R168, R179). -/
def lutAt (c : List (Nat × Word)) (ln i : Nat) : Int :=
  if 4096 ≤ i then 65536
  else ((rdA c (Reg.PIX_LUT ln (i / 2)) / (if i % 2 = 0 then 65536 else 1) % 65536 : Nat) : Int)

/-- F9 of one pixel: the code, and whether it was limited without an OVR tag. -/
def f9 (c : List (Nat × Word)) (ln bits : Nat) (lut : Bool) (p : Px) : Nat × Bool :=
  let x := clampI 0 65535 p.x
  let sat := x ≠ p.x ∧ !p.hi ∧ !p.lo
  let y := if lut then
      let i := x.toNat / 16
      let f : Int := x % 16
      clampI 0 65535 (lutAt c ln i + ((lutAt c ln (i + 1) - lutAt c ln i) * f + 8) / 16)
    else x
  let y := if rfA c Reg.PIX_CTRL 7 7 = 1 then (if p.hi then 65535 else if p.lo then 0 else y) else y
  let q := if bits = 16 then y.toNat else min ((y.toNat + 2 ^ (15 - bits)) / 2 ^ (16 - bits)) (2 ^ bits - 1)
  (q, sat)

/-- The bits of codes, most significant first. -/
def codeBits (bits : Nat) (l : List Nat) : List Bool :=
  l.flatMap (fun q => (List.range bits).map (fun i => bit q (bits - 1 - i)))

/-- Bits as bytes. -/
def packBits : Nat → List Bool → List Byte
  | 0, _ => []
  | n + 1, l =>
    BitVec.ofNat 8 (((List.range 8).map (fun i => if l.getD i false then 2 ^ (7 - i) else 0)).foldl (· + ·) 0)
      :: packBits n (l.drop 8)

/-- One line of a payload (R169). -/
def packLine (bits : Nat) (l : List Nat) : List Byte := packBits (ceilDiv (l.length * bits) 64 * 8) (codeBits bits l)

/-! One stroke. -/

/-- What the pipeline leaves behind for a stroke, beside its payload. -/
structure PxRun where
  out    : PxOut
  clamp  : List (Nat × Int)
  susp   : List (Nat × Nat)
  held   : Nat
  sat    : Nat
  unres  : Nat
  ovrRaw : Nat
  ovrDum : Nat
  suspN  : Nat
  seen   : List Nat          -- taps with an overrange sample
  deriving DecidableEq, Repr

/-- F1 of every source of a stroke: the pixels by head and source position, and each tap's rest of SUSPECT samples. -/
def f1All (c : List (Nat × Word)) (susp : List (Nat × Nat)) (data : List SourceData) :
    List (Nat × Nat × Nat × List Px) × List (Nat × Nat) :=
  data.foldl (fun (a : List (Nat × Nat × Nat × List Px) × List (Nat × Nat)) (x : SourceData) =>
    let s := ((sourcesOf c x.head).zipIdx.find? (fun y => y.1 == x.src)).map (·.2)
    match s with
    | none => a
    | some i =>
      if headSrc c x.head = 2 then
        (a.1 ++ [(x.head, x.src, i, x.codes.map (fun y => f1 true (laneWidth c x.head) y.1 false))], a.2)
      else
        let r := suspects ((aget a.2 x.src).getD 0) x.codes
        (a.1 ++ [(x.head, x.src, i, r.1)], if r.2 = 0 then adel a.2 x.src else aset a.2 x.src r.2)) ([], susp)

/-- F1 to F9 of one stroke: its committed set `c`, the compensation `cp`, grid index `k`, phase `p`, first of a run, and `run`:
5 for a run of R319 (F5 to F8 off, 16 bits, no LUT), 6 for one of R321 (16 bits, no LUT), else 0. -/
def pipeline (c : List (Nat × Word)) (sram : List Host.Cell) (clamp : List (Nat × Int)) (susp : List (Nat × Nat))
    (cp k p : Nat) (first : Bool) (run : Nat) (data : List SourceData) : PxRun :=
  let on := fun i => rfA c Reg.PIX_CTRL i i == 1
  let calib := run == 5
  let srcs := f1All c susp data
  let test := rfA c Reg.SEQ_TEST 1 0 != 0
  let dark := on 2 && !calib
  let gain := on 3 && !calib
  let slot := rdA c Reg.PIX_MAPSEL / 2 ^ (24 - 8 * p) % 8
  let heads := headsOf c
  -- F2
  let read := heads.map (fun n =>
    (n, headLines c n ((srcs.1.filter (fun x => x.1 == n)).flatMap (fun x => f2Samples c n x.2.2.1 x.2.2.2))))
  let lines := if test then heads.map (fun n => (n, testLines c k n)) else read
  let raw := lines.flatMap (fun x => x.2.flatten)
  let all := srcs.1.flatMap (fun x => x.2.2.2)
  let ovrRaw := (raw.filter (fun q => q.hi || q.lo)).length
  let ana := srcs.1.filter (fun x => headSrc c x.1 != 2)
  let ovrAll := ((ana.flatMap (fun x => x.2.2.2)).filter (fun q => q.hi || q.lo)).length
  let ovrAna := (((read.filter (fun x => headSrc c x.1 != 2)).flatMap (fun x => x.2.flatten)).filter
    (fun q => q.hi || q.lo)).length
  -- F3 to F7
  let step := fun (a : List (Nat × Int) × Nat × Nat × List (Nat × List (List Px))) (x : Nat × List (List Px)) =>
    let n := x.1
    let ds := defects c sram n
    let r := (x.2.zipIdx).foldl (fun (b : List (Nat × Int) × Nat × Nat × List (List Px)) (y : List Px × Nat) =>
      let ln := y.2
      let key := 4 * n + ln
      let (l, cl, h) := if on 0 && obCount c n != 0 then
          let r3 := f3 c n ln ds first ((aget b.1 key).getD 0) y.1
          (r3.1, aset b.1 key r3.2.1, b2n r3.2.2)
        else (y.1, b.1, 0)
      let l := if on 1 then f4 c (if calib then 16384 else cp) n p ln l else l
      let l := if dark || gain then f56 c sram slot n ln dark gain l else l
      let r7 := if on 4 && !calib then f7 c n ln ds l else (l, 0)
      (cl, b.2.1 + h, b.2.2.1 + r7.2, b.2.2.2 ++ [r7.1])) (a.1, a.2.1, a.2.2.1, [])
    (r.1, r.2.1, r.2.2.1, a.2.2.2 ++ [(n, r.2.2.2)])
  let mid := lines.foldl step (clamp, 0, 0, [])
  -- R319: every raw pixel of a stroke captured for SHADING
  let rawPx := (List.range (linesOf c)).flatMap (fun ln => mid.2.2.2.flatMap (fun x => x.2.getD ln []))
  -- F8
  let line := fun (ln : Nat) => f8 c (stitchOn c && !calib) (mid.2.2.2.map (fun x =>
    (x.1, (((x.2.getD ln []).zipIdx).filter (fun q => !inOb c x.1 q.2)).map (·.1))))
  -- F9
  let bits := if run = 0 then outBits c else 16
  let outPx := (List.range (linesOf c)).map line
  let codes := (outPx.zipIdx).map (fun (x : List Px × Nat) => x.1.map (f9 c x.2 bits (on 6 && run == 0)))
  { out := { payload := codes.flatMap (fun l => packLine bits (l.map (·.1)))
             width := (codes.headD []).length
             ovr := ovrRaw
             suspect := (raw.filter (·.su)).length
             drift := 0
             ovrAt := ((outPx.flatten).zipIdx.filter (fun x => x.1.hi || x.1.lo)).map (·.2)
             raw := if calib then rawPx.map (fun x => (f9 c 0 16 false x).1) else []
             rawOvr := if calib then (rawPx.zipIdx.filter (fun x => x.1.hi || x.1.lo)).map (·.2) else [] }
    clamp := mid.1
    susp := srcs.2
    held := mid.2.1
    unres := mid.2.2.1
    sat := ((codes.flatten).filter (·.2)).length
    ovrRaw := ovrAna
    ovrDum := ovrAll - ovrAna
    suspN := (all.filter (·.su)).length
    seen := (ana.filter (fun x => x.2.2.2.any (fun q => q.hi || q.lo))).map (fun x => x.2.1) }

/-- DRIFT_WHY of a stroke (R163): the slot's tags against the stroke's conditions. -/
def driftWhy (c : List (Nat × Word)) (sram : List Host.Cell) (slot : Nat) (id level : Word) (lampT : Option Int)
    (gap : Nat) : Nat :=
  let t := mread sram (0x100000 * slot + 0xF0000) 64
  let dT : Bool := match lampT with
    | some x => decide (((rfA c Reg.PIX_DRIFT 15 0 : Nat) : Int) < |x - sext 16 (getBe t 10 2)|)
    | none => false
  -- 1 / interval lies outside the band: the interval is `gap` cycles of 1.28 ns
  let rate : Bool := gap != 0 && (decide (781250000 < getBe t 20 4 * gap) || decide (getBe t 24 4 * gap < 781250000))
  b2n (w32 (getBe t 12 4) != id) + 2 * b2n dT + 4 * b2n (w32 (getBe t 16 4) != level) + 8 * b2n rate

end Sys2Proof.Machine
end

