-- ==== Sys2Proof/Machine/Calib.lean ====
section
/-! DEFINITION. Calibration and correction (R304 to R332): commanded runs and their results, background AFE and lamp
compensation, CAL_APPLY, the calibration store, and what a Catch brings into force. -/

namespace Sys2Proof.Machine

open Sys2Proof

/-! Map slots and defect banks (R159 to R161). -/

/-- The slot a MAPSEL word names for a phase. -/
def slotSel (w p : Nat) : Nat := w / 2 ^ (24 - 8 * p) % 8

/-- The values of a word that are held under R76 or R308. -/
def Dev.waiting (d : Dev) (a : Nat) : List Nat := (d.heldVals.filter (fun x => x.1 == a)).map (fun x => x.2.toNat)

/-- The active configuration, what the held values make of it, and what an accepted COMMIT waiting for its stroke boundary
makes of either. -/
def Dev.configs (d : Dev) : List (List (Nat × Word)) :=
  let now := [d.regs.act, d.withHeld]
  match d.regs.com with
  | some c => now ++ now.map (fun s => c.vals.foldl (fun l p => aset l p.1 p.2) s)
  | none => now

/-- A configuration uses a map slot: PIX_MAPSEL names it for a phase in use while F5 or F6 is enabled. -/
def usesSlot (c : List (Nat × Word)) (m : Nat) : Bool :=
  (rfA c Reg.PIX_CTRL 2 2 == 1 || rfA c Reg.PIX_CTRL 3 3 == 1) &&
    (List.range (nphOf c)).any (fun p => slotSel (rdA c Reg.PIX_MAPSEL) p == m)

/-- A configuration uses a defect bank: of an enabled head while F7 is enabled. -/
def usesBank (c : List (Nat × Word)) (n b : Nat) : Bool :=
  rfA c Reg.PIX_CTRL 4 4 == 1 && headSrc c n != 0 && rfA c (Reg.PIX_H_DEF n) 31 31 == b

/-- A map slot is IN_USE (R161). -/
def Dev.slotUsed (d : Dev) (m : Nat) : Bool :=
  d.configs.any (fun c => usesSlot c m) ||
    (d.waiting Reg.PIX_MAPSEL).any (fun w => (List.range 4).any (fun p => slotSel w p == m))

/-- A defect bank is IN_USE (R161). -/
def Dev.bankUsed (d : Dev) (n b : Nat) : Bool :=
  d.configs.any (fun c => usesBank c n b) || (d.waiting (Reg.PIX_H_DEF n)).any (fun w => w / 2 ^ 31 % 2 == b)

/-- Tag bytes of a slot (R159): the number in bytes `i` to `i + n − 1`. -/
def Dev.tag (d : Dev) (m i n : Nat) : Nat := ofBe (mread d.fsram (0x100000 * m + 0xF0000 + i) n)

/-- The SET_CRC of a set at an offset of a memory (R159). -/
def setCrc (mem : List Host.Cell) (base : Nat) : Word := crc32c (mread mem base 983040 ++ mread mem (base + 983040) 60)

/-- A slot's SET_CRC matches: VALID, otherwise CRC_FAIL (R161). -/
def Dev.checkSlot (d : Dev) (m : Nat) : Dev :=
  let ok := beW (setCrc d.fsram (0x100000 * m)) == mread d.fsram (0x100000 * m + 0xF0000 + 60) 4
  { d with cal := { d.cal with
    chk := clrBit d.cal.chk m
    -- R325: the condition of NO_RECORD ends with a VALID slot
    asked := if ok then d.cal.asked.filter (fun x => !(x.1 == 5 && x.2.1 % 8 == m && x.2.2 == 7)) else d.cal.asked
    valid := if ok then setBit d.cal.valid m else clrBit d.cal.valid m
    crcFail := if ok then clrBit d.cal.crcFail m else setBit d.cal.crcFail m } }

/-- MAP_SLOT_CRC_CHECK (R161): the check that the write of tag bytes 60 to 63 called for. -/
def execMapSlotCrcCheck (slot : Nat) (s : State) : Host.Outcome State Fault Refusal :=
  s.onDev fun d => if bit d.cal.chk slot then d.checkSlot slot else d

/-- The slot selected for a phase. -/
def Dev.slotOf (d : Dev) (p : Nat) : Nat := slotSel (d.rd Reg.PIX_MAPSEL) p

/-! Lamp-monitor compensation (R316, R317, R436). -/

/-- The latest value of a word among corrections that wait, else the one in force. -/
def Dev.latest (d : Dev) (a : Nat) : Nat :=
  (((d.cal.held ++ d.cal.due).flatMap (fun c => c.vals)).filter (fun x => x.1 == a)).foldl
    (fun _ x => x.2.toNat) (d.rd a)

/-- R_p of R316 with the ratios `r` of the chains; none without a chain that counts. -/
def Dev.ratioMean (d : Dev) (p : Nat) (r : Nat → Nat) : Option Int :=
  let cs := (phaseChains d.regs.act p).filter (fun n =>
    levelOn (d.level n) != 0 && d.rf (Reg.LMP_C_MONREF n) 15 0 != 0 && decide (16 ≤ (d.chain n).diagN))
  if cs.isEmpty then none
  else some (((sumN (cs.map r) + cs.length / 2) / cs.length : Nat) : Int)

/-- Steps 1 to 3 of R316 without the requests: C_t, and whether the unlimited one lies beyond the limit. -/
def Dev.compTarget (d : Dev) (r : Option Int) : Nat × Bool :=
  let l := d.rd Reg.CAL_DRIFT_LIM * 16384 / 1000
  match r, bit (d.rd Reg.CAL_CTRL) 0 with
  | some r, true =>
    if r ≤ 0 then (16384 + l, true)
    else
      let c := (268435456 + r / 2) / r
      if c < 16384 - (l : Int) then ((16384 - (l : Int)).toNat, true)
      else if 16384 + (l : Int) < c then (16384 + l, true)
      else (c.toNat, false)
  | _, _ => (16384, false)

/-- CAL_STAT.DRIFT of a phase and its RECAL_REQUEST (R316, R325). -/
def Dev.driftBit (d : Dev) (p : Nat) (on : Bool) : Dev :=
  let w := d.rd Reg.CAL_STAT
  let d := d.put Reg.CAL_STAT (if on then setBit w (4 + p) else clrBit w (4 + p))
  if on then d.recal 5 (d.shadeUnit p) 1
  else { d with cal := { d.cal with asked := d.cal.asked.filter (fun x =>
    !(x.1 == 5 && x.2.1 / 16 == p && x.2.2 == 1)) } }

/-- The RATIO word of a chain. -/
def Dev.ratio (d : Dev) (n : Nat) : Nat := d.rf (Reg.LMP_C_RATIO n) 15 0

/-- The head of a LAMP_COMP result (R327): its unit's temperature is the phase's LAMPT. -/
def Dev.compHead (d : Dev) (p : Nat) (e : Word) : CalHead := ⟨e, d.lamptField (d.lampT p), d.ns⟩

/-- LAMP_COMP_UPDATE (R316): the phases that move by CAL_COMP_STEP share one epoch (R307). -/
def execLampCompUpdate (s : State) : Host.Outcome State Fault Refusal := s.onDev fun d =>
  let one := fun (a : Dev × List (Nat × Word)) (p : Nat) =>
    let (c, lim) := a.1.compTarget (a.1.ratioMean p a.1.ratio)
    let d := a.1.driftBit p lim
    if d.rd Reg.CAL_COMP_STEP ≤ ((c : Int) - d.latest (Reg.PIX_LCOMP p)).natAbs then
      (d.bump Reg.CAL_COMP_UPD_CNT, a.2 ++ [(Reg.PIX_LCOMP p, w32 c)])
    else (d, a.2)
  let (d, vals) := (List.range (nphOf d.regs.act)).foldl one (d, [])
  if vals.isEmpty then d
  else
    let (e, d) := d.takeEpoch
    d.correction ⟨4, 0, e, none, vals, (List.range 4).filterMap (fun p =>
      if (aget vals (Reg.PIX_LCOMP p)).isSome then some (headKey 4 p, d.compHead p e) else none)⟩

/-- What R317 and R307 do at a Catch: for every phase whose selected slot is new, its monitor record and its epoch come
into force and C_p is recomputed. Answers the epochs that came into force. -/
def Dev.selectSlots (d : Dev) : Dev × List Nat :=
  (List.range (nphOf d.regs.act)).foldl (fun (a : Dev × List Nat) p =>
    let d := a.1
    let m := d.slotOf p
    if aget d.cal.sel p = some m then a else
    let d := { d with cal := { d.cal with sel := aset d.cal.sel p m } }
    let es := if bit d.cal.valid m then a.2 ++ [d.tag m 4 4] else a.2
    match aget d.cal.monRec m with
    | none => (d, es)
    | some mr =>
      let d := (phaseChains d.regs.act p).foldl (fun d n =>
        let ref := mr.getD n 0
        let d := d.put (Reg.LMP_C_MONREF n) ref
        d.put (Reg.LMP_C_RATIO n)
          (if ref = 0 then 0 else min (((d.chain n).monf * 16384 + ref / 2) / ref) 65535)) d
      let (c, lim) := d.compTarget (d.ratioMean p d.ratio)
      let d := d.driftBit p lim
      if c = d.rd (Reg.PIX_LCOMP p) then (d, es)
      else
        let (e, d) := d.takeEpoch
        ((d.put (Reg.PIX_LCOMP p) c).setHead 4 p (d.compHead p e), es ++ [e.toNat])) (d, [])

/-- LAMP_PRELOAD (R436): C_p from the thermal model, for every phase with a VALID slot, a record, and LAMPT. -/
def Dev.lampPreload (d : Dev) : Dev :=
  let one := fun (a : Dev × Option Word) (p : Nat) =>
    let d := a.1
    let m := d.slotOf p
    let kt := sext 32 (d.rd (Reg.PWR_LAMP_KT p))
    match bit d.cal.valid m && (aget d.cal.monRec m).isSome && kt != 0, d.lampT p with
    | true, some t =>
      let dt := t - sext 16 (d.tag m 10 2)
      let (c, lim) := d.compTarget (some (16384 + 16384 * kt * dt / 160000))
      let d := d.driftBit p lim
      let (e, d) := match a.2 with | some e => (e, d) | none => d.takeEpoch
      (((d.put (Reg.PIX_LCOMP p) c).put Reg.CAL_EPOCH_NOW e.toNat).setHead 4 p (d.compHead p e), some e)
    | _, _ => (d.put (Reg.PIX_LCOMP p) 16384, a.2)
  ((List.range (nphOf d.regs.act)).foldl one (d, none)).1

/-- LAMP_PRELOAD (R436). -/
def execLampPreload (s : State) : Host.Outcome State Fault Refusal :=
  s.onDev fun d => if d.mode == .wake then d.lampPreload else d

/-! Corrections at a Catch (R307 to R309). -/

/-- A correction held under BOUNDARY comes into force at the Catch of index `k`: the page it waits for opens there (R308). -/
def Dev.opensAt (d : Dev) (k : Int) (c : HeldCorr) : Bool :=
  !(d.boundaryMode && d.jobHeld) || (match c.k0 with | some k0 => decide (k0 ≤ k) | none => d.nextPageAt k == some k)

/-- What comes into force at a Catch: the image values held under R76, the corrections due or whose page opens, then the
slots newly selected. The highest epoch among them is the one in force. -/
def Dev.catchCorr (d : Dev) (k : Nat) : Dev :=
  if d.imageClosed then d else
  let d := d.takeHeld k
  let now := d.cal.due ++ d.cal.held.filter (d.opensAt k)
  let d := { d with cal := { d.cal with due := [], held := d.cal.held.filter (fun c => !d.opensAt k c) } }
  let d := now.foldl (fun d c => d.applyCorr c) d
  let es := (now.filter (fun c => c.kind != 0 && c.epoch != 0)).map (fun c => c.epoch.toNat)
  let (d, es2) := d.selectSlots
  if (es ++ es2).isEmpty then d else d.put Reg.CAL_EPOCH_NOW (maxN (es ++ es2))

/-! Validity of core calibrations (R310). -/

/-- A core's calibration is valid (R310): one has been taken, the field clocks run from the Bezel's clock, and the
quadrant's temperature lies within CAL_DTEMP of the one recorded. Holdover keeps the clock (R29; DEDUCED, log 178). -/
def Dev.coreValid (d : Dev) (k : Nat) : Bool :=
  bit (d.rd (Reg.CAL_CORE k)) 0 && (d.bzl.fieldLock || d.bzl.holdover) &&
    decide ((sext 16 (d.rf (Reg.CAL_CORE k) 31 16) - sext 16 (d.rd (Reg.CAL_TQ (k / 17)))).natAbs ≤ d.rd Reg.CAL_DTEMP)

/-! AFE offset runs (R311 to R313). -/

/-- The taps of a quadrant with MODE ≠ 0. -/
def quadTaps (c : List (Nat × Word)) (q : Nat) : List Nat :=
  (List.range' (96 * q) 96).filter (fun t => tapMode c t != 0)

/-- A tap's clamp window holds at least 4 samples. -/
def hasWindow (c : List (Nat × Word)) (t : Nat) : Bool := decide (4 ≤ rfA c (Reg.AFE_T_CLAMP t) 15 0)

/-- Sample `i` of a tap lies in its clamp window (R118). -/
def clampWin (c : List (Nat × Word)) (t i : Nat) : Bool :=
  decide (rfA c (Reg.AFE_T_CLAMP t) 31 16 ≤ i ∧ i < rfA c (Reg.AFE_T_CLAMP t) 31 16 + rfA c (Reg.AFE_T_CLAMP t) 15 0)

/-- The gain sets that the samples of a tap use: those of its slots; FOLLOW uses the lines in use (R120, R123). -/
def gsetsOf (c : List (Nat × Word)) (t : Nat) : List Nat :=
  let ch := t / 6
  let len := rfA c (Reg.AFE_CV_CTRL ch) 6 0
  let entry := fun (i : Nat) => rdA c (Reg.AFE_SLOT ch (i / 4)) / 2 ^ (24 - 8 * (i % 4)) % 256
  (((List.range len).map entry).filter (fun e => e / 16 % 8 == t % 6)).flatMap (fun e =>
    if e % 4 = 3 then List.range (linesOf c) else [e % 4]) |>.eraseDups

/-- B_ref,g of a tap; none while unset (R311). -/
def Dev.bref (d : Dev) (t g : Nat) : Option Nat :=
  let v := match g with
    | 0 => d.rf (Reg.CAL_BREF01 t) 31 16
    | 1 => d.rf (Reg.CAL_BREF01 t) 15 0
    | _ => d.rf (Reg.CAL_BREF2 t) 15 0
  if v = 0xFFFF then none else some v

/-- Set B_ref,g of a tap. -/
def Dev.setBref (d : Dev) (t g v : Nat) : Dev :=
  match g with
  | 0 => d.putF (Reg.CAL_BREF01 t) 31 16 v
  | 1 => d.putF (Reg.CAL_BREF01 t) 15 0 v
  | _ => d.putF (Reg.CAL_BREF2 t) 15 0 v

/-- TRIM_g of a tap. -/
def Dev.trim (d : Dev) (t g : Nat) : Int := sext 8 (d.rd (Reg.CAL_TRIM t) / 2 ^ (8 * g))

/-- An automatic run of a quadrant is called for (R313). -/
def Dev.afeDue (d : Dev) (q : Nat) : Bool :=
  let c := d.regs.act
  let moved := decide (((d.rd Reg.CAL_DTEMP : Nat) : Int) <
    |sext 16 (d.rd (Reg.CAL_TQ q)) - sext 16 (d.rf (Reg.CAL_AFE_Q q) 31 16)|)
  let unset := (quadTaps c q).any (fun t => hasWindow c t && (gsetsOf c t).any (fun g => (d.bref t g).isNone))
  !(quadTaps c q).isEmpty && (moved || unset)

/-- A run of a quadrant starts; taps without a window are reported (R313). -/
def Dev.afeStart (d : Dev) (q : Nat) : Dev :=
  if d.cal.afeRun.any (·.quad == q) then d else
  let c := d.regs.act
  let without := ((quadTaps c q).filter (fun t => !hasWindow c t)).length
  let d := { d with cal := { d.cal with afeRun := d.cal.afeRun ++ [{ quad := q }] } }
  if d.mode == .calibrate then d else
  let d := d.putF (Reg.CAL_AFE_Q q) 15 0 without
  if without = 0 then d.recalEnd 2 q 3 else d.recal 2 q 3

/-- Runs that start at a Catch in SCAN (R313), those that HOLD had interrupted among them. -/
def Dev.afeCatch (d : Dev) : Dev :=
  if d.mode != .scan then d else
  let named := d.cal.afeAgain ++ (match d.cal.run with | some r => if r.kind = 2 then r.left else [] | none => [])
  let d := { d with cal := { d.cal with afeAgain := [] } }
  (List.range 4).foldl (fun d q =>
    if named.contains q || (bit (d.rd Reg.CAL_CTRL) 1 && d.afeDue q) then d.afeStart q else d) d

/-- A run of R312 measures sample `i` of a tap: every sample in CALIBRATE, else those of a clamp window of at least 4
(R313). -/
def afeTakes (c : List (Nat × Word)) (every : Bool) (t i : Nat) : Bool :=
  tapMode c t != 0 && (every || hasWindow c t && clampWin c t i)

/-- Codes enter the sums of a run, by tap and gain set. -/
def sumInto (l : List (Nat × Nat × Nat × Nat)) (t g code : Nat) : List (Nat × Nat × Nat × Nat) :=
  match l.find? (fun x => x.1 == t && x.2.1 == g) with
  | some x => l.map (fun y => if y == x then (t, g, x.2.2.1 + code, x.2.2.2 + 1) else y)
  | none => l ++ [(t, g, code, 1)]

/-- The runs under way measure one stroke (R312), the 64th at most; samples with OVR or SUSPECT are left out. `l` gives
each source's pixels after F1, by head, tap and position, and `gset` the gain set of a sample. -/
def Dev.afeMeasure (d : Dev) (c : List (Nat × Word)) (gset : Nat → Nat → Nat → Nat → Nat)
    (l : List (Nat × Nat × Nat × List Px)) : Dev :=
  if d.cal.afeRun.isEmpty then d else
  let every := d.mode == .calibrate
  let one := fun (r : AfeRun) =>
    if 64 ≤ r.strokes then r else
    { r with
      strokes := r.strokes + 1
      sums := l.foldl (fun s y =>
        if headSrc c y.1 != 1 || y.2.1 / 96 != r.quad then s else
        (y.2.2.2.zipIdx).foldl (fun s z =>
          if z.1.hi || z.1.lo || z.1.su || !afeTakes c every y.2.1 z.2 then s
          else sumInto s y.2.1 (gset y.1 y.2.1 y.2.2.1 z.2) (z.1.x.toNat / 4)) s) r.sums }
  { d with cal := { d.cal with afeRun := d.cal.afeRun.map one } }

/-- One tap and gain set of a run (R312), with the sum and the number of its codes: new B_ref, new trims, and what is out
of range. -/
def Dev.afeOne (d : Dev) (q : Nat) (a : Dev × List (Nat × Nat × Int) × List (Nat × Nat × Nat))
    (x : Nat × Nat × Nat × Nat) : Dev × List (Nat × Nat × Int) × List (Nat × Nat × Nat) :=
  let (t, g, sum, n) := x
  match d.bref t g with
  | none => (a.1, a.2.1, a.2.2 ++ [(t, g, (2 * sum + n) / (2 * max 1 n))])
  | some b =>
    let dl := roundDiv ((b * n : Nat) - (sum : Nat)) n
    let v := d.trim t g + dl
    if 2 * dl.natAbs ≤ d.rd Reg.AFE_BLK_LIMIT ∧ -128 ≤ v ∧ v ≤ 127 then (a.1, a.2.1 ++ [(t, g, v)], a.2.2)
    else ((a.1.logHere { cls := 0x11, code := 1, unit := q, a := d.rd Reg.CAL_EPOCH_NEXT }).recal 2 q 4, a.2.1, a.2.2)

/-- The CAL_TRIM words with new trims. -/
def Dev.trimWords (d : Dev) (l : List (Nat × Nat × Int)) : List (Nat × Word) :=
  l.foldl (fun (w : List (Nat × Word)) x =>
    let a := Reg.CAL_TRIM x.1
    let old := (aget w a).map (·.toNat) |>.getD (d.rd a)
    aset w a (w32 (withFld old (8 * x.2.1 + 7) (8 * x.2.1) (twos 8 x.2.2)))) []

/-- A pending result (R324): a new one replaces one of the same kind and unit; of nine the oldest leaves (DESIGN CHOICE, log
202). -/
def Dev.addPend (d : Dev) (r : CalRec) : Dev :=
  let l := d.cal.pend.filter (fun x => !(x.kind == r.kind && x.unit == r.unit)) ++ [r]
  { d with cal := { d.cal with pend := l.drop (l.length - 8) } }

/-- A commanded run has ended with a result: its counts, OP_DONE with the highest epoch of its units, and back to IDLE
where it came from there (R318). -/
def Dev.runDone (d : Dev) (epoch : Word) : Dev :=
  match d.cal.run with
  | none => d
  | some r =>
    let epoch := if r.epoch.toNat < epoch.toNat then epoch else r.epoch
    let d := (d.bump Reg.CAL_RUN_CNT).put Reg.CAL_LAST_EPOCH epoch.toNat
    let d := { d with cal := { d.cal with run := none } }
    let d := if d.mode == .calibrate then d.catchOff false else d
    let d := d.endOps d.owner (fun o => o == Op.calRun) stOk epoch.toNat
    if r.fromIdle && d.mode == .calibrate then d.toIdle else d

/-- The taps of a quadrant as a record restores them: CFG, CDS, CLAMP, GO words, trims and B_ref (R329). -/
def Dev.afeBody (d : Dev) (q : Nat) : List Nat :=
  (List.range' (96 * q) 96).flatMap (fun t =>
    [Reg.AFE_T_CFG t, Reg.AFE_T_CDS t, Reg.AFE_T_CLAMP t, Reg.AFE_T_GO t 0, Reg.AFE_T_GO t 1, Reg.AFE_T_GO t 2,
     Reg.CAL_TRIM t, Reg.CAL_BREF01 t, Reg.CAL_BREF2 t].map d.rd)

/-- Whether the tap configuration is the one of an AFE record. -/
def Dev.afeSame (d : Dev) (q : Nat) (body : List Nat) : Bool :=
  (List.range 96).all (fun i =>
    (List.range 6).all (fun j => body.getD (9 * i + j) 0 == (d.afeBody q).getD (9 * i + j) 0))

/-- The trims and black references of an AFE record. -/
def afeVals (q : Nat) (body : List Nat) : List (Nat × Word) :=
  (List.range 96).flatMap (fun i =>
    let t := 96 * q + i
    [(Reg.CAL_TRIM t, w32 (body.getD (9 * i + 6) 0)), (Reg.CAL_BREF01 t, w32 (body.getD (9 * i + 7) 0)),
     (Reg.CAL_BREF2 t, w32 (body.getD (9 * i + 8) 0))])

/-- AFE_OFFSET_DONE (R312, R313, R324): with 64 strokes measured, an automatic run's trims become a correction; a run
commanded in CALIBRATE leaves its result pending. -/
def execAfeOffsetDone (q : Nat) (s : State) : Host.Outcome State Fault Refusal :=
  s.onDev fun d =>
  match d.cal.afeRun.find? (fun r => r.quad == q && decide (64 ≤ r.strokes)) with
  | none => d
  | some run =>
  let d0 := d
  let mine := run.sums
  let (d, trims, brefs) := mine.foldl (d0.afeOne q) (d, [], [])
  let changed := trims.any (fun x => d0.trim x.1 x.2.1 != x.2.2)
  let d := if trims.length + brefs.length = mine.length then d.recalEnd 2 q 4 else d
  let d := d.putF (Reg.CAL_AFE_Q q) 31 16 (d.rd (Reg.CAL_TQ q))
  let d := ({ d with cal := { d.cal with afeRun := d.cal.afeRun.filter (fun r => r.quad != q) } }).bump Reg.CAL_AFE_RUN_CNT
  let (e, d) := if changed then d.takeEpoch else ((0 : Word), d)
  let cmd := match d.cal.run with | some r => r.kind == 2 && r.left.contains q | none => false
  let d :=
    if cmd && d.mode == .calibrate then
      let d' := brefs.foldl (fun d x => d.setBref x.1 x.2.1 x.2.2) d
      let d' := d'.putAll (d'.trimWords trims)
      d.addPend ⟨2, q, e, d.rd (Reg.CAL_TQ q), d.ns, d'.afeBody q, []⟩
    else
      let d := brefs.foldl (fun d x => d.setBref x.1 x.2.1 x.2.2) d
      let h : CalHead := ⟨if changed then e else (d.headOf 2 q).epoch, d.rd (Reg.CAL_TQ q), d.ns⟩
      if changed then d.correction ⟨2, q, e, none, d.trimWords trims, [(headKey 2 q, h)]⟩ else d.setHead 2 q h
  if cmd then
    let d := { d with cal := { d.cal with run := d.cal.run.map (fun (r : CalRun) => { r with
      left := r.left.filter (· != q), epoch := if r.epoch.toNat < e.toNat then e else r.epoch }) } }
    if (d.cal.run.map (fun (r : CalRun) => r.left.isEmpty)).getD false then d.runDone e else d
  else (d.bump Reg.CAL_RUN_CNT).put Reg.CAL_LAST_EPOCH e.toNat

/-! Starting commanded runs (R318). -/

/-- Modes of a trained link in which BEZEL_LANE runs (R315). -/
def linkMode : Mode → Bool
  | .idle | .homing | .scan | .hold | .splice | .calibrate | .service | .safe => true
  | _ => false

/-- IDLE or CALIBRATE. -/
def Dev.calMode (d : Dev) : Bool := d.mode == .idle || d.mode == .calibrate

/-- A run is accepted: CALIBRATE where it was commanded in IDLE and its kind goes there; Catches are enabled for a
capture (R94). -/
def Dev.runStart (d : Dev) (h : Req) (kind unit stage : Nat) (left : List Nat) (go capture : Bool) : Answer :=
  let fromIdle := d.mode == .idle
  let d := d.startOp h .calRun
  let d := { d with cal := { d.cal with run := some ⟨kind, unit, stage, 0, fromIdle && go, none, none, [], [], 0, 0, 0, left, 0⟩ } }
  let d := if go && fromIdle then d.setMode .calibrate else d
  (stAccepted, [], if capture then d.serviceCatches else d)

/-- A unit list: one unit, or all of them for 0xFFFF. -/
def unitsOf (unit n : Nat) : List Nat := if unit = 0xFFFF then List.range n else [unit]

/-- CAL_RUN of ADC_CORE (R310, R318). -/
def execCalRunAdcCore (h : Req) (unit : Nat) (s : State) : Host.Outcome State Fault Refusal :=
  s.onDev fun d => d.serveThen h 0x60 (fun d =>
  if d.mode != .idle && d.mode != .calibrate && d.mode != .service then no stBadState d
  else if 68 ≤ unit ∧ unit ≠ 0xFFFF then no stBadParam d
  else if d.cal.run.isSome then no stBusy d
  else
    let left := (unitsOf unit 68).filter (fun k => !(d.afe.quads.any (fun q => q.retired.contains k)))
    let r := d.runStart h 1 unit 0 left false false
    let busy := fun (x : Nat × Quad) => left.filter (fun k => k / 17 == x.1 && !x.2.retired.contains k)
    let d := r.2.2
    (r.1, r.2.1, { d with afe := { d.afe with quads := (d.afe.quads.zipIdx).map (fun x =>
      { x.1 with cal := (x.1.cal ++ (busy (x.2, x.1)).filter (fun k => x.1.ready == some k)).eraseDups
                 ready := match x.1.ready with
                   | some k => if (busy (x.2, x.1)).contains k then none else some k
                   | none => none }) } }))
  -- R62: with every named core retired the run is over, once its reply is out
  (fun st d => match d.cal.run with
    | some r => if st = stAccepted ∧ r.left.isEmpty then d.runDone 0 else d
    | none => d)

/-- CAL_RUN of AFE_OFFSET (R313, R318). -/
def execCalRunAfeOffset (h : Req) (unit : Nat) (s : State) : Host.Outcome State Fault Refusal :=
  s.onDev fun d => d.serve h 0x60 fun d =>
  if !d.calMode && d.mode != .scan then no stBadState d
  else if 4 ≤ unit ∧ unit ≠ 0xFFFF then no stBadParam d
  else if d.cal.run.isSome then no stBusy d
  else
    let scan := d.mode == .scan
    let r := d.runStart h 2 unit 0 (unitsOf unit 4) (!scan) (!scan)
    (r.1, r.2.1, (unitsOf unit 4).foldl (fun d q => d.afeStart q) r.2.2)

/-- The lanes a unit names in a direction. -/
def laneNames (unit : Nat) (r : Dir) : List Nat :=
  if unit = 0xFFFF then List.range (lanesOf r)
  else match r with
    | .f2h => if unit < 24 then [unit] else []
    | .h2f => if 32 ≤ unit then [unit - 32] else []

/-- CAL_RUN of BEZEL_LANE (R315, R318). -/
def execCalRunBezelLane (h : Req) (unit : Nat) (s : State) : Host.Outcome State Fault Refusal :=
  s.onDev fun d => d.serve h 0x60 fun d =>
  let short := fun (r : Dir) => (laneNames unit r).any (fun n => bit (d.bzlLink r).map n) && (d.bzlLink r).spares == 0
  if !linkMode d.mode then no stBadState d
  else if !(decide (unit < 24) || decide (32 ≤ unit ∧ unit < 36) || unit == 0xFFFF) then no stBadParam d
  else if short .f2h || short .h2f then no stBadState d
  else if d.cal.run.isSome then no stBusy d
  else
    let r := d.runStart h 3 unit 0 [] false false
    let d := (r.2.2.modLink .f2h (fun l => { l with todo := laneNames unit .f2h })).modLink .h2f
      (fun l => { l with todo := laneNames unit .h2f })
    (r.1, r.2.1, (d.nextLane .f2h).nextLane .h2f)

/-- CAL_RUN of SHADING (R318, R319). -/
def execCalRunShading (h : Req) (unit : Nat) (s : State) : Host.Outcome State Fault Refusal :=
  s.onDev fun d => d.serve h 0x60 fun d =>
  let p := unit / 16
  let c := d.regs.act
  if !d.calMode then no stBadState d
  else if 64 ≤ unit || unit / 8 % 2 == 1 || decide (nphOf c ≤ p) || (phaseChains c p).isEmpty then no stBadParam d
  else if d.slotUsed (unit % 8) then no stBadState d
  else if (headsOf c).isEmpty then no stBadParam d
  else if d.cal.run.isSome then no stBusy d
  else d.runStart h 5 unit 0 [] true true

/-- CAL_RUN of LAMP_ABS (R318, R321). -/
def execCalRunLampAbs (h : Req) (unit : Nat) (s : State) : Host.Outcome State Fault Refusal :=
  s.onDev fun d => d.serve h 0x60 fun d =>
  let c := d.regs.act
  if !d.calMode then no stBadState d
  else if 4 ≤ unit || decide (nphOf c ≤ unit) || (phaseChains c unit).isEmpty || (headsOf c).isEmpty then no stBadParam d
  else if (aget d.cal.monRec (d.slotOf unit)).isNone then no stBadState d
  else if d.cal.run.isSome then no stBusy d
  else d.runStart h 6 unit 0 [] true true

/-- CAL_RUN of VREF_TRACE (R318, R322). -/
def execCalRunVrefTrace (h : Req) (unit : Nat) (s : State) : Host.Outcome State Fault Refusal :=
  s.onDev fun d => d.serve h 0x60 fun d =>
  if !d.calMode then no stBadState d
  else if unit ≠ 0 ∨ d.rd Reg.CAL_VREFX_UV = 0 ∨ d.bzl.vrefx < 1140000 ∨ 1260000 < d.bzl.vrefx then no stBadParam d
  else if d.cal.run.isSome then no stBusy d
  else d.runStart h 7 0 0 [] true false

/-! Results (R319 to R323). -/

/-- A stroke captured for a run reaches its buffer; the dark strokes of SHADING are followed by settling. -/
def Dev.captured (d : Dev) (s : Stroke) (px : PxOut) : Dev :=
  match d.cal.run with
  | none => d
  | some r =>
    if !s.calUse || (r.kind == 5 && (r.stage == 1 || s.calStage != r.stage || s.dark != (r.stage == 0) ||
        r.stage == 2 && s.phase != r.unit / 16)) then d else
    let nD := d.rf Reg.CAL_SHADE_N 15 0
    let nW := d.rf Reg.CAL_SHADE_N 31 16
    let r' := { r with strokes := r.strokes + 1, buf := r.buf ++ [px] }
    let r' := if r.kind = 5 ∧ r.stage = 0 ∧ nD ≤ r'.strokes then { r' with stage := 1, strokes := 0 } else r'
    let p := r.unit / 16
    let r' := if r.kind = 5 ∧ r.stage = 2 ∧ r.strokes = 0 then { r' with lampT := d.lampT p } else r'
    let r' := if r.kind = 5 ∧ r.stage = 2 then { r' with
        lampT1 := d.lampT p
        mon := (List.range 16).map (fun n => if (phaseChains d.regs.act p).contains n then (d.chain n).monf else 0) }
      else r'
    let full := (r.kind = 5 ∧ r.stage = 2 ∨ r.kind = 6) ∧ nW ≤ r'.strokes
    if full ∧ nW < r'.strokes then d else { d with cal := { d.cal with run := some r' } }

/-- SHADING_SETTLE_DONE (R319): the white capture starts. -/
def execShadingSettleDone (s : State) : Host.Outcome State Fault Refusal := s.onDev fun d =>
  match d.cal.run with
  | some r =>
    if r.kind = 5 ∧ r.stage = 1 then { d with cal := { d.cal with run := some { r with stage := 2, strokes := 0 } } } else d
  | none => d

/-- The value of output pixel `m` of line `ln` of a 16-bit payload of `w` pixels a line. -/
def capValue (w ln m : Nat) (x : PxOut) : Nat := getBe x.payload (ln * (ceilDiv (w * 16) 64 * 8) + 2 * m) 2

/-- floor((Σ + floor(N / 2)) / N). -/
def roundMean (l : List Nat) : Int := (((sumN l + l.length / 2) / max 1 l.length : Nat) : Int)

/-- DARK and GAIN of a pixel, and whether GAIN was limited (R319). -/
def darkGain (target : Nat) (dark white : List Nat) : Int × Nat × Bool :=
  let dk := clampI (-32768) 32767 (roundMean dark)
  let d := roundMean white - dk
  if d ≤ 0 then (dk, 65535, true)
  else
    let g := ((target : Int) * 16384 + d / 2) / d
    (dk, (clampI 1 65535 g).toNat, decide (g < 1 ∨ 65535 < g))

/-- RATE_MIN and RATE_MAX: the mean rate is (n − 1) / (t1 − t0), with n Catches (R320). -/
def rateBand (n t0 t1 rb : Nat) : Nat × Nat :=
  let num := (n - 1) * 781250000
  let den := max 1 (t1 - t0)
  (num * (1000 - rb) / (den * 1000), ceilDiv (num * (1000 + rb)) (den * 1000))

/-- The map set of a SHADING run, as bytes that are not 0 by offset, and the count of limited gains (R319, R320): every raw
pixel, those of the optical-black region too. -/
def Dev.mapSet (d : Dev) (r : CalRun) (epoch : Word) : List Host.Cell × Nat :=
  let c := d.regs.act
  let nD := d.rf Reg.CAL_SHADE_N 15 0
  let w := sumRaw c
  let of := fun (i : Nat) (x : PxOut) => x.raw.getD i 0
  let dk := r.buf.take nD
  let wh := r.buf.drop nD
  let entries := (List.range (linesOf c)).flatMap (fun ln => (List.range w).map (fun j =>
    let g := darkGain (d.rf Reg.CAL_WHITE_TARGET 15 0) (dk.map (of (w * ln + j))) (wh.map (of (w * ln + j)))
    (4 * (81920 * ln + j), be 2 (twos 16 g.1) ++ be 2 g.2.1, g.2.2)))
  let p := r.unit / 16
  let rate := rateBand r.catches r.t0 r.t1 (d.rf Reg.CAL_SHADE_T 15 0)
  let lampT := d.lamptField r.lampT1
  let tags := be 4 1 ++ beW epoch ++ be 1 p ++ be 1 (linesOf c) ++ be 2 lampT ++ beW (d.phaseId p)
    ++ beW (d.phaseLevel p) ++ be 4 rate.1 ++ be 4 rate.2 ++ be 4 (sumRaw c)
  let m := (entries.map (fun e => (e.1, e.2.1))).foldl (fun m e => mwrite m e.1 e.2) []
  let m := mwrite m 0xF0000 tags
  (mwrite m (0xF0000 + 60) (beW (setCrc m 0)), (entries.filter (fun e => e.2.2)).length)

/-- SHADING_DONE (R319, R320). -/
def execShadingDone (s : State) : Host.Outcome State Fault Refusal := s.onDev fun d =>
  match d.cal.run with
  | none => d
  | some r =>
    if r.kind ≠ 5 ∨ r.stage ≠ 2 ∨ r.strokes < d.rf Reg.CAL_SHADE_N 31 16 then d else
    let (e, d) := d.takeEpoch
    let (cells, weak) := d.mapSet r e
    let clip := sumN (r.buf.map (fun (x : PxOut) =>
      (x.raw.zipIdx.filter (fun v => (v.1 == 0 || v.1 == 65535) && !x.rawOvr.contains v.2)).length))
    let ovr := ((r.buf.flatMap (·.rawOvr)).eraseDups).length
    let d := ((d.put Reg.CAL_LAST_CLIP clip).put Reg.CAL_LAST_WEAK weak).put Reg.CAL_LAST_OVR ovr
    let unstable := match r.lampT, r.lampT1 with
      | some a, some b => decide (((d.rf Reg.PIX_DRIFT 15 0 : Nat) : Int) < |b - a|)
      | _, _ => false
    let d := d.putF Reg.CAL_STAT 0 0 (b2n unstable)
    (d.addPend ⟨5, r.unit, e, d.lamptField r.lampT1, d.ns, r.mon, cells⟩).runDone e

/-- The pixels that Y is the mean of (R321): line CLS_CTRL.LINE in the window of CLS_WIN, of every stroke captured. -/
def Dev.whitePixels (d : Dev) (r : CalRun) : List Nat :=
  let x := d.rf Reg.CLS_WIN 31 16
  r.buf.flatMap (fun px => ((List.range' x (d.rf Reg.CLS_WIN 15 0)).filter (fun m => decide (m < px.width))).map
    (fun m => capValue px.width (d.rf Reg.CLS_CTRL 9 8) m px))

/-- LAMP_ABS_DONE (R321): with every stroke captured, Y is formed, exactly, and the new monitor record from it. -/
def execLampAbsDone (s : State) : Host.Outcome State Fault Refusal := s.onDev fun d =>
  match d.cal.run with
  | none => d
  | some r =>
    if r.kind ≠ 6 ∨ r.strokes < d.rf Reg.CAL_SHADE_N 31 16 then d else
    let target := d.rf Reg.CAL_WHITE_TARGET 15 0
    let y := d.whitePixels r
    if 4 * sumN y < target * y.length then
      d.endRun stFault false
    else
      let (e, d) := d.takeEpoch
      let old := (aget d.cal.monRec (d.slotOf r.unit)).getD []
      let mon := (List.range 16).map (fun n => old.getD n 0 * target * y.length / max 1 (sumN y))
      (d.addPend ⟨6, r.unit, e, 0, d.ns, mon, []⟩).runDone e

/-- VREF_TRACE_DONE (R322): the four ready cores have measured the bandgap against VREFX: `ratio` is their mean of bandgap
over VREFX, U2.30. The result takes VREFX to be the certified value; µV, rounded to the nearest (log 181). -/
def execVrefTraceDone (ratio : Nat) (s : State) : Host.Outcome State Fault Refusal := s.onDev fun d =>
  match d.cal.run with
  | some r =>
    if r.kind = 7 then
      let uv := (d.rd Reg.CAL_VREFX_UV * (ratio % 2 ^ 32) + 2 ^ 29) / 2 ^ 30
      ((d.put Reg.CAL_BG_RATIO (ratio % 2 ^ 32)).addPend ⟨7, 0, 0, 0, d.ns, [uv], []⟩).runDone 0
    else d
  | none => d

/-- CAL_RUN_TIMEOUT (R323): no Catch for SEQ_STROKE_TMO during a capture; a hold only interrupts an AFE_OFFSET run (R313). -/
def execCalRunTimeout (s : State) : Host.Outcome State Fault Refusal := s.onDev fun d =>
  match d.cal.run with
  | some r =>
    if d.mode != .hold && d.mode != .splice && (r.kind == 5 || r.kind == 6 || r.kind == 2) then
      d.endRun stTimeout true
    else d
  | none => d

/-! CAL_APPLY (R324). -/

/-- A SHADING record's map set is loaded into a slot with its monitor record. -/
def Dev.loadSlot (d : Dev) (m : Nat) (r : CalRec) : Dev :=
  let base := 0x100000 * m
  let rest := d.fsram.filter (fun x => !decide (base ≤ x.1 ∧ x.1 < base + 983104))
  let mem := r.cells.foldl (fun f x => mset f (base + x.1) x.2) rest
  ({ d with
    fsram := mem
    flt := { d.flt with poison := d.flt.poison.filter (fun x => x.1 != m) }
    cal := { d.cal with monRec := aset d.cal.monRec m r.body, sel := d.cal.sel.filter (fun x => x.2 != m) } }).checkSlot m
    |>.setHead 5 m r.head |>.dropHead 6 m

/-- The units of a kind (R304). -/
def kindUnits : Nat → List Nat
  | 1 => List.range 68
  | 2 => List.range 4
  | 3 => List.range 24 ++ List.range' 32 4
  | 5 => (List.range 4).flatMap (fun p => (List.range 8).map (fun m => 16 * p + m))
  | 4 | 6 => List.range 4
  | 7 => [0]
  | 8 => List.range 16
  | _ => []

/-- The units a request names: UNIT 0xFFFF is every unit of the kinds whose row of R304 allows it. -/
def unitsNamed (kind unit : Nat) : List Nat :=
  if unit = 0xFFFF ∧ (kind = 1 ∨ kind = 2 ∨ kind = 3 ∨ kind = 8) then kindUnits kind else [unit]

/-- The lamp record of a chain comes into force (R227). -/
def Dev.putLampRec (d : Dev) (n : Nat) (b : List Nat) : Dev :=
  let d := (List.range 14).foldl (fun d g => d.put (Reg.LMP_C_ROT n g) (b.getD g 0)) d
  (d.put (Reg.LMP_C_LIT_MIN n) (b.getD 14 0)).put (Reg.LMP_C_ROT_MIN n) (b.getD 15 0)

/-- The effect of CAL_APPLY on one result (R324). -/
def Dev.applyResult (d : Dev) (r : CalRec) : Dev :=
  match r.kind with
  | 5 => d.loadSlot (r.unit % 8) r
  | 6 =>
    let m := d.slotOf r.unit
    let d := { d with cal := { d.cal with monRec := aset d.cal.monRec m r.body } }
    let cs := phaseChains d.regs.act r.unit
    let ref := fun (n : Nat) => r.body.getD n 0
    let ratio := fun (n : Nat) => if ref n = 0 then 0 else min (((d.chain n).monf * 16384 + ref n / 2) / ref n) 65535
    let (c, lim) := d.compTarget (d.ratioMean r.unit ratio)
    let d := d.driftBit r.unit lim
    d.correction ⟨6, r.unit, r.epoch, none, cs.flatMap (fun n =>
      [(Reg.LMP_C_MONREF n, w32 (ref n)), (Reg.LMP_C_RATIO n, w32 (ratio n))]) ++ [(Reg.PIX_LCOMP r.unit, w32 c)],
      [(headKey 4 r.unit, d.compHead r.unit r.epoch), (headKey 6 m, r.head)]⟩
  | 2 => d.correction ⟨2, r.unit, r.epoch, none, afeVals r.unit r.body, [(headKey 2 r.unit, r.head)]⟩
  | 7 => (d.put Reg.CAL_BG_UV (r.body.headD 0)).setHead 7 0 r.head
  | 8 => d.putLampRec r.unit r.body
  | _ => d

/-- CAL_APPLY (R324): BAD_STATE in HOLD and SPLICE (R309). UNIT 0xFFFF applies the result of every unit that has one
pending (log 177); a result whose slot then shows CRC_FAIL stays pending. -/
def execCalApply (h : Req) (kind unit epoch : Nat) (s : State) : Host.Outcome State Fault Refusal :=
  s.onDev fun d => d.serve h 0x61 fun d =>
  let hit := fun (u : Nat) => (d.cal.pend.reverse).find? (fun (r : CalRec) =>
    r.kind == kind && r.unit == u && (epoch == 0 || r.epoch.toNat == epoch))
  let rs := (unitsNamed kind unit).filterMap hit
  if d.mode == .hold || d.mode == .splice then no stBadState d
  else if kind = 1 ∨ kind = 3 ∨ rs = [] then no stBadParam d
  else if kind = 5 && d.slotUsed (unit % 8) then no stBadState d
  else
    let d := rs.foldl (fun d r => d.applyResult r) d
    if kind = 5 && bit d.cal.crcFail (unit % 8) then (stFault, [], d)
    else (stOk, [], { d with cal := { d.cal with pend := d.cal.pend.filter (fun x => !rs.contains x) } })

/-! The store (R327 to R329). -/

/-- The record of a kind and unit in force; none where nothing is (R328). Its header is that of the result (R327). -/
def Dev.inForce (d : Dev) (kind unit : Nat) : Option CalRec :=
  let h := d.headOf kind unit
  match kind with
  | 1 => if bit (d.rd (Reg.CAL_CORE unit)) 0 then
      some ⟨1, unit, 0, d.rf (Reg.CAL_CORE unit) 31 16, h.time, [d.rd (Reg.CAL_CORE unit)], []⟩ else none
  | 2 =>
    let taps := List.range' (96 * unit) 96
    if taps.any (fun t => (List.range 3).any (fun g => (d.bref t g).isSome)) then
      some ⟨2, unit, h.epoch, h.temp, h.time, d.afeBody unit, []⟩ else none
  | 3 =>
    let r := if unit < 32 then Dir.f2h else Dir.h2f
    let n := unit % 32
    let l := d.bzlLink r
    if n < lanesOf r ∧ (bit l.map n || bit l.spares n) then
      some ⟨3, unit, 0, d.rf (laneWord r n) 31 16, h.time, [d.rd (laneWord r n)], []⟩ else none
  | 4 => (aget d.cal.heads (headKey 4 unit)).map (fun h =>
      ⟨4, unit, h.epoch, h.temp, h.time, [d.rd (Reg.PIX_LCOMP unit)], []⟩)
  | 5 =>
    let m := unit % 8
    if bit d.cal.valid m && d.tag m 8 1 == unit / 16 then
      some ⟨5, unit, w32 (d.tag m 4 4), d.tag m 10 2, (d.headOf 5 m).time, (aget d.cal.monRec m).getD [],
        (d.fsram.filter (fun x => decide (0x100000 * m ≤ x.1 ∧ x.1 < 0x100000 * m + 983104))).map
          (fun x => (x.1 - 0x100000 * m, x.2))⟩
    else none
  | 6 => (aget d.cal.heads (headKey 6 (d.slotOf unit))).map (fun h =>
      ⟨6, unit, h.epoch, h.temp, h.time, (aget d.cal.monRec (d.slotOf unit)).getD [], []⟩)
  | 7 => if d.rd Reg.CAL_BG_UV = 0 then none else some ⟨7, 0, 0, 0, h.time, [d.rd Reg.CAL_BG_UV], []⟩
  | 8 => some (d.lampRecord unit)
  | _ => none

/-- Start the writes of records, beneath scanning. -/
def Dev.queueWrites (d : Dev) (l : List CalRec) : Dev := { d with cal := { d.cal with writes := d.cal.writes ++ l } }

/-- Nothing is left to write: CAL_STORE completes (R328). -/
def Dev.storeEnd (d : Dev) : Dev :=
  let st := if d.cal.lost then stFault else stOk
  let d := { d with cal := { d.cal with lost := false } }
  d.endOps d.owner (fun o => o == Op.calStore) st 0

/-- CAL_STORE (R328). With nothing to write it completes as soon as its reply is out (R62). -/
def execCalStore (h : Req) (kind unit : Nat) (s : State) : Host.Outcome State Fault Refusal :=
  s.onDev fun d => d.serveThen h 0x62 (fun d =>
  let kinds := if kind = 0xFFFF then List.range' 1 8 else [kind]
  if kind = 0 ∨ (9 ≤ kind ∧ kind ≠ 0xFFFF) then no stBadParam d
  else if unit ≠ 0xFFFF ∧ !(kinds.any (fun k => (kindUnits k).contains unit)) then no stBadParam d
  else
    let recs := kinds.flatMap (fun k =>
      ((kindUnits k).filter (fun u => unit == 0xFFFF || u == unit)).filterMap (d.inForce k))
    (stAccepted, [], { (d.startOp h .calStore).queueWrites recs with cal := { (d.queueWrites recs).cal with lost := false } }))
  (fun st d => if st = stAccepted ∧ d.cal.writes.isEmpty then d.storeEnd else d)

/-- CAL_PERIODIC_STORE (R328): the ADC_CORE, AFE_OFFSET and BEZEL_LANE results in force. -/
def execCalPeriodicStore (s : State) : Host.Outcome State Fault Refusal := s.onDev fun d =>
  if d.fieldRuns then
    d.queueWrites ([1, 2, 3].flatMap (fun k => (kindUnits k).filterMap (d.inForce k)))
  else d

/-- CAL_FLASH_WRITE_DONE (R328): the record at the head was written, is retried once in the next sector, or is given
up. -/
def execCalFlashWriteDone (ok : Bool) (s : State) : Host.Outcome State Fault Refusal := s.onDev fun d =>
  match d.cal.writes with
  | [] => d
  | r :: rest =>
    let d :=
      if ok then { d with cal := { d.cal with writes := rest, retry := false } }.storeRec r
      else if !d.cal.retry then { d with cal := { d.cal with retry := true } }.sectorFails
      else
        ({ d with cal := { d.cal with writes := rest, retry := false, lost := true } }.bump Reg.CAL_FLASH_ERR_CNT).logHere
          { cls := 0x11, code := 2, unit := r.unit, a := r.epoch.toNat } |>.sectorFails
    if d.cal.writes.isEmpty then d.storeEnd else d

/-- CAL_RESTORE (R329): epoch 0 names the latest record; UNIT 0xFFFF every unit of the kind that has one (log 177). -/
def execCalRestore (h : Req) (kind unit epoch : Nat) (s : State) : Host.Outcome State Fault Refusal :=
  s.onDev fun d => d.serve h 0x63 fun d =>
  let rs := (unitsNamed kind unit).filterMap (fun u => (d.cal.store.reverse).find? (fun r =>
    r.kind == kind && r.unit == u && kind != 0xFFFE && (epoch == 0 || r.epoch.toNat == epoch)))
  if d.mode == .wake then no stBadState d
  else if rs = [] then no stBadParam d
  else (stAccepted, [], { d.startOp h .calRestore with cal := { d.cal with restore := d.cal.restore ++ [(h.session, h.seq, rs)] } })

/-- CAL_RESTORE_DONE (R324, R329). -/
def execCalRestoreDone (s : State) : Host.Outcome State Fault Refusal := s.onDev fun d =>
  match d.cal.restore with
  | [] => d
  | (n, q, rs) :: l =>
    let d := rs.foldl (fun d r => d.addPend r) { d with cal := { d.cal with restore := l } }
    d.endRequest .calRestore n q stOk (maxN (rs.map (fun r => r.epoch.toNat)))

/-- The restore of WAKE (R329): of each kind and unit the newest record whose CRC passes; `bad` gives the places of the
others in the store. Where there is none the kind's default holds, with NO_RECORD for phases without a VALID slot. -/
def Dev.wakeRestore (d : Dev) (bad : List Nat) : Dev :=
  let good := ((d.cal.store.zipIdx).filter (fun x => !bad.contains x.2)).map (·.1)
  let newest := fun (k u : Nat) => (good.reverse).find? (fun r => r.kind == k && r.unit == u)
  let near := fun (d : Dev) (t now : Nat) => decide ((sext 16 t - sext 16 now).natAbs ≤ d.rd Reg.CAL_DTEMP)
  -- ADC_CORE: a core without a record that is valid now is calibrated
  let d := (List.range 68).foldl (fun (d : Dev) k =>
    let t := d.rd (Reg.CAL_TQ (k / 17)) % 65536
    match (newest 1 k).filter (fun r => near d r.temp t) with
    | some r => (d.put (Reg.CAL_CORE k) (r.temp % 65536 * 65536 + 1)).setHead 1 k r.head
    | none => (d.put (Reg.CAL_CORE k) (t * 65536 + 1)).setHead 1 k ⟨0, t, d.ns⟩) d
  -- BEZEL_LANE: any other lane has just been trained
  let d := [Dir.f2h, .h2f].foldl (fun (d : Dev) r => (List.range (lanesOf r)).foldl (fun (d : Dev) n =>
    match (newest 3 (laneUnit r n)).filter (fun x => near d x.temp (d.laneTemp r)) with
    | some x => (d.put (laneWord r n) (x.temp % 65536 * 65536)).setHead 3 (laneUnit r n) x.head
    | none => d) d) d
  -- AFE_OFFSET
  let d := (List.range 4).foldl (fun (d : Dev) q =>
    match (newest 2 q).filter (fun r => d.afeSame q r.body) with
    | some r => (d.putAll (afeVals q r.body)).setHead 2 q r.head
    | none => ((List.range' (96 * q) 96).foldl (fun (d : Dev) t =>
        ((d.put (Reg.CAL_TRIM t) 0).put (Reg.CAL_BREF01 t) 0xFFFFFFFF).put (Reg.CAL_BREF2 t) 0xFFFF) d).dropHead 2 q) d
  let es := ((List.range 4).map (fun q => (d.headOf 2 q).epoch.toNat)).filter (· != 0)
  let d := if es.isEmpty then d else d.put Reg.CAL_EPOCH_NOW (maxN es)
  -- SHADING
  let d := (List.range 8).foldl (fun (d : Dev) m =>
    match (good.reverse).find? (fun r => r.kind == 5 && r.unit % 8 == m) with
    | some r => d.loadSlot m r
    | none => { d with cal := { d.cal with valid := clrBit d.cal.valid m } }) d
  -- VREF_TRACE and LAMP_REC
  let d := match newest 7 0 with
    | some r => (d.put Reg.CAL_BG_UV (r.body.headD 0)).setHead 7 0 r.head
    | none => d.put Reg.CAL_BG_UV 0
  let d := (List.range 16).foldl (fun (d : Dev) n =>
    match newest 8 n with
    | some r => d.putLampRec n r.body
    | none => (List.range 14).foldl (fun d g => d.put (Reg.LMP_C_ROT n g) 0) d) d
  let d := { d with cal := { d.cal with
    held := d.cal.held.filter (fun c => c.kind == 0), due := d.cal.due.filter (fun c => c.kind == 0) } }
  (List.range (nphOf d.regs.act)).foldl (fun d p =>
    if bit d.cal.valid (d.slotOf p) then d.recalEnd 5 (d.shadeUnit p) 7 else d.recal 5 (d.shadeUnit p) 7) d

/-! Poisoned slots and banks (R391). -/

/-- The IN_USE slots and banks that hold a poisoned word: slot m, or bank b of head n as 2 n + 8 + b. -/
def Dev.poisonUsed (d : Dev) : List Nat :=
  (d.flt.poison.map (·.1)).eraseDups.filter (fun (x : Nat) => if x < 8 then d.slotUsed x else d.bankUsed ((x - 8) / 2) (x % 2))

/-- Poisoned IN_USE slots are reloaded from the calibration store records of their CAL_EPOCH; without such a record the
device goes to SAFE, cause MAP (R391). -/
def Dev.reloadMaps (d : Dev) : Dev :=
  d.poisonUsed.foldl (fun (d : Dev) x =>
    match (d.cal.store.reverse).find? (fun (r : CalRec) => r.kind == 5 && r.unit % 8 == x && r.epoch.toNat == d.tag x 4 4) with
    | some r =>
      let sel := d.cal.sel
      let d := d.loadSlot x r
      -- R307: the same set stays selected
      let d := { d with cal := { d.cal with sel := sel } }
      if d.poisonUsed.isEmpty then d.clrFault whyMap else d
    | none => d.enterSafe scMap { cls := 0xC, code := 2, field := true, a := winSlot x, b := d.tag x 4 4 }) d
where
  /-- The address of a slot or bank in the DMA address space. -/
  winSlot (x : Nat) : Nat :=
    0x2000000000 + (if x < 8 then 0x100000 * x else 0x800000 + 0x80000 * (x % 2) + 0x4000 * ((x - 8) / 2))

end Sys2Proof.Machine
end

