-- ==== Sys2Proof/Machine/Afe.lean ====
section
/-! DEFINITION. Pixel converters and MON converters (R127 to R142, R310): core checks, takeovers, rotation, core
calibrations, the black-level monitor, the pixel reference, the open-wire check, and the MON sequences. -/

namespace Sys2Proof.Machine

open Sys2Proof

/-! Cores (R127 to R132, R310). -/

/-- A quadrant of the pixel converters. -/
def Dev.quad (d : Dev) (q : Nat) : Quad := nth d.afe.quads q
/-- Change a quadrant. -/
def Dev.modQuad (d : Dev) (q : Nat) (f : Quad → Quad) : Dev :=
  { d with afe := { d.afe with quads := modNth d.afe.quads q f } }

/-- A core takes over a channel (R128): the core it replaces, and the device with the new map. -/
def Dev.takeover (d : Dev) (ch core : Nat) : Nat × Dev :=
  (nth d.afe.core ch, { d with afe := { d.afe with core := d.afe.core.set ch core } }.bump Reg.AFE_TAKEOVER_CNT)

/-- A core fault that nothing can mask (R132). -/
def Dev.noSpare (d : Dev) (q : Nat) : Dev :=
  match (d.quad q).failCh.head? with
  | some ch => d.enterSafe scNoSpare { cls := 5, code := 3, unit := ch, field := true, a := nth d.afe.core ch }
  | none => d

/-- A quadrant has a core that takes over, or one still being calibrated or proved. -/
def Quad.canMask (x : Quad) : Bool := x.ready.isSome || !x.cal.isEmpty || !x.probation.isEmpty

/-- The channel whose core is to be replaced (R130, R131): a takeover follows, or SAFE. -/
def Dev.failChannel (d : Dev) (ch : Nat) : Dev :=
  let d := d.modQuad (ch / 16) fun x => { x with failCh := x.failCh.filter (· != ch) ++ [ch] }
  if (d.quad (ch / 16)).canMask then d else d.noSpare (ch / 16)

/-- ADC_CHECK_FAIL (R130): a conversion of a channel fails its residue or parity check. -/
def execAdcCheckFail (ch : Nat) (s : State) : Host.Outcome State Fault Refusal := s.onDev fun d =>
  if 64 ≤ ch || !d.fieldRuns then d else
  let d := ((d.bump Reg.AFE_CHK_FAIL_CNT).withhold (fun x => x.px.isNone)).setFault whyCore
  let d := d.log { cls := 5, code := 1, unit := ch, action := d.faultAction, field := true, a := nth d.afe.core ch }
    d.mode d.leadsTo
  d.failChannel ch

/-- Whether a core enters service with its previous calibration (R130): taken at the present clock, and within CAL_DTEMP
of the present temperature. -/
def Dev.calHolds (d : Dev) (core : Nat) : Bool := d.coreValid core

/-- The core that can take over in a quadrant now (R130). -/
def Dev.standIn (d : Dev) (q : Nat) : Option Nat :=
  match (d.quad q).ready with
  | some r => some r
  | none => (d.quad q).cal.find? (fun k => d.calHolds k && !(d.quad q).probation.contains k)

/-- ADC_FAULT_TAKEOVER (R130): the ready core, or the free core with its previous calibration, takes over the channel that
has waited longest; FAULT clears with the last takeover. The failed core is recalibrated, and proved for 1 s. -/
def execAdcFaultTakeover (q : Nat) (s : State) : Host.Outcome State Fault Refusal := s.onDev fun d =>
  match (d.quad q).failCh.head?, d.standIn q with
  | some ch, some core =>
    let (old, d) := d.takeover ch core
    let d := d.modQuad q fun x => { x with
      ready := none, failCh := x.failCh.drop 1, cal := x.cal.filter (· != core) ++ [old], probation := x.probation ++ [old] }
    if d.afe.quads.any (fun (x : Quad) => !x.failCh.isEmpty) then d else (d.clrFault whyCore).clrFault whyBlack
  | _, _ => d

/-- ADC_ROTATION_STEP (R127): the ready core takes over the channel in turn, and the core it frees is calibrated. -/
def execAdcRotationStep (q : Nat) (s : State) : Host.Outcome State Fault Refusal := s.onDev fun d =>
  match (d.quad q).ready with
  | some core =>
    if d.rf Reg.AFE_ROT_CTRL 0 0 = 0 ∨ !d.bzl.fieldLock ∨ !d.fieldRuns ∨ 4 ≤ q ∨ !(d.quad q).failCh.isEmpty then d else
    let (old, d) := d.takeover (16 * q + (d.quad q).turn) core
    d.modQuad q fun x => { x with ready := none, cal := x.cal ++ [old], turn := (x.turn + 1) % 16 }
  | none => d

/-- A core is retired (R130). -/
def Dev.retire (d : Dev) (core : Nat) : Dev :=
  let q := core / 17
  let ch := match d.afe.core.findIdx? (· == core) with | some c => c | none => 16 * q
  let d := d.modQuad q fun x => { x with
    ready := if x.ready = some core then none else x.ready
    cal := x.cal.filter (· != core), probation := x.probation.filter (· != core)
    retired := x.retired.filter (· != core) ++ [core] }
  let d := (d.bump Reg.AFE_CORE_FAULT_CNT).logHere { cls := 5, code := 2, unit := ch, action := 1, field := true, a := core }
  if !(d.quad q).failCh.isEmpty && !(d.quad q).canMask then d.noSpare q else d

/-- A commanded run of ADC_CORE has one core less to calibrate; it ends with the last (R318). -/
def Dev.coreOfRun (d : Dev) (core : Nat) : Dev :=
  match d.cal.run with
  | some r =>
    if r.kind = 1 && r.left.contains core then
      let left := r.left.filter (· != core)
      let d := { d with cal := { d.cal with run := some { r with left := left } } }
      if left.isEmpty then d.runDone 0 else d
    else d
  | none => d

/-- What a completed core calibration records (R133, R310): the temperature, VALID, and the ratio of VREFX to the
bandgap. -/
def Dev.coreCalibrated (d : Dev) (core : Nat) : Dev :=
  let t := d.rd (Reg.CAL_TQ (core / 17))
  let d := ((d.put (Reg.CAL_CORE core) (t * 65536 + 1)).setHead 1 core ⟨0, t, d.ns⟩).recalEnd 1 core 5
  let (v, d) := d.free 10
  d.put Reg.CAL_BG_RATIO (v.toNat % 2 ^ 32)

/-- ADC_CORE_CAL_DONE (R130, R310, R318): a core calibration completes. A core that had failed a check goes on to its
1 s of conversions; any other becomes the ready core. A core that a commanded run takes out of its channel leaves it
through a takeover; in a quadrant without a ready core it cannot, and stays as it is (DESIGN CHOICE, log 179). A retired
core that FAULT_CLEAR has calibrated again (R401) becomes the ready core of a quadrant without one, or stays retired. -/
def execAdcCoreCalDone (core : Nat) (pass : Bool) (s : State) : Host.Outcome State Fault Refusal := s.onDev fun d =>
  let q := core / 17
  if 68 ≤ core then d
  else if (d.quad q).cal.contains core && (d.quad q).retired.contains core then
    let d := (if pass then d.coreCalibrated core else d).modQuad q fun x => { x with cal := x.cal.filter (· != core) }
    if pass && (d.quad q).ready.isNone then
      d.modQuad q fun x => { x with ready := some core, retired := x.retired.filter (· != core) }
    else d
  else if (d.quad q).cal.contains core then
    if !pass then (d.retire core).coreOfRun core
    else
      let d := d.coreCalibrated core
      (d.modQuad q fun x => { x with
        cal := x.cal.filter (· != core)
        ready := if x.probation.contains core then x.ready else some core }).coreOfRun core
  else
    match d.afe.core.findIdx? (· == core), d.cal.run with
    | some ch, some r =>
      if r.kind ≠ 1 ∨ !r.left.contains core then d else
      match (d.quad q).ready with
      | some k =>
        let d := (d.takeover ch k).2
        let d := d.modQuad q fun x => { x with ready := none }
        if !pass then (d.retire core).coreOfRun core
        else ((d.coreCalibrated core).modQuad q fun x => { x with ready := some core }).coreOfRun core
      | none => d.coreOfRun core
    | _, _ => d

/-- ADC_CORE_PROBATION_END (R130): 1 s of conversions without a check failure, or not. -/
def execAdcCoreProbationEnd (core : Nat) (clean : Bool) (s : State) : Host.Outcome State Fault Refusal := s.onDev fun d =>
  let q := core / 17
  if 68 ≤ core || !(d.quad q).probation.contains core || (d.quad q).cal.contains core then d
  else if clean then d.modQuad q fun x => { x with ready := some core, probation := x.probation.filter (· != core) }
  else d.retire core

/-- CORE_CAL_INVALID (R310): a core's calibration has lost validity, which CAL_COREk shows by itself; with rotation off, a
core in service keeps converting and is reported. -/
def execCoreCalInvalid (core : Nat) (s : State) : Host.Outcome State Fault Refusal := s.onDev fun d =>
  if 68 ≤ core || d.coreValid core then d else
  if d.rf Reg.AFE_ROT_CTRL 0 0 = 0 ∧ d.afe.core.contains core then d.recal 1 core 5 else d

/-! The black-level monitor (R131). -/

/-- The STROKE_NO that the stroke under readout has, or will have if it and those before it are framed. -/
def Dev.readoutNo (d : Dev) : Nat :=
  d.seq.strokeNo + (d.seq.flight.takeWhile (fun (x : Stroke) => x.px.isSome)).length + 1

/-- The step of R131 reached for a tap is set, or with 0 the fault is over. -/
def Dev.blackStep (d : Dev) (t n : Nat) : Dev :=
  let d := d.putF (Reg.AFE_T_STAT t) 1 1 (b2n (n != 0))
  { d with afe := { d.afe with
    blk := adel d.afe.blk t
    blkStep := if n = 0 then adel d.afe.blkStep t else aset d.afe.blkStep t n } }

/-- A black-level fault is declared, or persists (R131): the core is replaced, the AFE restarted, or SAFE entered. -/
def Dev.blackFault (d : Dev) (t no : Nat) : Dev :=
  let r : FaultRec := { cls := 6, code := 1, unit := t, field := true, a := no }
  let d := d.withhold (fun x => x.px.isNone)
  match aget d.afe.blkStep t with
  | none =>
    let d := (d.blackStep t 1).setFault whyBlack
    (d.log { r with action := d.faultAction } d.mode d.leadsTo).failChannel (t / 6)
  | some 1 =>
    let d := (d.blackStep t 2).setFault whyL1
    let i := d.flt.next
    (d.log { r with action := 3 } d.mode d.leadsTo).startLevel 1 6 1 t i true
  | some _ => (d.blackStep t 3).enterSafe scBlack r

/-- Whether the tap waits for the recovery step under way: its windows are judged once it is over. -/
def Dev.blackWaits (d : Dev) (t : Nat) : Bool :=
  (d.quad (t / 96)).failCh.contains (t / 6) || d.flt.recs.any (fun (x : Recov) => x.cls == 6 && x.code == 1 && x.unit == t)

/-- CLAMP_WINDOW_END (R131): the mean of a tap's clamp window, in codes, with the gain set its samples use. -/
def execClampWindowEnd (t g mean : Nat) (s : State) : Host.Outcome State Fault Refusal := s.onDev fun d =>
  if 384 ≤ t || 3 ≤ g then d else
  let d := d.putF (Reg.AFE_T_STAT t) 29 16 mean
  if d.rf (Reg.AFE_T_CLAMP t) 15 0 < 4 ∨ d.blackWaits t then d else
  match d.bref t g with
  | none => d
  | some b =>
    if ((mean : Int) - (b : Int)).natAbs ≤ d.rd Reg.AFE_BLK_LIMIT then
      if (aget d.afe.blkStep t).isSome then d.blackStep t 0
      else { d with afe := { d.afe with blk := adel d.afe.blk t } }
    else
      match aget d.afe.blk t with
      | none => { d with afe := { d.afe with blk := aset d.afe.blk t d.readoutNo } }
      | some no => d.blackFault t no

/-! The pixel ADC reference (R133, R134). -/

/-- VREFX lies in its window. -/
def Dev.vrefxOk (d : Dev) : Bool := decide (1140000 ≤ d.bzl.vrefx ∧ d.bzl.vrefx ≤ 1260000)

/-- SEL is written, or taken at WAKE (R133): the reference is chosen anew and has to settle. -/
def Dev.selectRef (d : Dev) : Dev :=
  let use := match d.rf Reg.AFE_REF_CTRL 1 0 with
    | 0 => d.vrefxOk
    | 1 => false
    | _ => true
  let d := (d.putF Reg.AFE_REF_CTRL 9 8 (b2n use)).recalEnd 0 0 6
  { d with afe := { d.afe with scaled := false } }

/-- VREFX_LOST (R134): VREFX leaves its window while it is in use. -/
def execVrefxLost (s : State) : Host.Outcome State Fault Refusal := s.onDev fun d =>
  if d.rf Reg.AFE_REF_CTRL 8 8 = 0 ∨ !d.fieldRuns then d else
  let d := d.putF Reg.AFE_REF_CTRL 10 8 4
  let d := ({ d with afe := { d.afe with scaled := true } }.withhold (fun x => x.px.isNone)).setFault whyVref
  let d := d.log { cls := 6, code := 2, action := d.faultAction, field := true } d.mode d.leadsTo
  if d.cal.asked.contains (0, 0, 6) then d else
  -- R325 states no KIND and UNIT for this request: a free value
  let (v, d) := d.free 11
  let d := { d with cal := { d.cal with asked := (0, 0, 6) :: d.cal.asked } }
  (d.bump Reg.CAL_RECAL_REQ_CNT).evAll 0x11 (be 4 (v.toNat % 2 ^ 32) ++ be 4 6)

/-- PIXEL_REF_SETTLED (R133, R134). -/
def execPixelRefSettled (s : State) : Host.Outcome State Fault Refusal := s.onDev fun d =>
  if !d.fieldRuns then d else
  let d := d.putF Reg.AFE_REF_CTRL 9 9 1
  if bit d.flt.why whyVref then d.clrFault whyVref else d

/-! The tap open-wire check (R135). -/

/-- AFE_OW_CTRL.START written as 1. -/
def Dev.owStart (d : Dev) : Dev :=
  { d.putF Reg.AFE_OW_CTRL 1 1 1 with seq := { d.seq with pend := [] } }

/-- AFE_OW_DONE (R135): per tap, the means of its three phases: pulls off, pull up, pull down. -/
def execAfeOwDone (means : List (Nat × Nat × Nat × Nat)) (s : State) : Host.Outcome State Fault Refusal := s.onDev fun d =>
  if d.rf Reg.AFE_OW_CTRL 1 1 = 0 then d else
  let thr := d.rd Reg.AFE_OW_THR
  let far := fun (x y : Nat) => decide (thr < ((x : Int) - (y : Int)).natAbs)
  let isOpen := fun (t : Nat) => d.rf (Reg.AFE_T_CFG t) 1 0 != 0 &&
    means.any (fun m => m.1 == t && (far m.2.2.1 m.2.1 || far m.2.2.2 m.2.1))
  let d0 := d
  let d := (List.range 12).foldl (fun (d : Dev) m =>
    d.put (Reg.AFE_OW_RESULT m) (sumN ((List.range 32).map (fun b => b2n (isOpen (32 * m + b)) * 2 ^ b)))) d
  let d := (List.range 384).foldl (fun (d : Dev) t =>
    if d0.rf (Reg.AFE_T_CFG t) 1 0 = 0 ∧ d0.rf (Reg.AFE_T_STAT t) 2 2 = 0 then d
    else d.putF (Reg.AFE_T_STAT t) 2 2 (b2n (isOpen t))) d
  d.putF Reg.AFE_OW_CTRL 1 1 0

/-! MON (R136 to R142). `b` names the converter: false MON_A, true MON_B. -/

/-- A MON converter. -/
def Dev.mon (d : Dev) (b : Bool) : Mon := if b then d.monB else d.monA
/-- Change a MON converter. -/
def Dev.modMon (d : Dev) (b : Bool) (f : Mon → Mon) : Dev :=
  if b then { d with monB := f d.monB } else { d with monA := f d.monA }
/-- MON_x_CTRL. -/
def monCtrl (b : Bool) : Nat := if b then Reg.MON_B_CTRL else Reg.MON_A_CTRL
/-- MON_x_REF. -/
def monRefReg (b : Bool) : Nat := if b then Reg.MON_B_REF else Reg.MON_A_REF
/-- MON_x_SEQe. -/
def monSeq (b : Bool) (e : Nat) : Nat := if b then Reg.MON_B_SEQ e else Reg.MON_A_SEQ e

/-- MON_x_REF.REF_SETTLED. -/
def Dev.monSettled (d : Dev) (b : Bool) : Nat := d.rf (monRefReg b) 8 8

/-- The low bits of a result (R138): OVR of the sample, whether the reference was settled when the conversion started, and
the reference. -/
def Dev.monTag (d : Dev) (b : Bool) (sample settled : Nat) : Nat :=
  8 * b2n (sample == 0 || sample == 0x3FFF) + 4 * settled + (d.mon b).ref % 4

/-- MON_PASS_START (R137). -/
def execMonPassStart (b : Bool) (s : State) : Host.Outcome State Fault Refusal := s.onDev fun d =>
  if !d.fieldRuns || d.rf (monCtrl b) 6 0 == 0 || (d.mon b).entry.isSome then d
  else d.modMon b fun m => { m with entry := some 0, set0 := d.monSettled b == 1 }

/-- The reference chosen since comes into use, and has to settle (R140). -/
def Dev.monRefTake (d : Dev) (b : Bool) : Dev :=
  let sel := d.rf (monRefReg b) 1 0
  if sel = (d.mon b).ref then d
  else (d.modMon b fun m => { m with ref := sel }).putF (monRefReg b) 8 8 0

/-- The result of an entry after a conversion (R138, R142). -/
def Dev.monNew (d : Dev) (b : Bool) (e sample second : Nat) : Nat :=
  let r := d.monResult b e
  let sum := (r / 2 ^ 24 + sample) % 2 ^ 24
  let cnt := (r / 2 ^ 6 + 1) % 16
  let opened := bit (d.rd (monSeq b e)) 21 &&
    decide (d.rd Reg.MON_OW_THR < ((sample : Int) - (second : Int)).natAbs)
  sum * 2 ^ 24 + sample * 2 ^ 10 + cnt * 2 ^ 6 + 32 + 16 * b2n opened + d.monTag b sample (b2n (d.mon b).set0)

/-- MON_CONVERSION_DONE (R137, R138, R142): the entry's result; then the next entry, the end of the pass, or after a
committed change a new pass from entry 0. -/
def execMonConversionDone (b : Bool) (sample second : BitVec 14) (s : State) : Host.Outcome State Fault Refusal :=
  s.onDev fun d =>
  match (d.mon b).entry with
  | none => d
  | some e =>
    if !d.fieldRuns then d else
    let v := d.monNew b e sample.toNat second.toNat
    let d := d.modMon b fun m => { m with res := aset m.res e v }
    let len := d.rf (monCtrl b) 6 0
    let d := match (d.mon b).changed with
      | some l => d.modMon b fun m => { m with
          res := l.foldl adel m.res, changed := none, entry := if len = 0 then none else some 0 }
      | none =>
        if e + 1 < len then d.modMon b fun m => { m with entry := some (e + 1) }
        else (d.modMon b fun m => { m with entry := none }).bump (if b then Reg.MON_PASS_CNT_B else Reg.MON_PASS_CNT_A)
    let d := d.monRefTake b
    d.modMon b fun m => { m with set0 := d.monSettled b == 1 }

/-- MON_x_REF.SEL has been written (R140): it takes effect at the end of the running conversion. -/
def Dev.monRefWritten (d : Dev) (b : Bool) : Dev := if (d.mon b).entry.isSome then d else d.monRefTake b

/-- MON_REF_SETTLED (R140): the reference in use has settled; a SEL written meanwhile takes effect later. -/
def execMonRefSettled (b : Bool) (s : State) : Host.Outcome State Fault Refusal := s.onDev fun d =>
  if !d.fieldRuns then d else d.putF (monRefReg b) 8 8 1

/-- MON_CONVERT (R141): one urgent conversion, whose sample the command carries, or BUSY. -/
def execMonConvert (h : Req) (input : Nat) (sample : BitVec 14) (s : State) : Host.Outcome State Fault Refusal :=
  s.onDev fun d => d.serve h 0x70 fun d =>
  if d.mode == .standby then no stBadState d
  else if 96 ≤ input then no stBadParam d
  else
    let b := decide (48 ≤ input)
    if (d.mon b).entry.isSome then (stBusy, [], d.bump Reg.MON_DROP_CNT)
    else
      let v := sample.toNat * 2 ^ 10 + 32 + d.monTag b sample.toNat (d.monSettled b)
      (stOk, be 2 0 ++ be 6 v, d.bump Reg.MON_URGENT_CNT)

end Sys2Proof.Machine
end

