-- ==== Sys2Proof/Machine/Dma.lean ====
section
/-! DEFINITION. The host memory and the DMA engine (R333 to R358): the address space, channels, descriptors, the field
SRAM window, pacing, write-back, FENCE, and CMD frames at the field side (R18). -/

namespace Sys2Proof.Machine

open Sys2Proof

/-! The address space (R333). -/

/-- The first address of the shared region. -/
abbrev shrBase : Nat := 0xC0000000
/-- The size of the shared region, MiB. -/
def Dev.shrMib (d : Dev) : Nat := 3072 + 51200 - d.rd Reg.PAGE_BUF_SIZE
/-- The first address of the field SRAM window. -/
abbrev winBase : Nat := 0x2000000000
/-- The size of the field SRAM window. -/
abbrev winSize : Nat := 12 * 1048576

/-- Bytes `a` to `b` lie in the shared region. -/
def Dev.inShared (d : Dev) (a b : Int) : Bool :=
  decide ((shrBase : Int) ≤ a ∧ b < (shrBase : Int) + (d.shrMib * 1048576 : Nat))
/-- An address lies in the field SRAM window. -/
def inWindow (a : Int) : Bool := decide ((winBase : Int) ≤ a ∧ a < (winBase + winSize : Nat))
/-- Bytes `a` to `b` lie in the map slots and defect banks of the window (R344). -/
def inField (a b : Int) : Bool := decide ((winBase : Int) ≤ a ∧ b < (winBase + 0x900000 : Nat))

/-- A byte as DMA sees it. -/
def State.dmaRead (s : State) (a : Nat) : Byte := if winBase ≤ a then mget s.d.fsram (a - winBase) else mget s.mem a

/-! The field SRAM (R160, R161). -/

/-- The `n` bytes from `o` and the `len` bytes from `a` have one in common. -/
def touches (o n a len : Nat) : Bool := decide (o < a + len ∧ a < o + n)

/-- The map slots that a write of `n` bytes touches: 983,104 bytes at each MiB. -/
def mapSlots (o n : Nat) : List Nat := (List.range 8).filter (fun m => touches o n (0x100000 * m) 983104)

/-- The defect banks that a write touches: head and bank. -/
def banksOf (o n : Nat) : List (Nat × Nat) :=
  (List.range 2).flatMap (fun b => ((List.range 32).filter (fun h =>
    touches o n (0x800000 + 0x80000 * b + 0x4000 * h) 0x4000)).map (fun h => (h, b)))

/-- A write touches a slot or a bank that is IN_USE. -/
def Dev.fieldInUse (d : Dev) (o n : Nat) : Bool :=
  (mapSlots o n).any d.slotUsed || (banksOf o n).any (fun x => d.bankUsed x.1 x.2)

/-- The effect of a write on the slots it touches: VALID and CRC_FAIL go, and tag bytes 60 to 63 call for the check of
SET_CRC (R161). A slot written by host DMA has no monitor record (R317). -/
def Dev.slotWritten (d : Dev) (o n : Nat) : Dev :=
  (mapSlots o n).foldl (fun d m => { (d.dropHead 5 m).dropHead 6 m with cal := { ((d.dropHead 5 m).dropHead 6 m).cal with
    monRec := adel d.cal.monRec m
    valid := clrBit d.cal.valid m, crcFail := clrBit d.cal.crcFail m
    chk := if touches o n (0x100000 * m + 0xF003C) 4 then setBit d.cal.chk m else d.cal.chk } }) d

/-- A write frame at the field side (R161, R344): refused where it lands on an IN_USE slot or bank. -/
def Dev.sramWrite (d : Dev) (o : Nat) (data : List Byte) : Dev × Bool :=
  if d.fieldInUse o data.length then (d.bump Reg.PIX_MAP_REFUSE_CNT, false)
  else ({ d with
    fsram := mwrite d.fsram o data
    -- R391: words wholly written again are no longer poisoned
    flt := { d.flt with poison := d.flt.poison.filter (fun x => !decide (o ≤ x.2 ∧ x.2 + 8 ≤ o + data.length)) } }.slotWritten
      o data.length, true)

/-- The mode of a code (R37). -/
def modeOf (n : Nat) : Option Mode :=
  [Mode.off, .reset, .standby, .wake, .idle, .homing, .scan, .hold, .splice, .calibrate, .service, .safe][n]?

/-- BZL_CMD_RX (R17 to R19): a CMD frame at the field side: the value of DEV_MODE, the Cox's speed limit, release or stop
point, a field SRAM write or read, or a parameter write, which the field side keeps; what the word does has been done when its
packet or COMMIT was applied (R9). A REPLY frame of its tag answers it. -/
def execBzlCmdRx (f : Frame) (c : FieldCmd) (s : State) : Host.Outcome State Fault Refusal := s.onDev fun d =>
  let (d, ok) := d.bzlRx .h2f f
  if !ok || f.typ != 4 then d else
  let reply := match c with
    | .sramRead o n => mread d.fsram o (min n 4096)
    | _ => []
  let d := d.fieldFrame (newFrame 5 f.tag reply)
  -- R344: the effect of a descriptor's window frame has come with the descriptor
  if d.bzl.applied.contains f.tag then { d with bzl := { d.bzl with applied := d.bzl.applied.filter (· != f.tag) } } else
  match c, d.feed with
  | .mode m, _ => match modeOf m with
    | some m => { d with bzl := { d.bzl with fieldMode := m } }
    | none => d
  | .coxLimit v, some g => if d.jobMode then d.modGrp g fun x => { x with paceNext := some (some v) } else d
  | .coxRelease, some g => d.modGrp g fun x => { x with paceNext := some none }
  | .coxStop p, some g => d.modGrp g fun x => match x.cur with
    | some m =>
      let a := ((m.start.find? (fun (t : Nat × Int) => some t.1 == m.lead)).map (·.2)).getD p
      { x with stopAt := some (min m.lenU ((p - a).natAbs * motHz2)) }
    | none => x
  | .paramWrite a v, _ => { d with bzl := { d.bzl with fieldWords := aset d.bzl.fieldWords a v } }
  | .sramWrite o data, _ => if o + data.length ≤ 0x900000 ∧ data ≠ [] then (d.sramWrite o data).1 else d
  | _, _ => d

/-! Descriptors (R337, R339). -/

/-- CTRL of a descriptor image. -/
def dCtrl (i : List Byte) : Nat := getBe i 0 4
/-- OP. -/
def dOp (i : List Byte) : Nat := dCtrl i / 2 ^ 24 % 16
/-- SRC. -/
def dSrc (i : List Byte) : Nat := getBe i 8 8
/-- DST. -/
def dDst (i : List Byte) : Nat := getBe i 16 8
/-- LINE_LEN. -/
def dLen (i : List Byte) : Nat := getBe i 24 4
/-- LINE_CNT. -/
def dCnt (i : List Byte) : Nat := getBe i 28 4
/-- SRC_STRIDE, 0 for one line. -/
def dSrcStep (i : List Byte) : Int := if dCnt i = 1 then 0 else sext 32 (getBe i 32 4)
/-- DST_STRIDE, 0 for one line. -/
def dDstStep (i : List Byte) : Int := if dCnt i = 1 then 0 else sext 32 (getBe i 36 4)
/-- NEXT. -/
def dNext (i : List Byte) : Nat := getBe i 40 8
/-- Bytes of the lines together. -/
def dTotal (i : List Byte) : Nat := dLen i * dCnt i

/-- The span of a side (R343): its lowest and highest byte. -/
def span (a : Nat) (step : Int) (len cnt : Nat) : Int × Int :=
  let z := (a : Int) + ((cnt : Int) - 1) * step
  (min (a : Int) z, max (a : Int) z + (len : Int) - 1)

/-- The source span of a descriptor. -/
def dSrcSpan (i : List Byte) : Int × Int := span (dSrc i) (dSrcStep i) (dLen i) (dCnt i)
/-- The destination span of a descriptor. -/
def dDstSpan (i : List Byte) : Int × Int := span (dDst i) (dDstStep i) (dLen i) (dCnt i)

/-- The operation reads a source: COPY or COMPARE. -/
def dReads (i : List Byte) : Bool := dOp i == 0 || dOp i == 2
/-- The operation writes: COPY or FILL. -/
def dWrites (i : List Byte) : Bool := dOp i == 0 || dOp i == 1

/-- The field side cannot be reached (row 2 of R339). -/
def Dev.winDown (d : Dev) : Bool := !d.fieldRuns || !d.bzl.f2h.up || !d.bzl.h2f.up

/-- A side of a descriptor lies in a Host region as R339 row 4 and R344 want it. -/
def Dev.sideOk (d : Dev) (a : Nat) (step : Int) (len cnt : Nat) : Bool :=
  let (lo, hi) := span a step len cnt
  d.inShared lo hi || (inField lo hi && a % 4 == 0 && len % 4 == 0 && step % 4 == 0)

/-- The checks of R339 in order: OK, or the status of the first that fails. -/
def Dev.descCheck (d : Dev) (i : List Byte) : Nat :=
  let c := dCtrl i
  if c / 2 ^ 28 % 4 ≠ 0 ∨ c % 2 ^ 21 ≠ 0 ∨ getBe i 6 2 ≠ 0 ∨ 3 < dOp i ∨ bit c 30 ∨ 2 ^ 40 < dTotal i then stBadParam
  else if dOp i = 3 then stOk
  else if d.winDown ∧ (inWindow (dDst i) ∨ dReads i ∧ inWindow (dSrc i)) then stBadState
  else if dTotal i = 0 then stZero
  else if !d.sideOk (dDst i) (dDstStep i) (dLen i) (dCnt i) then stBadAddress
  else if dReads i && !d.sideOk (dSrc i) (dSrcStep i) (dLen i) (dCnt i) then stBadAddress
  -- R344: with the window on one side, the stride of the other one too is a multiple of 4
  else if dReads i && (inWindow (dDst i) || inWindow (dSrc i)) && (dSrcStep i % 4 != 0 || dDstStep i % 4 != 0) then
    stBadAddress
  else if dNext i ≠ 0 ∧ !(dNext i % 64 == 0 && d.inShared (dNext i) (dNext i + 63)) then stBadAddress
  else if dOp i = 0 ∧ 2 ≤ dCnt i ∧ (dSrcSpan i).1 ≤ (dDstSpan i).2 ∧ (dDstSpan i).1 ≤ (dSrcSpan i).2 then stOverlap
  else stOk

/-! Channels (R336, R338, R345). -/

/-- A channel. -/
def Dev.chan (d : Dev) (n : Nat) : Chan := nth d.dma.ch n
/-- Change a channel. -/
def Dev.modChan (d : Dev) (n : Nat) (f : Chan → Chan) : Dev := { d with dma := { d.dma with ch := modNth d.dma.ch n f } }
/-- Chain heads held, counting the chain running. -/
def Chan.held (c : Chan) : Nat := c.q.length + b2n c.busy

/-- DMA_ENQUEUE (R336). -/
def execDmaEnqueue (h : Req) (ch addr : Nat) (s : State) : Host.Outcome State Fault Refusal :=
  s.onDev fun d => d.serve h 0x80 fun d =>
  if addr % 64 ≠ 0 ∨ !d.inShared addr addr then no stBadAddress d
  else if 16 ≤ ch then no stBadParam d
  else if 16 ≤ (d.chan ch).held then no stQueueFull d
  else
    let d := d.modChan ch fun c => { c with q := c.q ++ [addr] }
    (stOk, be 4 (d.chan ch).held, d)

/-- A pacing request for a channel (R345): it starts a waiting descriptor, or is counted. -/
def Dev.request1 (d : Dev) (n : Nat) : Dev :=
  let c := d.chan n
  if c.st = .waitReq then d.modChan n fun c => { c with st := .run }
  else if 255 ≤ c.reqs then d.bump Reg.DMA_PACE_OVF_CNT
  else d.modChan n fun c => { c with reqs := c.reqs + 1 }

/-- Requests of a source: 2 stroke, 3 page, or 4 a write-back on channel `from_`. -/
def Dev.dmaRequests (d : Dev) (src from_ : Nat) : Dev :=
  (List.range 16).foldl (fun d n =>
    let w := d.rd (Reg.DMA_CH_CTRL n)
    if w / 2 ^ 8 % 8 = src ∧ (src ≠ 4 ∨ w / 2 ^ 16 % 16 = from_) then d.request1 n else d) d

/-- DMA_PACE_TIMER (R345). -/
def execDmaPaceTimer (ch : Nat) (s : State) : Host.Outcome State Fault Refusal := s.onDev fun d =>
  if ch < 16 ∧ d.rf (Reg.DMA_CH_CTRL ch) 10 8 = 1 then d.request1 ch else d

/-- A latchable ending (R350): counted, and latched where nothing is. -/
def Dev.latchErr (d : Dev) (n cls st addr : Nat) : Dev :=
  let a := Reg.DMA_CH_ERR_INFO n
  let d := d.bump Reg.DMA_ERR_CNT
  if bit (d.rd a) 23 then d.putF a 22 22 1
  else (d.put a (cls * 2 ^ 24 + 2 ^ 23 + st)).modChan n fun c => { c with errAddr := addr }

/-- A chain ends: the channel takes the next queued one, or with STOP_ON_ERR halts on a latched error (R350). -/
def Dev.chainEnd (d : Dev) (n : Nat) (err : Bool) : Dev :=
  let stop := err && d.rf (Reg.DMA_CH_CTRL n) 2 2 == 1
  d.modChan n fun c => { c with st := if stop then .halted else .idle, busy := false, next := none, early := none }

/-- How a descriptor ends: its status, error class, latched address, bytes of its data that count, and MISCMP. -/
structure DEnd where
  st   : Nat
  cls  : Nat
  addr : Nat
  n    : Nat
  crc  : Word
  mis  : Bool
  deriving DecidableEq

/-- Words wholly overwritten are no longer poisoned. -/
def Dev.cleanPoison (d : Dev) (a n : Nat) : Dev :=
  { d with dma := { d.dma with poison := d.dma.poison.filter (fun (w : Nat) => !decide (a ≤ w ∧ w + 8 ≤ a + n)) } }

/-- The write-back of the descriptor under way (R347), with its counts and its error latch. -/
def State.writeBack (s : State) (n : Nat) (e : DEnd) : State :=
  let c := s.d.chan n
  let ctrl := dCtrl c.img % 2 ^ 30 + b2n e.mis * 2 ^ 30
  let m := mwrite (mwrite (mwrite s.mem (c.desc + 4) (be 2 e.st)) (c.desc + 48) (be 8 e.n ++ beW e.crc)) c.desc (be 4 ctrl)
  let w := s.d.dma.wrote + (if dWrites c.img then e.n else 0)
  -- the descriptor's own bytes and those of its data have been read and written
  let d := (s.d.bump Reg.DMA_DESC_CNT).dramUse (16 + 2 * dCnt c.img * (dLen c.img / 8 + 2))
  let d := d.cleanPoison (c.desc + 48) 12
  let d := { d with dma := { d.dma with wrote := w % 1048576 } }.bumpBy Reg.DMA_MIB_CNT (w / 1048576)
  let d := (d.bumpIf (e.st == stZero) Reg.DMA_ZERO_CNT).bumpIf (e.st == stOverlap) Reg.DMA_OVERLAP_CNT
  let stat := Reg.DMA_CH_STAT n
  let d := if e.st = stZero then d.put stat (setBit (d.rd stat) 0) else d
  let d := if e.mis then d.put stat (setBit (d.rd stat) 1) else d
  let d := if e.st = stOk ∨ e.st = stZero then d else d.latchErr n e.cls e.st e.addr
  { s with mem := m, d := d }

/-- The data writes of the descriptor under way are issued and have not arrived (R348). -/
def Chan.fly (c : Chan) : Chan := { c with flying := true, flyWin := c.flyWin || inWindow (dDst c.img) }

/-- After a write-back: the chain goes on, or ends; channels paced by this one get a request (R339, R341, R345). -/
def Dev.afterWriteBack (d : Dev) (n : Nat) (e : DEnd) : Dev :=
  let c := d.chan n
  let d := if dOp c.img ≠ 3 && decide (0 < e.n) && dWrites c.img && !bit (dCtrl c.img) 22 then
    d.modChan n (Chan.fly) else d
  let go := (e.st == stZero || e.st == stOk && !(e.mis && bit (dCtrl c.img) 21)) && dNext c.img != 0
  let d := if go then d.modChan n fun c => { c with
      st := if d.rf (Reg.DMA_CH_CTRL n) 0 0 = 1 then .fetch else .idle, next := some (dNext c.img), early := none }
    else d.chainEnd n (e.st != stOk && e.st != stZero)
  d.dmaRequests 4 n

/-- The first poisoned byte at or after `a` among `n`, if any (R335). -/
def Dev.poisonAt (d : Dev) (a n : Nat) : Option Nat :=
  if winBase ≤ a then none
  else (d.dma.poison.filter (fun (w : Nat) => decide (a < w + 8 ∧ w < a + n))).foldl (fun (m : Option Nat) w =>
    let i := max a w - a
    match m with
    | some j => some (min i j)
    | none => some i) none

/-- DMA_CHAIN_FETCH (R336 to R339): a free, enabled channel fetches its next descriptor and checks it. -/
def execDmaChainFetch (ch : Nat) (s : State) : Host.Outcome State Fault Refusal :=
  let c := s.d.chan ch
  if 16 ≤ ch ∨ s.d.rf (Reg.DMA_CH_CTRL ch) 0 0 = 0 ∨ !s.d.served ∨ (c.st ≠ .idle ∧ c.st ≠ .fetch) then .next s else
  match (if c.busy then c.next else c.q.head?) with
  | none => .next s
  | some a =>
    let img := mread s.mem a 64
    let d := s.d.modChan ch fun c => { c with
      q := if c.busy then c.q else c.q.drop 1, busy := true, next := none, desc := a, img := img, early := none, cut := false }
    if (d.poisonAt a 64).isSome then
      .next { s with d := d.modChan ch fun c => { c with st := .writeBack, early := some stFault } }
    else if !bit (dCtrl img) 31 then
      let stat := Reg.DMA_CH_STAT ch
      .next { s with d := (d.put stat (setBit (d.rd stat) 2)).chainEnd ch false }
    else
      let st := d.descCheck img
      let d := d.modChan ch fun c =>
        if st ≠ stOk then { c with st := .writeBack, early := some st }
        else if bit (dCtrl img) 23 then
          if c.reqs = 0 then { c with st := .waitReq } else { c with st := .run, reqs := c.reqs - 1 }
        else { c with st := .run }
      .next { s with d := d }

/-! Data movement (R340 to R344). -/

/-- The bytes of a side in transfer order. -/
def State.sideBytes (s : State) (a : Nat) (step : Int) (len cnt : Nat) : List Byte :=
  (List.range cnt).flatMap (fun (l : Nat) =>
    (List.range len).map (fun (j : Nat) => s.dmaRead ((a : Int) + (l : Int) * step + (j : Int)).toNat))

/-- The offset in transfer order of the first poisoned byte of a side, with its address. -/
def Dev.sidePoison (d : Dev) (a : Nat) (step : Int) (len cnt : Nat) : Option (Nat × Nat) :=
  (List.range cnt).findSome? (fun (l : Nat) =>
    let b := ((a : Int) + (l : Int) * step).toNat
    (d.poisonAt b len).map (fun i => (l * len + i, b + i)))

/-- A one-dimensional COPY whose sides overlap (R342). -/
def dOverlap (i : List Byte) : Bool :=
  dOp i == 0 && dCnt i == 1 && decide ((dSrcSpan i).1 ≤ (dDstSpan i).2 ∧ (dDstSpan i).1 ≤ (dSrcSpan i).2)

/-- The bytes an operation writes, in ascending transfer order. -/
def State.dmaData (s : State) (i : List Byte) : List Byte :=
  if dOp i = 1 then (List.range (dCnt i)).flatMap (fun _ => (List.range (dLen i)).map (fun (j : Nat) => i.getD (8 + j % 8) 0))
  else s.sideBytes (dSrc i) (dSrcStep i) (dLen i) (dCnt i)

/-- The first `n` bytes written, in the order in which they are written, with their addresses: each line, or in the field
window pieces of at most 4,096 bytes of it (R344). A copy in descending address writes the last ones, the last first. -/
def pieces (i : List Byte) (data : List Byte) (n : Nat) : List (Nat × List Byte) :=
  let m := if inWindow (dDst i) then 4096 else max 1 n
  if dOverlap i && decide (dSrc i < dDst i) then
    ((parts m n (data.reverse.take n)).zipIdx).map (fun (p : List Byte × Nat) =>
      (dDst i + data.length - m * p.2 - p.1.length, p.1.reverse))
  else
    (List.range (dCnt i)).flatMap (fun (l : Nat) =>
      let b := (data.drop (l * dLen i)).take (min (dLen i) (n - l * dLen i))
      let a := ((dDst i : Int) + (l : Int) * dDstStep i).toNat
      if b = [] then [] else ((parts m b.length b).zipIdx).map (fun (p : List Byte × Nat) => (a + m * p.2, p.1)))

/-- Write a piece: bytes written so far, and the address of a refusal, after which nothing is written (R344). -/
def writePiece (x : State × Nat × Option Nat) (p : Nat × List Byte) : State × Nat × Option Nat :=
  let (s, n, r) := x
  if r.isSome then x
  else if winBase ≤ p.1 then
    let w := (s.d.sendWindow (.sramWrite (p.1 - winBase) p.2)).sramWrite (p.1 - winBase) p.2
    ({ s with d := w.1 }, if w.2 then n + p.2.length else n, if w.2 then none else some p.1)
  else ({ s with mem := mwrite s.mem p.1 p.2, d := s.d.cleanPoison p.1 p.2.length }, n + p.2.length, none)

/-- A COPY or FILL writes the first `n` of its bytes, and ends with a status, class and address. -/
def State.moveData (s : State) (i : List Byte) (n st cls addr : Nat) : State × DEnd :=
  let data := s.dmaData i
  let x := (pieces i data n).foldl writePiece (s, 0, none)
  let crc := fun (k : Nat) => crc32c (if dOverlap i && decide (dSrc i < dDst i) then data.drop (data.length - k) else data.take k)
  match x.2.2 with
  | some a => (x.1, ⟨stBadState, 3, a, x.2.1, crc x.2.1, false⟩)
  | none => (x.1, ⟨st, cls, addr, x.2.1, crc x.2.1, false⟩)

/-- A COMPARE over the first `n` bytes (R341): the first difference, or the whole length. One that an
error ends has written nothing (R350). -/
def State.compare (s : State) (i : List Byte) (n st cls addr : Nat) : DEnd :=
  let a := (s.sideBytes (dSrc i) (dSrcStep i) (dLen i) (dCnt i)).take n
  let b := (s.sideBytes (dDst i) (dDstStep i) (dLen i) (dCnt i)).take n
  match (a.zip b).findIdx? (fun x => x.1 != x.2) with
  | some k => ⟨stOk, 0, 0, k, crc32c (a.take (k + 1)), true⟩
  | none => ⟨st, cls, addr, if st = stOk then n else 0, crc32c a, false⟩

/-- The frames that ask the field side for the first `n` bytes of a side that lies in the window (R344). -/
def Dev.readWindow (d : Dev) (a : Nat) (step : Int) (len cnt n : Nat) : Dev :=
  if !inWindow a then d else
  (List.range cnt).foldl (fun d (l : Nat) =>
    let k := min len (n - l * len)
    let o := ((a : Int) + (l : Int) * step).toNat - winBase
    (List.range (ceilDiv k 4096)).foldl (fun d (j : Nat) => d.sendWindow (.sramRead (o + 4096 * j) (min 4096 (k - 4096 * j)))) d) d

/-- The window frames of what a descriptor reads. -/
def Dev.readFrames (d : Dev) (i : List Byte) (n : Nat) : Dev :=
  let d := if dReads i then d.readWindow (dSrc i) (dSrcStep i) (dLen i) (dCnt i) n else d
  if dOp i = 2 then d.readWindow (dDst i) (dDstStep i) (dLen i) (dCnt i) n else d

/-- The descriptor under way moves `n` bytes and ends with a status, class and address. -/
def State.runDesc (s : State) (i : List Byte) (n st cls addr : Nat) : State × DEnd :=
  if dOp i = 3 then (s, ⟨stOk, 0, 0, 0, 0, false⟩) else
  let s := { s with d := s.d.readFrames i n }
  if dOp i = 2 then (s, s.compare i n st cls addr)
  else
    let r := s.moveData i n st cls addr
    (if dOverlap i then { r.1 with d := r.1.d.bump Reg.DMA_OVL_FIX_CNT } else r.1, r.2)

/-- A descriptor uses the field window. -/
def dField (i : List Byte) : Bool := dOp i != 3 && (inWindow (dDst i) || dReads i && inWindow (dSrc i))

/-- The last poisoned byte of `n` bytes at `a`: how many bytes lie behind it, and its address. -/
def Dev.poisonEnd (d : Dev) (a n : Nat) : Option (Nat × Nat) :=
  if winBase ≤ a then none
  else (d.dma.poison.filter (fun (w : Nat) => decide (a < w + 8 ∧ w < a + n))).foldl
    (fun (m : Option (Nat × Nat)) w =>
      let x := min (w + 7) (a + n - 1)
      match m with
      | some y => if y.2 < x then some (a + n - 1 - x, x) else m
      | none => some (a + n - 1 - x, x)) none

/-- The first poisoned byte a descriptor reads: how many bytes come before it in the order of reading, and its address. A
copy in descending address reads the last byte first (R342). -/
def Dev.descPoison (d : Dev) (i : List Byte) : Option (Nat × Nat) :=
  if dOverlap i && decide (dSrc i < dDst i) then d.poisonEnd (dSrc i) (dLen i) else
  let a := if dReads i then d.sidePoison (dSrc i) (dSrcStep i) (dLen i) (dCnt i) else none
  let b := if dOp i = 2 then d.sidePoison (dDst i) (dDstStep i) (dLen i) (dCnt i) else none
  match a, b with
  | some x, some y => if y.1 < x.1 then some y else some x
  | some x, none => some x
  | none, b => b

/-- How many bytes a descriptor moves before something of its own ends it: poison, a refusal of the field side, or the
difference a COMPARE finds (R344, R350). -/
def State.stopBound (s : State) (i : List Byte) : Nat :=
  let n := match s.d.descPoison i with | some x => x.1 | none => dTotal i
  if dOp i = 2 then min n (s.compare i n stOk 0 0).n
  else
    let ok := (pieces i (s.dmaData i) n).takeWhile (fun p =>
      decide (p.1 < winBase) || !s.d.fieldInUse (p.1 - winBase) p.2.length)
    min n (sumN (ok.map (fun p => p.2.length)))

/-- A double error has been detected at an access of DRAM (R335): counted, and the word stays poisoned (R391). -/
def Dev.dblError (d : Dev) (a : Nat) : Dev :=
  let w := a / 8 * 8
  { d.bump Reg.DMA_ECC_DBL_CNT with dma := { d.dma with poison := if d.dma.poison.contains w then d.dma.poison else w :: d.dma.poison } }

/-- The end of a descriptor that never moved data: a check of R339, or a fetch that met poisoned data (R350). -/
def State.earlyEnd (s : State) (ch st : Nat) : State × DEnd :=
  let a := (s.d.chan ch).desc
  if st = stFault then
    let a := a + (s.d.poisonAt a 64).getD 0
    ({ s with d := s.d.dblError a }, ⟨st, 1, a, 0, 0, false⟩)
  else (s, ⟨st, 5, a, 0, 0, false⟩)

/-- DMA_WRITEBACK (R339 to R350): the descriptor under way ends, by its checks, after its data, or by a bus error after
`bytes` bytes. A window descriptor during which the link or the field's power was lost ends FIELD_DOWN. -/
def execDmaWriteback (ch : Nat) (e : DmaEnd) (s : State) : Host.Outcome State Fault Refusal :=
  let c := s.d.chan ch
  let done := fun (r : State × DEnd) =>
    let t := r.1.writeBack ch r.2
    Host.Outcome.next { t with d := t.d.afterWriteBack ch r.2 }
  if 16 ≤ ch then .next s else
  match c.st, c.early with
  | .writeBack, some st => done (s.earlyEnd ch st)
  | .run, _ =>
    match e with
    | .eccDouble a n => done ({ s with d := s.d.dblError a }.runDesc c.img (min n (s.stopBound c.img)) stFault 1 a)
    | .fieldDown a n =>
      if dField c.img then done (s.runDesc c.img (min n (s.stopBound c.img)) stFault 2 a) else .next s
    | .ok =>
      if (s.d.winDown || c.cut) && dField c.img then
        -- a link or power loss under way: how far the data came is a free value
        let (v, d) := s.d.free 12
        let n := v.toNat % (s.stopBound c.img + 1)
        let a := if inWindow (dDst c.img) then dDst c.img else dSrc c.img
        done ({ s with d := d }.runDesc c.img n stFault 2 (a + n))
      else match s.d.descPoison c.img with
        | some (n, a) => done ({ s with d := s.d.dblError a }.runDesc c.img n stFault 1 a)
        | none => done (s.runDesc c.img (dTotal c.img) stOk 0 0)
  | _, _ => .next s

/-- The descriptor in progress ends before its data does: how much was written is a free value, short of what would have
ended it first (R349, R351). -/
def State.cutShort (s : State) (ch st cls : Nat) : State :=
  let c := s.d.chan ch
  if c.st = .waitReq then s.writeBack ch ⟨st, cls, c.desc, 0, 0, false⟩
  else
    let (v, d) := s.d.free 13
    let r := { s with d := d }.runDesc c.img (v.toNat % (s.stopBound c.img + 1)) st cls c.desc
    let e := { r.2 with st := st, cls := cls, addr := c.desc }
    let t := r.1.writeBack ch e
    { t with d := if dWrites c.img && decide (0 < e.n) then t.d.modChan ch Chan.fly else t.d }

/-- ABORT (R349): the descriptor in progress is written back BAD_STATE, and every chain is dropped. The class of this
ending is none of R350's: a free value. -/
def State.abort (s : State) (ch : Nat) : State :=
  let c := s.d.chan ch
  let drop := fun (s : State) => { s with d := s.d.modChan ch fun c => { c with
    q := [], busy := false, next := none, early := none
    st := if c.st = .restart ∨ c.st = .halted then c.st else .idle } }
  match c.st, c.early with
  | .run, _ | .waitReq, _ =>
    let (v, d) := s.d.free 14
    let t := { s with d := d }.cutShort ch stBadState (v.toNat % 256)
    let stop := t.d.rf (Reg.DMA_CH_CTRL ch) 2 2 == 1
    let t := { t with d := (t.d.modChan ch fun c => { c with st := if stop then .halted else .idle }).dmaRequests 4 ch }
    drop t
  | .writeBack, some st =>
    let r := s.earlyEnd ch st
    let t := r.1.writeBack ch r.2
    drop { t with d := t.d.afterWriteBack ch r.2 }
  | _, _ => drop s

/-- DMA_WDOG (R351): a running descriptor made no progress; it is written back TIMEOUT, and the channel restarts. -/
def execDmaWdog (ch : Nat) (s : State) : Host.Outcome State Fault Refusal :=
  if 16 ≤ ch ∨ (s.d.chan ch).st ≠ .run then .next s
  else
    let t := s.cutShort ch stTimeout 4
    let d := (t.d.bump Reg.DMA_WDOG_CNT).startLevel 1 0 4 ch 0 false
    let d := d.modChan ch fun c => { c with st := .restart, busy := false, next := none, early := none }
    .next { t with d := d.dmaRequests 4 ch }

/-- DMA_CHANNEL_RESTART_DONE (R351, R350): the channel goes on with its queue, or halts on its latched error. -/
def Dev.chanRestarted (d : Dev) (ch : Nat) : Dev :=
  if (d.chan ch).st ≠ .restart then d else
  let stop := d.rf (Reg.DMA_CH_CTRL ch) 2 2 == 1 && bit (d.rd (Reg.DMA_CH_ERR_INFO ch)) 23
  (d.modChan ch fun c => { c with st := if stop then .halted else .idle }).recEnd 0 4 (some ch)

/-- DMA_CHANNEL_RESTART_DONE. -/
def execDmaChannelRestartDone (ch : Nat) (s : State) : Host.Outcome State Fault Refusal :=
  s.onDev fun d => if ch < 16 then d.chanRestarted ch else d

/-! Register writes (R345, R349, R350). -/

/-- A write of DMA_CHn_CTRL is in force: REQ starts with no request pending, a channel disabled before it has fetched its
next descriptor is idle, and ABORT aborts. -/
def State.ctrlWritten (s : State) (ch : Nat) (v : Word) : State :=
  let t := { s with d := s.d.modChan ch fun c => { c with
    reqs := 0, st := if !v.getLsbD 0 && c.st == .fetch then .idle else c.st } }
  if v.getLsbD 1 then t.abort ch else t

/-- VALID of DMA_CHn_ERR_INFO is cleared (R350): a HALTED channel goes on with its queue. -/
def Dev.errCleared (d : Dev) (ch : Nat) : Dev :=
  (d.putF (Reg.DMA_CH_ERR_INFO ch) 23 22 0).modChan ch fun c => { c with st := if c.st = .halted then .idle else c.st }

/-! FENCE (R348). -/

/-- The channels of a mask with data writes outstanding: issued by a descriptor written back, or by one running. -/
def Dev.outstanding (d : Dev) (mask : Nat) : List Nat :=
  (bitsOf mask 16).filter (fun n => (d.chan n).flying || (d.chan n).st == DSt.run && dWrites (d.chan n).img)

/-- FENCE (R348): answered once every data write already issued has arrived. One resent while the first still waits is a
valid request that starts no second wait: the first one's reply answers both (DESIGN CHOICE, log 150). -/
def execFence (h : Req) (mask : BitVec 16) (s : State) : Host.Outcome State Fault Refusal :=
  s.onDev fun d => d.serve h 0x81 fun d =>
  if d.dma.fences.any (fun (f : FenceW) => f.h.session == h.session && f.h.seq == h.seq) then (stLater, [], d) else
  let l := d.outstanding (if mask = 0 then 0xFFFF else mask.toNat)
  if l.isEmpty then (stOk, [], d.bump Reg.DMA_FENCE_CNT)
  else (stLater, [], { d with dma := { d.dma with fences := d.dma.fences ++ [⟨h, sumN (l.map (2 ^ ·))⟩] } })

/-- The port of a session's most recent valid request (R47). -/
def Dev.sesPort (d : Dev) (h : Req) : NetPort := match d.ses? h.session with | some x => x.port | none => h.port

/-- A FENCE waits for field window writes while the link does not work, the one case in which it can time out (R348). -/
def Dev.fenceStuck (d : Dev) (f : FenceW) : Bool :=
  d.winDown && (bitsOf f.mask 16).any (fun n =>
    (d.chan n).flyWin || (d.chan n).st == DSt.run && dWrites (d.chan n).img && inWindow (dDst (d.chan n).img))

/-- A FENCE is answered. -/
def Dev.fenceReply (d : Dev) (f : FenceW) (st : Nat) : Dev :=
  ({ d with dma := { d.dma with fences := d.dma.fences.filter (fun x => !(x == f)) } }.bump Reg.DMA_FENCE_CNT).answer
    { f.h with port := d.sesPort f.h } 0x81 st []

/-- WRITES_ARRIVED (R348): every data write that channel `ch` has issued has arrived; FENCE requests that waited only for
it are answered OK. -/
def execWritesArrived (ch : Nat) (s : State) : Host.Outcome State Fault Refusal := s.onDev fun d =>
  if 16 ≤ ch then d else
  let d := d.modChan ch fun c => { c with flying := false, flyWin := false }
  let d := { d with dma := { d.dma with fences := d.dma.fences.map (fun (f : FenceW) => { f with mask := clrBit f.mask ch }) } }
  (d.dma.fences.filter (fun (f : FenceW) => f.mask == 0)).foldl (fun (d : Dev) f => d.fenceReply f stOk) d

end Sys2Proof.Machine
end

