-- ==== Sys2Proof/Machine/JpegLs.lean ====
section
/-! DEFINITION. The lossless JPEG-LS coding of the planes (R192): NEAR 0, default preset parameters, one component or
three line-interleaved ones, restart intervals in lines. The coding steps are ISO/IEC 14495-1's, which R192 cites and does
not repeat (PRESUMED, log 85). -/

namespace Sys2Proof.Machine

open Sys2Proof

/-- A regular context: A, B, C and N. -/
structure JCtx where
  a : Nat
  b : Int
  c : Int
  n : Nat
  deriving DecidableEq, Repr, Inhabited

/-- A run interruption context: A, N and Nn. -/
structure JRun where
  a  : Nat
  n  : Nat
  nn : Nat
  deriving DecidableEq, Repr, Inhabited

/-- The coder: its contexts, the run index of the component being coded, and the bits so far, the last one first. -/
structure JEnc where
  reg  : Array JCtx
  run  : Array JRun
  idx  : Nat
  bits : List Bool
  deriving DecidableEq, Repr, Inhabited

/-- The first values of the contexts for a precision. -/
def JEnc.start (p : Nat) : JEnc :=
  let a := max 2 ((2 ^ p + 32) / 64)
  ⟨Array.replicate 365 ⟨a, 0, 0, 1⟩, Array.replicate 2 ⟨a, 1, 0⟩, 0, []⟩

/-- LIMIT. -/
def jLimit (p : Nat) : Nat := 2 * (p + max 8 p)

/-- The default thresholds T1, T2, T3 of a precision of 8 or more. -/
def jThresholds (p : Nat) : Nat × Nat × Nat :=
  let f := (min (2 ^ p - 1) 4095 + 128) / 256
  (f + 2, 4 * f + 3, 17 * f + 4)

/-- J of a run index: the run lengths grow by a factor of two. -/
def jOrder (i : Nat) : Nat :=
  if i < 16 then i / 4 else if i < 24 then 4 + (i - 16) / 2 else i - 16

/-- Append the low `n` bits of a value. -/
def JEnc.put (e : JEnc) (v : Nat) : Nat → JEnc
  | 0 => e
  | n + 1 => { e with bits := bit v n :: e.bits }.put v n

/-- A limited-length Golomb code. -/
def JEnc.golomb (e : JEnc) (p k limit m : Nat) : JEnc :=
  let q := m / 2 ^ k
  if q + p + 1 < limit then ((e.put 0 q).put 1 1).put m k
  else ((e.put 0 (limit - p - 1)).put 1 1).put (m - 1) p

/-- The least k with N · 2^k not below A. -/
def golombK (n a : Nat) : Nat := ((List.range 32).find? (fun k => decide (a ≤ n * 2 ^ k))).getD 32

/-- A local gradient's region, −4 to 4. -/
def jRegion (p : Nat) (g : Int) : Int :=
  let t := jThresholds p
  let m := if g.natAbs = 0 then 0 else if g.natAbs < t.1 then 1 else if g.natAbs < t.2.1 then 2
    else if g.natAbs < t.2.2 then 3 else 4
  if g < 0 then -m else m

/-- An error on the range of the precision, −RANGE/2 to RANGE/2 − 1. -/
def jWrap (p : Nat) (v : Int) : Int := (v + 2 ^ (p - 1)) % 2 ^ p - 2 ^ (p - 1)

/-- The median edge detecting predictor. -/
def jMed (ra rb rc : Int) : Int :=
  if max ra rb ≤ rc then min ra rb else if rc ≤ min ra rb then max ra rb else ra + rb - rc

/-- A context after an error: counts, halving at 64, and the bias step. -/
def JCtx.learn (x : JCtx) (v : Int) : JCtx :=
  let b := x.b + v
  let a := x.a + v.natAbs
  let (a, b, n) := if x.n = 64 then (a / 2, b / 2, 33) else (a, b, x.n + 1)
  if b ≤ -(n : Int) then ⟨a, max (b + n) (1 - (n : Int)), max (-128) (x.c - 1), n⟩
  else if 0 < b then ⟨a, min (b - n) 0, min 127 (x.c + 1), n⟩
  else ⟨a, b, x.c, n⟩

/-- A sample in regular mode, from its context's number and sign and its neighbours. -/
def JEnc.regular (e : JEnc) (p : Nat) (q : Int) (x ra rb rc : Int) : JEnc :=
  let s : Int := if q < 0 then -1 else 1
  let i := q.natAbs
  let y := e.reg.getD i default
  let px := max 0 (min (2 ^ p - 1) (jMed ra rb rc + s * y.c))
  let v := jWrap p (s * (x - px))
  let k := golombK y.n y.a
  let odd := k == 0 && decide (2 * y.b ≤ -(y.n : Int))
  let m := if odd then (if 0 ≤ v then 2 * v + 1 else -2 * (v + 1)) else (if 0 ≤ v then 2 * v else -2 * v - 1)
  { (e.golomb p k (jLimit p) m.toNat) with reg := e.reg.setIfInBounds i (y.learn v) }

/-- The ones of the whole run segments of a run, and what remains of it. -/
def JEnc.segments (e : JEnc) : Nat → Nat → JEnc × Nat
  | 0, r => (e, r)
  | f + 1, r =>
    let w := 2 ^ jOrder e.idx
    if w ≤ r then { (e.put 1 1) with idx := min 31 (e.idx + 1) }.segments f (r - w) else (e, r)

/-- A run that reaches the end of its line. -/
def JEnc.runEnd (e : JEnc) (r : Nat) : JEnc :=
  let x := e.segments r r
  if 0 < x.2 then x.1.put 1 1 else x.1

/-- A run of `r` samples that a sample interrupts. -/
def JEnc.interrupt (e : JEnc) (p r : Nat) (x ra rb : Int) : JEnc :=
  let y := e.segments r r
  let j := jOrder y.1.idx
  let e := (y.1.put 0 1).put y.2 j
  let t := b2n (ra == rb)
  let c := e.run.getD t default
  let v := jWrap p (if t = 1 then x - ra else if rb < ra then rb - x else x - rb)
  let k := golombK c.n (if t = 1 then c.a + c.n / 2 else c.a)
  let map := (k == 0 && decide (0 < v) && decide (2 * c.nn < c.n)) ||
    (decide (v < 0) && (k != 0 || decide (c.n ≤ 2 * c.nn)))
  let m := 2 * v.natAbs - t - b2n map
  let nn := if v < 0 then c.nn + 1 else c.nn
  let a := c.a + (m + 1 - t) / 2
  let c := if c.n = 64 then ⟨a / 2, 33, nn / 2⟩ else ⟨a, c.n + 1, nn⟩
  { (e.golomb p k (jLimit p - j - 1) m) with run := e.run.setIfInBounds t c, idx := e.idx - 1 }

/-- The samples of one line, each with the one above it and those above to the left and right; `ra` is the sample to the
left, `run` the length of the run under way. -/
def JEnc.samples (p : Nat) : JEnc → Int → Option Nat → List (Int × Int × Int × Int) → JEnc
  | e, _, run, [] => match run with | some r => e.runEnd r | none => e
  | e, ra, run, (x, rb, rc, rd) :: l =>
    let q := 81 * jRegion p (rd - rb) + 9 * jRegion p (rb - rc) + jRegion p (rc - ra)
    if run.isSome || rd == rb && rb == rc && rc == ra then
      if x = ra then JEnc.samples p e ra (some (run.getD 0 + 1)) l
      else JEnc.samples p (e.interrupt p (run.getD 0) x ra rb) x none l
    else JEnc.samples p (e.regular p q x ra rb rc) x none l

/-- A component between lines: its last line, the sample to the left of that line, and its run index. -/
structure JComp where
  above : List Int
  left  : Int
  idx   : Nat
  deriving DecidableEq, Repr, Inhabited

/-- One line of a component. -/
def JEnc.line (e : JEnc) (p : Nat) (c : JComp) (l : List Nat) : JEnc × JComp :=
  let xs := l.map (fun (v : Nat) => (v : Int))
  let first := c.above.headD 0
  let rc := c.left :: c.above
  let rd := c.above.drop 1 ++ [c.above.getLastD 0]
  let e := JEnc.samples p { e with idx := c.idx } first none (xs.zip (c.above.zip (rc.zip rd)))
  (e, ⟨xs, first, e.idx⟩)

/-- One line of every component, in order. -/
def JEnc.lines (p : Nat) : JEnc → List (JComp × List Nat) → JEnc × List JComp
  | e, [] => (e, [])
  | e, x :: l =>
    let a := e.line p x.1 x.2
    let r := JEnc.lines p a.1 l
    (r.1, a.2 :: r.2)

/-- Coded bits as bytes: the byte after 0xFF has a zero bit first, and zeros fill the last byte. -/
def stuffBits : Nat → Bool → List Bool → List Byte
  | 0, _, _ => []
  | f + 1, ff, l =>
    if l.isEmpty && !ff then [] else
    let n := if ff then 7 else 8
    let v := ((l.take n) ++ List.replicate (n - l.length) false).foldl (fun a b => 2 * a + b2n b) 0
    BitVec.ofNat 8 v :: stuffBits f (v == 255) (l.drop n)

/-- One restart interval: rows of all components, coded from the first state. -/
def jInterval (p width : Nat) (rows : List (List (List Nat))) : List Byte :=
  let blank : JComp := ⟨List.replicate width 0, 0, 0⟩
  let comps := (rows.headD []).map (fun _ => blank)
  let r := rows.foldl (fun (a : JEnc × List JComp) row => JEnc.lines p a.1 (a.2.zip row)) (JEnc.start p, comps)
  stuffBits (r.1.bits.length + 2) false r.1.bits.reverse

/-- A list cut into pieces of `n`; one piece where `n` is 0. -/
def cutEvery {α : Type} (n : Nat) : Nat → List α → List (List α)
  | 0, l => [l]
  | f + 1, l => if n = 0 || decide (l.length ≤ n) then [l] else l.take n :: cutEvery n f (l.drop n)

/-- A JPEG-LS file (R192): precision, lines between restart markers, and the components' rows. The restart interval
follows the frame header, and components are numbered from 1 (PRESUMED, log 85). -/
def jpegLs (p rst : Nat) (comps : List (List (List Nat))) : List Byte :=
  let h := (comps.headD []).length
  let w := ((comps.headD []).headD []).length
  let n := comps.length
  let ids := List.range' 1 n
  let rows := (List.range h).map (fun r => comps.map (fun (c : List (List Nat)) => c.getD r []))
  let data := ((cutEvery rst h rows).zipIdx).flatMap (fun (x : List (List (List Nat)) × Nat) =>
    (if x.2 = 0 then [] else be 2 (0xFFD0 + (x.2 - 1) % 8)) ++ jInterval p w x.1)
  be 2 0xFFD8 ++ be 2 0xFFF7 ++ be 2 (8 + 3 * n) ++ be 1 p ++ be 2 h ++ be 2 w ++ be 1 n
    ++ ids.flatMap (fun i => be 1 i ++ be 2 0x1100)
    ++ (if rst = 0 then [] else be 2 0xFFDD ++ be 2 4 ++ be 2 rst)
    ++ be 2 0xFFDA ++ be 2 (6 + 2 * n) ++ be 1 n ++ ids.flatMap (fun i => be 1 i ++ be 1 0)
    ++ be 1 0 ++ be 1 (if n = 1 then 0 else 1) ++ be 1 0 ++ data ++ be 2 0xFFD9

end Sys2Proof.Machine
end

