-- ==== Sys2Proof/Machine/Plane.lean ====
section
/-! DEFINITION. What the Filigree engines and the container make of a page's planes (R184 to R197): colour registration,
edges, crop, deskew, sections, manifest and MAC, as functions of the page. -/

namespace Sys2Proof.Machine

open Sys2Proof

/-! Trailer fields (R170). -/

/-- STROKE_NO. -/
def tNo (t : List Byte) : Nat := getBe t 0 6
/-- FLAGS. -/
def tFlags (t : List Byte) : Nat := getBe t 6 2
/-- GRID_INDEX. -/
def tGrid (t : List Byte) : Nat := getBe t 24 6
/-- The lamp phase. -/
def tPhase (t : List Byte) : Nat := getBe t 30 1 % 4
/-- A trailer with a host bit set (R172). -/
def tSet (t : List Byte) (b : Nat) : List Byte := t.take 6 ++ be 2 (setBit (tFlags t) b) ++ t.drop 8
/-- TRAILER_CRC verifies (R172). -/
def tCrcOk (t : List Byte) : Bool :=
  t.length == 64 && beW (crc32c (t.take 7 ++ [(t.getD 7 0) &&& 0xC7] ++ (t.drop 8).take 52)) == t.drop 60
/-- Lines of the payload, from FORMAT. -/
def tLines (t : List Byte) : Nat := if bit (getBe t 46 1) 3 then 3 else 1
/-- N of a BITS code (R169). -/
def bitsOfCode (b : Nat) : Nat := match b with | 0 => 16 | 1 => 12 | 2 => 10 | _ => 8
/-- N, from FORMAT. -/
def tBits (t : List Byte) : Nat := bitsOfCode (getBe t 46 1 / 16 % 4)
/-- OUT_WIDTH. -/
def tWidth (t : List Byte) : Nat := getBe t 48 4
/-- The bytes of one packed line. -/
def lineBytes (width bits : Nat) : Nat := ceilDiv (width * bits) 64 * 8
/-- P recomputed from the trailer (R180). -/
def tPayload (t : List Byte) : Nat := tLines t * lineBytes (tWidth t) (tBits t)

/-- The codes of a packed line (R169). -/
def unpackLine (bits width : Nat) (l : List Byte) : List Nat :=
  (List.range width).map (fun m => getBe l (m * bits / 8) 3 / 2 ^ (24 - bits - m * bits % 8) % 2 ^ bits)

/-- The codes of line `ln` of an ingested stroke. -/
def Ing.line (x : Ing) (ln : Nat) : List Nat :=
  let n := lineBytes (tWidth x.trailer) (tBits x.trailer)
  unpackLine (tBits x.trailer) (tWidth x.trailer) (slice x.payload (ln * n) n)

/-- The first output columns of the enabled heads and the output width (R166, R187): at a CUT seam the left head supplies
the first half of the overlap, at a BLEND seam all of it. -/
def headStarts (c : List (Nat × Word)) : List (Nat × Nat) × Nat :=
  let one := fun (a : (List (Nat × Nat) × Nat) × Nat) (n : Nat) =>
    let m := rawCount c n - obCount c n
    let v := if stitchOn c && !a.1.1.isEmpty then ovlLeft c n else 0
    let cut := bit (rdA c Reg.PIX_STITCH) (a.2 - 1)
    let start := if cut then a.1.2 - v / 2 else a.1.2
    ((a.1.1 ++ [(n, start)], a.1.2 + m - v), a.2 + 1)
  ((headsOf c).foldl one (([], 0), 0)).1

/-- The column segments of the heads: head, first column, columns. -/
def segments (c : List (Nat × Word)) : List (Nat × Nat × Nat) :=
  let r := headStarts c
  let ends := (r.1.drop 1).map (·.2) ++ [r.2]
  (r.1.zip ends).map (fun (x : (Nat × Nat) × Nat) => (x.1.1, x.1.2, x.2 - x.1.2))

/-- The largest SEQ_Hn_OFS_c in use (R185). -/
def ofsMax (c : List (Nat × Word)) : Nat :=
  maxN ((headsOf c).flatMap (fun n => (List.range (linesOf c)).map (fun l => rdA c (Reg.SEQ_H_OFS n l))))

/-! Planes (R184, R186). -/

/-- The rows a page can have: Lg, or the limit while its sheet is still in progress. -/
def Page.lgMax (p : Page) : Nat := if p.lg = 0 then rdA p.cfg Reg.PAGE_MAX_ROWS else p.lg
/-- ROWS. -/
def Page.rowsN (p : Page) : Nat := ceilDiv p.lgMax p.nph
/-- a_p of a phase. -/
def Page.origin (p : Page) (ph : Nat) : Int := p.k0 + ((ph : Int) - p.k0) % (max 1 p.nph : Int)
/-- The planes of a page, phase then line. -/
def Page.planes (p : Page) : List (Nat × Nat) :=
  (List.range p.nph).flatMap (fun ph => (List.range p.lines).map (fun l => (ph, l)))
/-- PAGE_FILL as a code. -/
def Page.fill (p : Page) : Nat := rfA p.cfg Reg.PAGE_FILL 15 0 / 2 ^ (16 - p.bits)

/-- The rows a stroke's lines go to: (line, head, first column, columns, row, position in 1/256 stroke), with the feed
correction `cf` in 1/16 stroke (R186, R294). -/
def Page.lands (p : Page) (x : Ing) (cf : Int) : List (Nat × Nat × Nat × Nat × Int × Int) :=
  let ph := tPhase x.trailer
  if p.nph ≤ ph then [] else
  (List.range (min p.lines (tLines x.trailer))).flatMap (fun ln => (segments x.cfg).filterMap (fun s =>
    let base : Int := 256 * ((tGrid x.trailer : Int) - p.origin ph) + 16 * cf - rdA x.cfg (Reg.SEQ_H_OFS s.1 ln)
    let row := base / (256 * p.nph : Int)
    if -1 ≤ row ∧ row ≤ p.rowsN then some (ln, s.1, s.2.1, s.2.2, row, base) else none))

/-- A line of codes moved by `cl` columns; vacated columns take the fill code (R294). -/
def shiftLine (l : List Nat) (cl : Int) (fill : Nat) : List Nat :=
  if 0 ≤ cl then List.replicate (min cl.toNat l.length) fill ++ l.take (l.length - cl.toNat)
  else l.drop cl.natAbs ++ List.replicate (min cl.natAbs l.length) fill

/-- The bytes a page's planes have been allocated (R182): blocks of 1,024 rows. -/
def Page.allocOf (p : Page) : Nat :=
  let blocks := (p.rows.map (fun r => (r.plane, (r.row + 1) / 1024))).eraseDups
  blocks.length * 1024 * lineBytes p.width p.bits

/-- What remains of a written row outside the columns from `a` up to `e`. -/
def PRow.outside (y : PRow) (a e : Nat) : List PRow :=
  let l := y.codes.take (a - y.col)
  let r := y.codes.drop (e - y.col)
  (if l.isEmpty then [] else [{ y with codes := l }]) ++
    (if r.isEmpty then [] else [{ y with col := max y.col e, codes := r }])

/-- A stroke's lines written into a page with the corrections c_f and c_l: the later write of a row is kept (R186). -/
def Page.write (p : Page) (x : Ing) (cf cl : Int) : Page :=
  let ph := tPhase x.trailer
  let w := tWidth x.trailer
  let one := fun (rows : List PRow) (s : Nat × Nat × Nat × Nat × Int × Int) =>
    let (ln, h, a, n, row, base) := s
    let l := shiftLine (x.line ln) cl p.fill
    -- the segment moves with its columns; the outer ones take the vacated columns
    let a' := if a = 0 then 0 else (((a : Int) + cl).toNat)
    let e' := if a + n = w then w else (((a + n : Nat) : Int) + cl).toNat
    let r : PRow := ⟨4 * ph + ln, row, a', rdA x.cfg (Reg.SEQ_H_OFS h ln), base, x.e, max 1 x.dd, (l.drop a').take (e' - a')⟩
    r :: rows.flatMap (fun y => if y.plane == r.plane && y.row == r.row then y.outside a' e' else [y])
  let p := { p with rows := (p.lands x cf).foldl one p.rows }
  { p with alloc := p.allocOf }

/-- The newest row of a plane that covers a buffer row and a column. -/
def Page.at (p : Page) (pl : Nat) (r : Int) (x : Nat) : Option Nat :=
  (p.rows.find? (fun y => y.plane == pl && y.row == r && decide (y.col ≤ x ∧ x < y.col + y.codes.length))).map
    (fun y => y.codes.getD (x - y.col) 0)

/-- Some row of the page was supplied by no stroke (R185). -/
def Page.unwritten (p : Page) : Bool :=
  p.planes.any (fun q => (List.range p.rowsN).any (fun r =>
    let l := p.rows.filter (fun y => y.plane == 4 * q.1 + q.2 && y.row == (r : Int))
    decide (sumN (l.map (fun y => y.codes.length)) < p.width)))

/-! H3 (R188). -/

/-- An image: rows of codes. -/
abbrev Img := List (List Nat)

/-- The position of a written row, in rows. -/
def PRow.y (r : PRow) (nph : Nat) (ovs : Bool) : Rat :=
  ((r.base : Rat) / 256 + (if ovs then (r.e : Rat) / (r.dd : Rat) else 0)) / (nph : Rat)

/-- round(t × 65,536). -/
def weight (t : Rat) : Int := (t * 65536 + 1 / 2).floor

/-- (A × (65,536 − w) + B × w + 32,768) >> 16. -/
def lerp (a b : Nat) (w : Int) : Nat := (((a : Int) * (65536 - w) + b * w + 32768) / 65536).toNat

/-- One output pixel of H3 from the positions and codes of the written rows at its column. -/
def h3Pixel (cands : List (Rat × Nat)) (r : Rat) (fill : Nat) : Nat :=
  let below := (cands.filter (fun c => decide (c.1 ≤ r))).foldl
    (fun (b : Option (Rat × Nat)) c => match b with | some x => if x.1 < c.1 then some c else b | none => some c) none
  let above := (cands.filter (fun c => decide (r < c.1))).foldl
    (fun (b : Option (Rat × Nat)) c => match b with | some x => if c.1 < x.1 then some c else b | none => some c) none
  match below, above with
  | some a, some b => lerp a.2 b.2 (weight ((r - a.1) / (b.1 - a.1)))
  | some a, none => a.2
  | none, some b => b.2
  | none, none => fill

/-- H3 runs on a plane. -/
def Page.needsH3 (p : Page) (pl : Nat) : Bool :=
  p.rows.any (fun r => r.plane == pl && r.ofs % (256 * max 1 p.nph) != 0) ||
    (rfA p.cfg Reg.PAGE_CTRL 2 2 == 1 && p.chain.any (fun t => bit (tFlags t) 6)) || !p.splices.isEmpty

/-- A plane after H3. Rows no stroke supplied count with the fill code at their own position. -/
def Page.plane (p : Page) (pl : Nat) : Img :=
  let mine := p.rows.filter (fun y => y.plane == pl)
  let ovs := rfA p.cfg Reg.PAGE_CTRL 2 2 == 1
  if p.needsH3 pl then
    let cols := (List.range p.width).map (fun x =>
      let at_ := mine.filter (fun y => decide (y.col ≤ x ∧ x < y.col + y.codes.length))
      let blank := (List.range p.rowsN).filter (fun r => !at_.any (fun y => y.row == (r : Int)))
      at_.map (fun y => (y.y p.nph ovs, y.codes.getD (x - y.col) 0)) ++ blank.map (fun r => ((r : Rat), p.fill)))
    (List.range p.rowsN).map (fun r => cols.map (fun c => h3Pixel c (r : Rat) p.fill))
  else (List.range p.rowsN).map (fun (r : Nat) => (List.range p.width).map (fun x => (p.at pl r x).getD p.fill))

/-! H4 (R189). -/

/-- The first column from which `run` consecutive pixels are marked. -/
def firstRun (run : Nat) (l : List Bool) : Option Nat :=
  (List.range l.length).find? (fun x => decide (x + run ≤ l.length) && ((l.drop x).take run).all id)

/-- The edges of one row: xL and xR. -/
def rowEdges (bits thr run bg : Nat) (row : List Nat) : Option (Nat × Nat) :=
  let hit := row.map (fun v => decide ((thr : Int) < (((v * 2 ^ (16 - bits) : Nat) : Int) - bg).natAbs))
  match firstRun run hit, firstRun run hit.reverse with
  | some a, some b => some (a, row.length - 1 - b)
  | _, _ => none

/-- The least-squares slope of points (r, x) as a fraction. -/
def slope (l : List (Nat × Nat)) : Int × Nat :=
  let n : Int := l.length
  let sr : Int := sumN (l.map (·.1))
  let sx : Int := sumN (l.map (·.2))
  let num := n * sumN (l.map (fun p => p.1 * p.2)) - sr * sx
  let den := n * sumN (l.map (fun p => p.1 * p.1)) - sr * sr
  (num, den.toNat)

/-! Angles, as integers in 2⁻¹²⁸ radian. -/

/-- 1 as an angle. -/
def fxOne : Int := 2 ^ 128

/-- The arc tangent of `z`, at most one half: `n` terms of its series from z^(2i+1) = `t`. -/
def atanSum (z t : Int) (i : Int) : Nat → Int
  | 0 => 0
  | n + 1 => t / (2 * i + 1) + atanSum z (-(t * z / fxOne * z / fxOne)) (i + 1) n

/-- The arc tangent of num / den, at most one half. -/
def atanSmall (num den : Int) : Int := let z := num * fxOne / den; atanSum z z 0 72

/-- π = 4 (atan 1/2 + atan 1/3). -/
def fxPi : Int := 4 * (atanSmall 1 2 + atanSmall 1 3)

/-- The arc tangent of num / den for den above 0. -/
def fxAtan (num : Int) (den : Nat) : Int :=
  let n : Int := num.natAbs
  let d : Int := den
  -- atan x = atan 1/2 + atan ((2x − 1) / (2 + x)) for x up to 1
  let up := fun (n d : Int) => atanSmall 1 2 + atanSmall (2 * n - d) (2 * d + n)
  let a := if n ≤ d then up n d else fxPi / 2 - up d n
  if num < 0 then -a else a

/-- An angle in 2⁻⁸⁰ degree. -/
def toDegrees (a : Int) : Int := a * 180 * 2 ^ 80 / fxPi

/-- Terms of a sine or cosine series: `t` is the term, `i` the next factor of the factorial. -/
def trigSum (x t : Int) (i : Int) : Nat → Int
  | 0 => 0
  | n + 1 => t + trigSum x (-(t * x / fxOne * x / fxOne / (i * (i + 1)))) (i + 2) n

/-- cos and sin of an angle in 2⁻⁸⁰ degree, times 2¹²⁸. -/
def cosSin (theta : Int) : Int × Int :=
  let x := theta * fxPi / (180 * 2 ^ 80)
  (trigSum x fxOne 1 24, trigSum x x 2 24)

/-- What H4 finds: the edges of the rows, and θ in 2⁻⁸⁰ degree where it is valid. -/
structure Edges where
  rows : List (Nat × Nat × Nat)   -- row, xL, xR
  skew : Option Int
  deriving DecidableEq, Repr

/-- H4 on the plane PAGE_EDGE selects. -/
def Page.edges (p : Page) (img : Img) : Edges :=
  let c := p.cfg
  let rows := (img.zipIdx).filterMap (fun (y : List Nat × Nat) =>
    (rowEdges p.bits (rfA c Reg.PAGE_EDGE 31 16) (rfA c Reg.PAGE_EDGE 15 8) (rfA c Reg.PAGE_EDGE_BG 15 0) y.1).map
      (fun e => (y.2, e.1, e.2)))
  let top := (rows.headD (0, 0, 0)).1
  let bot := (rows.getLastD (0, 0, 0)).1
  let span := bot - top
  let mid := rows.filter (fun r => decide (span ≤ 10 * (r.1 - top) ∧ span ≤ 10 * (bot - r.1)))
  let side := fun (f : Nat × Nat × Nat → Nat) =>
    let l := (mid.map (fun r => (r.1, f r))).filter (fun q => q.2 != 0 && q.2 + 1 != p.width)
    if l.length < 64 then none
    else
      let s := slope l
      some (toDegrees (fxAtan (s.1 * 65536) (s.2 * rdA c Reg.PAGE_ASPECT)))
  let skew := match side (fun r => r.2.1), side (fun r => r.2.2) with
    | some a, some b => some ((a + b) / 2)
    | some a, none => some a
    | none, some b => some b
    | none, none => none
  ⟨rows, skew⟩

/-! H5 and H6 (R190, R191). -/

/-- A rectangle: first column, first row, columns, rows. -/
abbrev Rect := Nat × Nat × Nat × Nat

/-- A rectangle between columns and rows, both ends included, clipped to a plane. -/
def clipRect (w h : Nat) (x0 y0 x1 y1 : Int) : Rect :=
  let a := (max 0 x0).toNat
  let b := (max 0 y0).toNat
  (a, b, (min (w : Int) (x1 + 1) - a).toNat, (min (h : Int) (y1 + 1) - b).toNat)

/-- H5's rectangle. -/
def Page.crop (p : Page) (e : Edges) : Rect :=
  let c := p.cfg
  let whole : Rect := (0, 0, p.width, p.rowsN)
  match rfA c Reg.PAGE_CTRL 5 4 with
  | 1 =>
    let x : Int := rdA c Reg.PAGE_CROP_X
    let y : Int := rdA c Reg.PAGE_CROP_Y
    clipRect p.width p.rowsN x y (x + rdA c Reg.PAGE_CROP_W - 1) (y + rdA c Reg.PAGE_CROP_H - 1)
  | 2 =>
    match e.rows with
    | [] => whole
    | r :: _ =>
      let mr : Int := rfA c Reg.PAGE_CROP_MARGIN 31 16
      let mc : Int := rfA c Reg.PAGE_CROP_MARGIN 15 0
      let xl := (e.rows.map (fun q => q.2.1)).foldl min r.2.1
      let xr := maxN (e.rows.map (fun q => q.2.2))
      clipRect p.width p.rowsN ((xl : Int) - mc) ((r.1 : Int) - mr) ((xr : Int) + mc)
        (((e.rows.getLastD r).1 : Int) + mr)
  | _ => whole

/-- The pixels of a rectangle. -/
def cropImg (img : Img) (r : Rect) : Img := ((img.drop r.2.1).take r.2.2.2).map (fun l => (l.drop r.1).take r.2.2.1)

/-- A source pixel; none outside the plane. -/
def imgAt (img : Img) (x y : Int) : Option Nat :=
  if x < 0 ∨ y < 0 then none else (img[y.toNat]?).bind (fun l => l[x.toNat]?)

/-- Bilinear sampling at a point in 2⁻¹²⁸ pixel. -/
def sample (img : Img) (fill : Nat) (xs ys : Int) : Nat :=
  let one : Int := fxOne
  let (x, y) := (xs / one, ys / one)
  let w := fun (f : Int) => (f * 65536 + one / 2) / one
  let (wx, wy) := (w (xs % one), w (ys % one))
  let get := fun (dx dy : Int) (need : Bool) => if need then imgAt img (x + dx) (y + dy) else some 0
  match get 0 0 true, get 1 0 (wx != 0), get 0 1 (wy != 0), get 1 1 (wx != 0 && wy != 0) with
  | some a, some b, some c, some e => lerp (lerp a b wx) (lerp c e wx) wy
  | _, _, _, _ => fill

/-- H6 on one plane: the rectangle rotated about its centre by θ; `dy` is (a_0 − a_p) / NPH in 2⁻¹²⁸ row. -/
def rotate (img : Img) (fill aspect : Nat) (r : Rect) (theta dy : Int) : Img :=
  let one : Int := fxOne
  let (co, si) := cosSin theta
  -- twice the centre
  let cx2 : Int := 2 * r.1 + r.2.2.1 - 1
  let cy2 : Int := 2 * r.2.1 + r.2.2.2 - 1
  (List.range r.2.2.2).map (fun (j : Nat) => (List.range r.2.2.1).map (fun (i : Nat) =>
    let x2 : Int := 2 * ((r.1 + i : Nat) : Int) - cx2
    let y2 : Int := 2 * ((r.2.1 + j : Nat) : Int) - cy2
    let a : Int := max 1 aspect
    let xs := (cx2 * one + x2 * co + y2 * a * si / 65536) / 2
    let ys := (cy2 * one - x2 * si * 65536 / a + y2 * co) / 2 + dy
    sample img fill xs ys))

/-- What H3 to H6 leave: the planes, and what the manifest says of them. -/
structure Finished where
  planes : List ((Nat × Nat) × Img)
  rect   : Rect
  meas   : Int
  applied : Int
  edgeNone : Bool
  skewNone : Bool
  skewLimit : Bool
  deriving DecidableEq, Repr

/-- DESKEW. -/
def Page.deskew (p : Page) : Bool := rfA p.cfg Reg.PAGE_CTRL 6 6 == 1

/-- H4 runs (R189). -/
def Page.looks (p : Page) : Bool := rfA p.cfg Reg.PAGE_CTRL 5 4 == 2 || p.deskew

/-- The plane H4 examines (R189). -/
def Page.lookPlane (p : Page) : Nat := 4 * rfA p.cfg Reg.PAGE_EDGE 1 0 + rfA p.cfg Reg.PAGE_EDGE 3 2

/-- What H4 finds on a page, nothing where it does not run. -/
def Page.found (p : Page) : Edges := if p.looks then p.edges (p.plane p.lookPlane) else ⟨[], none⟩

/-- θ, 0 under EDGE_NONE and SKEW_NONE (R195). -/
def Edges.theta (e : Edges) : Int := if e.rows.isEmpty then 0 else e.skew.getD 0

/-- The measured θ is above 5° (R191). -/
def Edges.tooSteep (e : Edges) : Bool := decide (5 * 2 ^ 80 < e.theta.natAbs)

/-- H6 runs (R191). -/
def Page.turns (p : Page) (e : Edges) : Bool := p.deskew && !e.rows.isEmpty && e.skew.isSome && !e.tooSteep

/-- θ in 2⁻¹⁶ degree; which neighbour stands for a value between two is free. -/
def roundSkew (theta : Int) : Int :=
  theta / 2 ^ 64 + (if theta % 2 ^ 64 != 0 && Config.skewUp theta then 1 else 0)

/-- H3 to H6 of a page (R188 to R191). A skew above 5° counts only where DESKEW asks for a rotation (DEDUCED, log 152). -/
def Page.finish (p : Page) : Finished :=
  let c := p.cfg
  let imgs := p.planes.map (fun q => (q, p.plane (4 * q.1 + q.2)))
  let e := p.found
  let edgeNone := p.looks && e.rows.isEmpty
  let skewNone := p.looks && e.skew.isNone
  let meas := roundSkew e.theta
  let limit := p.deskew && e.tooSteep
  let apply := p.turns e
  let r := p.crop e
  let out := imgs.map (fun x =>
    let dy := (p.origin 0 - p.origin x.1.1) * fxOne / (max 1 p.nph : Int)
    (x.1, if apply then rotate x.2 p.fill (rdA c Reg.PAGE_ASPECT) r e.theta dy else cropImg x.2 r))
  ⟨out, r, meas, if apply then meas else 0, edgeNone, skewNone, limit⟩

/-! Sections, manifest, container (R192 to R197). -/

/-- A section: KIND, ID, width, rows, bytes. -/
structure Section where
  kind  : Nat
  ident : Nat
  width : Nat
  rows  : Nat
  bytes : List Byte
  deriving DecidableEq, Repr

/-- The bytes of an uncoded plane. -/
def rawBytes (bits : Nat) (img : Img) : List Byte :=
  img.flatMap (fun l => l.flatMap (fun v => be (if bits = 8 then 1 else 2) v))

/-- A plane is too large for JPEG-LS. -/
def tooLarge (img : Img) : Bool := decide (65535 < img.length) || img.any (fun l => decide (65535 < l.length))

/-- The sections of a page and whether JLS_SKIP is set. PAGE_JLS.GROUP groups three components; on a page of one line it is
set aside (DESIGN CHOICE, log 183). -/
def Page.sections (p : Page) (f : Finished) : List Section × Bool :=
  let c := p.cfg
  let jls := rfA c Reg.PAGE_CTRL 7 7 == 1
  let rst := rfA c Reg.PAGE_JLS 31 16
  let group := rfA c Reg.PAGE_JLS 0 0 == 1 && p.lines == 3
  let w := f.rect.2.2.1
  let h := f.rect.2.2.2
  let plain := fun (x : (Nat × Nat) × Img) => (⟨1, 16 * x.1.1 + x.1.2, w, h, rawBytes p.bits x.2⟩ : Section)
  let skip := jls && f.planes.any (fun x => tooLarge x.2)
  let planes :=
    if !jls then f.planes.map plain
    else if group then
      (List.range p.nph).flatMap (fun ph =>
        let mine := f.planes.filter (fun x => x.1.1 == ph)
        if mine.any (fun x => tooLarge x.2) then mine.map plain
        else [⟨3, 16 * ph + 15, w, h, jpegLs p.bits rst (mine.map (·.2))⟩])
    else f.planes.map (fun x =>
      if tooLarge x.2 then plain x else ⟨2, 16 * x.1.1 + x.1.2, w, h, jpegLs p.bits rst [x.2]⟩)
  let tr : List Section := if rfA c Reg.PAGE_CTRL 1 1 = 1 then [⟨4, 15, 64, p.chain.length, p.chain.flatten⟩] else []
  (planes ++ tr, skip)

/-- A number rounded up to a multiple. -/
def roundUp (n m : Nat) : Nat := ceilDiv n m * m

/-- The offsets of sections, each a multiple of 64, from `o`; and the end. -/
def placeSections (o : Nat) : List Section → List Nat × Nat
  | [] => ([], o)
  | s :: l =>
    let a := roundUp o 64
    let r := placeSections (a + s.bytes.length) l
    (a :: r.1, r.2)

/-- Bytes padded with zeros to a length. -/
def padTo (n : Nat) (l : List Byte) : List Byte := l ++ List.replicate (n - l.length) 0

/-- MFLAGS (R196). -/
def Page.mflagsOf (p : Page) (f : Finished) (unsigned_ skip : Bool) : Nat :=
  let any := fun (b : Nat) => b2n (p.chain.any (fun t => bit (tFlags t) b))
  b2n (!p.gaps.isEmpty) + 2 * b2n p.partial_ + 4 * b2n p.trunc + 8 * b2n (!p.splices.isEmpty)
    + 16 * b2n (p.splices.any (fun s => bit (getBe s 27 1) 0)) + 32 * b2n unsigned_ + 64 * b2n f.edgeNone
    + 128 * b2n f.skewNone + 256 * b2n f.skewLimit + 512 * b2n skip + 1024 * any 0 + 2048 * any 1 + 4096 * any 2
    + 8192 * any 6 + 16384 * any 7 + 32768 * any 10

/-- The least of a list, 0 where it is empty. -/
def minN : List Nat → Nat
  | [] => 0
  | a :: l => l.foldl min a

/-- The manifest without its MAC (R195). -/
def Page.manifest (p : Page) (f : Finished) (secs : List Section) (mflags : Nat) : List Byte :=
  let nos := p.chain.map tNo
  let eps := p.chain.map (fun t => getBe t 32 4)
  let first := p.chain.headD []
  let last := p.chain.getLastD []
  be 4 0x56484D46 ++ be 2 1 ++ be 2 mflags ++ be 8 Config.devUid.toNat ++ beW p.job ++ beW p.id ++ be 6 (nos.headD 0)
    ++ be 6 (nos.getLastD 0) ++ be 4 p.chain.length ++ be 6 (twos 48 p.k0) ++ be 1 p.nph ++ be 1 p.lines ++ be 4 p.rowsN
    ++ be 4 (twos 32 f.applied) ++ be 4 (twos 32 f.meas) ++ be 4 f.rect.1 ++ be 4 f.rect.2.1 ++ be 4 f.rect.2.2.1
    ++ be 4 f.rect.2.2.2 ++ be 2 p.splices.length ++ be 2 p.gaps.length ++ be 2 secs.length ++ be 2 0
    ++ be 4 (minN eps) ++ be 4 (maxN eps) ++ be 8 (getBe first 16 8) ++ be 8 (getBe last 16 8) ++ List.replicate 20 0
    ++ secs.flatMap (fun s => sha256 s.bytes) ++ p.splices.flatten
    ++ p.gaps.flatMap (fun g => be 6 g.1 ++ be 6 g.2.1 ++ be 2 g.2.2 ++ be 2 0)
    ++ p.chain.flatMap (fun t => slice t 60 4) ++ List.replicate (if p.chain.length % 2 = 1 then 4 else 0) 0

/-- Poisoned words of a section are delivered as zero bytes (R391). -/
def Section.blank (s : Section) (words : List Nat) : Section :=
  let zero := fun (b : List Byte) (o : Nat) => b.take o ++ List.replicate (min 8 (b.length - o)) 0 ++ b.drop (o + 8)
  { s with bytes := words.foldl zero s.bytes }

/-- The container of a page under a key (R193 to R197): its bytes, MFLAGS, and what its counters count. With a poisoned word
it is not signed (R391). -/
def Page.build (p : Page) (key : Option (List Byte)) : List Byte × Nat × Finished × Bool :=
  let f := p.finish
  let (secs0, skip) := p.sections f
  let secs := secs0.zipIdx.map (fun x => x.1.blank ((p.poison.filter (fun y => y.1 == x.2)).map (·.2)))
  let sign := rfA p.cfg Reg.PAGE_CTRL 0 0 == 1 && p.poison.isEmpty
  let key := if sign then key else none
  let mflags := p.mflagsOf f key.isNone skip
  let (offs, fin) := placeSections (64 + 32 * secs.length) secs
  let man := p.manifest f secs mflags
  let mo := roundUp fin 8
  let total := mo + man.length + 32
  let head := be 4 0x56485047 ++ be 2 1 ++ be 2 secs.length ++ beW p.job ++ beW p.id ++ be 8 total ++ be 4 mflags
    ++ be 4 0 ++ be 8 mo ++ be 4 (man.length + 32) ++ List.replicate 20 0
  let dir := (secs.zip offs).flatMap (fun (x : Section × Nat) =>
    be 1 x.1.kind ++ be 1 x.1.ident ++ be 1 p.bits ++ be 1 0 ++ be 4 x.1.width ++ be 4 x.1.rows ++ be 4 0 ++ be 8 x.2
      ++ be 8 x.1.bytes.length)
  let body := (secs.zip offs).foldl (fun (b : List Byte) (x : Section × Nat) => padTo x.2 b ++ x.1.bytes) (head ++ dir)
  let mac := match key with | some k => hmac k (head ++ dir ++ man) | none => List.replicate 32 0
  (padTo mo body ++ man ++ mac, mflags, f, skip)

/-! The engines' work (R198). -/

/-- The units of a pass over a section of `rows` rows. -/
def stripeUnits (pass : FPass) (sec rows : Nat) : List FUnit := (List.range (ceilDiv rows 256)).map (fun i => ⟨pass, sec, i⟩)

/-- The stages of a page in the order of R198: the units of each pass, and the engine time of their pixels in half pixels:
a pixel of JPEG-LS at N = 16 counts double, and H4 writes none. -/
def Page.stages (p : Page) : List (List FUnit × Nat) :=
  let e := p.found
  let r := p.crop e
  let (w, h) := (r.2.2.1, r.2.2.2)
  let ids := p.planes.map (fun q => 4 * q.1 + q.2)
  let h3 := ids.filter (fun q => p.needsH3 q)
  let h6 := if p.turns e then ids else []
  let big := decide (65535 < w) || decide (65535 < h)
  let coded := if rfA p.cfg Reg.PAGE_CTRL 7 7 == 1 && !big then ids else []
  let group := rfA p.cfg Reg.PAGE_JLS 0 0 == 1 && p.lines == 3
  let files := if group then coded.filter (fun q => q % 4 == 0) else coded
  let rst := rfA p.cfg Reg.PAGE_JLS 31 16
  let parts := if rst = 0 then 1 else ceilDiv h rst
  let plain := ids.filter (fun q => !h3.contains q && !h6.contains q && !coded.contains q)
  let trailers := if rfA p.cfg Reg.PAGE_CTRL 1 1 = 1 then p.chain.length else 0
  [ (h3.flatMap (fun q => stripeUnits .h3 q p.rowsN), 2 * h3.length * (p.rowsN * p.width)),
    (if p.looks then stripeUnits .h4 p.lookPlane p.rowsN else [], 0),
    (h6.flatMap (fun q => stripeUnits .h6 q h), 2 * h6.length * (w * h)),
    (files.flatMap (fun q => (List.range parts).map (fun i => (⟨.h7, q, i⟩ : FUnit))),
      (if p.bits = 16 then 4 else 2) * coded.length * (w * h)),
    (plain.flatMap (fun q => stripeUnits .digest q h) ++ stripeUnits .digest 16 trailers,
      2 * (plain.length * (w * h) + 64 * trailers)) ]

/-- The units of a page in the order of issue, and its pixel work. -/
def Page.workOf (p : Page) : List FUnit × Nat := (p.stages.flatMap (·.1), sumN (p.stages.map (·.2)))

/-- Whether a unit reads what another writes (R198): H4 reads the same stripe of H3's plane, H6 turns what H3 made by what
H4 measured, and coding and digests read what H3 and H6 made inside the rectangle that H4 may have found. -/
def FUnit.reads (group : Bool) (u v : FUnit) : Bool :=
  let same := if group && u.pass == .h7 then u.section_ / 4 == v.section_ / 4 else u.section_ == v.section_
  match u.pass, v.pass with
  | .h4, .h3 => same && u.stripe == v.stripe
  | .h6, .h3 => same
  | .h6, .h4 => true
  | .h7, .h3 | .h7, .h6 | .digest, .h3 | .digest, .h6 => same
  | .h7, .h4 => true
  | .digest, .h4 => u.section_ != 16
  | _, _ => false

/-- The first unit of a page that may start while `busy` are worked on. -/
def Page.ready? (p : Page) (busy : List FUnit) : Option FUnit :=
  let group := rfA p.cfg Reg.PAGE_JLS 0 0 == 1 && p.lines == 3
  p.units.find? (fun u => !(p.units ++ busy).any (fun v => u.reads group v))

end Sys2Proof.Machine
end

