-- ==== Sys2Proof/Machine/Register.lean ====
section
/-! DEFINITION. The Clasp's registration (R292): the search for the offset between the reference strokes and the overlap
band, in exact rationals. Grid positions are in 2⁻²⁰ stroke, feed offsets in 1/16 stroke. -/

namespace Sys2Proof.Machine

open Sys2Proof

/-- The window of R292: columns x0 to x0 + w − 1, clipped to 8 to W − 9. -/
def clipWin (width x0 w : Nat) : List Nat := (List.range' x0 w).filter (fun x => decide (8 ≤ x ∧ x + 9 ≤ width))

/-- n² × variance of a list of values. -/
def varN (l : List Int) : Int := (l.length : Int) * sumI (l.map (fun x => x * x)) - sumI l * sumI l

/-- The values of a block of lines in a window. -/
def block (rows : List (Int × List Nat)) (win : List Nat) : List Int :=
  rows.flatMap (fun r => win.map (fun x => ((r.2.getD x 0 : Nat) : Int)))

/-- The window WIN_AUTO chooses (R292): greatest variance over the reference block, the lowest x0 on a tie. -/
def autoWin (width w : Nat) (refs : List (Int × List Nat)) : List Nat :=
  let step := max 1 (width / 16)
  let cands := (List.range (width / step + 1)).map (fun i => clipWin width (i * step) w)
  -- variances of windows of unequal length are compared as fractions
  let better := fun (a b : List Nat) =>
    let va := varN (block refs a)
    let vb := varN (block refs b)
    let na : Int := ((refs.length * a.length : Nat) : Int)
    let nb : Int := ((refs.length * b.length : Nat) : Int)
    decide (vb * na * na < va * nb * nb)
  (cands.drop 1).foldl (fun best c => if c.isEmpty then best else if best.isEmpty || better c best then c else best)
    (cands.headD [])

/-- A band line's value at a column and a grid position, between the two band strokes that bracket it. -/
def bandAt (band : List (Int × List Nat)) (p : Int) (x : Int) : Option Rat :=
  match (band.zip (band.drop 1)).find? (fun y => decide (y.1.1 ≤ p ∧ p ≤ y.2.1 ∧ y.1.1 < y.2.1)) with
  | none => none
  | some (a, b) =>
    let i := x.toNat
    let va : Rat := ((a.2.getD i 0 : Nat) : Rat)
    let vb : Rat := ((b.2.getD i 0 : Nat) : Rat)
    let wd : Rat := ((b.1 - a.1 : Int) : Rat)
    some ((va * ((b.1 - p : Int) : Rat) + vb * ((p - a.1 : Int) : Rat)) / wd)

/-- The sum of a list of rationals. -/
def sumQ (l : List Rat) : Rat := l.foldl (· + ·) 0

/-- ncc(f, l) (R292) as sign × square, which orders as ncc does; `flat` where a variance is 0. -/
def ncc (refs band : List (Int × List Nat)) (win : List Nat) (flat : Rat) (f l : Int) : Rat :=
  let ps := refs.flatMap (fun r => win.filterMap (fun (x : Nat) =>
    (bandAt band (r.1 + f * 65536) ((x : Int) + l)).map (fun b => (((r.2.getD x 0 : Nat) : Rat), b))))
  let n : Rat := (ps.length : Rat)
  let sa := sumQ (ps.map (·.1))
  let sb := sumQ (ps.map (·.2))
  let ab := n * sumQ (ps.map (fun p => p.1 * p.2)) - sa * sb
  let aa := n * sumQ (ps.map (fun p => p.1 * p.1)) - sa * sa
  let bb := n * sumQ (ps.map (fun p => p.2 * p.2)) - sb * sb
  if aa * bb = 0 then flat
  else if ab < 0 then -(ab * ab / (aa * bb)) else ab * ab / (aa * bb)

/-- Whether a candidate (c, f, l) beats another (R292): larger c, then smaller |f|, smaller |l|, more negative f, more
negative l. -/
def beats (a b : Rat × Int × Int) : Bool :=
  if a.1 ≠ b.1 then decide (b.1 < a.1)
  else if a.2.1.natAbs ≠ b.2.1.natAbs then decide (a.2.1.natAbs < b.2.1.natAbs)
  else if a.2.2.natAbs ≠ b.2.2.natAbs then decide (a.2.2.natAbs < b.2.2.natAbs)
  else if a.2.1 ≠ b.2.1 then decide (a.2.1 < b.2.1)
  else decide (a.2.2 < b.2.2)

/-- The best candidate. -/
def bestOf : List (Rat × Int × Int) → Rat × Int × Int
  | [] => (0, 0, 0)
  | a :: l => l.foldl (fun b c => if beats c b then c else b) a

/-- Integers from `lo` to `hi`, both included. -/
def irange (lo hi : Int) : List Int := (List.range (hi + 1 - lo).toNat).map (fun i => lo + (i : Int))

/-- What a registration decides: an image splice or not, FEED_OFS, LAT_OFS and PEAK_CORR. -/
structure Splice where
  enc  : Bool
  feed : Int
  lat  : Int
  peak : Nat
  deriving DecidableEq, Repr

/-- round(max(peak, 0) × 65,536) of a peak given as sign × square, limited to 65,535. -/
def peakCorr (c : Rat) : Nat :=
  if c ≤ 0 then 0 else min 65535 ((isqrt (c * 17179869184).floor.toNat + 1) / 2)

/-- The registration of R292 and R293. `c` is the active set, `width` the line's width, `bad` says that a word of the
references or the band is poisoned (R391). -/
def register (c : List (Nat × Word)) (width : Nat) (refs band : List (Int × List Nat)) (bad : Bool) (flat : Rat) :
    Splice :=
  let s : Int := rdA c Reg.CLS_SEARCH
  let w := rfA c Reg.CLS_WIN 15 0
  let win := if rfA c Reg.CLS_CTRL 1 1 = 1 then autoWin width w refs else clipWin width (rfA c Reg.CLS_WIN 31 16) w
  let blk := block refs win
  let n : Int := blk.length
  let sig : Int := rdA c Reg.CLS_MIN_SIGMA
  if bad ∨ refs.length < 8 ∨ rfA c Reg.CLS_CTRL 0 0 = 0 then ⟨true, 0, 0, 0⟩
  else if varN blk < sig * sig * n * n then ⟨true, 0, 0, 0⟩
  else
    let at' := fun (f l : Int) => (ncc refs band win flat f l, f, l)
    let b0 := bestOf ((irange (-s) s).flatMap (fun f => (irange (-8) 8).map (fun l => at' (16 * f) l)))
    let fs := (irange (b0.2.1 - 16) (b0.2.1 + 16)).filter (fun f => decide (f.natAbs ≤ (16 * s).natAbs))
    let ls := (irange (b0.2.2 - 1) (b0.2.2 + 1)).filter (fun l => decide (l.natAbs ≤ 8))
    let b1 := bestOf (fs.flatMap (fun f => ls.map (fun l => at' f l)))
    let minc : Rat := ((rdA c Reg.CLS_MIN_CORR : Nat) : Rat) / 65536
    if b1.1 < minc * minc ∨ b1.2.1.natAbs = (16 * s).natAbs ∨ b1.2.2.natAbs = 8 then ⟨true, 0, 0, peakCorr b1.1⟩
    else ⟨false, b1.2.1, b1.2.2, peakCorr b1.1⟩

end Sys2Proof.Machine
end

