-- ==== Sys2Proof/Machine/Strokes.lean ====
section
/-! DEFINITION. Strokes (R84 to R113, R151, R163, R170 to R173): encoder edges and the stroke grid, Catches, the flush
cycle, the stroke watchdog, digital lanes, the pipeline's start of a stroke, and the Hallmark trailer. -/

namespace Sys2Proof.Machine

open Sys2Proof

/-! Lanes (R103). -/

/-- The lanes of the enabled digital heads that are not ready. -/
def Dev.lanesMissing (d : Dev) : List Nat := (lanesNeeded d.regs.act).filter (fun l => !bit d.seq.lanes l)

/-- The Cox state on SCAN entry (R276): with COX_CTRL.EN = 0 never PACING (R277). An entry at SCAN_START with the buffer at
COX_HWM or above, for which R276 names no state, is PACING at once and counted (DESIGN CHOICE, log 200). -/
def Dev.coxScanEntry (d : Dev) : Dev :=
  let pacing := d.rf Reg.COX_CTRL 0 0 == 1 && decide (d.rd Reg.COX_HWM * 1048576 ≤ d.pageFill)
  ({ d with cox := { d.cox with st := if pacing then 2 else 1 } }).bumpIf pacing Reg.COX_PACE_CNT

/-- SCAN is entered for a job whose lanes are ready (R103, R461). -/
def Dev.scanBegin (d : Dev) : Dev :=
  ((({ d with seq := { d.seq with scanWait := false } }).setMode .scan).coxScanEntry).catchOn true

/-- Overlap capture starts (R291): Catches are enabled, or wait for the lanes. -/
def Dev.bandStart (d : Dev) : Dev :=
  if d.lanesMissing.isEmpty then
    { d.catchOn false with cls := { d.cls with step := 4 }, seq := { (d.catchOn false).seq with bandWait := false } }
  else { d with seq := { d.seq with bandWait := true } }

/-! Requests (R86, R89, R92). -/

/-- A fifth grid point while four Catches are pending (R92). -/
def Dev.overspeed (d : Dev) (k : Nat) : Dev :=
  let d := { d with seq := { d.seq with limit := true } }.setFault whyOver
  let r : FaultRec := { cls := 8, code := 1, field := true, a := k }
  if (d.recurs 8 1 0).isSome then d.recover r 0 false
  else
    let i := d.flt.next
    let d := d.log { r with action := d.faultAction } d.mode d.leadsTo
    { d with flt := { d.flt with recs := d.flt.recs ++ [⟨0, 8, 1, 0, false, i, d.now⟩] } }

/-- A tap open-wire check runs, during which no stroke is captured (R135). -/
def Dev.owBusy (d : Dev) : Bool := d.rf Reg.AFE_OW_CTRL 1 1 == 1

/-- A Catch of grid point `k` is requested for an instant. -/
def Dev.request (d : Dev) (k r : Nat) : Dev :=
  if d.seq.limit || d.owBusy then d
  else if 4 ≤ d.seq.pend.length then d.overspeed k
  else { d with seq := { d.seq with pend := d.seq.pend ++ [(k, r)], high := k } }

/-- The integer part of a position, quarter-counts. -/
def quarter (p : Int) : Int := p / 65536

/-- A forward edge of the feed encoder at position `q` and instant `t`; `t1` is the instant of the edge before it. -/
def Dev.edgeForward (d : Dev) (q : Int) (t t1 : Nat) : Dev :=
  -- R89: edge q + 1 comes before the instant of a Catch placed after edge q
  let d := { d with seq := { d.seq with pend := d.seq.pend.map (fun (x : Nat × Nat) =>
    if quarter (d.seq.grid x.1) + 1 = q ∧ t < x.2 then (x.1, t + 16) else x) } }
  let k : Nat := (d.seq.index (q * 65536 + 65535)).toNat
  let d := if d.mode == .splice && !d.seq.en && !d.seq.bandWait && (d.cls.step == 2 || d.cls.step == 3) &&
      decide (d.seq.passed < d.cls.first ∧ d.cls.first ≤ k) then d.bandStart else d
  if k ≤ d.seq.passed then d
  else
    let f : Int := max 0 (d.seq.grid (k : Int) - q * 65536)
    let d := { d with seq := { d.seq with passed := k } }
    if d.seq.en && d.rf Reg.SEQ_CTRL 0 0 == 0 && decide (d.seq.high < k) then
      d.request k (t + 16 + ceilDiv (f.toNat * (t - t1)) 65536)
    else d

/-- A backward edge: grid points are armed again (R86). -/
def Dev.edgeBackward (d : Dev) (q : Int) : Dev :=
  let n := (d.seq.index ((q + d.rd Reg.SEQ_ENC_HYST) * 65536)).toNat
  let again := d.seq.passed - n
  let d := { d with seq := { d.seq with passed := min d.seq.passed n } }
  if d.mode == .scan then d.bumpBy Reg.SEQ_REVERSE_CNT again else d

/-- The feed position of a switch's raw edge lies between the two encoder edges around it (R241): those at `t1`, to `q1`,
and at `t`, to `q`. -/
def SwLatch.close (q1 : Int) (t1 : Nat) (q : Int) (t : Nat) (l : SwLatch) : SwLatch :=
  if !l.due then l
  else if 0 < t1 ∧ t1 ≤ l.t ∧ l.t ≤ t ∧ t1 < t then
    { l with due := false, feed := q1 * 65536 + (q - q1) * 65536 * ((l.t - t1 : Nat) : Int) / ((t - t1 : Nat) : Int) }
  else { l with due := false }

/-- A quarter-count edge of an encoder at instant `t` (R238, R85 to R89). -/
def Dev.encCount (d : Dev) (enc : Nat) (up : Bool) (t : Nat) : Dev :=
  let old := d.feedCount
  let n := sext 48 (twos 48 (d.mot.enc.getD enc 0 + (if up then 1 else -1)))
  let d := { d with mot := { d.mot with enc := d.mot.enc.set enc n } }
  if enc ≠ d.rf Reg.SEQ_CTRL 15 12 then d else
  let q := d.feedCount
  let t1 := d.seq.edgeT
  let d := { d with mot := { d.mot with sw := d.mot.sw.map (SwLatch.close d.seq.edgeQ t1 q t) } }
  let d := { d with seq := { d.seq with edgeQ := q, edgeT := t, edgeQ1 := d.seq.edgeQ, edgeT1 := d.seq.edgeT } }
  if old < q then d.edgeForward q t t1 else if q < old then d.edgeBackward q else d

/-- An input has held its new level long enough to be accepted (R238). -/
def Dev.encHeld (d : Dev) (enc held : Nat) : Bool := decide (d.rf (Reg.MOT_ENC_CFG enc) 3 0 < held)

/-- ENC_EDGE (R238): ENCe_A, or ENCe_B where `b` is set, goes to `level` at instant `t` and holds it for `held` CLK_PIX
cycles. The count rises when A leads B. -/
def execEncEdge (enc : Nat) (b level : Bool) (held t : Nat) (s : State) : Host.Outcome State Fault Refusal :=
  s.onDev fun d =>
    let d := d.until_ t
    let ab := d.mot.encAB.getD enc (false, false)
    if 6 ≤ enc ∨ !d.encHeld enc held ∨ (if b then ab.2 else ab.1) = level then d
    else
      let d := { d with mot := { d.mot with encAB := d.mot.encAB.set enc (if b then (ab.1, level) else (level, ab.2)) } }
      d.encCount enc (if b then level == ab.1 else level != ab.2) t

/-- ENC_ILLEGAL (R239). -/
def execEncIllegal (enc t : Nat) (s : State) : Host.Outcome State Fault Refusal := s.onDev fun d =>
  let d := (d.until_ t).bumpIf (decide (enc < 6)) (Reg.MOT_ENC_ERR_CNT enc)
  let ab := d.mot.encAB.getD enc (false, false)
  let d := { d with mot := { d.mot with encAB := d.mot.encAB.set enc (!ab.1, !ab.2) } }
  if d.seq.en && enc == d.rf Reg.SEQ_CTRL 15 12 then
    let d := d.setFault whyEnc
    d.log { cls := 0xB, code := 5, unit := enc, action := d.faultAction, field := true, a := d.rd (Reg.MOT_ENC_ERR_CNT enc) }
      d.mode d.leadsTo
  else d

/-- ENC_Z_EDGE (R240, R261): ENCe_Z goes to `level` and holds it for `held` CLK_PIX cycles. Toward the level set by
Z_POL the count is latched, and an axis in its index step takes its position. -/
def execEncZEdge (enc : Nat) (level : Bool) (held : Nat) (s : State) : Host.Outcome State Fault Refusal := s.onDev fun d =>
  if 6 ≤ enc ∨ !d.encHeld enc held ∨ level = (d.rf (Reg.MOT_ENC_CFG enc) 8 8 == 1) then d else
  let d := ({ d with mot := { d.mot with encZ := d.mot.encZ.set enc (d.mot.enc.getD enc 0) } }).put
    (Reg.MOT_ENC_Z_CNT enc) ((d.rd (Reg.MOT_ENC_Z_CNT enc) + 1) % 2 ^ 32)
  (List.range 12).foldl (fun d a =>
    match (d.ax a).home with
    | some hm => if hm.st = .index ∧ d.axEnc a = some enc then d.homeLatch a hm (d.axPos a) false else d
    | none => d) d

/-! Catch (R84, R87, R90, R91, R94). -/

/-- A pitch committed since comes into force: this Catch's grid point is the new origin (R87). Requests made with the old
pitch keep their places. -/
def Dev.newOrigin (d : Dev) (k : Nat) : Dev :=
  let w := pitchOf d.regs.act
  if w = d.seq.pitch ∨ k ≠ d.seq.high then d
  else { d with seq := { d.seq with
    p0 := d.seq.grid k, k0 := k, pitch := w, old := d.seq.origins.filter (fun x => decide (x.1 < k)) } }

/-- Whether a commanded run captures a stroke of phase `p`: SHADING every stroke but those of settling, LAMP_ABS those of its phase (R319,
R321). -/
def Dev.usedByRun (d : Dev) (p : Nat) : Bool :=
  match d.cal.run with
  | some r => d.mode == .calibrate && (r.kind == 5 && r.stage != 1 || r.kind == 6 && p == r.unit)
  | none => false

/-- Whether the run under way keeps every lamp window closed (R313, R319). -/
def Dev.darkRun (d : Dev) : Bool :=
  match d.cal.run with
  | some r => d.mode == .calibrate && (r.kind == 5 && r.stage == 0 || r.kind == 2)
  | none => false

/-- The Catches of a commanded run are counted and timed (R320). -/
def Dev.runCatch (d : Dev) (t : Nat) : Dev :=
  match d.cal.run with
  | some r =>
    if d.mode == .calibrate then
      { d with cal := { d.cal with run := some { r with
        catches := r.catches + 1, t0 := if r.catches = 0 then t else r.t0, t1 := t } } }
    else d
  | none => d

/-- The forward move after a splice without a held move is to stop, the band having been captured (R290). -/
def Group.endBand (x : Group) : Group :=
  if x.intern = 3 ∧ x.stopAt = none ∧ x.stopDue = false then { x with stopDue := true, bandStop := true } else x

/-- The Catch of grid index `k` at position `pos` and instant `t`. -/
def Dev.doCatch (d : Dev) (k : Nat) (pos : Int) (t : Nat) (deferred timer : Bool) : Dev :=
  let d := d.until_ t
  let d := (if d.regs.comDue && !d.seq.en then d else d.forceCommit false).catchCorr k
  let d := d.settleCommits (d.seq.strokeNo + d.seq.flight.length + 1)
  let d := (d.afeCatch.bump Reg.SEQ_CATCH_CNT).runCatch t
  let c := d.regs.act
  let d := (headsOf c).foldl (fun d n => d.headRun c t n) d
  let p := k % nphOf c
  let dark := d.darkRun
  let (d, waits, diag) := d.lampCatch p t dark
  let paced := d.mode == .scan && d.cox.st == 2
  let d := (d.bumpIf paced Reg.COX_PACED_CNT).bumpIf deferred Reg.SEQ_OVERSPEED_CNT
  let first := d.seq.firstRun
  let band := d.mode == .splice && d.cls.band == 0
  let gap := match d.seq.last with | some l => if first || band then 0 else t - l | none => 0
  let stroke : Stroke :=
    { k := k, pos := pos, time := d.tim.rep / 2 ^ 32 + d.now % 4 * 128 / 100, at_ := t, gap := gap, first := first, phase := p
      deferred := deferred, paced := paced, spare := false
      band := d.mode == .splice, grid := if timer then pos else d.seq.grid k, pitch := d.seq.pitch
      lampDiag := diag, calUse := d.usedByRun p, calStage := (d.cal.run.map (·.stage)).getD 0, dark := dark, lagDone := false, waits := waits, level := d.phaseLevel p
      epoch := if d.mode == .service then 0 else w32 (d.rd Reg.CAL_EPOCH_NOW), cfg := d.regs.act, px := none }
  let flight := d.seq.flight.map (fun (x : Stroke) => { x with lagDone := true })
  let d := { d with seq := { d.seq with
    last := some t, firstRun := false, lagPrimed := true
    flight := if d.seq.withhold then flight else flight ++ [stroke] } }
  let d := d.bumpIf d.seq.withhold Reg.SEQ_WITHHELD_CNT
  let d := if timer then d else d.newOrigin k
  let d := if d.mode == .splice then { d with cls := { d.cls with
    band := if (k : Int) < d.cls.kb + d.rd Reg.CLS_OVL then min 64 (d.cls.band + 1) else max 1 d.cls.band } } else d
  -- R290: a run-up that joins no held move stops after the band
  match d.feed with
  | some g =>
    if d.mode == .splice && decide (d.cls.kb + d.rd Reg.CLS_OVL ≤ (k : Int) + 1) then d.modGrp g Group.endBand else d
  | none => d

/-- The earliest instant of the next Catch (R91). -/
def Dev.earliest (d : Dev) : Nat := match d.seq.last with | some l => l + d.rd Reg.SEQ_MIN_INTERVAL | none => 0

/-- The pending Catch at the head of the queue leaves it. -/
def Dev.popPend (d : Dev) : Dev := { d with seq := { d.seq with pend := d.seq.pend.drop 1 } }

/-- CATCH (R84, R89, R91): the pending Catch at the head of the queue, which forward travel requested (R86). A Catch
sooner than SEQ_MIN_INTERVAL after the last one waits to be deferred. With none pending nothing is captured and time
passes up to `t`. -/
def execCatchStroke (t : Nat) (s : State) : Host.Outcome State Fault Refusal := s.onDev fun d =>
  match d.seq.pend with
  | (k, r) :: _ => if r < d.earliest then d.until_ t else d.popPend.doCatch k (d.seq.grid k) r false false
  | [] => d.until_ t

/-- CATCH_DEFERRED (R91): the head of the queue was requested too soon; its Catch is at exactly the previous one plus
SEQ_MIN_INTERVAL. -/
def execCatchDeferred (t : Nat) (s : State) : Host.Outcome State Fault Refusal := s.onDev fun d =>
  match d.seq.pend with
  | (k, r) :: _ =>
    if r < d.earliest then
      let e := d.earliest
      d.popPend.doCatch k (d.feedPos ((e : Int) - 16)) e true false
    else d.until_ t
  | [] => d

/-- TIMER_STROKE (R93, R107). -/
def execTimerStroke (t : Nat) (s : State) : Host.Outcome State Fault Refusal := s.onDev fun d =>
  if d.seq.en && d.rf Reg.SEQ_CTRL 0 0 == 1 && !d.owBusy then
    let k := d.seq.timerN + 1
    ({ d with seq := { d.seq with timerN := k } }).doCatch k (2 ^ 47 * 65536) t false true
  else d

/-! The flush cycle (R99) and the stroke watchdog (R106). -/

/-- A stroke of a committed set waits for the readout of its READ_LAG heads. -/
def Stroke.lags (x : Stroke) : Bool := (headsOf x.cfg).any (headLag x.cfg) && !x.lagDone

/-- FLUSH_CYCLE (R99): the last stroke is read out, with every lamp dark. -/
def execFlushCycle (s : State) : Host.Outcome State Fault Refusal := s.onDev fun d =>
  if d.seq.flushDue && !d.seq.en && d.seq.pend.isEmpty then
    let c := d.regs.act
    let d := ((headsOf c).filter (headLag c)).foldl (fun d n => d.headRun c (max d.now d.earliest) n) d
    { d with seq := { d.seq with
      flushDue := false, flushAt := max d.now d.earliest, flush := d.seq.flight.any (fun (x : Stroke) => x.px.isNone && x.lags)
      flight := d.seq.flight.map (fun (x : Stroke) => { x with lagDone := true }) } }.commitDue
  else d

/-- The stroke watchdog runs (R106). -/
def Dev.wdogRuns (d : Dev) : Bool :=
  (d.mode == .scan || d.mode == .splice && decide (4 ≤ d.cls.step)) &&
    (match d.feed with
      | some g => decide (d.rd Reg.COX_VMIN * motHz ≤ (d.grp g).v)
      | none => false)

/-- STROKE_WDOG (R106): SEQ_STROKE_TMO has passed without a Catch. -/
def execStrokeWdog (s : State) : Host.Outcome State Fault Refusal := s.onDev fun d =>
  if d.wdogRuns then
    let d := (d.setHold hcStroke).bump Reg.SEQ_WDOG_CNT
    d.log { cls := 8, code := 2, action := d.faultAction, field := true, a := d.seq.high } d.mode d.leadsTo
  else d

/-! Lane errors (R103 to R105). -/

/-- A lane error (R105): strokes from the oldest not yet read out are withheld, and the lane is reacquired. -/
def Dev.laneError (d : Dev) (lane code : Nat) : Dev :=
  let before := (d.seq.flight.takeWhile (fun (x : Stroke) => x.px.isSome)).length
  let hit := d.seq.flight.any (fun (x : Stroke) => x.px.isNone) || d.seq.withhold
  let no := if hit then d.seq.strokeNo + before else 0
  let d := d.withhold (fun x => x.px.isNone)
  let d := (d.setFault whyLane).bump Reg.SEQ_LANE_ERR_CNT
  let heads := ((headsOf d.regs.act).filter (fun n => (lanesOfHead d.regs.act n).contains lane))
  let d := { d with seq := { d.seq with
    lanes := clrBit d.seq.lanes lane, reacq := setBit d.seq.reacq lane, errHeads := heads.foldl setBit d.seq.errHeads } }
  d.recover { cls := 7, code := code, unit := lane, field := true, a := no } 0 false

/-- The heads with a lane error of which a lane is not ready (R105). -/
def Dev.headsBad (d : Dev) : Nat :=
  ((bitsOf d.seq.errHeads 32).filter (fun n => (lanesOfHead d.regs.act n).any (fun l => !bit d.seq.lanes l))).foldl setBit 0

/-- LANE_PHASE_ACQUIRED (R103, R105): a lane is ready; waiting starts go on, and FAULT clears when every lane of every
head with a lane error is ready again. -/
def execLanePhaseAcquired (lane : Nat) (s : State) : Host.Outcome State Fault Refusal := s.onDev fun d =>
  if 256 ≤ lane || !d.fieldRuns then d else
  let again := bit d.seq.reacq lane
  let d := { d with seq := { d.seq with lanes := setBit d.seq.lanes lane, reacq := clrBit d.seq.reacq lane } }
  let d := if again then (d.recEnd 7 1 (some lane)).recEnd 7 2 (some lane) else d
  let d := { d with seq := { d.seq with errHeads := d.headsBad } }
  let d := if bit d.flt.why whyLane && d.seq.errHeads == 0 then d.clrFault whyLane else d
  if !d.lanesMissing.isEmpty then d
  else if d.seq.scanWait then d.scanBegin
  else if d.seq.bandWait && d.mode == .splice then d.bandStart
  else d

/-- A SCAN_START that fails leaves no job (R42, R103). -/
def Dev.scanFail (d : Dev) : Dev :=
  let owner := d.owner
  let d := { d with jobs := d.jobs.filter (fun j => j.ended), seq := { d.seq with scanWait := false } }
  d.endOps owner (fun o => o == Op.scanStart) stFault 0

/-- LANE_READY_TIMEOUT (R103): 100 µs have passed with lanes not ready. -/
def execLaneReadyTimeout (s : State) : Host.Outcome State Fault Refusal := s.onDev fun d =>
  let miss := d.lanesMissing
  if miss.isEmpty then d
  else if d.seq.scanWait then
    (miss.foldl (fun (d : Dev) l => d.logHere { cls := 7, code := 2, unit := l, field := true }) d).scanFail
  else if d.seq.bandWait then
    miss.foldl (fun (d : Dev) l => d.laneError l 2) { d with seq := { d.seq with bandWait := false } }
  else d

/-- The head of a committed set that a lane belongs to. -/
def headOfLane (c : List (Nat × Word)) (l : Nat) : Option Nat := (headsOf c).find? (fun n => (lanesOfHead c n).contains l)

/-- Words of a stroke are expected on a lane (R104): it waits for readout, and where the lane's head has READ_LAG = 1, its
next waveform has run. -/
def Stroke.expects (x : Stroke) (l : Nat) : Bool :=
  x.px.isNone && (match headOfLane x.cfg l with | some n => x.lagDone || !headLag x.cfg n | none => false)

/-- LANE_DEADLINE (R104, R105): the lanes whose words of a stroke are missing or incomplete at its deadline, and the lanes
on which a preamble arrives while words of the previous stroke are still expected. -/
def execLaneDeadline (missing early : List Nat) (s : State) : Host.Outcome State Fault Refusal := s.onDev fun d =>
  let ls := missing.filter (fun l => d.seq.flight.any (fun (x : Stroke) => x.expects l)) ++
    early.filter (fun l => !missing.contains l && d.seq.flight.any (fun (x : Stroke) => x.px.isNone && (lanesNeeded x.cfg).contains l))
  ls.foldl (fun (d : Dev) l => d.laneError l 1) d

/-- LANE_TRANSITION_LOSS (R105): no transition for 1 µs while words are expected. -/
def execLaneTransitionLoss (lane : Nat) (s : State) : Host.Outcome State Fault Refusal := s.onDev fun d =>
  if d.seq.flight.any (fun (x : Stroke) => x.expects lane) then d.laneError lane 1
  else if lane < 256 then { d with seq := { d.seq with lanes := clrBit d.seq.lanes lane } }
  else d

/-! The pipeline (R151, R163) and the trailer (R170 to R172). -/

/-- The override of a stroke captured for a commanded run: its kind, 0 for any other stroke (R319, R321). -/
def Dev.runOf (d : Dev) (x : Stroke) : Nat :=
  match d.cal.run with | some r => if x.calUse then r.kind else 0 | none => 0

/-- F5 or F6 uses the slot of a stroke. -/
def usesMap (c : List (Nat × Word)) (run : Nat) : Bool :=
  run != 5 && (rfA c Reg.PIX_CTRL 2 2 == 1 || rfA c Reg.PIX_CTRL 3 3 == 1)

/-- DRIFT_WHY of a stroke (R163). -/
def Dev.strokeDrift (d : Dev) (x : Stroke) (run : Nat) : Nat :=
  if usesMap x.cfg run then
    driftWhy x.cfg d.fsram (slotSel (rdA x.cfg Reg.PIX_MAPSEL) x.phase)
      (patternId x.cfg x.phase (fun n => w32 (rdA x.cfg (Reg.LMP_C_LEVEL n)))) x.level (d.lampT x.phase) x.gap
  else 0

/-- VREF of a channel's conversions, µV (R116, R133); none while the reference settles. After a loss of VREFX each core's
correction is scaled so that its codes keep their scale within ±0.1 % (R134): a free value within that bound. -/
def Dev.pixelRef (d : Dev) (ch : Nat) : Option Nat :=
  if d.rf Reg.AFE_REF_CTRL 9 9 = 0 || d.afe.scaled && d.afe.vrefKept == 0 then none
  else if d.afe.scaled then
    let m := d.afe.vrefKept / 1000
    some (d.afe.vrefKept - m + (Config.freeValue 23 (d.frees + ch)).toNat % (2 * m + 1))
  else if d.rf Reg.AFE_REF_CTRL 8 8 = 1 then some d.bzl.vrefx else some 1200000

/-- The DC-restore clamps of an analogue stroke (R118): with AC = 1 a tap's clamp closes in the reset phase of the samples
CLAMP_FIRST to CLAMP_FIRST + CLAMP_N - 1; with AC = 0 or CLAMP_N = 0 it stays open. -/
def clampCloses (c : List (Nat × Word)) (t i : Nat) : Bool :=
  rfA c (Reg.AFE_T_CFG t) 4 4 == 1 && clampWin c t i

/-- The clamp windows of the taps of a stroke, as the field die drives them (R118). -/
def clampWindows (c : List (Nat × Word)) : List Out :=
  (((headsOf c).filter (fun n => headSrc c n == 1)).flatMap (tapsOf c)).filterMap (fun t =>
    let w := (List.range (sampleCount c (tapHead c t))).filter (clampCloses c t)
    w.head?.map (fun i => Out.tapClamp t i w.length))

/-- The preamble of a digital head's lanes (R104). -/
def preamble (c : List (Nat × Word)) (n : Nat) : List Nat :=
  [2 ^ laneWidth c n - 1, 0, 0, rfA c (Reg.SEQ_H_SYNC n) 15 0 % 2 ^ laneWidth c n]

/-- The lanes of a stroke whose preamble is not R104's, or whose words are missing or incomplete. -/
def lanesBad (c : List (Nat × Word)) (data : List SourceData) : List Nat :=
  ((headsOf c).filter (fun n => headSrc c n == 2)).flatMap (fun n =>
    (lanesOfHead c n).filter (fun (y : Nat) => !data.any (fun (z : SourceData) =>
      z.head == n && z.src == y && z.pre == preamble c n && decide (sampleCount c n ≤ z.codes.length))))

/-- PIPELINE_STROKE_START (R151): the oldest stroke whose samples are all in passes F1 to F9. A lane whose preamble or
words are not as R104 has them is a lane error (R105). -/
def execPipelineStrokeStart (data : List SourceData) (s : State) : Host.Outcome State Fault Refusal := s.onDev fun d =>
  match (d.seq.flight.zipIdx).find? (fun (y : Stroke × Nat) => y.1.px.isNone) with
  | none => d
  | some (x, i) =>
    if x.lags then d else
    if !(lanesBad x.cfg data).isEmpty then (lanesBad x.cfg data).foldl (fun (d : Dev) l => d.laneError l 1) d else
    let run := d.runOf x
    -- R123: the gain sets of a READ_LAG head's samples are those of the next Catch's set
    let next := match d.seq.flight[i + 1]? with | some y => y.cfg | none => d.regs.act
    let nextAt := match d.seq.flight[i + 1]? with | some y => y.at_ | none => d.seq.flushAt
    let n0 := d.frees
    let ana := data.any (fun (y : SourceData) => !y.levels.isEmpty)
    let data := data.map (fun (y : SourceData) =>
      let lag := headLag x.cfg y.head
      convert x.cfg (if lag then next else x.cfg) d.pixelRef d.slotZero (if lag then nextAt else x.at_) n0 y)
    let d := if ana then { d with frees := d.frees + 262144 * 385, tx := (clampWindows x.cfg).reverse ++ d.tx } else d
    let d := d.afeMeasure x.cfg (fun head t src i =>
      let lag := headLag x.cfg head
      sampleGset x.cfg (if lag then next else x.cfg) head t src d.slotZero (if lag then nextAt else x.at_) i)
      (f1All x.cfg d.afe.suspect data).1
    let r := pipeline x.cfg d.fsram d.clamp d.afe.suspect (rdA x.cfg (Reg.PIX_LCOMP x.phase)) x.k x.phase x.first run data
    let why := d.strokeDrift x run
    let px := { r.out with drift := why, run := run }
    let d := { d with
      clamp := r.clamp
      afe := { d.afe with suspect := r.susp }
      seq := { d.seq with flight := modNth d.seq.flight i (fun (y : Stroke) => { y with
        px := some px, spare := d.afe.quads.any (fun q => !q.retired.isEmpty) }) } }
    let d := { d with seq := { d.seq with
      flush := d.seq.flush && d.seq.flight.any (fun (y : Stroke) => y.px.isNone) } }
    let d := (d.bumpBy Reg.AFE_OVR_CNT r.ovrRaw).bumpBy Reg.AFE_OVR_DUMMY_CNT r.ovrDum
    let d := (d.bumpBy Reg.AFE_SUSPECT_CNT r.suspN).bumpBy Reg.PIX_OB_HOLD_CNT r.held
    let d := (d.bumpBy Reg.PIX_SAT_CNT r.sat).bumpBy Reg.PIX_DEF_UNRES_CNT r.unres
    let d := r.seen.foldl (fun (d : Dev) t => d.put (Reg.AFE_T_STAT t) (setBit (d.rd (Reg.AFE_T_STAT t)) 0)) d
    ((d.putF Reg.PIX_STAT 19 16 why).bumpIf (why != 0) Reg.PIX_DRIFT_CNT).commitDue

/-- The Hallmark trailer of a stroke with its number (R170, R171). The slot bits of a MAP_SET byte with NONE = 1 are 0 (DESIGN
CHOICE, log 199). -/
def Dev.trailer (d : Dev) (x : Stroke) (px : PxOut) (no run : Nat) : List Byte :=
  let c := x.cfg
  let flags := trailerFlags (px.ovr != 0) (px.suspect != 0) (px.drift != 0) x.deferred x.spare x.lampDiag x.paced
    (rfA c Reg.DEV_COMPAT 0 0 == 1)
  let mapSet := if usesMap c run then slotSel (rdA c Reg.PIX_MAPSEL) x.phase else 128
  let format := (if run = 0 then rfA c Reg.PIX_OUT 1 0 else 0) * 16 + (if linesOf c = 3 then 8 else 0) +
    (if stitchOn c && run != 5 then 4 else 0)
  let t := be 6 no ++ be 2 flags ++ be 8 (twos 64 x.pos) ++ be 8 x.time ++ be 6 x.k ++ be 1 (16 + x.phase) ++ be 1 mapSet
    ++ beW x.epoch ++ be 4 px.ovr ++ beW x.level ++ be 2 d.bzl.tField ++ be 1 format ++ be 1 0 ++ be 4 px.width
    ++ beW (crc32c px.payload) ++ be 4 px.suspect
  t ++ beW (crc32c t)

/-- A stroke's STROKE frames (R20). -/
def strokeFrames (no : Nat) (bytes : List Byte) : List Frame :=
  let ps := parts 4096 bytes.length bytes
  (ps.zipIdx).map (fun (y : List Byte × Nat) =>
    { newFrame 1 (no % 2 ^ 32) y.1 with first := y.2 == 0, last := y.2 + 1 == ps.length, offset := 4096 * y.2 })

/-- SHADE_DRIFT strokes in succession of a phase (R325); a stroke without the flag breaks the succession. -/
def Dev.countDrift (d : Dev) (p why : Nat) : Dev :=
  if why = 0 then
    { d with cal := { d.cal with
      drift := adel d.cal.drift p
      asked := d.cal.asked.filter (fun (x : Nat × Nat × Nat) => !(x.1 == 5 && x.2.1 / 16 == p && x.2.2 == 2)) } }
  else
    let n := (aget d.cal.drift p).getD 0 + 1
    let d := { d with cal := { d.cal with drift := aset d.cal.drift p n } }
    if d.rd Reg.CAL_DRIFT_STROKES ≤ n then d.recal 5 (d.shadeUnit p) 2 else d

/-- TRAILER_APPEND (R96, R170, R389): the oldest stroke leaves F10; a failing datapath check withholds it and every later
one and restarts the pipeline. -/
def execTrailerAppend (checkOk : Bool) (s : State) : Host.Outcome State Fault Refusal := s.onDev fun d =>
  match d.seq.flight with
  | x :: rest =>
    match x.px with
    | none => d
    | some px =>
      if !x.waits.isEmpty then d
      else if !checkOk then
        (((d.withhold (fun _ => true)).bump Reg.FLT_PIPE_CHK_CNT).setFault whyPipe).recover { cls := 8, code := 3, field := true, a := x.k } 1 false
      else
        let no := d.seq.strokeNo + 1
        let x := { x with spare := x.spare || d.spareActive }
        let bytes := px.payload ++ d.trailer x px no px.run
        let d := { d with
          seq := { d.seq with strokeNo := no, flight := rest }
          bzl := { d.bzl with
            stage := d.bzl.stage ++ strokeFrames no bytes
            framed := d.bzl.framed ++ [Framed.mk no x.cfg (x.pos - x.grid) x.pitch x.band] } }
        (d.countDrift x.phase px.drift).captured x px
  | [] => d

end Sys2Proof.Machine
end

