-- ==== Sys2Proof/Machine/Pages.lean ====
section
/-! DEFINITION. Page services (R180 to R207) and what the Clasp does with ingested strokes (R287, R291 to R299): ingest,
pages, splices, the Filigree engines, and delivery. -/

namespace Sys2Proof.Machine

open Sys2Proof

/-! Pages (R183 to R186). -/

/-- A page of the job being captured. -/
def Dev.ofJob (d : Dev) (p : Page) : Bool := match d.job? with | some j => p.serial == j.serial | none => false

/-- Change the open page of an identifier in the captured job. -/
def Dev.modPage (d : Dev) (id : Word) (f : Page → Page) : Dev :=
  { d with pages := { d.pages with list := d.pages.list.map (fun (p : Page) =>
    if p.id == id && d.ofJob p && !p.closed then f p else p) } }

/-- The open pages of the captured job. -/
def Dev.openList (d : Dev) : List Page :=
  d.pages.list.filter (fun (p : Page) => d.ofJob p && !p.closed)

/-- The length of a page from `k0` whose sheet ends at grid index `fin`: 0, still unknown, where the sheet goes on beyond
PAGE_MAX_ROWS or its end is not known. -/
def sheetRows (c : List (Nat × Word)) (k0 : Int) : Option Int → Nat
  | none => 0
  | some f => let n := max 1 (f - k0 + 1).toNat; if n ≤ rdA c Reg.PAGE_MAX_ROWS then n else 0

/-- A page opens with the values of a committed set (R183, R184). -/
def Dev.openPage (d : Dev) (c : List (Nat × Word)) (k0 : Int) (lg : Nat) (fin : Option Int) : Dev :=
  match d.job? with
  | none => d
  | some j =>
    let p : Page :=
      { id := j.nextPage, job := j.id, serial := j.serial, k0 := k0, lg := lg, fin := fin, nph := nphOf c, lines := linesOf c, width := outWidth c
        bits := outBits c, cfg := c, rows := [], chain := [], splices := [], gaps := [], closed := false, trunc := false
        partial_ := false, poison := [], units := [], container := none, mflags := 0, doneAt := 0, alloc := 0 }
    let sensor := rfA c Reg.PAGE_CTRL 9 8 == 1
    { d with
      jobs := d.jobs.map (fun (x : Job) => if x.serial == j.serial then { x with nextPage := x.nextPage + 1 } else x)
      pages := { d.pages with list := d.pages.list ++ [p] }
      cal := { d.cal with held := d.cal.held.map (fun (h : HeldCorr) =>
        if sensor && h.k0.isNone then { h with k0 := some k0 } else h) }
      cls := if sensor then { d.cls with cf := 0, cl := 0 } else d.cls }

/-- A page's length is known: a fixed page opens after it (R183). -/
def Dev.lengthKnown (d : Dev) (k0 : Int) (lg : Nat) : Dev :=
  if lg = 0 then d else { d with pages := { d.pages with nextK0 := k0 + lg } }

/-- Fixed pages open up to a grid index (R183); never while a sheet's page is still in progress. -/
def Dev.openFixed (d : Dev) (c : List (Nat × Word)) (k : Int) : Nat → Dev
  | 0 => d
  | n + 1 =>
    if rfA c Reg.PAGE_CTRL 9 8 = 0 ∧ d.pages.nextK0 ≤ k ∧ !d.openList.any (fun (p : Page) => p.lg == 0) then
      let lg := max 1 (rdA c Reg.PAGE_ROWS)
      let k0 := d.pages.nextK0
      ((d.openPage c k0 lg none).lengthKnown k0 lg).openFixed c k n
    else d

/-- The engines that are in service, not restarting, and at work on nothing. -/
def Dev.freeEngines (d : Dev) : List Nat :=
  (List.range 4).filter (fun e => bit d.pages.engines e && !bit d.pages.engRestart e && !d.pages.busy.any (fun b => b.1 == e))

/-- The units of a page that engines work on. -/
def Dev.busyUnits (d : Dev) (p : Page) : List FUnit :=
  (d.pages.busy.filter (fun b => b.2.1 == p.serial && b.2.2.1 == p.id)).map (·.2.2.2)

/-- The next unit to issue (R198): of the first page, in page order, that has one whose sources are complete. -/
def Dev.nextUnit (d : Dev) : Option (Page × FUnit) :=
  d.pages.list.findSome? (fun (p : Page) => (p.ready? (d.busyUnits p)).map (fun u => (p, u)))

/-- Units go to the free engines, the lowest-numbered first (R198, log 151). -/
def Dev.issueUnits (d : Dev) : Dev :=
  d.freeEngines.foldl (fun d e => match d.nextUnit with
    | none => d
    | some (p, u) => { d with pages := { d.pages with
        list := d.pages.list.map (fun (q : Page) => if q == p then { q with units := q.units.erase u } else q)
        busy := d.pages.busy ++ [(e, p.serial, p.id, u)] } }) d

/-- The gaps of the ingest that a page which closes has lost rows to and does not list yet (R23, R195): those after its
last stroke, and one that no ingested stroke has ended. The STROKE_NO that would end that one is free (log 153). -/
def Dev.openGaps (d : Dev) (p : Page) : List (Nat × Nat × Nat) × Dev :=
  let past := match p.chain.getLast? with
    | some t => d.pages.gaps.filter (fun g => decide (tNo t < g.2.1))
    | none => []
  match d.pages.gapNext with
  | some f => let (v, d) := d.free 31; (past ++ [(d.pages.lastIng, v.toNat % 2 ^ 48, f)], d)
  | none => (past, d)

/-- A page closes (R185): its unwritten rows are filled, and its units are issued to the engines (R198). -/
def Dev.closePage (d : Dev) (id : Word) (trunc : Bool) : Dev :=
  match d.openList.find? (fun (p : Page) => p.id == id) with
  | none => d
  | some p =>
    -- a sheet still in progress ends with its last written row
    let lg := if p.lg = 0 then ((p.rows.map (fun (r : PRow) => r.row + 1)).foldl max 0).toNat * p.nph else p.lg
    let p' := { p with lg := max 1 lg, closed := true, trunc := p.trunc || trunc }
    let (gs, d) := if p'.unwritten then d.openGaps p' else ([], d)
    let gs := gs.take (1024 - p.gaps.length)
    let w := p'.workOf
    let p' := { p' with partial_ := p'.unwritten, units := w.1, gaps := p.gaps ++ gs }
    let d := ((d.modPage id (fun _ => p')).bumpBy Reg.PAGE_GAP_CNT gs.length).lengthKnown p.k0 (if p.lg = 0 then p'.lg else 0)
    { d with pages := { d.pages with
      work := (d.now, w.2) :: d.pages.work.filter (fun x => decide (d.now < x.1 + msCyc 1000)) } }.issueUnits

/-- The feed group's internal move, if one is under way, ramps to rest at its DEC (R185). -/
def Dev.rampInternal (d : Dev) : Dev :=
  match d.feed with
  | none => d
  | some g => d.modGrp g fun x => match x.cur with
    | some m => if x.intern ≠ 0 then { x with st := .halting, haltDec := m.dec, stopAt := none, stopDue := false } else x
    | none => x

/-- The gaps of the ingest that a stroke ends for a page: those since the previous stroke of its chain (R195). -/
def Dev.gapsFor (d : Dev) (p : Page) (x : Ing) : List (Nat × Nat × Nat) :=
  match p.chain.getLast? with
  | some t => d.pages.gaps.filter (fun (g : Nat × Nat × Nat) => decide (tNo t < g.2.1) && decide (g.2.1 ≤ tNo x.trailer))
  | none => x.gap.toList.map (fun (g : Nat × Nat) => (g.1, tNo x.trailer, g.2))

/-- A stroke joins a page's chain (R171, R195): with GAP where its STROKE_NO is not one more than that of the page's
previous stroke, and with an entry for each gap of the ingest. -/
def Dev.chainOn (d : Dev) (p : Page) (x : Ing) : Dev :=
  let jump := match p.chain.getLast? with
    | some t => tNo t + 1 != tNo x.trailer
    | none => match x.gap with | some g => g.1 + 1 != tNo x.trailer | none => false
  let gs := d.gapsFor p x
  if 1024 < p.gaps.length + gs.length then d.closePage p.id true
  else gs.foldl (fun (d : Dev) _ => d.bump Reg.PAGE_GAP_CNT) (d.modPage p.id fun p => { p with
    chain := p.chain ++ [if jump then tSet x.trailer 5 else x.trailer], gaps := p.gaps ++ gs })

/-- A page that its sheet makes longer than PAGE_MAX_ROWS closes with TRUNC at that length, and the next one opens at the
following row with the values then in force (R183 to R185). -/
def Dev.splitPages (d : Dev) (c : List (Nat × Word)) (k : Int) : Nat → Dev
  | 0 => d
  | n + 1 =>
    match d.openList.find? (fun (p : Page) => p.lg == 0 && decide (p.k0 + p.lgMax ≤ k)) with
    | none => d
    | some p =>
      let k0 := p.k0 + p.lgMax
      let d := (d.modPage p.id fun p => { p with lg := p.lgMax }).closePage p.id true
      let lg := sheetRows c k0 p.fin
      ((d.openPage c k0 lg p.fin).lengthKnown k0 lg).splitPages c k n

/-- The pages that a stroke of grid index `k` closes (R185). -/
def Dev.closeBy (d : Dev) (k : Int) (c : List (Nat × Word)) : Dev :=
  (d.openList.filter (fun (p : Page) => p.lg != 0 &&
    decide (p.k0 + p.lg - 1 + ceilDiv (ofsMax c) 256 + p.nph - 1 ≤ k))).foldl (fun d p => d.closePage p.id false) d

/-- Every open page of the job closes. -/
def Dev.closeAll (d : Dev) : Dev := d.openList.foldl (fun d p => d.closePage p.id false) d

/-- A stroke's lines are written into the open pages (R182, R186); a tail stroke ends none of them at its greatest length
(R185, R296). -/
def Dev.placeStroke (d : Dev) (x : Ing) (tail : Bool) : Dev :=
  let k : Int := tGrid x.trailer
  let d := d.openFixed x.cfg k ((k - d.pages.nextK0).toNat / max 1 (rdA x.cfg Reg.PAGE_ROWS) + 1)
  let d := if tail then d else d.splitPages x.cfg k (k.toNat + 1)
  (d.openList.filter (fun (p : Page) => !(p.lands x d.cls.cf).isEmpty)).foldl (fun d p =>
    (d.chainOn p x).modPage p.id fun p => if p.closed then p else p.write x d.cls.cf d.cls.cl) d

/-- A stroke that is never placed belongs to the chains of the pages its grid index would have written (R295, R299). -/
def Dev.duplicate (d : Dev) (x : Ing) : Dev :=
  (d.openList.filter (fun (p : Page) => !(p.lands x 0).isEmpty)).foldl (fun d p => d.chainOn p x) d

/-- The band strokes staged are those of an interrupted splice (R299). -/
def Dev.dropBand (d : Dev) : Dev :=
  let d := d.cls.staging.foldl (fun d x => d.duplicate x) d
  { d with cls := { d.cls with staging := [], band := 0, step := 1 }, seq := { d.seq with bandWait := false } }

/-- HOLD, which a hold cause calls for, comes before what completes in the same period (R39). -/
def Dev.holdFirst (d : Dev) : Bool := (d.mode == .scan || d.mode == .splice) && d.hold != 0

/-- SCAN_STOP takes effect once every page open at its arrival has closed (R185, R42). -/
def Dev.stopCheck (d : Dev) : Dev :=
  match d.pages.stopPages with
  | none => d
  | some l =>
    if d.holdFirst || d.openList.any (fun (p : Page) => l.contains p.id) then d
    else
      let d := if d.mode == .splice then d.dropBand.rampInternal else d
      d.closeAll.captureEnd stOk

/-! Ingest (R180, R181, R287, R291, R296). -/

/-- STROKE_NO of an ingested stroke. -/
def Ing.no (x : Ing) : Nat := tNo x.trailer
/-- Its grid index. -/
def Ing.k (x : Ing) : Nat := tGrid x.trailer
/-- Its lamp phase. -/
def Ing.phase (x : Ing) : Nat := tPhase x.trailer

/-- A tail stroke (R296): ingested after the break point and before the splice. -/
def Dev.isTail (d : Dev) (no : Nat) : Bool :=
  match d.cls.breakAt with
  | some b => decide (b < no)
  | none => d.mode != .scan && decide (d.cls.holdNo < no)

/-- A stroke that passed the checks of R180 is ingested. -/
def Dev.ingest (d : Dev) (t payload : List Byte) : Dev :=
  let no := tNo t
  let fr := (d.bzl.framed.find? (fun (f : Framed) => f.no == no)).getD (Framed.mk no d.regs.act 0 (max 1 d.seq.pitch) false)
  let gap := if no ≤ max d.pages.lastIng d.pages.jobFrom + 1 ∧ d.pages.gapNext = none then none
    else some (d.pages.lastIng, d.pages.gapNext.getD 0)
  let x : Ing := ⟨t, payload, fr.cfg, if bit (tFlags t) 6 then fr.e else 0, fr.dd, fr.band, gap⟩
  let ring := d.cls.ring ++ [x]
  let tail := d.isTail no
  let d := { d with
    bzl := { d.bzl with framed := d.bzl.framed.filter (fun f => decide (no < f.no)) }
    pages := { d.pages with
      lastIng := no, gapNext := none
      gaps := d.pages.gaps ++ (gap.toList.map (fun (g : Nat × Nat) => (g.1, no, g.2))) }
    cls := { d.cls with ring := if tail && !d.cls.fixed then ring else ring.drop (ring.length - 64) } }.dmaRequests 2 0
  if !d.jobHeld then d
  else if x.band && d.mode == .splice then
    { d with cls := { d.cls with
      staging := (d.cls.staging ++ [x]).drop (d.cls.staging.length + 1 - 256)
      -- R303: with its last stroke ingested the band is being registered
      step := if d.cls.step = 4 ∧ d.cls.kb + d.rd Reg.CLS_OVL ≤ (x.k : Int) + 1 then 5 else d.cls.step } }
  else if x.band && d.mode != .scan then d.duplicate x
  else
    let d := d.placeStroke x tail
    if tail then d else (d.closeBy x.k x.cfg).stopCheck

/-- The STROKE_NO that a frame's TAG names: the latest one framed with its low 32 bits. -/
def Dev.tagNo (d : Dev) (tag : Nat) : Nat :=
  let n := d.seq.strokeNo / 2 ^ 32 * 2 ^ 32 + tag
  if d.seq.strokeNo < n then n - 2 ^ 32 else n

/-- A stroke that fails check 1, 2 or 3 is discarded (R181, R287). -/
def Dev.discardStroke (d : Dev) (tag code : Nat) : Dev :=
  let no := d.tagNo tag
  let d := d.bump Reg.PAGE_CRC_ERR_CNT
  let d := { d with
    bzl := { d.bzl with framed := d.bzl.framed.filter (fun f => f.no != no) }
    pages := { d.pages with
      discard := true
      gapNext := if d.jobHeld then some ((d.pages.gapNext.getD 0) ||| 2) else d.pages.gapNext }
    cls := { d.cls with breakAt := if d.jobHeld && d.cls.breakAt.isNone && !d.cls.fixed then some no else d.cls.breakAt } }
  let d := d.setFault whyDiscard
  d.log { cls := 9, code := code, action := d.faultAction, a := no } d.mode d.leadsTo

/-- A stroke's bytes as assembled, at its LAST frame: the checks of R180 in order. -/
def Dev.checkStroke (d : Dev) (a : Assembly) : Dev :=
  let n := a.bytes.length - 64
  let t := a.bytes.drop n
  let payload := a.bytes.take n
  if !tCrcOk t then d.discardStroke a.tag.toNat 1
  else if payload.length ≠ tPayload t then d.discardStroke a.tag.toNat 2
  else if beW (crc32c payload) ≠ slice t 52 4 then d.discardStroke a.tag.toNat 3
  else if tNo t ≤ d.pages.lastIng then d.bump Reg.PAGE_DUP_CNT
  else d.ingest t payload

/-- STROKE_FRAME_RX (R180): a STROKE frame joins the stroke of its TAG at its OFFSET. -/
def execStrokeFrameRx (f : Frame) (s : State) : Host.Outcome State Fault Refusal := s.onDev fun d =>
  let (d, ok) := d.bzlRx .f2h f
  if !ok || f.typ != 1 then d else
  let a := match d.bzl.asm with
    | some a => if f.first || a.tag.toNat != f.tag then (⟨w32 f.tag, []⟩ : Assembly) else a
    | none => (⟨w32 f.tag, []⟩ : Assembly)
  let a := { a with bytes := padTo f.offset (a.bytes.take f.offset) ++ f.payload }
  if f.last then { d with bzl := { d.bzl with asm := none } }.checkStroke a
  else { d with bzl := { d.bzl with asm := some a } }

/-- STROKE_DISCARD_RELEASE (R181). -/
def execStrokeDiscardRelease (s : State) : Host.Outcome State Fault Refusal := s.onDev fun d =>
  if d.pages.discard then ({ d with pages := { d.pages with discard := false } }).clrFault whyDiscard else d

/-! The sheet sensor (R183, R241, R296). -/

/-- A leading edge at grid index `g`: a page opens, unless four are open. -/
def Dev.leadingEdge (d : Dev) (g : Nat) : Dev :=
  let c := d.regs.act
  if 4 ≤ d.openList.length then
    (d.bump Reg.PAGE_SENSOR_SKIP_CNT).logHere
      { cls := 0x10, code := 4, unit := d.owner.getD 0, a := match d.job? with | some j => j.nextPage.toNat | none => 0 }
  else d.openPage c ((g : Int) + sext 32 (rdA c Reg.PAGE_SENSOR_OFS) - rfA c Reg.PAGE_MARGIN 31 16) 0 none

/-- A trailing edge at grid index `g`: the sheet's end is known, and its page's length where PAGE_MAX_ROWS holds it. -/
def Dev.trailingEdge (d : Dev) (g : Nat) : Dev :=
  match (d.openList.reverse).find? (fun (p : Page) => p.lg == 0 && p.fin.isNone) with
  | none => d
  | some p =>
    let c := p.cfg
    let fin := some ((g : Int) + sext 32 (rdA c Reg.PAGE_SENSOR_OFS) + rfA c Reg.PAGE_MARGIN 15 0)
    let lg := sheetRows c p.k0 fin
    (d.modPage p.id fun p => { p with lg := lg, fin := fin }).lengthKnown p.k0 lg

/-- An edge of the sheet sensor in the motion block's report (R183, R296). -/
def Dev.sensorEdge (d : Dev) (sw : Nat) (active : Bool) : Dev :=
  let c := d.regs.act
  if rfA c Reg.PAGE_CTRL 9 8 ≠ 1 ∨ sw ≠ rfA c Reg.PAGE_SENSOR 4 0 ∨ !d.jobMode ∨ !d.jobHeld then d else
  let lead := active == (rfA c Reg.PAGE_SENSOR 7 7 == 0)
  let p := (nth d.mot.sw sw).feed
  let seen := (d.pages.edges.find? (fun e => e.1 == lead)).map (·.2)
  if d.mode == .splice && (match seen with | some q => decide (p ≤ q) | none => false) then d
  else
    let far := match seen with | some q => max p q | none => p
    let d := { d with pages := { d.pages with
      edges := (lead, far) :: d.pages.edges.filter (fun e => e.1 != lead) } }
    if lead then d.leadingEdge (d.seq.gridAt p) else d.trailingEdge (d.seq.gridAt p)

/-- SWITCH_EDGE (R241): at instant `t`, `agree` successive samples of a switch have shown `level`. With DEB of them the
debounced level follows, and the motion block and the page block take its edge with the positions at the first of the
samples. -/
def execSwitchEdge (sw : Nat) (level : Bool) (agree t : Nat) (s : State) : Host.Outcome State Fault Refusal :=
  s.onDev fun d =>
    let d := d.until_ t
    if 18 ≤ sw then d else
    let active := level == (d.rf (Reg.MOT_SW_CFG sw) 31 31 == 0)
    let d := d.swSample sw active
    if active = d.sw sw ∨ agree < d.rf (Reg.MOT_SW_CFG sw) 15 0 then d
    else (d.swMotion sw active).sensorEdge sw active

/-! The splice (R292 to R298). -/

/-- A stroke's grid position k + δ, in 2⁻²⁰ stroke. -/
def Ing.pos (x : Ing) : Int := (x.k : Int) * 1048576 + x.e * 1048576 / (max 1 x.dd : Int)

/-- A stroke's registration line on the 16-bit scale with its position. -/
def Ing.regLine (x : Ing) (ln : Nat) : Int × List Nat :=
  (x.pos, (x.line ln).map (fun v => v * 2 ^ (16 - tBits x.trailer)))

/-- The staged strokes of a decided splice (R295), each with whether it is placed: from the first of its phase beyond the
last reference stroke of that phase, which carries SPLICE; those before it are duplicates. `cf0` is the feed correction
the reference strokes were placed with, `cf` the one of the splice; `begun` lists the phases with a stroke placed. -/
def placeStaged (refs : List Ing) (enc : Bool) (cf0 cf : Int) : List Nat → List Ing → List (Ing × Bool)
  | _, [] => []
  | begun, x :: l =>
    let p := x.phase
    if begun.contains p then (x, true) :: placeStaged refs enc cf0 cf begun l
    else
      let isNew := match refs.reverse.find? (fun r => r.phase == p) with
        | some r => decide (r.pos + cf0 * 65536 < x.pos + cf * 65536)
        | none => true
      if isNew then
        let t := tSet x.trailer 3
        ({ x with trailer := if enc then tSet t 4 else t }, true) :: placeStaged refs enc cf0 cf (p :: begun) l
      else (x, false) :: placeStaged refs enc cf0 cf begun l

/-- The open pages that hold a stroke take a splice entry, once (R298). -/
def Dev.spliceEntryOn (d : Dev) (x : Ing) (entry : List Byte) : Dev :=
  (d.openList.filter (fun (p : Page) => p.chain.any (fun t => tNo t == x.no) && p.splices.getLast? != some entry)).foldl
    (fun d p => d.modPage p.id fun p => { p with splices := p.splices ++ [entry] }) d

/-- One staged stroke goes to its pages (R185, R295): placed, where it may close them, or as a duplicate. -/
def Dev.takeStaged (entry : List Byte) (d : Dev) (a : Ing × Bool) : Dev :=
  if a.2 then (((d.placeStroke a.1 false).spliceEntryOn a.1 entry).closeBy a.1.k a.1.cfg)
  else ((d.duplicate a.1).spliceEntryOn a.1 entry).bump Reg.CLS_DUP_CNT

/-- CLASP_SPLICE_DECIDE (R292 to R298): with the last band stroke ingested, the band is registered, DEV_MODE goes to
SCAN, and the staged strokes are placed. -/
def execClaspSpliceDecide (s : State) : Host.Outcome State Fault Refusal := s.onDev fun d =>
  let c := d.regs.act
  let stop := d.cls.kb + rdA c Reg.CLS_OVL
  let band := d.cls.staging
  if d.mode != .splice || d.holdFirst || !band.any (fun x => decide (stop ≤ (x.k : Int) + 1)) then d else
  let ph := rfA c Reg.CLS_CTRL 5 4
  let ln := rfA c Reg.CLS_CTRL 9 8
  let refs := (d.cls.refs.filter (fun x => x.phase == ph)).map (fun x => x.regLine ln)
  let lines := (band.filter (fun x => x.phase == ph && decide ((x.k : Int) < stop))).map (fun x => x.regLine ln)
  let (v, d) := d.free 7
  let sp := register c (outWidth c) refs lines d.cls.poisoned ((v.toInt : Rat) / 9223372036854775808)
  let cf0 := d.cls.cf
  let d := { d with cls := { d.cls with cf := cf0 - sp.feed, cl := clampI (-8) 8 (d.cls.cl - sp.lat), step := 6 } }
  let d := (d.put Reg.CLS_LAST (sp.peak * 65536 + twos 8 sp.lat * 256 + b2n sp.enc)).put Reg.CLS_LAST_FEED (twos 16 sp.feed)
  let d := (d.bump Reg.CLS_SPLICE_CNT).bumpIf sp.enc Reg.CLS_ENC_CNT
  let d := (d.setMode .scan).coxScanEntry
  let placed := placeStaged d.cls.refs sp.enc cf0 d.cls.cf [] band
  let first := ((placed.find? (·.2)).map (fun a => (a.1.no, a.1.k))).getD (0, 0)
  let entry := be 6 d.cls.refLast ++ be 6 ((band.headD default).no) ++ be 6 first.1 ++ be 6 first.2 ++ be 2 (twos 16 sp.feed)
    ++ be 1 (twos 8 sp.lat) ++ be 1 (b2n sp.enc) ++ be 2 sp.peak ++ be 2 d.cls.causes
  -- R195: a page that would need a 1,025th entry closes before the splice
  let d := (d.openList.filter (fun (p : Page) => decide (1024 ≤ p.splices.length))).foldl
    (fun d p => d.closePage p.id true) d
  let shut := (d.pages.list.filter (fun (p : Page) => p.closed)).map (fun (p : Page) => (p.serial, p.id))
  let d := placed.foldl (Dev.takeStaged entry) d
  -- RECAPTURED (R297): every grid point from k_b on is captured again, for each page that this splice found open
  let d := { d with pages := { d.pages with list := d.pages.list.map (fun (p : Page) =>
    if d.ofJob p && !shut.contains (p.serial, p.id) then
      { p with gaps := p.gaps.map (fun (g : Nat × Nat × Nat) => (g.1, g.2.1, setBit g.2.2 0)) } else p) } }
  let d := { d with cls := { d.cls with
    step := 0, refs := [], fixed := false, staging := [], band := 0, causes := d.hold, breakAt := none, poisoned := false } }
  d.stopCheck

/-! The Filigree engines (R197 to R199). -/

/-- The unit an engine works on, with its page's job and identifier. -/
def Dev.engineUnit (d : Dev) (engine : Nat) : Option (Nat × Word × FUnit) :=
  (d.pages.busy.find? (fun b => b.1 == engine)).map (·.2)

/-- An engine works on nothing. -/
def Dev.engineFree (d : Dev) (engine : Nat) : Dev :=
  { d with pages := { d.pages with busy := d.pages.busy.filter (fun b => b.1 != engine) } }

/-- FILIGREE_UNIT_DONE (R198): an engine completes its unit, and takes the next one that may start. -/
def execFiligreeUnitDone (engine : Nat) (s : State) : Host.Outcome State Fault Refusal := s.onDev fun d =>
  if (d.engineUnit engine).isNone then d else (d.engineFree engine).issueUnits

/-- The unit of an engine is to be rerun on another one (R199): it is the first of its page's again. -/
def Dev.rerun (d : Dev) (engine : Nat) : Dev :=
  match d.engineUnit engine with
  | none => d
  | some (j, id, u) =>
    let d := d.engineFree engine
    { d with pages := { d.pages with list := d.pages.list.map (fun (p : Page) =>
      if p.serial == j && p.id == id then { p with units := u :: p.units } else p) } }

/-- FILIGREE_MISMATCH (R199): the unit is rerun on another engine; the engine restarts, or is retired on its second fault
within an hour. -/
def execFiligreeMismatch (engine : Nat) (s : State) : Host.Outcome State Fault Refusal := s.onDev fun d =>
  if !bit d.pages.engines engine || 4 ≤ engine then d else
  let page := match d.engineUnit engine with | some x => x.2.1.toNat | none => 0
  let again := match aget d.pages.engFault engine with
    | some t => decide (d.ns ≤ t + 3600000000000)
    | none => false
  let d := d.bump Reg.PAGE_ENG_FAULT_CNT
  let d := { d with pages := { d.pages with engFault := aset d.pages.engFault engine d.ns } }.rerun engine
  if again then
    let d := d.logHere { cls := 0xF, code := 1, unit := engine, action := 1, a := page }
    let d := d.logHere { cls := 0xF, code := 2, unit := engine, action := 1, a := page }
    { d with pages := { d.pages with
      engines := clrBit d.pages.engines engine, engRestart := clrBit d.pages.engRestart engine } }.issueUnits
  else
    (({ d with pages := { d.pages with engRestart := setBit d.pages.engRestart engine } }).recover
      { cls := 0xF, code := 1, unit := engine, a := page } 1 false).issueUnits

/-- CONTAINER_COMPLETE (R193 to R197): every unit of a closed page is done, and its container is complete and signed. -/
def execContainerComplete (page : Word) (s : State) : Host.Outcome State Fault Refusal := s.onDev fun d =>
  match d.pages.list.find? (fun (p : Page) =>
    p.id == page && p.closed && p.units.isEmpty && (d.busyUnits p).isEmpty && p.container.isNone) with
  | none => d
  | some q =>
    let (bytes, mflags, f, skip) := q.build d.pages.key
    let q' := { q with container := some bytes, mflags := mflags, doneAt := d.ns }
    let d := { d with pages := { d.pages with list := d.pages.list.map (fun (p : Page) => if p == q then q' else p) } }
    ((d.bumpIf f.edgeNone Reg.PAGE_EDGE_NONE_CNT).bumpIf f.skewLimit Reg.PAGE_SKEW_LIMIT_CNT).bumpIf skip
      Reg.PAGE_JLS_SKIP_CNT

/-! Delivery (R200 to R203). -/

/-- A queue pair. -/
def Dev.qp (d : Dev) (n : Nat) : Qp := (aget d.net.qps n).getD {}
/-- Change a queue pair. -/
def Dev.modQp (d : Dev) (n : Nat) (f : Qp → Qp) : Dev := { d with net := { d.net with qps := aset d.net.qps n (f (d.qp n)) } }
/-- The port of a queue pair (R385). -/
def Dev.qpPort (d : Dev) (n : Nat) : NetPort := if d.rf (Reg.NET_S_QP_CTRL (n - 1)) 24 24 = 1 then .eth1 else .eth0

/-- The path MTU of a queue pair (R385). -/
def Dev.pmtu (d : Dev) (n : Nat) : Nat := 1024 * 2 ^ d.rf (Reg.NET_S_QP_CTRL (n - 1)) 17 16

/-- The packets that `len` bytes take on a queue pair. -/
def Dev.packets (d : Dev) (n len : Nat) : Nat := max 1 (ceilDiv len (d.pmtu n))

/-- The largest RDMA message, 16 MiB (R370). -/
def roceMessage : Nat := 16777216

/-- The packets of an RDMA WRITE from its first PSN: messages of up to 16 MiB, each First, Middle and Last packets of the
path MTU, or an Only one (R370). -/
def rdmaPackets (n psn pmtu addr : Nat) (rkey : Word) (data : List Byte) : List Out :=
  let ps := parts pmtu data.length data
  let m := roceMessage / pmtu
  ps.zipIdx.map fun x =>
    .roceWrite n ((psn + x.2) % 2 ^ 24)
      (if x.2 % m = 0 then some (addr + x.2 * pmtu, rkey, min roceMessage (data.length - x.2 * pmtu)) else none)
      (decide (x.2 % m + 1 = m) || decide (x.2 + 1 = ps.length)) x.1

/-- Send the packets of the RDMA WRITE outstanding on a queue pair, from one of them on. -/
def Dev.rdmaSend (d : Dev) (n addr : Nat) (rkey : Word) (data : List Byte) (from_ : Nat) : Dev :=
  ((rdmaPackets n (d.qp n).base (d.pmtu n) addr rkey data).drop from_).foldl (fun d o => d.send (d.qpPort n) 3 o) d

/-- An RDMA WRITE on a session's queue pair: it takes the next PSNs, and NET_Ss_TX_MIB counts whole MiB. -/
def Dev.rdmaWrite (d : Dev) (n addr : Nat) (rkey : Word) (data : List Byte) : Dev :=
  let t := (d.qp n).txBytes + data.length
  let k := d.packets n data.length
  let d := (d.modQp n fun q => { q with
    txBytes := t % 1048576, base := q.psn, acked := 0, psn := (q.psn + k) % 2 ^ 24 }).bumpBy
      (Reg.NET_S_TX_MIB (n - 1)) (t / 1048576)
  d.rdmaSend n addr rkey data 0

/-- Frames of a queue pair's client are accepted on its port (R362). -/
def Dev.qpRx (d : Dev) (n k : Nat) : Dev := d.bumpBy (Reg.NET_P_RX_FRAME_CNT (portIx (d.qpPort n))) k

/-- A CNP answers a packet with ECN CE, at most once per 50 µs per queue pair (R374). -/
def Dev.ecn (d : Dev) (n : Nat) (ce : Bool) : Dev :=
  let due := match (d.qp n).cnpTx with | some t => decide (t + usCyc 50 ≤ d.now) | none => true
  if ce && due then (d.modQp n fun q => { q with cnpTx := some d.now }).send (d.qpPort n) 3 (.cnp n) else d

/-- MODE of a session's delivery: 0 none, 1 RDMA, 2 UDP. -/
def Dev.delivMode (d : Dev) (n : Nat) : Nat := d.rf (Reg.PAGE_S_DELIV (n - 1)) 1 0
/-- A 64-bit remote address from its two words. -/
def Dev.addr64 (d : Dev) (lo hi : Nat) : Nat := d.rd hi * 2 ^ 32 + d.rd lo

/-- The page of a delivery with its container. -/
def Dev.delivPage (d : Dev) (x : Deliv) : Option (Page × List Byte) :=
  match d.pages.list.find? (fun (p : Page) => p.id == x.page && p.serial == x.serial && p.closed) with
  | some p => p.container.map (fun b => (p, b))
  | none => none

/-- Change the delivery in progress. -/
def Dev.modDeliv (d : Dev) (f : Deliv → Deliv) : Dev := { d with pages := { d.pages with deliv := d.pages.deliv.map f } }

/-- The page to deliver next, its container and its owner's session: the oldest page of a job whose owner takes pages. -/
def Dev.nextDelivery (d : Dev) : Option (Page × List Byte × Nat) :=
  (d.pages.list.zipIdx).findSome? (fun (x : Page × Nat) =>
    let p := x.1
    if (d.pages.list.take x.2).any (fun (q : Page) => q.serial == p.serial) then none else
    match p.container, (d.jobs.find? (fun j => j.serial == p.serial)).bind (·.owner) with
    | some b, some n => if d.delivMode n = 0 then none else some (p, b, n)
    | _, _ => none)

/-- The completion record of a delivery (R201), with its sequence number. -/
def recordBytes (x : Deliv) (p : Page) (b : List Byte) (r : Nat) : List Byte :=
  let nos := p.chain.map tNo
  let l := beW p.job ++ beW p.id ++ be 8 x.offset ++ be 8 b.length ++ be 4 p.mflags ++ be 4 0 ++ be 6 (nos.headD 0)
    ++ be 6 (nos.getLastD 0) ++ be 4 0 ++ be 8 p.doneAt ++ be 4 r
  l ++ beW (crc32c l)

/-- The remote address of slot `cp` of a session's record ring, and the ring's key. -/
def Dev.recordAt (d : Dev) (n cp : Nat) : Nat × Word :=
  (d.addr64 (Reg.PAGE_S_CRING_LO (n - 1)) (Reg.PAGE_S_CRING_HI (n - 1)) + 64 * cp, w32 (d.rd (Reg.PAGE_S_CRING_RKEY (n - 1))))

/-- The remote address of an offset in a session's data ring, and the ring's key. -/
def Dev.ringAt (d : Dev) (n off : Nat) : Nat × Word :=
  (d.addr64 (Reg.PAGE_S_DRING_LO (n - 1)) (Reg.PAGE_S_DRING_HI (n - 1)) + off, w32 (d.rd (Reg.PAGE_S_DRING_RKEY (n - 1))))

/-- A session's completion record is written to slot `cp` of its ring. -/
def Dev.sendRecord (d : Dev) (n cp : Nat) (rec0 : List Byte) : Dev :=
  d.rdmaWrite n (d.recordAt n cp).1 (d.recordAt n cp).2 rec0

/-- A session's container is written to its data ring at an offset. -/
def Dev.sendContainer (d : Dev) (n off : Nat) (b : List Byte) : Dev :=
  d.rdmaWrite n (d.ringAt n off).1 (d.ringAt n off).2 b

/-- The completion record of a delivery (R201) is written where its ring has room. -/
def Dev.writeRecord (d : Dev) (x : Deliv) : Dev :=
  match d.delivPage x with
  | none => d
  | some (p, b) =>
    let i := x.session - 1
    let n := d.rd (Reg.PAGE_S_CRING_N i)
    let cp := d.rd (Reg.PAGE_S_CPROD i)
    if n = 0 ∨ (cp + 1) % n = d.rd (Reg.PAGE_S_CCONS i) % n then d
    else
      let r := (aget d.pages.rseq x.session).getD 0 + 1
      let size := d.rd (Reg.PAGE_S_DRING_LEN i) * 4096
      let d := d.sendRecord x.session cp (recordBytes x p b r)
      let d := (d.put (Reg.PAGE_S_CPROD i) ((cp + 1) % n)).put (Reg.PAGE_S_DPROD i)
        (roundUp (x.offset + b.length) 4096 % max 1 size)
      ({ d with pages := { d.pages with rseq := aset d.pages.rseq x.session r } }).modDeliv fun x => { x with record := true }

/-- An RDMA delivery starts (R201), or waits for a ring large enough (R200) or for room in it. -/
def Dev.startRdma (d : Dev) (p : Page) (b : List Byte) (n : Nat) : Dev :=
  let i := n - 1
  let size := d.rd (Reg.PAGE_S_DRING_LEN i) * 4096
  if (d.qp n).st ≠ 1 ∨ size = 0 ∨ d.rd (Reg.PAGE_S_CRING_N i) = 0 then d
  else if size < b.length then
    if d.pages.tooSmall == some p.id then d
    else { d with pages := { d.pages with tooSmall := some p.id } }.logHere { cls := 0x10, code := 3, unit := n, a := p.id.toNat }
  else
    let d := { d with pages := { d.pages with tooSmall := none } }
    let at_ := roundUp (d.rd (Reg.PAGE_S_DPROD i)) 4096
    let at_ := if size < at_ + b.length then 0 else at_
    let dp := d.rd (Reg.PAGE_S_DPROD i)
    let dc := d.rd (Reg.PAGE_S_DCONS i)
    let free := if dp = dc then size else (dc + size - dp) % size
    if free < b.length + 4096 then 
      if d.pages.wait == some p.id then d
      else { d with pages := { d.pages with wait := some p.id } }.bump Reg.PAGE_RING_WAIT_CNT
    else
      let d := { d with pages := { d.pages with
        wait := none, deliv := some ⟨p.id, p.serial, n, true, at_, false, b.length, 0, 0, []⟩ } }
      d.sendContainer n at_ b

/-- A line-stream datagram (R202): header, payload, and the CRC-32C over both. -/
def streamBytes (kind session : Nat) (page : Word) (offset flags dseq : Nat) (data : List Byte) : List Byte :=
  let b := be 1 0xA9 ++ be 1 2 ++ be 2 kind ++ be 2 session ++ be 2 0 ++ beW page ++ be 8 offset ++ be 2 data.length
    ++ be 2 flags ++ be 4 dseq ++ be 4 0 ++ data
  b ++ beW (crc32c b)

/-- One DATA datagram of a session, to its bound address at PAGE_Ss_UDP_PORT (R202). -/
def Dev.sendData (d : Dev) (ses : Session) (x : Deliv) (off : Nat) (last retx : Bool) (data : List Byte) : Dev :=
  let q := ((aget d.pages.dseq x.session).getD 0 + 1) % 2 ^ 32
  ({ d with pages := { d.pages with dseq := aset d.pages.dseq x.session q } }).send ses.port 2
    (.stream ⟨ses.ep.ip, d.rf (Reg.PAGE_S_UDP_PORT (x.session - 1)) 15 0⟩
      (streamBytes 1 x.session x.page off (b2n last + 2 * b2n retx) q data))

/-- The largest LEN of a session's datagrams (R202). -/
def Dev.dataMax (d : Dev) (ses : Session) : Nat := max 1 (d.mtu ses.port - ipOverhead ses.ep - 36)

/-- The end of the unacknowledged bytes that the window allows (R202). -/
def Dev.udpLimit (d : Dev) (x : Deliv) : Nat := x.acked + d.rd (Reg.PAGE_S_UDP_WIN (x.session - 1)) * 1024

/-- Send a container from an offset to `stop`, in datagrams of the largest LEN but for its last one, none of them beyond
`lim`; answers where it ended. -/
def Dev.sendRange (d : Dev) (ses : Session) (x : Deliv) (b : List Byte) (retx : Bool) (stop lim : Nat) :
    Nat → Nat → Dev × Nat
  | 0, off => (d, off)
  | fuel + 1, off =>
    let m := min (d.dataMax ses) (b.length - off)
    if stop ≤ off ∨ lim < off + m then (d, off) else
    let d := d.sendData ses x off (off + m == b.length) retx (slice b off m)
    (d.bumpIf retx Reg.PAGE_UDP_RETX_CNT).sendRange ses x b retx stop lim fuel (off + m)

/-- New data as far as the window allows (R202). -/
def Dev.pushUdp (d : Dev) : Dev :=
  match d.pages.deliv with
  | none => d
  | some x =>
    match d.delivPage x, d.ses? x.session with
    | some (_, b), some ses =>
      if x.rdma then d else
      let r := d.sendRange ses x b false b.length (d.udpLimit x) b.length x.sent
      r.1.modDeliv fun x => { x with sent := max x.sent r.2 }
    | _, _ => d

/-- DELIVERY_START (R200 to R202): the next container begins, or a completion record that waited is written. -/
def execDeliveryStart (s : State) : Host.Outcome State Fault Refusal := s.onDev fun d =>
  if !d.served then d else
  match d.pages.deliv with
  | some x => if x.rdma && !x.record && x.acked != 0 then d.writeRecord x else d
  | none =>
    match d.nextDelivery with
    | none => d
    | some (p, b, n) =>
      if d.delivMode n = 1 then d.startRdma p b n
      else
        ({ d with pages := { d.pages with
          wait := none
          deliv := some ⟨p.id, p.serial, n, false, 0, false, 0, 0, d.rd Reg.PAGE_UDP_RTO, []⟩ } }).pushUdp

/-- A delivery is complete (R203): its buffer is released, JOB_PAGE is sent, and JOB_END follows the last page. -/
def Dev.delivered (d : Dev) (x : Deliv) : Dev :=
  match d.delivPage x with
  | none => d
  | some (p, _) =>
    let d := { d with
      pages := { d.pages with list := d.pages.list.filter (fun (q : Page) => !(q == p)), deliv := none, wait := none }
      cox := { d.cox with rel := (d.now, p.alloc) :: d.cox.rel }
      jobs := d.jobs.map (fun (j : Job) => if j.serial == p.serial then { j with delivered := j.delivered + 1 } else j) }
    let d := (d.bump Reg.PAGE_DELIV_CNT).put Reg.PAGE_LAST_ID p.id.toNat
    ((d.jobEv p.serial 4 (beW p.job ++ beW p.id ++ be 4 p.mflags)).dmaRequests 3 0).jobEndCheck p.serial

/-- RDMA_ACK_RX (R201, R373): the oldest RDMA WRITE outstanding is acknowledged. Whether the acknowledgement carries ECN CE
(R374) is a free value. -/
def execRdmaAckRx (s : State) : Host.Outcome State Fault Refusal := s.onDev fun d =>
  match d.pages.deliv with
  | none => d
  | some x =>
    if !x.rdma then d else
    let (v, d) := d.free 38
    let d := (d.qpRx x.session 1).ecn x.session (v.getLsbD 0)
    let d := d.modQp x.session fun q => { q with resends := 0 }
    if x.record then d.delivered x
    else
      let d := d.modDeliv fun x => { x with acked := max 1 x.sent }
      d.writeRecord { x with acked := max 1 x.sent }

/-- A client's datagram as its CRC covers it: KIND 2 is an ACK, 3 a NAK with its ranges. -/
def clientBytes (f : ClientData) (kind : Nat) : List Byte :=
  streamBytes kind f.session f.page f.offset 0 0 (f.ranges.flatMap (fun r => be 8 r.1 ++ be 4 r.2))

/-- A client's datagram has the CRC of its bytes (R202). -/
def clientOk (f : ClientData) (kind : Nat) : Bool :=
  beW f.crc == (clientBytes f kind).drop ((clientBytes f kind).length - 4)

/-- A client's datagram on the container being sent: intact, of the delivery's session and page, and from the binding of
its session (R53, R202), the address and port of its SESSION_OPEN. -/
def Dev.fromClient (d : Dev) (src : Endpoint) (f : ClientData) (kind : Nat) : Option Deliv :=
  match d.pages.deliv, d.ses? f.session with
  | some x, some ses =>
    if clientOk f kind && !x.rdma && x.session == f.session && x.page == f.page && src == ses.ep then some x else none
  | _, _ => none

/-- A client's datagram comes in a frame on its session's port (R362, R369). -/
def Dev.clientRx (d : Dev) (f : ClientData) : Dev :=
  match d.ses? f.session with
  | some x => d.rxFrame x.port
  | none => d

/-- UDP_ACK_RX (R202): every byte below OFFSET has been received. -/
def execUdpAckRx (src : Endpoint) (f : ClientData) (s : State) : Host.Outcome State Fault Refusal := s.onDev fun d =>
  let d := d.clientRx f
  match d.fromClient src f 2 with
  | none => d
  | some x =>
    match d.delivPage x with
    | none => d
    | some (_, b) =>
      if f.offset ≤ x.acked ∨ x.sent < f.offset then d
      else
        let d := d.modDeliv fun x => { x with acked := f.offset, rto := d.rd Reg.PAGE_UDP_RTO }
        if f.offset = b.length then d.delivered { x with acked := f.offset } else d.pushUdp

/-- The datagrams that hold a range of the bytes sent go out again (R202). -/
def Dev.resendRange (d : Dev) (ses : Session) (x : Deliv) (b : List Byte) (r : Nat × Nat) : Dev :=
  let m := d.dataMax ses
  (d.sendRange ses x b true (min (r.1 + r.2) x.sent) (d.udpLimit x) b.length (r.1 / m * m)).1

/-- UDP_NAK_RX (R202): NAKed ranges are sent again, with RETX, before new data. -/
def execUdpNakRx (src : Endpoint) (f : ClientData) (s : State) : Host.Outcome State Fault Refusal := s.onDev fun d =>
  let d := d.clientRx f
  match d.fromClient src f 3 with
  | none => d
  | some x =>
    match d.delivPage x, d.ses? x.session with
    | some (_, b), some ses => ((f.ranges.take 64).foldl (fun (d : Dev) r => d.resendRange ses x b r) d).pushUdp
    | _, _ => d

/-- UDP_RTO (R202): the ACK offset has not advanced; everything after it is sent again and the interval doubles. -/
def execUdpRto (s : State) : Host.Outcome State Fault Refusal := s.onDev fun d =>
  match d.pages.deliv with
  | none => d
  | some x =>
    match d.delivPage x, d.ses? x.session with
    | some (_, b), some ses =>
      if x.rdma || x.sent ≤ x.acked then d else
      (d.sendRange ses x b true x.sent (d.udpLimit x) b.length x.acked).1.modDeliv fun x =>
        { x with rto := min 100000 (2 * x.rto) }
    | _, _ => d

end Sys2Proof.Machine
end

