-- ==== Sys2Proof/Machine/Pacing.lean ====
section
/-! DEFINITION. Cox pacing and the Clasp's holds and splices (R274 to R300): the pacing law, HOLD and SPLICE entry, the
profile period boundary, the reference set, and the decision of a splice. -/

namespace Sys2Proof.Machine

open Sys2Proof

/-! The Cox (R276 to R279, R285). -/

/-- A stop for pace (R277). -/
def Dev.paceStop (d : Dev) : Dev :=
  if bit d.hold hcPace then d else (d.setHold hcPace).bump Reg.COX_HOLD_CNT

/-- The pacing law of a period in SCAN (R277). The CMD frame of the period carries its limit, or no limit outside PACING
(R18, R278); it takes effect when it reaches the motion block, at the next boundary. A stop for pace takes its place. -/
def Dev.coxScan (d : Dev) (b : Nat) : Dev :=
  let mib := 1048576
  let d :=
    if d.rd Reg.COX_HOLD_MARK * mib ≤ b then d.paceStop
    else if d.cox.st = 1 ∧ d.rf Reg.COX_CTRL 0 0 = 1 ∧ d.rd Reg.COX_HWM * mib ≤ b then
      { d with cox := { d.cox with st := 2 } }.bump Reg.COX_PACE_CNT
    else if d.cox.st = 2 ∧ b < d.rd Reg.COX_LWM * mib then
      { d with cox := { d.cox with st := 1 } }
    else d
  if d.cox.st = 2 then
    let v := d.lawSpeed d.cox.drain
    if v < d.rd Reg.COX_VMIN then d.paceStop else d.sendCmd (.coxLimit v)
  else d.sendCmd .coxRelease

/-- COX_PERIOD (R274, R277, R278, R285). Releases are kept for the longest COX_TAU, 10 s. -/
def execCoxPeriod (s : State) : Host.Outcome State Fault Refusal := s.onDev fun d =>
  let d := { d with cox := { d.cox with
    drain := d.drainRate, rel := d.cox.rel.filter (fun x => decide (d.now ≤ x.1 + msCyc 10000)) } }
  let b := d.pageFill
  let d := match d.mode with
    | .scan => if d.jobHeld then d.coxScan b else d
    | .splice => if d.rd Reg.COX_HOLD_MARK * 1048576 ≤ b then d.paceStop else d
    | _ => d
  if bit d.hold hcPace && (d.mode == .hold || d.mode == .splice) && decide (b < d.rd Reg.COX_LWM * 1048576) then
    d.clrHold hcPace
  else d

/-! The profile period boundary (R244, R284). -/

/-- No Cox limit on the feed group (R276, R278). -/
def Dev.noLimit (d : Dev) : Dev :=
  match d.feed with
  | some g => d.modGrp g fun (x : Group) => { x with vpace := none, paceNext := none }
  | none => d

/-- What ends when the feed group is at rest: the Cox is HELD, FAULT of an illegal encoder transition or of the overspeed
limit clears, and without a link the lamps go dark (R284, R239, R92, R28). -/
def Dev.feedAtRest (d : Dev) : Dev :=
  if !d.feedStill then d else
  let d := if d.mode == .hold && d.cox.st == 3 then { d with cox := { d.cox with st := 4 } }.noLimit else d
  let d := if bit d.flt.why whyEnc then d.clrFault whyEnc else d
  let d := if bit d.flt.why whyOver && d.seq.pend.isEmpty then (d.clrFault whyOver).recEnd 8 1 none else d
  if d.bzl.inhibit then d.darken else d

/-- The STATUS frame of a period (R19): the rails, PG_F and the mode as the field side holds them, temperatures and VREFX
as it measures them, free values, and counters of the field side. While the link works it goes at once or behind what is
staged (R21). The spec gives its payload no layout (log 142). -/
def Dev.statusFrame (d : Dev) : Dev :=
  if d.fieldRuns && d.bzl.f2h.up then
    let p := be 1 (d.rd Reg.PWR_RAIL_F) ++ be 1 (b2n d.pwr.pgF) ++ be 1 d.bzl.fieldMode.code ++
      (List.range 7).flatMap (fun i => be 4 (Config.freeValue 30 (d.frees + i)).toNat) ++
      [Reg.SEQ_CATCH_CNT, Reg.SEQ_WITHHELD_CNT, Reg.SEQ_LANE_ERR_CNT, Reg.SEQ_WDOG_CNT].flatMap (fun a => be 4 (d.rd a))
    { d with frees := d.frees + 7 }.fieldFrame (newFrame 2 0 p)
  else d

/-- The host die measures the temperature of its Bezel end once per period (R331; the cadence is the model's, log 176): a
free value. -/
def Dev.hostEndTemp (d : Dev) : Dev :=
  let (v, d) := d.free 45
  d.put Reg.CAL_TBZ_H (v.toNat % 65536)

/-- What the FEC of an Ethernet port with a link has done in a period (R364, R384): the codewords corrected and not
correctable, and whether the rate of corrections shows, are free values (the cadence is the model's, log 193). -/
def Dev.fecPeriod (d : Dev) (i : Nat) : Dev :=
  if !d.link (portOf i) then d else
  let (u, d) := d.free 40
  let (v, d) := d.free 41
  let (w, d) := d.free 42
  ((d.bumpBy (Reg.NET_P_FEC_CORR_CNT i) (u.toNat % 2 ^ 16)).bumpBy (Reg.NET_P_FEC_UNCORR_CNT i) (v.toNat % 2 ^ 16)).putF
    (Reg.NET_P_STAT i) 29 29 (w.toNat % 2)

/-- PROFILE_BOUNDARY (R244): every group's and every homing axis's next period, and the following-error check; and the
field side's STATUS frame (R19). STEP outputs are idle during a warm restart (R396). -/
def execProfileBoundary (s : State) : Host.Outcome State Fault Refusal := s.onDev fun d =>
  let d := (((d.elapse (periodCyc - d.now % periodCyc)).statusFrame.hostEndTemp).fecPeriod 0).fecPeriod 1
  if d.flt.l2run then d else
  let d := (List.range 4).foldl (fun d g => d.groupPeriod g) d
  let d := (List.range 12).foldl (fun d a => d.homePeriod a) d
  let d := (List.range 12).foldl (fun d a => d.feCheck a) d.homeCheck
  d.feedAtRest

/-! HOLD (R36, R284, R299). -/

/-- HOLD_ENTRY (R38, R284): with a hold cause set in SCAN or SPLICE, Catches are disabled and the stop is commanded. A
splice under way is interrupted (R299). -/
def execHoldEntry (s : State) : Host.Outcome State Fault Refusal := s.onDev fun d =>
  if (d.mode == .scan || d.mode == .splice) && d.hold != 0 && d.jobHeld then
    let d := if d.mode == .splice then d.holdBegins.dropBand
      else { d.holdBegins with seq := { d.seq with bandWait := false } }
    let d := match d.feed with
      | some g => d.modGrp g fun (x : Group) =>
          if x.intern = 3 ∧ d.mode = Mode.scan then { x with heldPos := [] } else x
      | none => d
    let hardStop := match d.feed with | some g => decide ((d.grp g).st = GSt.fault ∨ d.cox.stop = 2 ∧ (d.grp g).v = 0) | none => false
    let d := (d.catchOff true).stopFeed
    let d := { d with cox := { d.cox with st := 3, stop := if hardStop then 2 else 1 } }
    let d := if d.cls.step = 1 then d else { d with cls := { d.cls with step := if d.cls.fixed then 1 else 0 } }
    let d := { d with cal := { d.cal with afeRun := [], afeAgain := d.cal.afeRun.map AfeRun.quad } }
    (d.setMode .hold).reloadMaps.stopCheck
  else d

/-! The reference set (R287). -/

/-- The longest tail of strokes, newest first, whose grid indices are consecutive. -/
def consecutive : List Ing → List Ing
  | [] => []
  | [a] => [a]
  | a :: b :: l => if b.k + 1 = a.k then a :: consecutive (b :: l) else [a]

/-- The reference set is fixed for this hold. -/
def Dev.fixRefs (d : Dev) : Dev :=
  if d.cls.fixed then d else
  let old := match d.cls.breakAt with
    | some n => d.cls.ring.filter (fun (x : Ing) => decide (x.no < n))
    | none => d.cls.ring.filter (fun (x : Ing) => decide (x.no ≤ d.cls.holdNo))
  let refs := ((consecutive old.reverse).take (d.rd Reg.CLS_REF)).reverse
  let last := match refs.getLast? with | some x => x.no | none => d.cls.refLast
  { d with cls := { d.cls with refs := refs, fixed := true, step := 1, refLast := last } }

/-- Strokes framed before the hold are still on the way, and its reference set is not fixed (R287). -/
def Dev.beforeHold (d : Dev) : Bool := !d.cls.fixed && d.bzl.framed.any (fun (f : Framed) => decide (f.no ≤ d.cls.holdNo))

/-- CLASP_REF_FIXED (R287): every stroke framed before the hold has been ingested or discarded. -/
def execClaspRefFixed (s : State) : Host.Outcome State Fault Refusal :=
  s.onDev fun d => if d.mode == .hold && d.jobHeld && !d.beforeHold then d.fixRefs else d

/-! SPLICE (R288 to R291). -/

/-- The move whose path the internal moves follow (R254, R290), with its path coordinate: the held move, else the last
move of the group, else the lowest-numbered enabled axis alone at its homing speed. -/
def Dev.spliceMove (d : Dev) (g : Nat) : Option Move × Nat × Move :=
  let x := d.grp g
  let held := if x.intern = 0 then x.cur else x.heldMove
  let u := if x.intern = 0 then x.u else x.heldU
  match held with
  | some m => (some m, u, m)
  | none =>
    match x.lastMove with
    | some m => (none, 0, m)
    | none =>
      let a := (d.groupAxes g).headD 0
      let acc := d.rd (Reg.MOT_A_HOME_ACC a)
      (none, 0, ⟨0, d.rd (Reg.MOT_A_HOME_V a), acc, acc, false, [(a, (d.ax a).pos + 65536)], [(a, (d.ax a).pos)], 0⟩)

/-- v_s (R289), lead steps/s. -/
def Dev.spliceSpeed (d : Dev) (vmax : Nat) : Nat :=
  if d.pageFill < d.rd Reg.COX_HWM * 1048576 then vmax
  else min vmax (max (d.lawSpeed d.cox.drain) (d.rd Reg.COX_VMIN))

/-- n_u (R288). -/
def Dev.runUp (d : Dev) (vs acc : Nat) : Nat :=
  let c := d.regs.act
  let a := rdA c Reg.CLS_REWIND + 2 - (rdA c Reg.CLS_REF + rdA c Reg.CLS_SEARCH + nphOf c)
  -- v_s² / (2 × ACC × s_st), s_st = pitch / ρ
  max a (ceilDiv (vs * vs * d.rho) (2 * max 1 acc * max 1 (pitchOf c)) + 2)

/-- The internal moves of a splice start (R254, R288, R290). -/
def Dev.startRewind (d : Dev) (g : Nat) (kb : Int) : Dev :=
  let x := d.grp g
  let (held, u, m) := d.spliceMove g
  let vs := d.spliceSpeed m.vmax
  let lead := m.lead.getD ((d.groupAxes g).headD 0)
  let kw : Int := kb - d.runUp vs m.acc
  let gw : Int := d.seq.grid kw
  let back : Int := (d.feedPos d.now - gw) * 65536 / (d.rho : Int) + ((d.rf (Reg.MOT_A_FE_CFG lead) 31 16 * 65536 : Nat) : Int)
  let here := m.target.map (fun (t : Nat × Int) => (t.1, (d.ax t.1).pos))
  let at_ := if x.intern = 0 ∨ x.heldPos.isEmpty then here else x.heldPos
  let len : Int := m.len
  let away := here.map (fun (t : Nat × Int) => (t.1, t.2 - m.d t.1 * back / max 1 len))
  let far := here.map (fun (t : Nat × Int) => (t.1, t.2 + m.d t.1 * 1048576))
  let base : Move := { m with id := 0, session := 0, blend := false, start := here, target := away }
  let set := fun (cur : Move) (intern : Nat) => d.modGrp g fun x => { x with
    cur := some cur, heldMove := held, heldU := u, heldPos := at_, vs := vs, intern := intern, u := 0, v := 0, st := .run, ending := none
    stopAt := none, stopDue := false, bandStop := false, brake := none }
  if 0 < back then set base 1
  else
    let d' := match held with
      | some _ => set { base with target := at_, vmax := vs } 2
      | none => set { base with target := far, vmax := vs } 3
    { d' with cls := { d'.cls with step := 3 } }

/-- SPLICE_ENTRY (R38, R288, R290, R291): every hold cause is clear and the feed group rests. A hold without reference
strokes ends at once. A feed axis without a valid position keeps the job in HOLD (R41). -/
def execSpliceEntry (s : State) : Host.Outcome State Fault Refusal := s.onDev fun d =>
  match d.mode, d.feed with
  | .hold, some g =>
    if d.hold ≠ 0 ∨ !d.feedStill ∨ (d.groupAxes g).any (fun a => !(d.ax a).valid) ∨ d.beforeHold = true then d else
    let d := (if d.cls.staging.isEmpty then d else d.dropBand).fixRefs
    let d := { d with seq := { d.seq with withhold := false, limit := false }, cox := { d.cox with st := 5 } }.noLimit
    let d := d.setMode .splice
    match d.cls.refs.head? with
    | none =>
      let d := { d with cls := { d.cls with step := 0, fixed := false, causes := 0, breakAt := none } }
      let d := if (d.grp g).cur.isSome then d.modGrp g fun x => { x with st := .run } else d.startNext g 0 33
      ((d.setMode .scan).coxScanEntry).catchOn false
    | some r =>
      let c := d.regs.act
      let kb : Int := (r.k : Int) - rdA c Reg.CLS_SEARCH - nphOf c + 1
      let d := { d with
        seq := { d.seq with high := (kb - 1).toNat }
        cls := { d.cls with kb := kb, step := 2, band := 0, staging := [] } }
      d.startRewind g kb
  | _, _ => d

end Sys2Proof.Machine
end

