-- ==== Sys2Proof/Machine/Faults.lean ====
section
/-! DEFINITION. Faults and background work (R390 to R406, R410, R446): core pairs, double errors, watchdogs, recoveries,
SAFE, scrubbing, flash maintenance, and the fault log's flash copy. -/

namespace Sys2Proof.Machine

open Sys2Proof

/-! Core pairs (R390). -/

/-- The application pairs in service. -/
def Dev.serving (d : Dev) : Nat := popc (d.rd Reg.FLT_CORE_STAT) 4

/-- A pair is retired, and the standby pair takes its place (R390). -/
def Dev.retirePair (d : Dev) (k : Nat) : Dev :=
  let w := d.rd Reg.FLT_CORE_STAT
  let standby := w / 16 % 16
  let w := (clrBit (w % 16) k ||| standby) + setBit (w / 256 % 16) k * 256
  let r : FaultRec := { cls := 0xD, code := 3, unit := k, action := 1 }
  let d : Dev := { d.put Reg.FLT_CORE_STAT w with flt := { d.flt with lock := adel d.flt.lock k } }
  if d.serving < 2 then d.enterSafe scCores r else d.logHere r

/-- LOCKSTEP_MISMATCH (R390): of an application pair 0 to 3, or of the field supervisor pair, 4. -/
def execLockstepMismatch (pair : Nat) (s : State) : Host.Outcome State Fault Refusal := s.onDev fun d =>
  if pair < 4 then
    if !bit (d.rd Reg.FLT_CORE_STAT) pair then d else
    let d := d.bump Reg.FLT_LOCKSTEP_CNT
    let again := match aget d.flt.lock pair with
      | some t => decide (d.ns ≤ t + d.rd Reg.FLT_ESC_WIN * 1000000000)
      | none => false
    if again then d.retirePair pair
    else
      { d.logHere { cls := 0xD, code := 1, unit := pair, action := 1 } with
        flt := { (d.logHere { cls := 0xD, code := 1, unit := pair, action := 1 }).flt with
          lock := aset d.flt.lock pair d.ns } }
  else if pair ≠ 4 ∨ !d.fieldRuns then d
  else
    let d := d.bump Reg.FLT_LOCKSTEP_CNT
    let r : FaultRec := { cls := 0xD, code := 2, unit := 4, field := true }
    match d.recurs 0xD 2 4 with
    | some _ => d.recover r 1 true
    | none =>
      let i := d.flt.next
      -- rolled back and retried at once: the second mismatch escalates from this entry
      (d.logHere { r with action := 1 }).recovered ⟨1, 0xD, 2, 4, false, i, d.now⟩

/-- CORE_CHECKPOINT (R390). -/
def execCoreCheckpoint (s : State) : Host.Outcome State Fault Refusal :=
  s.onDev fun d => { d with flt := { d.flt with ckpt := d.flt.ckpt + 1 } }

/-! Double errors (R391). -/

/-- A page of the buffer or its container has a poisoned word in section `sect` (R391): it will be delivered as zeros, and
the container is not signed. -/
def Dev.poisonPage (d : Dev) (p : Page) (sect offset : Nat) : Dev :=
  let q := { p with poison := (sect, offset / 8 * 8) :: p.poison }
  let q := match p.container with
    | some _ => let b := q.build d.pages.key; { q with container := some b.1, mflags := b.2.1 }
    | none => q
  { d with pages := { d.pages with list := d.pages.list.map (fun (x : Page) => if x == p then q else x) } }

/-- ECC_DOUBLE_ERROR (R335, R391, R403): the response to a double error by the region in which it lies; one that a scrubber
found is counted. The entry of a page's word names the section and the offset in C, which R412 leaves unused (log 195). -/
def execEccDoubleError (h : EccHit) (addr : Nat) (s : State) : Host.Outcome State Fault Refusal := s.onDev fun d =>
  let d := d.bumpIf h.scrub Reg.FLT_SCRUB_DBL_CNT
  let dram := fun (d : Dev) => d.bump Reg.DMA_ECC_DBL_CNT
  match h.region with
  | .runtime journal =>
    let sram := decide (0x1000000000 ≤ addr)
    let d := if sram then d else dram d
    let f : FaultRec := { cls := 0xC, code := if sram then 3 else 1, a := addr }
    if journal then (d.log { f with action := 5 } d.mode .reset).level3Run [⟨3, f.cls, f.code, 0, false, d.flt.next, d.now⟩] else d.recover f 1 false
  | .shared =>
    let w := addr / 8 * 8
    let d := (dram d).logHere { cls := 0xC, code := 1, a := addr }
    { d with dma := { d.dma with poison := if d.dma.poison.contains w then d.dma.poison else w :: d.dma.poison } }
  | .page id sect offset =>
    match d.pages.list.find? (fun (p : Page) => p.id == id) with
    | none => dram d
    | some p =>
      ((dram d).logHere { cls := 0xC, code := 1, a := addr, b := id.toNat, c := sect % 2 ^ 32 * 2 ^ 32 + offset % 2 ^ 32,
                          job := some p.job }).poisonPage p sect offset
  | .reference =>
    let d := (dram d).logHere { cls := 0xC, code := 1, a := addr }
    { d with cls := { d.cls with poisoned := true } }
  | .staging =>
    let d := (dram d).logHere { cls := 0xC, code := 1, a := addr }
    match d.cls.staging.getLast? with
    | some x => { d with cls := { d.cls with staging := d.cls.staging.dropLast } }.discardStroke (x.no % 2 ^ 32) 3
    | none => d
  | .strokeBuf =>
    if !d.fieldRuns then d else
    (d.withhold (fun _ => true)).recover { cls := 0xC, code := 2, field := true, a := addr } 1 true
  | .mapSlot m => if m < 8 then poisonAt_ m addr d else d
  | .defectBank n bank => if n < 32 then poisonAt_ (2 * n + 8 + b2n bank) addr d else d
where
  /-- A slot or bank is poisoned; in use, its stroke is withheld and it is reloaded once Catches are disabled. -/
  poisonAt_ (x addr : Nat) (d : Dev) : Dev :=
    let w := (x, addr % 2 ^ 24 / 8 * 8)
    let d := { d with flt := { d.flt with poison := if d.flt.poison.contains w then d.flt.poison else w :: d.flt.poison } }
    let used := d.poisonUsed.contains x
    let d := if used then (d.withhold (fun _ => true)).setFault whyMap else d
    let d := d.log { cls := 0xC, code := 2, action := if used then d.faultAction else 0, field := true, a := addr
                     b := if x < 8 then d.tag x 4 4 else 0 } d.mode d.leadsTo
    if used && d.mode != .scan && d.mode != .splice then d.reloadMaps else d

/-! Watchdogs (R393). -/

/-- HOST_WDOG_EXPIRE (R393): the runtime restarts at level 1; no hold cause is set. -/
def execHostWdogExpire (s : State) : Host.Outcome State Fault Refusal :=
  s.onDev fun d => (d.bump Reg.FLT_WDOG_CNT).recover { cls := 0xE, code := 1 } 1 false

/-- FIELD_WDOG_EXPIRE (R393): level 2. -/
def execFieldWdogExpire (s : State) : Host.Outcome State Fault Refusal := s.onDev fun d =>
  if d.fieldRuns then (d.bump Reg.FLT_WDOG_CNT).recover { cls := 0xE, code := 2, field := true } 2 true else d

/-! Recoveries (R394 to R397). -/

/-- Level 1 recoveries of some faults complete; FAULT of level 1 clears with the last that set it. -/
def Dev.l1Done (d : Dev) (p : Recov → Bool) : Dev :=
  let d := (d.flt.recs.filter (fun (x : Recov) => x.level == 1 && p x)).foldl (fun (d : Dev) x => d.recovered x) d
  if d.flt.recs.any (fun (x : Recov) => x.hold && x.level != 2) then d
  else if bit d.flt.why whyL1 then d.clrFault whyL1 else d

/-- RECOVERY_L1_DONE (R394): a block's restart completes. -/
def execRecoveryL1Done (b : Block) (s : State) : Host.Outcome State Fault Refusal := s.onDev fun d =>
  match b with
  | .afe t => d.l1Done (fun x => x.cls == 6 && x.code == 1 && x.unit == t)
  | .pipeline =>
    let d := d.l1Done (fun x => x.cls == 8 && x.code == 3 || x.cls == 0xC && x.code == 2)
    if bit d.flt.why whyPipe then d.clrFault whyPipe else d
  | .profile g => d.profileRestarted g
  | .dmaCh n => if n < 16 then d.chanRestarted n else d
  | .engine e =>
    let d := d.l1Done (fun x => x.cls == 0xF && x.unit == e)
    { d with pages := { d.pages with engRestart := clrBit d.pages.engRestart e } }.issueUnits
  | .lampChain n => d.l1Done (fun x => x.cls == 0xA && x.unit == n)
  | .runtime => d.l1Done ofRuntime
  | .rootPll =>
    let d := d.l1Done (fun x => x.cls == 3 && x.code == 1)
    { d with bzl := { d.bzl with rootLock := true } }

/-- FIELD_WARM_RESTART (R396): a level 2 restart that is due starts once the feed is at rest. -/
def execFieldWarmRestart (s : State) : Host.Outcome State Fault Refusal := s.onDev fun d =>
  if !d.flt.l2due || !d.fieldRuns || !d.feedStill then d else
  let d := ((d.failRun stFault true).catchOff false).stopClocks
  { d with
    flt := { d.flt with
      l2due := false, l2run := true
      recs := d.flt.recs.map (fun (x : Recov) => if x.level = 2 then { x with since := d.now } else x) }
    seq := { d.seq with pend := [], flight := [], flush := false, flushDue := false, lanes := 0, ht := [] }
    afe := { d.afe with suspect := [] }
    lamp := { d.lamp with chains := d.lamp.chains.map (fun (c : Chain) => { c with
      gate := [], want := none, shifting := false, shifted := false, next := none }) }
    mot := { d.mot with
      axes := d.mot.axes.map (fun (a : Axis) => { a with rate := 0, moving := false, home := none })
      groups := d.mot.groups.map (fun (g : Group) => if g.still then g else { g with
        v := 0, st := if g.cur.isSome then .halted else .rest, stopAt := none, stopDue := false, hard := false }) } }

/-- What the field die takes up again after a warm restart: slots are checked before reuse, and FAULT clears; its clocks run
and its lamp patterns are shifted again. -/
def Dev.warmDone (d : Dev) : Dev :=
  let d := (List.range 8).foldl (fun (d : Dev) m => if bit d.cal.valid m then d.checkSlot m else d) d
  let d := (d.flt.recs.filter (fun (x : Recov) => x.level == 2)).foldl (fun (d : Dev) x => d.recovered x)
    { d with flt := { d.flt with l2run := false } }
  let d := if !bit d.flt.why whyL1 || d.flt.recs.any (fun (x : Recov) => x.hold && x.level != 2) then d else d.clrFault whyL1
  (d.clrFault whyL2).startClocks.shiftAll

/-- FIELD_WARM_RESTART_DONE (R396). -/
def execFieldWarmRestartDone (s : State) : Host.Outcome State Fault Refusal := s.onDev fun d =>
  if d.flt.l2run then d.warmDone.serviceCatches else d

/-- LEVEL3_RESTART (R397). -/
def execLevel3Restart (s : State) : Host.Outcome State Fault Refusal := s.onDev fun d =>
  if d.mode == .off || d.mode == .reset then d else d.level3

/-- The instant at which a recovery misses its bound (R394): 50 µs, 1 ms or 30 ms after its start. -/
def Recov.deadline (x : Recov) : Nat := x.since + (if x.level = 0 then usCyc 50 else if x.level = 1 then msCyc 1 else msCyc 30)

/-- Of the recoveries under way the one whose bound ends first; a level 2 restart that waits for the feed has not started. -/
def Dev.lateRecov (d : Dev) : Option Recov :=
  (d.flt.recs.filter (fun (x : Recov) => x.level == 0 || x.level == 1 || x.level == 2 && d.flt.l2run)).foldl
    (fun (m : Option Recov) x => match m with
      | some y => if x.deadline < y.deadline then some x else m
      | none => some x) none

/-- RECOVERY_TIMEOUT (R395): the recovery whose bound ends first misses it and goes one level up; a level 3 restart that
misses its bound ends in SAFE, cause RECOVERY. -/
def execRecoveryTimeout (s : State) : Host.Outcome State Fault Refusal := s.onDev fun d =>
  match d.lateRecov with
  | some x => ({ d with flt := { d.flt with l2run := if x.level = 2 then false else d.flt.l2run } }).escalate x
  | none => if d.flt.l3run && !d.flt.l3fail then
      { d.bump Reg.FLT_ESC_CNT with flt := { d.flt with l3fail := true } } else d

/-! SAFE (R401). -/

/-- The state check of a cause that has one. -/
def Dev.stateCheck (d : Dev) (b : Nat) : Bool :=
  if b = scFeedLimit then
    !(match d.feed with | some g => d.groupAxes g | none => []).any (fun a => d.limAct a true || d.limAct a false)
  else if b = scMap then d.poisonUsed.isEmpty
  else if b = scCores then decide (2 ≤ d.serving)
  else true

/-- The state checks of FAULT_CLEAR for the causes set. -/
def Dev.clearOk (d : Dev) : Bool := (List.range 9).all (fun b => !bit (d.rd Reg.FLT_SAFE_CAUSE) b || d.stateCheck b)

/-- The enabled chains with an OPEN, SHORT or SENSE finding (R401, R234). -/
def Dev.lampFound (d : Dev) : List Nat :=
  (List.range 16).filter (fun n => chainEn d.regs.act n && d.rf (Reg.LMP_C_DIAG n) 2 0 != 0)

/-- The clear actions start: the confirmation steps on the chains with a finding, complete within 50 ms; resynchronisation
of every axis with an encoder; calibration of the retired cores of a quadrant without a ready core; the restart of a tap's
AFE; the failed wake step again; and the unit that failed, again at level 3, the one level whose failure gives RECOVERY. -/
def Dev.clearStart (d : Dev) : Dev :=
  let c := d.rd Reg.FLT_SAFE_CAUSE
  let d := { d with flt := { d.flt with acts := (List.range 9).filter (fun b => bit c b), lampClr := [] } }
  let d := if bit c scLamp then
      d.lampFound.foldl (fun (d : Dev) n => (d.shiftOut n (d.level n)).twoPulses n 38900000)
        { d with flt := { d.flt with lampClr := d.lampFound } } else d
  let d := if bit c scNoSpare then
      { d with afe := { d.afe with quads := d.afe.quads.map (fun (q : Quad) =>
        if q.ready.isNone then { q with cal := q.cal ++ q.retired.filter (fun k => !q.cal.contains k) } else q) } } else d
  let d := if bit c scRecovery then d.bump (Reg.FLT_RECOV_CNT 3) else d
  let d := if bit c scMotion then
      (List.range 12).foldl (fun (d : Dev) a =>
        if (d.axEnc a).isSome && d.axEn a then d.modAx a fun x => { x with resync := true } else d) d else d
  let taps := if bit c scBlack then (d.afe.blkStep.filter (fun x => x.2 == 3)).map (·.1) else []
  taps.foldl (fun (d : Dev) t => d.startLevel 1 6 1 t 0 false) d

/-- FAULT_CLEAR with SCOPE 0 (R401). -/
def execFaultClearSafe (h : Req) (s : State) : Host.Outcome State Fault Refusal :=
  s.onDev fun d => d.serve h 0xF1 fun d =>
  if d.mode != .safe then no stBadState d
  else if !d.clearOk then no stFault d
  else
    let d := d.startOp h .faultClear
    (stAccepted, [], { d.clearStart with flt := { d.clearStart.flt with clearing := true } })

/-- Every entry is marked CLEARED, in the log and in its flash copy (R401, R410). -/
def Dev.clearLog (d : Dev) : Dev :=
  { d with flt := { d.flt with
    log := d.flt.log.map (fun (e : FEntry) => { e with cleared := true })
    flash := d.flt.flash.map (fun (e : FEntry) => { e with cleared := true }) } }

/-- FAULT_CLEAR with SCOPE 1 (R401). -/
def execFaultClearLog (h : Req) (s : State) : Host.Outcome State Fault Refusal :=
  s.onDev fun d => d.serve h 0xF1 fun d => (stOk, [], d.clearLog)

/-- The device leaves SAFE (R401, R37, R41): groups return to REST, FAULT clears, and a held job goes to HOLD. -/
def Dev.leaveSafe (d : Dev) : Dev :=
  let d := { d with mot := { d.mot with groups := d.mot.groups.map (fun (g : Group) =>
    if g.st = GSt.fault then { g with st := .rest } else g) } }
  let d := ({ d with flt := { d.flt with why := 0 } }).clrHold hcFault
  if !d.jobHeld then d.toIdle
  else
    let bad := match d.feed with
      | some g => (d.groupAxes g).any (fun a => !(d.ax a).valid)
      | none => false
    let d := if bad then d.setHold hcHost else d
    { d.setMode .hold with cox := { d.cox with st := 4 } }

/-- The condition of cause MOTION (R401): every axis with an encoder is resynchronised, and its error has been within
FE_LIMIT at four boundaries in succession since. -/
def Dev.motionClear (d : Dev) : Bool :=
  (List.range 12).all fun a =>
    (d.axEnc a).isNone || !d.axEn a || !(d.ax a).resync && decide (4 ≤ (d.ax a).feOk)

/-- The condition under which a cause clears (R401): LAMP, every chain's confirmation has found TRANSIENT, or the chain is
committed with EN = 0; NO_SPARE, every quadrant has a ready core; BLACK, the restarts have completed and the self-test
passed; WAKE and RECOVERY, the step or restart completed within its bound. `passed` says, of these last three, what no
state of the device shows. -/
def Dev.causeClear (d : Dev) (passed : BitVec 9) (b : Nat) : Bool :=
  if b = scLamp then d.flt.acts.contains b && d.flt.lampClr.all (fun n => !chainEn d.regs.act n)
  else if b = scMotion then d.motionClear
  else if b = scNoSpare then d.afe.quads.all (fun (q : Quad) => q.ready.isSome)
  else if b = scBlack then
    passed.getLsbD b && !d.flt.recs.any (fun (x : Recov) => x.cls == 6 && x.code == 1)
  else if b = scWake ∨ b = scRecovery then d.flt.acts.contains b && passed.getLsbD b
  else d.stateCheck b

/-- SAFE_CLEAR_DONE (R401): the clear actions have run, and every cause clears whose condition then holds. -/
def execSafeClearDone (cleared : BitVec 9) (s : State) : Host.Outcome State Fault Refusal := s.onDev fun d =>
  if !d.flt.clearing || d.mode != .safe then d else
  let old := d.rd Reg.FLT_SAFE_CAUSE
  let left := ((List.range 9).filter (fun b => bit old b && !d.causeClear cleared b)).foldl setBit 0
  let d := { d with flt := { d.flt with clearing := false, acts := [], lampClr := [] } }.put Reg.FLT_SAFE_CAUSE left
  let d := if bit old scNoSpare then
      { d with afe := { d.afe with quads := d.afe.quads.map (fun (q : Quad) =>
        { q with cal := q.cal.filter (fun k => !q.retired.contains k) }) } } else d
  let d := if bit old scBlack && !bit left scBlack then
      (d.afe.blkStep.filter (fun x => x.2 == 3)).foldl (fun (d : Dev) x => d.blackStep x.1 0) d else d
  let d := if bit old scBlack then
      { d with flt := { d.flt with recs := d.flt.recs.filter (fun (x : Recov) => !(x.cls == 6 && x.code == 1)) } } else d
  if left = 0 then d.leaveSafe
  else d.endOps d.owner (fun o => o == Op.faultClear) stFault 0

/-! Scrubbing and flash (R402 to R406, R410). -/

/-- A pass over `words` words found single-bit errors and corrected them: how many is a free value (R403, log 196). -/
def Dev.scrubbed (d : Dev) (words : Nat) : Nat × Dev :=
  let (v, d) := d.free 43
  (v.toNat % (words + 1), d.bumpBy Reg.FLT_SCRUB_CORR_CNT (v.toNat % (words + 1)))

/-- SCRUB_PASS_DONE (R402, R403): a pass is counted while its target is powered, except during a level 3 restart; in DRAM
the corrections count as those of any access (R335). -/
def execScrubPassDone (t : ScrubTarget) (s : State) : Host.Outcome State Fault Refusal := s.onDev fun d =>
  let on := fun (b : Nat) => bit (d.rd Reg.FLT_SCRUB_CTRL) b && !d.flt.l3run
  match t with
  | .fsram => if on 0 && d.pwr.fieldOk then (d.scrubbed 1572864).2.bump Reg.FLT_FSRAM_PASS_CNT else d
  | .hsram => if on 1 && d.mode != .off then (d.scrubbed 2097152).2.bump Reg.FLT_HSRAM_PASS_CNT else d
  | .dram =>
    if on 2 && d.mode != .off then
      let r := d.scrubbed 8589934592
      (r.2.bumpBy Reg.DMA_ECC_CORR_CNT r.1).bump Reg.FLT_DRAM_PASS_CNT
    else d
  | .flash => d

/-- One failing record of the calibration region (R406): written again where the result in force has its epoch, else
dropped. -/
def Dev.badRecord (d : Dev) (r : CalRec) : Dev :=
  let newest := ((d.cal.store.reverse).find? (fun (x : CalRec) => x.kind == r.kind && x.unit == r.unit)) == some r
  let same := r.kind == 0xFFFE || match d.inForce r.kind r.unit with | some x => x.epoch == r.epoch | none => false
  let (v, d) := d.free 17
  -- the record's flash address is not given
  let d := (d.bump Reg.FLT_FLASH_BAD_CNT).logHere { cls := 0xC, code := 4, a := v.toNat, b := r.epoch.toNat }
  let d := d.dropRec r
  if newest && same then d.queueWrites [r] else d

/-- FLASH_VERIFY (R406): the records whose CRC fails, by their place in the store. -/
def execFlashVerify (bad : List Nat) (s : State) : Host.Outcome State Fault Refusal := s.onDev fun d =>
  if !bit (d.rd Reg.FLT_SCRUB_CTRL) 3 then d else
  let l := bad.eraseDups.filterMap (fun i => d.cal.store[i]?)
  l.foldl (fun (d : Dev) r => d.badRecord r) (d.bump Reg.FLT_FLASH_VERIFY_CNT)

/-- FLASH_RECLAIM (R405): the oldest sector's live records move and it is erased; every live record stays. -/
def execFlashReclaim (s : State) : Host.Outcome State Fault Refusal := s.onDev fun d =>
  d.setFlash (d.cal.flash.reclaim (fun i => ((d.cal.store[i]?).map CalRec.size).getD 0))

/-- FAULT_LOG_FLUSH (R410). -/
def execFaultLogFlush (s : State) : Host.Outcome State Fault Refusal := s.onDev fun d =>
  { d with flt := { d.flt with flash := d.flt.log, flushed := d.flt.next - 1, savedAt := d.ns } }

/-- ROC_CHANGE (R446): FLT_STAT.ROC follows the rails and die temperatures of both sides. -/
def execRocChange (side : Side) (outside : Bool) (s : State) : Host.Outcome State Fault Refusal := s.onDev fun d =>
  let b := match side with | .field => 0 | .host => 1
  { d with flt := { d.flt with roc := if outside then setBit d.flt.roc b else clrBit d.flt.roc b } }

end Sys2Proof.Machine
end

