-- ==== Sys2Proof/Machine/Net.lean ====
section
/-! DEFINITION. Network ports and time (R359 to R386): links, flow control, address resolution, reassembly, the
network record, the time counter and PTP. -/

namespace Sys2Proof.Machine

open Sys2Proof

/-! Ports. -/

/-- NET_Pp_CFG.FLOW; SGMII has none (R365). -/
def Dev.flow (d : Dev) (p : NetPort) : Nat := d.rf (cfgAddr p) 17 16

/-- LINK clears and the loss is counted (R364). -/
def Dev.linkLost (d : Dev) (p : NetPort) : Dev :=
  if d.link p then
    (d.putF (Reg.NET_P_STAT (portIx p)) 31 29 0).bump (Reg.NET_P_LINK_DOWN_CNT (portIx p))
  else d

/-- NET_LINK_UP (R364, R365): LINK and ALIGN are set, SGMII shows its speed, and what waited is sent. -/
def execNetLinkUp (p : NetPort) (speed : Nat) (s : State) : Host.Outcome State Fault Refusal := s.onDev fun d =>
  if d.mode != .off && d.rf (cfgAddr p) 31 31 == 1 then
    let d := d.put (Reg.NET_P_STAT (portIx p)) 0xCF000000
    let d := if p == .sgmii then d.putF Reg.NET_SG_CFG 29 28 (min speed 2) else d
    d.drain p
  else d

/-- NET_LINK_DOWN (R364): closes no session and stops no job; traffic waits. -/
def execNetLinkDown (p : NetPort) (s : State) : Host.Outcome State Fault Refusal := s.onDev fun d => d.linkLost p

/-- The MAC address of a port (R359). -/
def macOf (p : NetPort) : Nat := (Config.mac0.toNat + portIx p) % 2 ^ 48

/-- The link-local address of a port: EUI-64 from its MAC address (R366). -/
def linkLocal (p : NetPort) : Nat :=
  let m := macOf p
  let hi := (m / 2 ^ 24) ^^^ 0x20000
  0xFE80 * 2 ^ 112 + hi * 2 ^ 40 + 0xFFFE * 2 ^ 24 + m % 2 ^ 24

/-- An address is one of the port's: IPv4, link-local or global (R366); an address word of 0 is none. -/
def Dev.ownAddr (d : Dev) (p : NetPort) (ip : Nat) : Bool :=
  ip != 0 && (ip == d.rd (Reg.NET_P_IP4 (portIx p)) || ip == linkLocal p || ip == d.ip6 p)

/-- The port PTP runs on. -/
def Dev.ptpPort (d : Dev) : NetPort := portOf (d.rf Reg.TIM_PTP_CTRL 25 24)

/-- The PTP multicast addresses in use on a port, as MAC addresses: those of the transport that TIM_PTP_CTRL.IP6 selects
(R379; their values are PRESUMED from IEEE 1588-2019, log 190). -/
def Dev.ptpMacs (d : Dev) (p : NetPort) : List Nat :=
  if d.rf Reg.TIM_PTP_CTRL 31 31 = 1 ∧ d.ptpPort = p then
    if d.rf Reg.TIM_PTP_CTRL 28 28 = 1 then [0x333300000181, 0x33330000006B] else [0x01005E000181, 0x01005E00006B]
  else []

/-- The solicited-node multicast address of an IPv6 address, as a MAC address (PRESUMED, log 190). -/
def solicited (ip : Nat) : Nat := 0x3333FF000000 + ip % 2 ^ 24

/-- The MAC accepts a frame (R362): its length, its destination, its tag and its FCS, and room in the receive buffer
(R363). -/
def Dev.accepts (d : Dev) (f : NetFrame) : Bool :=
  let p := f.port
  let w := d.rd (Reg.NET_P_VLAN (portIx p))
  decide (64 ≤ f.len ∧ f.len ≤ d.mtu p + (if f.vid.isSome then 22 else 18)) &&
    (f.dst == macOf p || f.dst == 2 ^ 48 - 1 || f.dst == solicited (linkLocal p) ||
      (d.ip6 p != 0 && f.dst == solicited (d.ip6 p)) || (d.ptpMacs p).contains f.dst) &&
    (match f.vid with
      | some v => bit w 16 && (v == w % 4096 || v == 0)
      | none => !bit w 16) &&
    f.fcsOk && !f.full

/-- The UDP ports the device serves (R369); RoCEv2 not on SGMII (R365). -/
def udpServed (p : NetPort) (u : Nat) : Bool :=
  u == 49430 || u == 49431 || (u == 4791 && p != .sgmii) || u == 319 || u == 320

/-- NET_FRAME_DROP (R362, R363, R367): a frame that the MAC does not accept, or a datagram to a port that is not served, is
dropped and counted; any other frame is one of the commands of its own. -/
def execNetFrameDrop (f : NetFrame) (s : State) : Host.Outcome State Fault Refusal := s.onDev fun d =>
  if !d.accepts f then d.bump (Reg.NET_P_RX_DROP_CNT (portIx f.port))
  else if f.udp.any (fun u => !udpServed f.port u) then
    (d.rxFrame f.port).bump (Reg.NET_P_RX_DROP_CNT (portIx f.port))
  else d

/-- `n` quanta of 512 bit times in CLK_PIX cycles: 2.56 ns each at 200 Gb/s, 5.12 ns at 100 Gb/s (R359, R363). -/
def Dev.quanta (d : Dev) (p : NetPort) (n : Nat) : Nat := n * (if d.rf (cfgAddr p) 29 28 = 0 then 2 else 4)

/-- PAUSE_RX (R363): honoured with FLOW 1, dropped otherwise. -/
def execPauseRx (p : NetPort) (quanta : Nat) (s : State) : Host.Outcome State Fault Refusal := s.onDev fun d =>
  if d.flow p = 1 then
    let d := d.bump (Reg.NET_P_PAUSE_RX_CNT (portIx p))
    if quanta = 0 then (d.modPort p fun q => { q with paused := false }).drain p
    else d.modPort p fun q => { q with paused := true, pausedTill := d.now + d.quanta p quanta }
  else d.bump (Reg.NET_P_RX_DROP_CNT (portIx p))

/-- The instants at which quanta under way end. -/
def Port.ends (q : Port) : List Nat := (if q.paused then [q.pausedTill] else []) ++ q.pfcTill.map (·.2)

/-- Quanta that have run out by an instant end. -/
def Port.expire (q : Port) (now : Nat) : Port :=
  { q with
    paused := q.paused && decide (now < q.pausedTill)
    pfc := (q.pfcTill.filter (fun x => decide (x.2 ≤ now))).foldl (fun m x => clrBit m x.1) q.pfc
    pfcTill := q.pfcTill.filter (fun x => decide (now < x.2)) }

/-- PAUSE_EXPIRE (R363): the time of the quanta that run out first passes, and what they stopped is sent. -/
def execPauseExpire (p : NetPort) (s : State) : Host.Outcome State Fault Refusal := s.onDev fun d =>
  match (nth d.net.ports (portIx p)).ends with
  | [] => d
  | e :: es =>
    let d := d.until_ (es.foldl min e)
    (d.modPort p fun q => q.expire d.now).drain p

/-- PFC_RX (R363): with FLOW 2, priorities with RX_EN pause or resume. -/
def execPfcRx (p : NetPort) (quanta : List (Nat × Nat)) (s : State) : Host.Outcome State Fault Refusal :=
  s.onDev fun d =>
  if d.flow p = 2 ∧ p ≠ .sgmii then
    let en := d.rf (Reg.NET_P_PFC (portIx p)) 7 0
    let one := fun (q : Port) (x : Nat × Nat) =>
      if bit en x.1 && decide (x.1 < 8) then
        let till := q.pfcTill.filter (fun y => y.1 != x.1)
        if x.2 = 0 then { q with pfc := clrBit q.pfc x.1, pfcTill := till }
        else { q with pfc := setBit q.pfc x.1, pfcTill := till ++ [(x.1, d.now + d.quanta p x.2)] }
      else q
    ((d.bump (Reg.NET_P_PAUSE_RX_CNT (portIx p))).modPort p fun q => quanta.foldl one q).drain p
  else d.bump (Reg.NET_P_RX_DROP_CNT (portIx p))

/-- PFC_XOFF_TX (R363): XOFF at 512 KiB, XON below 256 KiB; none while the transmitters are idle (R425). -/
def execPfcXoffTx (p : NetPort) (prio occupancy : Nat) (s : State) : Host.Outcome State Fault Refusal :=
  s.onDev fun d =>
  let x := (nth d.net.ports (portIx p)).xoff
  let tell := fun (off : Bool) =>
    (((d.emit (.pfc p prio off)).bump (Reg.NET_P_TX_FRAME_CNT (portIx p))).bump
      (Reg.NET_P_PFC_TX_CNT (portIx p))).modPort p fun q =>
        { q with xoff := if off then setBit q.xoff prio else clrBit q.xoff prio }
  if d.served ∧ d.flow p = 2 ∧ p ≠ .sgmii ∧ prio < 8 then
    if bit (d.rf (Reg.NET_P_PFC (portIx p)) 15 8) prio && decide (0x80000 ≤ occupancy) && !bit x prio then tell true
    else if decide (occupancy < 0x40000) && bit x prio then tell false
    else d
  else d

/-- ARP_REQUEST (R367). -/
def execArpRequest (p : NetPort) (src : Endpoint) (target : Nat) (s : State) : Host.Outcome State Fault Refusal :=
  s.onDev fun d =>
  let d := d.rxFrame p
  let ip := d.rd (Reg.NET_P_IP4 (portIx p))
  if d.served && ip != 0 && target == ip then d.send p 1 (.arpReply p src target) else d

/-- ND_SOLICIT (R367). -/
def execNdSolicit (p : NetPort) (src : Endpoint) (target : Nat) (s : State) : Host.Outcome State Fault Refusal :=
  s.onDev fun d =>
  let d := d.rxFrame p
  if d.served && (target == linkLocal p || (d.ip6 p != 0 && target == d.ip6 p)) then
    d.send p 1 (.ndAdvert p src target) else d

/-- ICMP_ECHO (R367): an echo request to one of the port's addresses, of up to 1,472 bytes of data. -/
def execIcmpEcho (p : NetPort) (e : EchoEnds) (data : List Byte) (s : State) : Host.Outcome State Fault Refusal :=
  s.onDev fun d =>
  let d := d.rxFrame p
  if d.served && d.ownAddr p e.dst && decide (data.length ≤ 1472) then d.send p 1 (.echoReply p e.src data) else d

/-! Reassembly (R368). -/

/-- Whether the parts, in offset order, cover the bytes from 0 to `total` without a hole. -/
def covers (parts : List (Nat × List Byte)) (total : Nat) : Bool :=
  parts.foldl (fun (e : Nat) (x : Nat × List Byte) => if x.1 ≤ e then max e (x.1 + x.2.length) else e) 0 == total

/-- Remove a reassembly. -/
def Dev.dropReasm (d : Dev) (key : Nat) : Dev :=
  { d with net := { d.net with reasm := d.net.reasm.filter (fun r => r.key != key) } }

/-- IP_FRAGMENT (R368): a fragment for the SKM port joins its reassembly. The datagram it completes reaches the SKM
dispatcher as a command of its own (log 23). -/
def execIpFragment (p : NetPort) (key udpPort offset : Nat) (last : Bool) (data : List Byte) (s : State) :
    Host.Outcome State Fault Refusal := s.onDev fun d =>
  if !d.served then d else
  let d := d.rxFrame p
  if udpPort ≠ 49430 then d else
  let have_ := d.net.reasm.find? (fun r => r.key == key)
  if have_.isNone && decide (32 ≤ d.net.reasm.length) then d.bump Reg.NET_REASM_DROP_CNT else
  let r := have_.getD ⟨key, [], none⟩
  let r : Reasm := { r with
    parts := aset r.parts offset data
    total := if last then some (offset + data.length) else r.total }
  if 8212 + 8 < offset + data.length then (d.dropReasm key).bump Reg.NET_REASM_DROP_CNT
  else if (r.total.map (covers r.parts)).getD false then (d.dropReasm key).bump Reg.NET_REASM_CNT
  else { d.dropReasm key with net := { (d.dropReasm key).net with reasm := (d.dropReasm key).net.reasm ++ [r] } }

/-- REASM_TIMEOUT (R368). -/
def execReasmTimeout (key : Nat) (s : State) : Host.Outcome State Fault Refusal := s.onDev fun d =>
  if d.net.reasm.any (fun r => r.key == key) then (d.dropReasm key).bump Reg.NET_REASM_DROP_CNT else d

/-! The network record (R366). -/

/-- The words of the network record: the RW words of the NET_Pp, NET_SG and TIM_PTP words. -/
def inRecord (a : Nat) : Bool :=
  ((decide (0xC0100 ≤ a) && decide (a < 0xC0280)) || (decide (0xD0100 ≤ a) && decide (a < 0xD011C))) &&
    match rowOf a with | some r => r.acc == .rw | none => false

/-- NET_CTRL.STORE writes the record from the active words. -/
def Dev.netStore (d : Dev) : Dev :=
  { d with net := { d.net with record := some ((d.regs.net ++ d.regs.act).filter (fun x => inRecord x.1)) } }

/-- The record is loaded in RESET after a host cold start. -/
def Dev.netLoad (d : Dev) : Dev :=
  match d.net.record with
  | none => d
  | some r => d.putAll r

/-! The time counter (R375 to R378). Offsets are signed, in 2⁻³² ns. -/

/-- An offset is added to the slew remainder, and stepped where it exceeds TIM_STEP_THR and no job is held (R377). -/
def Dev.offset (d : Dev) (o : Int) : Dev :=
  let r := d.tim.slew + o
  if (d.rd Reg.TIM_STEP_THR * 2 ^ 32 : Nat) < r.natAbs ∧ d.jobHeld = false then
    ({ d with tim := { d.tim with cnt := ((d.tim.cnt : Int) + r).toNat % 2 ^ 96, slew := 0 } }).bump Reg.TIM_STEP_CNT
  else { d with tim := { d.tim with slew := r } }

/-- PTP enabled and in state SLAVE or UNCALIBRATED (R376). -/
def Dev.ptpRules (d : Dev) : Bool := d.rf Reg.TIM_PTP_CTRL 31 31 == 1 && (d.tim.ptp == 8 || d.tim.ptp == 9)

/-- TIME_SET (R376). -/
def execTimeSet (h : Req) (ns frac : Nat) (s : State) : Host.Outcome State Fault Refusal :=
  s.onDev fun d => d.serve h 0x90 fun d =>
  if d.jobHeld || d.ptpRules then no stBadState d
  else (stOk, [], ({ d with tim := { d.tim with
    cnt := ns % 2 ^ 64 * 2 ^ 32 + frac % 2 ^ 32, slew := 0, src := 1 } }).bump Reg.TIM_SET_CNT)

/-- TIME_ADJUST (R377): `offset` in ns, `incr` 0 for unchanged. -/
def execTimeAdjust (h : Req) (offset : Int) (incr : Nat) (s : State) : Host.Outcome State Fault Refusal :=
  s.onDev fun d => d.serve h 0x91 fun d =>
  if d.ptpRules then no stBadState d
  else if incr ≠ 0 ∧ (incr < 21968242323 ∨ 22012222789 < incr) then no stBadParam d
  else
    let d := if incr = 0 then d else { d with tim := { d.tim with incr := incr } }
    (stOk, [], (d.bump Reg.TIM_ADJ_CNT).offset (offset * 2 ^ 32))

/-- TIME_SLEW_END (R377): the ticks pass that the slew remainder still takes. -/
def execTimeSlewEnd (s : State) : Host.Outcome State Fault Refusal :=
  s.onDev fun d => d.elapse (4 * ceilDiv d.tim.slew.natAbs (max 1 d.slewStep))

/-! PTP (R379 to R381). Times are in 2⁻³² ns. -/

/-- The port's mode as a row of R380's table: 0 200GBASE-R, 1 100GBASE-R, 2 SGMII. -/
def Dev.ptpRow (d : Dev) : Nat :=
  match d.ptpPort with
  | .sgmii => 2
  | p => d.rf (cfgAddr p) 29 28

/-- Whether PTP runs: enabled, and on SGMII only at 1,000 Mb/s. -/
def Dev.ptpOn (d : Dev) : Bool :=
  d.served && d.rf Reg.TIM_PTP_CTRL 31 31 == 1 && (d.ptpPort != .sgmii || d.rf Reg.NET_SG_CFG 29 28 == 0)

/-- Nanoseconds and CLK_CORE cycles in 2⁻³² ns. -/
def nsUnits (n : Nat) : Int := (n : Int) * 2 ^ 32
def coreUnits (l : Nat) : Int := ((l * 64 * 2 ^ 32 / 100 : Nat) : Int)

/-- t_rx of R380; `c` is the counter read with its fraction (R378; DEDUCED, log 191). -/
def Dev.tRx (d : Dev) (c l posn : Nat) : Int :=
  let dr := match d.ptpRow with | 0 => 380 | 1 => 540 | _ => 240
  let sym := match d.ptpRow with | 0 => 47059 | 1 => 96970 | _ => 0
  (c : Int) - coreUnits l - nsUnits dr - ((posn * sym * 2 ^ 32 / 1000000 : Nat) : Int)
    - nsUnits (d.rf Reg.TIM_PTP_LAT 15 0)

/-- t_tx of R380. -/
def Dev.tTx (d : Dev) (c l : Nat) : Int :=
  let dt := match d.ptpRow with | 0 => 150 | 1 => 210 | _ => 200
  (c : Int) - coreUnits l + nsUnits dt + nsUnits (d.rf Reg.TIM_PTP_LAT 31 16)

/-- L is measured for every message: the last and the largest since RESET. -/
def Dev.irqLat (d : Dev) (l : Nat) : Dev :=
  let n := min 0xFFFF (l * 64 / 100)
  d.put Reg.TIM_PTP_IRQ_LAT (max (d.rf Reg.TIM_PTP_IRQ_LAT 31 16) n * 65536 + n)

/-- L above 600 ns (R380). -/
def lateL (l : Nat) : Bool := decide (60000 < l * 64)

/-- A signed value in ns, saturating to 32 bits. -/
def satNs (o : Int) : Nat := twos 32 (clampI (-(2 ^ 31)) (2 ^ 31 - 1) (o / 2 ^ 32))

/-- The servo takes one offsetFromMaster (R381). The integral's effect on TIM_INCR is a free value within R377's range
(log 24). -/
def Dev.servo (d : Dev) (o : Int) : Dev :=
  let d := d.put Reg.TIM_PTP_OFS (satNs o)
  let within := decide (o.natAbs < d.rd Reg.TIM_PTP_LOCK_THR * 2 ^ 32)
  let good := if within then min 16 (d.tim.good + 1) else 0
  let r := d.free 20
  let d := r.2
  let d := { d with tim := { d.tim with
    good := good, lock := within && (d.tim.lock || good == 16), src := 2
    incr := 21968242323 + r.1.toNat % 43980467, ptp := 9 } }
  (d.bump Reg.TIM_ADJ_CNT).offset (-(o * (d.rf Reg.TIM_PTP_SERVO 31 16 : Nat) / 65536))

/-- The next sequence number of a message a timer sends: 0 Sync, 1 Announce, 2 Delay_Req. -/
def Dev.ptpSeq (d : Dev) (k : Nat) : Nat × Dev :=
  let n := (nth d.tim.seqs k) % 65536
  (n, { d with tim := { d.tim with seqs := modNth d.tim.seqs k (· + 1) } })

/-- The clockIdentity: the EUI-64 of the port's MAC address (R379). -/
def Dev.clockId (d : Dev) : Nat :=
  let m := macOf d.ptpPort
  m / 2 ^ 24 * 2 ^ 40 + 0xFFFE * 2 ^ 24 + m % 2 ^ 24

/-- The device's own data set, in the order the BMCA compares it: priority1, clockClass, accuracy, variance, priority2,
identity, stepsRemoved. -/
def Dev.ownDs (d : Dev) : List Nat :=
  let w := Reg.TIM_PTP_DS
  [d.rf w 31 24, d.rf w 15 8, d.rf w 7 0, Config.ptpVariance.toNat, d.rf w 23 16, d.clockId, 0]

/-- What every message carries besides: the domain, the transport, the clockIdentity, and in an Announce (0xB) the data
set. -/
def Dev.ptpHead (d : Dev) (kind : Nat) : PtpHead :=
  ⟨d.rf Reg.TIM_PTP_CTRL 15 8, d.rf Reg.TIM_PTP_CTRL 28 28 == 1, d.clockId, if kind = 0xB then d.ownDs else []⟩

/-- Send a PTP message: its messageType, sequence number and the time it carries. -/
def Dev.ptpSend (d : Dev) (kind seq : Nat) (t : Int) : Dev := d.send d.ptpPort 0 (.ptp kind seq t (d.ptpHead kind))

/-- A message is of the device's PTP domain and transport (R379); others are dropped. -/
def Dev.ptpTakes (d : Dev) (domain : Nat) (ip6 : Bool) : Bool :=
  domain == d.rf Reg.TIM_PTP_CTRL 15 8 && ip6 == (d.rf Reg.TIM_PTP_CTRL 28 28 == 1)

/-- The offsetFromMaster of a Sync received at `t2` with its origin (R381): the path delay and TIM_PTP_ASYM taken off. -/
def Dev.fromMaster (d : Dev) (t2 origin : Int) : Int :=
  t2 - origin - sext 32 (d.rd Reg.TIM_PTP_MPD) * 2 ^ 32 - sext 32 (d.rd Reg.TIM_PTP_ASYM) * 2 ^ 32

/-- A Sync whose origin is known feeds the servo (R380, R381). -/
def Dev.takeSync (d : Dev) (t2 origin : Int) : Dev :=
  { d with tim := { d.tim with sync := none, t21 := t2 - origin } }.servo (d.fromMaster t2 origin)

/-- PTP_EVENT_RX (R379 to R381): the handler reads the counter at the instant `at_`; the message is timestamped; a Sync waits for its Follow_Up, a one-step Sync is used as it
is, a Delay_Req and a Pdelay_Req are answered, a peer delay exchange gives meanPathDelay. -/
def execPtpEventRx (m : PtpEvent) (at_ lat posn : Nat) (s : State) : Host.Outcome State Fault Refusal :=
  s.onDev fun d =>
  if !d.ptpOn then d else
  let d := ((d.until_ at_).rxFrame d.ptpPort).irqLat lat
  if lateL lat then d.bump Reg.TIM_PTP_LAT_DROP_CNT else
  let d := d.bump Reg.TIM_PTP_RX_CNT
  if !d.ptpTakes m.domain m.ip6 then d else
  let t := d.tRx d.tim.cnt lat posn
  match m.msg with
  | .sync q => if d.ptpRules then { d with tim := { d.tim with sync := some (q, t) } } else d
  | .syncOneStep o => if d.ptpRules then d.takeSync t o else d
  | .delayReq q => if d.tim.ptp == 6 then d.ptpSend 9 q t else d
  | .pdelayReq q => d.ptpSend 3 q t
  | .pdelayResp q turn =>
    match d.tim.dreq with
    | some (q', t1) =>
      if q' = q ∧ d.rf Reg.TIM_PTP_CTRL 30 30 = 1 then
        ({ d with tim := { d.tim with dreq := none } }).put Reg.TIM_PTP_MPD (satNs ((t - t1 - turn) / 2))
      else d
    | none => d

/-- PTP_TX_TIMESTAMP (R380): a sent Sync, always two-step (R379), is followed up, a sent Delay_Req or Pdelay_Req is remembered, a sent
Pdelay_Resp is followed up; a late timestamp of a Delay_Req or Pdelay_Req abandons its exchange. -/
def execPtpTxTimestamp (m : PtpMsg) (at_ lat : Nat) (s : State) : Host.Outcome State Fault Refusal :=
  s.onDev fun d =>
  if !d.ptpOn then d else
  let d := ((d.until_ at_).irqLat lat).bump Reg.TIM_PTP_TX_CNT
  if lateL lat then
    (match m with
      | .delayReq q | .pdelayReq q => { d with tim := { d.tim with dreq := d.tim.dreq.filter (fun x => x.1 != q) } }
      | _ => d).bump Reg.TIM_PTP_LAT_DROP_CNT
  else
  let t := d.tTx d.tim.cnt lat
  match m with
  | .sync q => d.ptpSend 8 q t
  | .syncOneStep _ => d
  | .delayReq q => { d with tim := { d.tim with dreq := some (q, t) } }
  | .pdelayReq q => { d with tim := { d.tim with dreq := some (q, t) } }
  | .pdelayResp q _ => d.ptpSend 0xA q t

/-- PTP_MSG_TIMER (R379): Sync and Announce as master, Delay_Req as slave, Pdelay_Req under P2P. -/
def execPtpMsgTimer (k : PtpTimer) (s : State) : Host.Outcome State Fault Refusal := s.onDev fun d =>
  if !d.ptpOn then d else
  match k with
  | .sync => if d.tim.ptp == 6 then let r := d.ptpSeq 0; r.2.ptpSend 0 r.1 0 else d
  | .announce => if d.tim.ptp == 6 then let r := d.ptpSeq 1; r.2.ptpSend 0xB r.1 0 else d
  | .delayReq =>
    if d.rf Reg.TIM_PTP_CTRL 30 30 = 1 then let r := d.ptpSeq 2; r.2.ptpSend 2 r.1 0
    else if d.ptpRules then let r := d.ptpSeq 2; r.2.ptpSend 1 r.1 0 else d

/-- PTP_ANNOUNCE_TIMEOUT (R381): the master is lost; TIM_INCR keeps its last value. -/
def execPtpAnnounceTimeout (s : State) : Host.Outcome State Fault Refusal := s.onDev fun d =>
  if d.ptpOn && d.tim.ptp != 6 then
    { d with tim := { d.tim with
      ptp := if d.rf Reg.TIM_PTP_CTRL 29 29 = 1 then 4 else 6, master := none, sync := none, dreq := none } }
  else d

/-- The first data set is better: the first field that differs is lower. -/
def betterDs : List Nat → List Nat → Bool
  | a :: as, b :: bs => if a = b then betterDs as bs else decide (a < b)
  | _, _ => false

/-- The state the BMCA recommends against a foreign master (IEEE 1588-2019). -/
def Dev.bmca (d : Dev) (m : List Nat) : Nat :=
  if d.rf Reg.TIM_PTP_CTRL 29 29 = 1 then (if d.tim.ptp = 9 then 9 else 8)
  else if betterDs d.ownDs m then 6
  else if d.rf Reg.TIM_PTP_DS 15 8 < 128 then 7
  else if d.tim.ptp = 9 then 9 else 8

/-- PTP_GENERAL_RX (R379, R381): a Follow_Up completes its Sync and feeds the servo, a Delay_Resp gives meanPathDelay, an
Announce feeds the BMCA. -/
def execPtpGeneralRx (m : PtpInfo) (s : State) : Host.Outcome State Fault Refusal := s.onDev fun d =>
  if !d.ptpOn then d else
  let d := d.rxFrame d.ptpPort
  if !d.ptpTakes m.domain m.ip6 then d else
  match m.msg with
  | .followUp q origin =>
    match d.tim.sync with
    | some (q', t2) =>
      if q' = q ∧ d.ptpRules = true then d.takeSync t2 origin else d
    | none => d
  | .delayResp q rx =>
    match d.tim.dreq with
    | some (q', t3) =>
      if q' = q ∧ d.rf Reg.TIM_PTP_CTRL 30 30 = 0 then
        ({ d with tim := { d.tim with dreq := none } }).put Reg.TIM_PTP_MPD (satNs ((d.tim.t21 + (rx - t3)) / 2))
      else d
    | none => d
  | .announce p1 cc acc var p2 id steps utc valid =>
    let m := [p1, cc, acc, var, p2, id, steps]
    let best := match d.tim.master with
      | some b => if betterDs m b || b.getD 5 0 == id then m else b
      | none => m
    let st := d.bmca best
    let d := { d with tim := { d.tim with master := some best, ptp := st } }
    if best = m ∧ (st = 8 ∨ st = 9) then d.put Reg.TIM_PTP_UTC (b2n valid * 65536 + utc % 65536) else d

/-- A write of TIM_PTP_CTRL: PTP starts listening, or stops (R379, R386). -/
def Dev.ptpCtrl (d : Dev) (old : Nat) : Dev :=
  let was := old / 2 ^ 31 == 1
  let now := d.rf Reg.TIM_PTP_CTRL 31 31 == 1
  if was == now then d
  else { d with tim := { d.tim with ptp := if now then 4 else 0, master := none, sync := none, dreq := none, good := 0
                                    lock := false } }

end Sys2Proof.Machine
end

