-- ==== Sys2Proof/Machine/Power.lean ====
section
/-! DEFINITION. Power, resets, start-up and the field bus (R415 to R439, R456, R460): both sides' supplies and resets,
field presence, boot, WAKE, dips and surges, and the completion of a firmware update (R65). -/

namespace Sys2Proof.Machine

open Sys2Proof

/-! Field presence (R421, R460). -/

/-- The field-presence condition: PG_F valid, nRST_F high, STANDBY_HOLD = 0. -/
def Dev.presence (d : Dev) : Bool := decide (3 ≤ d.bzl.goodStatus) && d.pwr.nrstF && d.rf Reg.DEV_CTRL 0 0 == 0

/-- WAKE is entered. -/
def Dev.enterWake (d : Dev) : Dev :=
  { d.setMode .wake with pwr := { d.pwr with modeHeld := false, wakeRetry := 0 } }

/-- The condition has become true in STANDBY, having been false before (R460). -/
def Dev.wakeIf (d : Dev) (before : Bool) : Dev :=
  if d.mode == .standby && !before && d.presence then d.enterWake else d

/-- What a STATUS frame reports (R421, R66, R331). -/
def Dev.takeStatus (d : Dev) (st : FieldStatus) : Dev :=
  let good := st.rails == 31#5 && st.pgF
  let d := { d with bzl := { d.bzl with
    goodStatus := if good then min 3 (d.bzl.goodStatus + 1) else 0, tField := st.tField.toNat, vrefx := st.vrefxUv } }
  let d := if d.vrefxOk then { d with afe := { d.afe with vrefKept := st.vrefxUv } } else d
  let d := (d.put Reg.PWR_RAIL_F st.rails.toNat).put (Reg.CAL_TQ 0) st.tq0.toNat
  let d := (d.put (Reg.CAL_TQ 1) st.tq1.toNat).put (Reg.CAL_TQ 2) st.tq2.toNat
  (d.put (Reg.CAL_TQ 3) st.tq3.toNat).put Reg.CAL_TBZ_F st.tbzF.toNat

/-- The two supervisors agree on DEV_MODE (R17): where the field's copy differs from the value that binds and no CMD frame
waits for its REPLY, the host sends it again. -/
def Dev.agreeMode (d : Dev) (m : Nat) : Dev :=
  if d.fieldRuns && m != d.mode.code && d.bzl.cmds.isEmpty then d.sendCmd (.mode d.mode.code) else d

/-- BZL_STATUS_RX (R17, R421): the third good report in succession in STANDBY makes the field present; a report without
PG_F while the field side runs is its loss. -/
def execBzlStatusRx (f : Frame) (st : FieldStatus) (s : State) : Host.Outcome State Fault Refusal := s.onDev fun d =>
  let (d, ok) := d.bzlRx .f2h f
  if !ok || f.typ != 2 || d.mode == .off then d else
  let before := d.presence
  let d := d.takeStatus st
  if d.fieldRuns && !st.pgF then d.fieldLost else (d.wakeIf before).agreeMode st.mode

/-- FIELD_ABSENT (R421): no STATUS frame for 3 ms in STANDBY. -/
def execFieldAbsent (s : State) : Host.Outcome State Fault Refusal := s.onDev fun d =>
  if d.mode == .standby || d.mode == .reset then { d with bzl := { d.bzl with goodStatus := 0 } } else d

/-! The host side (R416, R420, R434). -/

/-- A host cold start (R10, R420): jobs, sessions, pages and every parameter are gone. What stays: the flash contents
(calibration records, fault log, network record, image slots), the manifest key, the field side's supplies and field
SRAM, and the model's own counters. A pair that is retired stays so until the self-test of the boot (R390). -/
def Dev.coldStart (d : Dev) : Dev :=
  { now := d.now
    regs := if d.rf Reg.FLT_CORE_STAT 11 8 = 0 then {} else ({} : Regs).put Reg.FLT_CORE_STAT (d.rd Reg.FLT_CORE_STAT)
    frees := d.frees, mode := d.mode, prev := d.prev, trans := d.trans, opens := d.opens, tx := d.tx
    txHeads := d.txHeads
    fsram := d.fsram
    cal := { store := d.cal.store, block := d.cal.block, flash := d.cal.flash }
    net := { record := d.net.record }
    pages := { key := d.pages.key }
    flt := { log := d.flt.flash, flash := d.flt.flash, flushed := d.flt.flushed, savedAt := d.flt.savedAt
             next := d.flt.flushed + 1, roc := d.flt.roc, flashLow := d.flt.flashLow }
    pwr := { d.pwr with
      modeHeld := false, gridLost := false, dip := false, acDip := false, started := false, wakeRetry := 0
      refused := false, selfRefresh := false, cold := true, fw := none, fwImg := [], fwBusy := false, posFresh := true } }

/-- Both sides are valid with both reset inputs high: t0 (R435). -/
def Dev.markT0 (d : Dev) : Dev :=
  if d.pwr.hostOk && d.pwr.fieldOk && d.pwr.nrstH && d.pwr.nrstF then { d with pwr := { d.pwr with t0 := d.now } } else d

/-- The host side leaves OFF or a cold reset: RESET, the network record, the log rebuilt from flash, and its POWER entry
(R37, R366, R410). The time counter goes on from when the host supplies became valid (R375). -/
def Dev.hostStarts (d : Dev) : Dev :=
  let d := { d.coldStart with mode := .reset, prev := .off, trans := 0, tim := { cnt := d.tim.cnt, rep := d.tim.rep } }.netLoad
  (d.log { cls := 1, code := 1, a := d.flt.savedAt } .off .reset).markT0

/-- HOST_POWER_VALID (R416, R37): the time counter starts at 0 (R375). -/
def execHostPowerValid (s : State) : Host.Outcome State Fault Refusal :=
  let d := { s.d with pwr := { s.d.pwr with hostOk := true }, tim := {} }
  if s.d.pwr.hostOk then .next s
  else .next { s with d := if d.pwr.nrstH && !d.pwr.tripH then d.hostStarts else d }

/-- HOST_POWER_LOST (R416, R37): OFF; DRAM loses its contents. -/
def execHostPowerLost (s : State) : Host.Outcome State Fault Refusal :=
  let d := s.d.coldStart
  .next { s with
    mem := []
    d := { d with
      mode := .off, prev := s.d.mode, trans := s.d.trans
      pwr := { d.pwr with hostOk := false, pgH := false } } }

/-- The host side is held in reset (R420, R456): DRAM in self-refresh, then RESET as a level 3 restart. -/
def Dev.hostHeld (d : Dev) : Dev :=
  let d := { d with pwr := { d.pwr with pgH := false } }
  if d.mode == .off || d.mode == .reset then { d with pwr := { d.pwr with selfRefresh := true } } else d.level3

/-- NRST_H_FALL (R420). -/
def execNrstHFall (s : State) : Host.Outcome State Fault Refusal := s.onDev fun d =>
  if d.pwr.nrstH then ({ d with pwr := { d.pwr with nrstH := false } }).hostHeld else d

/-- NRST_H_RISE (R420): with DRAM kept the level 3 restart goes on to its boot; without it, the start is a cold one. -/
def execNrstHRise (dramKept : Bool) (s : State) : Host.Outcome State Fault Refusal :=
  if s.d.pwr.nrstH then .next s
  else
    let d := { s.d with pwr := { s.d.pwr with nrstH := true } }
    if !d.pwr.hostOk || d.pwr.tripH then .next { s with d := d }
    else if d.mode == .off then .next { s with mem := [], d := d.hostStarts }
    else if dramKept then .next { s with d := d.markT0 }
    else .next { s with mem := [], d := d.hostStarts }

/-- BOOT_REFUSED (R434). -/
def execBootRefused (s : State) : Host.Outcome State Fault Refusal := s.onDev fun d =>
  if d.mode == .reset then
    { d.bump Reg.PWR_BOOT_FAIL_CNT with pwr := { (d.bump Reg.PWR_BOOT_FAIL_CNT).pwr with refused := true } }
  else d

/-- BOOT_RETRY (R434): the boot is tried again. -/
def execBootRetry (s : State) : Host.Outcome State Fault Refusal := s.onDev fun d =>
  if d.mode == .reset then { d with pwr := { d.pwr with refused := false } } else d

/-- Retired pairs are self-tested at a level 3 restart and at power-up (R390); whether one passes is a free value. -/
def Dev.selfTest (d : Dev) : Dev :=
  (bitsOf (d.rd Reg.FLT_CORE_STAT / 256) 4).foldl (fun (d : Dev) k =>
    let (v, d) := d.free 18
    if v.getLsbD 0 then
      let w := d.rd Reg.FLT_CORE_STAT
      d.put Reg.FLT_CORE_STAT (w % 16 + setBit (w / 16 % 16) k * 16 + clrBit (w / 256 % 16) k * 256)
    else d) d

/-- The security version of the image committed to a slot; none known of an image as shipped (R434, log 10). -/
def Dev.imageVer (d : Dev) (slot : Nat) : Option Nat :=
  match d.pwr.imgs.getD slot [] with
  | [] => none
  | img => some (Config.imageVersion img)

/-- The slot last committed holds an image below the minimum security version: it is refused (R434). -/
def Dev.imageOld (d : Dev) : Bool :=
  match d.imageVer d.pwr.slot with
  | none => false
  | some v => decide (v < d.pwr.minVer)

/-- BOOT_COMPLETE (R434, R435): the signed boot is complete and DRAM trained: STANDBY, and WAKE where the field is
present. An image below the minimum version gives way to the other slot's; with a fallback of another cause, which slot
runs depends on whether the loader or the image was refused: a free value. The minimum rises to the version that ran. -/
def execBootComplete (dramFull fallback : Bool) (s : State) : Host.Outcome State Fault Refusal := s.onDev fun d =>
  if d.mode != .reset || !d.pwr.hostOk || !d.pwr.nrstH || d.pwr.tripH || d.pwr.refused then d else
  let (slot, d) := if d.imageOld then (1 - d.pwr.slot, d)
    else if fallback then
      let (v, d) := d.free 19
      (v.toNat % 2, d)
    else (d.pwr.slot, d)
  let d := d.put Reg.PWR_BOOT
    (clrBit (clrBit (clrBit (d.rd Reg.PWR_BOOT) 2) 1) 0 + 4 * b2n dramFull + 2 * b2n (fallback || d.imageOld) + slot)
  let d := { d.selfTest with pwr := { d.selfTest.pwr with
    selfRefresh := false, cold := false, modeHeld := false, minVer := max d.pwr.minVer ((d.imageVer slot).getD 0) } }
  let d := [NetPort.eth0, .eth1, .sgmii].foldl (fun (d : Dev) p => d.drain p) (d.setMode .standby)
  let d := d.sesIds.foldl (fun (d : Dev) n => d.pump n) d
  if d.presence then d.enterWake else d

/-! The field side (R416, R422, R423). -/

/-- A sample of FBUS_SENSE. -/
def Dev.fbusSample (d : Dev) (code : Nat) : Dev :=
  { d with pwr := { d.pwr with
    fbus := code, fbusMin := some (min code (d.pwr.fbusMin.getD code))
    fbusValid := decide (d.rd Reg.PWR_FBUS_LOW + d.rd Reg.PWR_FBUS_HYST ≤ code) } }

/-- FIELD_POWER_VALID (R416, R240): encoder counts restart at 0; field SRAM holds nothing written. The field bus is at
its nominal code, 3,277 (R426; log 132). -/
def execFieldPowerValid (s : State) : Host.Outcome State Fault Refusal := s.onDev fun d =>
  if d.pwr.fieldOk then d else
  ({ d with
    fsram := []
    clamp := []
    cal := { d.cal with valid := 0, crcFail := 0, chk := 0, monRec := [] }
    flt := { d.flt with poison := [] }
    mot := { d.mot with enc := List.replicate 6 0, encZ := List.replicate 6 0 }
    pwr := { d.pwr with fieldOk := true, posFresh := true } }).markT0.fbusSample 3277

/-- The field side cannot run: PG_F goes low, its outputs float, and its position and grid are lost (R422). -/
def Dev.fieldGone (d : Dev) : Dev :=
  let d := { d with
    mot := { d.mot with enc := List.replicate 6 0, encZ := List.replicate 6 0 }
    pwr := { d.pwr with pgF := false, posFresh := true } }
  if d.mode == .off then d else d.fieldLost

/-- FIELD_POWER_LOST (R416, R422): FBUS_SENSE is sampled no more. -/
def execFieldPowerLost (rail : Nat) (s : State) : Host.Outcome State Fault Refusal := s.onDev fun d =>
  ({ d.put Reg.PWR_RAIL_F (clrBit (d.rd Reg.PWR_RAIL_F) rail) with
    pwr := { d.pwr with fieldOk := false, fbus := 0, fbusMin := none, fbusValid := false } }).fieldGone

/-- NRST_F_FALL (R422, R423). -/
def execNrstFFall (s : State) : Host.Outcome State Fault Refusal := s.onDev fun d =>
  if d.pwr.nrstF then ({ d with pwr := { d.pwr with nrstF := false } }).fieldGone else d

/-- NRST_F_RISE (R460). -/
def execNrstFRise (s : State) : Host.Outcome State Fault Refusal := s.onDev fun d =>
  if d.pwr.nrstF then d
  else (({ d with pwr := { d.pwr with nrstF := true } }).markT0).wakeIf d.presence

/-- PG_HIGH (R419): a side valid, with its reset input high for 2 ms. -/
def execPgHigh (side : Side) (s : State) : Host.Outcome State Fault Refusal := s.onDev fun d =>
  match side with
  | .host => if d.pwr.hostOk && d.pwr.nrstH && !d.pwr.tripH then { d with pwr := { d.pwr with pgH := true } } else d
  | .field => if d.pwr.fieldOk && d.pwr.nrstF && !d.pwr.tripF then { d with pwr := { d.pwr with pgF := true } } else d

/-- THERMAL_TRIP (R456): as that side's reset input low. -/
def execThermalTrip (side : Side) (s : State) : Host.Outcome State Fault Refusal := s.onDev fun d =>
  match side with
  | .host => ({ d with pwr := { d.pwr with tripH := true } }).hostHeld
  | .field => ({ d with pwr := { d.pwr with tripF := true } }).fieldGone

/-- THERMAL_RELEASE (R456): the side is released, as its reset input rises. -/
def execThermalRelease (side : Side) (s : State) : Host.Outcome State Fault Refusal := s.onDev fun d =>
  match side with
  | .host =>
    let d' := { d with pwr := { d.pwr with tripH := false } }
    if d.pwr.tripH && d.mode == .off && d.pwr.hostOk && d.pwr.nrstH then d'.hostStarts else d'
  | .field => { d with pwr := { d.pwr with tripF := false } }

/-! WAKE (R435 to R437). -/

/-- A direction after training (R46): of the lanes that trained the lowest `due` are in the stripe, a spare in the place of
every lane that did not train, and the rest are the spares. -/
def trainedLink (lanes due total : Nat) : Link :=
  let ok := bitsOf lanes total
  { map := (ok.take due).foldl setBit 0, spares := (ok.drop due).foldl setBit 0
    sub := ((ok.take due).filter (due ≤ ·)).foldl setBit 0, up := !ok.isEmpty }

/-- The link and the field clocks after training (R46, R30, R33): the slot pointers start (R120). -/
def Dev.linkTrained (d : Dev) (t : Training) : Dev :=
  let d := { d with
    bzl := { d.bzl with
      f2h := trainedLink t.f2h 22 24, h2f := trainedLink t.h2f 3 4, lat := t.lat
      inhibit := false, holdover := false, localOsc := false, fieldLock := true, rootLock := true }
    afe := { d.afe with lockAt := d.now, slot0 := [] } }
  { d with bzl := { d.bzl with refLane := d.refLane } }.lanesTrained

/-- Positions take their value at the first WAKE after a field power-up or a host cold start (R243, R240). -/
def Dev.freshPositions (d : Dev) : Dev :=
  if !d.pwr.posFresh then d else
  { d with
    mot := { d.mot with axes := d.mot.axes.zipIdx.map (fun (x : Axis × Nat) =>
      { x.1 with pos := 0, pref := 0, cref := 0, homed := false, valid := !d.axHomeReq x.2 }) }
    pwr := { d.pwr with posFresh := false } }

/-- The converters come up: a ready core in each quadrant with none, the pixel reference settled, and the MON references
settled (R127, R133, R140). After a loss of VREFX the bandgap stays in use until SEL is written (R134). -/
def Dev.convertersUp (d : Dev) : Dev :=
  let d := { d with afe := { d.afe with quads := d.afe.quads.map (fun (q : Quad) =>
    match q.ready, q.cal with
    | none, k :: l => if q.probation.contains k then q else { q with ready := some k, cal := l }
    | _, _ => q) } }
  let d := (if d.afe.scaled then d else d.selectRef).putF Reg.AFE_REF_CTRL 9 9 1
  ((d.monRefTake false).monRefTake true).putF Reg.MON_A_REF 8 8 1 |>.putF Reg.MON_B_REF 8 8 1

/-- What WAKE ends in (R37, R395): SAFE after a level 3 restart that R395 condemns, HOLD with a job held, or IDLE. -/
def Dev.wakeEnd (d : Dev) : Dev :=
  let l3 := d.flt.l3run
  let bad := d.flt.l3fail
  let d := (d.flt.recs.filter (fun (x : Recov) => x.level == 3)).foldl (fun (d : Dev) x => d.recovered x) d
  let d := { d with flt := { d.flt with
    l3run := false, l3fail := false, l3 := if l3 then some d.ns else d.flt.l3 } }
  if bad then d.enterSafe scRecovery { cls := 0x12, code := 3 }
  else
    let d := if d.pwr.started then d
      else { d.put Reg.PWR_START_MS ((d.now - d.pwr.t0) / 781250) with pwr := { d.pwr with started := true } }
    let d := { d with flt := { d.flt with why := 0 } }.clrHold hcFault |>.put Reg.FLT_SAFE_CAUSE 0
    if d.jobHeld then { d.setMode .hold with cox := { d.cox with st := 4 } } else d.toIdle

/-- WAKE_COMPLETE (R435): every wake step is done, Bezel training among them; without a lane in each direction it is not.
After a level 3 restart with the field supplies valid throughout, the
field die has made its warm restart (R397). -/
def execWakeComplete (t : Training) (s : State) : Host.Outcome State Fault Refusal := s.onDev fun d =>
  if d.mode != .wake || t.f2h % 2 ^ 24 == 0 || t.h2f % 16 == 0 then d else
  let d := (d.linkTrained t).startClocks.putF Reg.PWR_BOOT 3 3 (b2n t.full)
  -- R392: the entry of a crystal failure, from the field supervisor's record of it
  let d := if d.flt.fieldRec.isSome then
      { d with flt := { d.flt with fieldRec := none } }.log
        { cls := 3, code := 2, action := 5, field := true, seen := d.flt.fieldRec } d.mode .reset
    else d
  let d := (d.freshPositions.convertersUp).clrHold hcLink
  let d := if d.flt.l3run then (List.range 8).foldl (fun (d : Dev) m => if bit d.cal.valid m then d.checkSlot m else d) d else d
  let d := d.wakeRestore t.badRecs
  let d := d.put Reg.CAL_EPOCH_NEXT d.cal.block
  let d := { d with lamp := { d.lamp with chains := d.lamp.chains.map (fun (c : Chain) => { c with diagN := 0, gate := [] }) } }
  d.wakeEnd

/-- WAKE_STEP_FAIL (R435): a step is retried once; then SAFE, cause WAKE. -/
def execWakeStepFail (s : State) : Host.Outcome State Fault Refusal := s.onDev fun d =>
  if d.mode != .wake then d
  else if d.pwr.wakeRetry = 0 then { d with pwr := { d.pwr with wakeRetry := 1 } }
  else
    let d := { d with
      pwr := { d.pwr with wakeRetry := 0 }
      flt := { d.flt with l3run := false, l3 := if d.flt.l3run then some d.ns else d.flt.l3
                          recs := d.flt.recs.filter (fun (x : Recov) => x.level != 3) } }
    d.enterSafe scWake { cls := 0x12, code := 3 }

/-! The field bus (R426 to R430). -/

/-- What a dip stops (R255, R427, R430): the feed of a job, with every other group in motion ramped to HALTED; without a
job every group and every homing. -/
def Dev.supplyStop (d : Dev) : Dev :=
  if d.jobMode then d.stopFeed.rampOthers
  else
    let d := (List.range 4).foldl (fun (d : Dev) g => d.modGrp g fun x => match x.st, x.cur with
      | .run, some m => { x with st := .halting, haltDec := m.dec }
      | _, _ => x) d
    if d.mode == .homing then d.homeAbandon false else d

/-- FBUS_DIP (R427): the code has stayed below PWR_FBUS_LOW for PWR_DIP_T; any other code is only a sample. -/
def execFbusDip (code : Nat) (s : State) : Host.Outcome State Fault Refusal := s.onDev fun d =>
  if d.rd Reg.PWR_FBUS_LOW ≤ code then d.fbusSample code else
  let d := (d.fbusSample code).bump Reg.PWR_DIP_CNT
  (({ d with pwr := { d.pwr with dip := true, dipCode := code, dipSeen := some d.sight } }).setHold hcSupply).supplyStop

/-- FBUS_RECOVER (R427, R428): with the bus valid again the dip ends and its entry is written, with the time, the mode, the
promise and the action of its detection (R388, R411), or a shorter excursion is counted. -/
def execFbusRecover (code durationUs : Nat) (s : State) : Host.Outcome State Fault Refusal := s.onDev fun d =>
  let d := d.fbusSample code
  if !d.pwr.fbusValid then d
  else if d.pwr.dip then
    let held := (d.pwr.dipSeen.map Sight.mode).any (fun m => m == Mode.scan.code || m == Mode.splice.code)
    ({ d with pwr := { d.pwr with dip := false } }).log
      { cls := 4, code := 1, action := if held then 6 else 0, field := true, a := d.pwr.dipCode, b := durationUs
        seen := d.pwr.dipSeen } d.mode (if held then .hold else d.mode)
  else d.bump Reg.PWR_SHORT_DIP_CNT

/-- SUPPLY_CLEAR (R428, R429): the bus has been valid for PWR_FBUS_OK_T. -/
def execSupplyClear (s : State) : Host.Outcome State Fault Refusal := s.onDev fun d =>
  if d.pwr.dip || !d.pwr.fbusValid || (d.pwr.acDip && !d.lamp.acLock) then d
  else ({ d with pwr := { d.pwr with acDip := false } }).clrHold hcSupply

/-- FBUS_SURGE (R428): the code has stayed at or above PWR_FBUS_HIGH for PWR_DIP_T. -/
def execFbusSurge (code : Nat) (s : State) : Host.Outcome State Fault Refusal := s.onDev fun d =>
  if code < d.rd Reg.PWR_FBUS_HIGH then d.fbusSample code
  else ((d.fbusSample code).putF Reg.PWR_STAT 4 4 1).bump Reg.PWR_SURGE_CNT

/-- AC_DIP (R429). -/
def execAcDip (s : State) : Host.Outcome State Fault Refusal := s.onDev fun d =>
  if d.rf Reg.PWR_CTRL 0 0 = 0 ∨ !d.lamp.acLock then d else
  let d := (({ d with pwr := { d.pwr with acDip := true } }).setHold hcSupply).bump Reg.PWR_AC_DIP_CNT
  (d.log { cls := 4, code := 1, action := d.faultAction, field := true } d.mode d.leadsTo).supplyStop

/-! Firmware (R65). -/

/-- FW_COMMIT_DONE (R65): the image verifies and goes to the slot that does not run, to run from the next RESET, or FAULT. A
level 3 restart ends the operation's request and not its verification (DESIGN CHOICE, log 159). -/
def execFwCommitDone (s : State) : Host.Outcome State Fault Refusal := s.onDev fun d =>
  match d.pwr.fwBusy, d.pwr.fw with
  | true, some (_, n) =>
    let img := mread d.pwr.fwImg 0 n
    let ok := Config.imageOk img
    let run := d.rf Reg.PWR_BOOT 0 0
    let p := if ok then { d.pwr with imgs := d.pwr.imgs.set (1 - run) img, slot := 1 - run } else d.pwr
    ({ d with pwr := { p with fw := none, fwImg := [], fwBusy := false } }).endOps d.owner (fun o => o == Op.fwCommit)
      (if ok then stOk else stFault) 0
  | _, _ => d

end Sys2Proof.Machine
end

