-- ==== Sys2Proof/Machine/Roce.lean ====
section
/-! DEFINITION. The queue pairs (R370 to R374): client reads and writes of the shared region, errors, resends, and rate
control. -/

namespace Sys2Proof.Machine

open Sys2Proof

/-- RDMA WRITE packets that still wait are not sent: their queue pair has left RTS. -/
def Dev.flushWrites (d : Dev) (n : Nat) : Dev :=
  d.modPort (d.qpPort n) fun q => { q with
    waitq := q.waitq.filter (fun m => match m.2 with | .roceWrite k _ _ _ _ => k != n | _ => true) }

/-- A queue pair goes to ERROR (R372, R373): delivery waits, and the container under way is written again later, at the
same DPROD offset. -/
def Dev.qpError (d : Dev) (n cause : Nat) : Dev :=
  let d := (d.modQp n fun q => { q with st := 2, cause := cause }).flushWrites n
  let i := n - 1
  let (page, d) := match d.pages.deliv with
    | some x =>
      if x.rdma && x.session == n then
        let d := { d with pages := { d.pages with deliv := none } }
        (x.page.toNat,
          if x.record then
            let m := max 1 (d.rd (Reg.PAGE_S_CRING_N i))
            let d := (d.put (Reg.PAGE_S_DPROD i) x.offset).put (Reg.PAGE_S_CPROD i)
              ((d.rd (Reg.PAGE_S_CPROD i) + m - 1) % m)
            { d with pages := { d.pages with rseq := aset d.pages.rseq n ((aget d.pages.rseq n).getD 1 - 1) } }
          else d)
      else (0, d)
    | none => (0, d)
  d.logHere { cls := 0x10, code := 2, unit := n, a := page }

/-- A NAK of a client's request (R372): 2 Remote Access Error, 3 Invalid Request. -/
def Dev.nak (d : Dev) (n cause : Nat) : Dev := (d.send (d.qpPort n) 3 (.roceNak n (d.qp n).epsn cause)).qpError n cause

/-- Whether a queue pair takes packets: RESET drops them silently, and ERROR takes none. -/
def Dev.qpReady (d : Dev) (n : Nat) : Bool := d.served && (d.qp n).st == 1 && (d.ses? n).isSome

/-- A client's access is granted: the key, the direction's enable, and the shared region (R372). -/
def Dev.grants (d : Dev) (n en : Nat) (rkey : Word) (addr len : Nat) : Bool :=
  rkey == (d.qp n).rkey && d.rf (Reg.NET_S_QP_CTRL (n - 1)) en en == 1 &&
    d.inShared addr ((addr : Int) + (len : Int) - 1)

/-- A request of the client has taken `k` PSNs. -/
def Dev.expect (d : Dev) (n k : Nat) : Dev := d.modQp n fun q => { q with epsn := (q.epsn + k) % 2 ^ 24 }

/-- ROCE_WRITE_RX (R372): the data arrives in the shared region, and is acknowledged. -/
def execRoceWriteRx (n : Nat) (ce : Bool) (rkey : Word) (addr : Nat) (data : List Byte) (s : State) :
    Host.Outcome State Fault Refusal :=
  let k := s.d.packets n data.length
  let d := s.d.qpRx n k
  if !s.d.qpReady n then .next { s with d := d }
  else
    let d := d.ecn n ce
    if d.grants n 29 rkey addr data.length then
      let psn := ((d.qp n).epsn + k - 1) % 2 ^ 24
      let d := ((d.cleanPoison addr data.length).dramUse (data.length / 8 + 2)).expect n k
      .next { s with
        mem := mwrite s.mem addr data
        d := d.send (d.qpPort n) 3 (.roceAck n psn) }
    else .next { s with d := d.nak n 2 }

/-- The responses to RDMA READs that a queue pair has still to send. -/
def Dev.readsWaiting (d : Dev) (n : Nat) : Nat :=
  ((nth d.net.ports (portIx (d.qpPort n))).waitq.filter (fun m => match m.2 with
    | .roceReadResp k _ _ last _ => k == n && last
    | _ => false)).length

/-- The packets that answer an RDMA READ, from its PSN. -/
def readPackets (n psn pmtu : Nat) (data : List Byte) : List Out :=
  let ps := parts pmtu data.length data
  ps.zipIdx.map fun x => .roceReadResp n ((psn + x.2) % 2 ^ 24) (x.2 == 0) (x.2 + 1 == ps.length) x.1

/-- ROCE_READ_RX (R370): the bytes read are sent. A seventeenth READ outstanding is answered as one not supported (DESIGN
CHOICE, log 192). -/
def execRoceReadRx (n : Nat) (ce : Bool) (rkey : Word) (addr len : Nat) (s : State) :
    Host.Outcome State Fault Refusal :=
  let d := s.d.qpRx n 1
  if !s.d.qpReady n then .next { s with d := d }
  else
    let d := d.ecn n ce
    if d.grants n 30 rkey addr len then
      if 16 ≤ d.readsWaiting n then .next { s with d := d.nak n 3 }
      else
        let poisoned := (d.poisonAt addr len).isSome
        let d := d.dramUse (len / 8 + 2)
        let psn := (d.qp n).epsn
        if poisoned then
          -- R391: Remote Operational Error; R385 lists no CAUSE for it, which is a free value
          let (v, d) := d.free 15
          .next { s with d := (d.send (d.qpPort n) 3 (.roceNak n psn 5)).qpError n (v.toNat % 16) }
        else
          let os := readPackets n psn (d.pmtu n) (mread s.mem addr len)
          let d := os.foldl (fun d o => d.send (d.qpPort n) 3 o) (d.expect n (d.packets n len))
          .next { s with d := d }
    else .next { s with d := d.nak n 2 }

/-- ROCE_BAD_REQUEST (R372). -/
def execRoceBadRequest (n : Nat) (k : BadRequest) (s : State) : Host.Outcome State Fault Refusal :=
  s.onDev fun d =>
    let r := d.qpReady n
    let d := d.qpRx n 1
    if r then (d.ecn n k.ce).nak n (if k.badAccess then 2 else 3) else d

/-- The RDMA WRITE outstanding for a delivery: its remote address, its key and its bytes. -/
def Dev.outWrite (d : Dev) : Option ((Nat × Word) × List Byte) :=
  match d.pages.deliv with
  | none => none
  | some x =>
    match d.delivPage x with
    | none => none
    | some (p, b) =>
      let n := x.session
      if x.record then
        let m := max 1 (d.rd (Reg.PAGE_S_CRING_N (n - 1)))
        some (d.recordAt n ((d.rd (Reg.PAGE_S_CPROD (n - 1)) + m - 1) % m), recordBytes x p b ((aget d.pages.rseq n).getD 0))
      else some (d.ringAt n x.offset, b)

/-- The packets of the RDMA WRITE outstanding. -/
def Dev.outPackets (d : Dev) (n : Nat) : Nat := (d.outWrite.map (fun w => d.packets n w.2.length)).getD 0

/-- The RDMA WRITE outstanding on a queue pair is sent again from its oldest packet not acknowledged (R373). -/
def Dev.resendWrite (d : Dev) (n : Nat) : Dev :=
  match d.outWrite with
  | none => d
  | some (w, b) =>
    (d.bumpBy (Reg.NET_S_RETX_CNT (n - 1)) (d.packets n b.length - (d.qp n).acked)).rdmaSend n w.1 w.2 b (d.qp n).acked

/-- An RDMA WRITE of the device is outstanding on a queue pair. -/
def Dev.writeOut (d : Dev) (n : Nat) : Bool :=
  (d.qp n).st == 1 && match d.pages.deliv with | some x => x.rdma && x.session == n | none => false

/-- The first `a` packets are acknowledged, and the others are sent again; after NET_ROCE_RETRY resends without progress
the queue pair goes to ERROR (R373). -/
def Dev.retry (d : Dev) (n a : Nat) : Dev :=
  let q := d.qp n
  let tries := if q.acked < a then 0 else q.resends
  if tries < d.rd Reg.NET_ROCE_RETRY then
    (d.modQp n fun q => { q with acked := max a q.acked, resends := tries + 1 }).resendWrite n
  else d.qpError n 1

/-- ROCE_NAK_RX (R373): a sequence error acknowledges what comes before the PSN it expects and is answered by a resend, any
other NAK puts the queue pair in ERROR. -/
def execRoceNakRx (n : Nat) (k : NakIn) (s : State) : Host.Outcome State Fault Refusal := s.onDev fun d =>
  let r := d.qpReady n
  let d := d.qpRx n 1
  if !r then d else
  let d := d.ecn n k.ce
  if !d.writeOut n then d
  else if k.seqErr then
    let a := (k.psn + 2 ^ 24 - (d.qp n).base) % 2 ^ 24
    d.retry n (if a < d.outPackets n then a else (d.qp n).acked)
  else d.qpError n 4

/-- ROCE_ACK_TIMEOUT (R373): the packets acknowledged by now are a free value, those before it at least; the others are
sent again, or the queue pair goes to ERROR. -/
def execRoceAckTimeout (n : Nat) (s : State) : Host.Outcome State Fault Refusal := s.onDev fun d =>
  if !d.writeOut n then d
  else
    let (v, d) := d.free 39
    let a := (d.qp n).acked
    d.retry n (a + v.toNat % max 1 (d.outPackets n - a))

/-- The line rate of a queue pair's port, Mb/s (R359). -/
def Dev.lineRate (d : Dev) (n : Nat) : Nat := if d.rf (cfgAddr (d.qpPort n)) 29 28 = 0 then 200000 else 100000

/-- CNP_RX (R374): the send rate is halved, at most once per 50 µs, down to 1 Gb/s. -/
def execCnpRx (n : Nat) (s : State) : Host.Outcome State Fault Refusal := s.onDev fun d =>
  let r := d.qpReady n
  let d := d.qpRx n 1
  if !r then d else
  let d := d.bump (Reg.NET_S_CNP_RX_CNT (n - 1))
  let due := match (d.qp n).cnpRx with | some t => decide (t + usCyc 50 ≤ d.now) | none => true
  if !due then d else
  let r := if (d.qp n).rate = 0 then d.lineRate n else (d.qp n).rate
  d.modQp n fun q => { q with rate := max 1000 (r / 2), cnpRx := some d.now }

/-- CNP_RATE_RECOVER (R374): 1 ms without a CNP: 5 Gb/s more, up to line rate. -/
def execCnpRateRecover (n : Nat) (s : State) : Host.Outcome State Fault Refusal := s.onDev fun d =>
  if !d.qpReady n || (d.qp n).rate == 0 then d else
  let r := (d.qp n).rate + 5000
  d.modQp n fun q => { q with rate := if d.lineRate n ≤ r then 0 else r }

/-! Writes of NET_Ss_QP_CTRL (R371, R373). -/

/-- EN of a queue pair has been written: RESET to RTS from its starting PSNs (R371), or back to RESET. -/
def Dev.qpWritten (d : Dev) (n : Nat) (old : Nat) : Dev :=
  let was := bit old 31
  let on := bit (d.rd (Reg.NET_S_QP_CTRL (n - 1))) 31
  if on && !was then
    let p := d.rd (Reg.NET_S_SPSN (n - 1)) % 2 ^ 24
    d.modQp n fun q => { q with
      st := 1, cause := 0, resends := 0, psn := p, base := p, acked := 0, epsn := d.rd (Reg.NET_S_RPSN (n - 1)) % 2 ^ 24 }
  else if was && !on then
    (d.modQp n fun q => { q with st := 0, cause := 0, resends := 0, rate := 0 }).flushWrites n
  else d

end Sys2Proof.Machine
end

