-- ==== Sys2Proof/Machine/Live.lean ====
section
/-! DEFINITION. What a parameter word reads (R69, R9): the words that show live state, page by page, and for every
other word its active value. A WO word reads 0. -/

namespace Sys2Proof.Machine

open Sys2Proof

/-- A word of 32 bits of a larger number. -/
def loW (n : Nat) : Nat := n % 2 ^ 32
/-- The word above the lowest one. -/
def hiW (n : Nat) : Nat := n / 2 ^ 32 % 2 ^ 32
/-- One of two words of a pair. -/
def pairW (high : Bool) (n : Nat) : Nat := if high then hiW n else loW n
/-- A mask of the indices below `n` for which `p` holds. -/
def maskOf (n : Nat) (p : Nat → Bool) : Nat := sumN ((List.range n).map (fun i => if p i then 2 ^ i else 0))
/-- A signed value limited to `w` bits, as its two's complement. -/
def satS (w : Nat) (x : Int) : Nat := twos w (clampI (-(2 ^ (w - 1))) (2 ^ (w - 1) - 1) x)

/-- The index within an array of words with a base, a stride and a count, and the offset within its element. -/
def ixOf (base stride n a : Nat) : Option (Nat × Nat) :=
  if base ≤ a ∧ a < base + stride * n then some ((a - base) / stride, (a - base) % stride) else none

/-- DEV words (R45). -/
def Dev.liveDev (d : Dev) (a : Nat) : Option Nat :=
  if a = Reg.DEV_UID_LO then some (loW Config.devUid.toNat)
  else if a = Reg.DEV_UID_HI then some (hiW Config.devUid.toNat)
  else if a = Reg.DEV_MODE then some d.modeWord
  else if a = Reg.DEV_HOLD_CAUSE then some d.hold
  else if a = Reg.DEV_CLK_STAT then
    some (d.rf a 9 8 * 256 + d.bzl.refLane % 4 * 16 + b2n d.bzl.localOsc * 8 + b2n d.bzl.holdover * 4 +
      b2n d.bzl.fieldLock * 2 + b2n d.bzl.rootLock)
  else none

/-- LANES_READY and STATE of a head (R111): an enabled head without lanes is ready. -/
def Dev.headStat (d : Dev) (n : Nat) : Nat :=
  let c := d.regs.act
  let ls := lanesOfHead c n
  let ready := (ls.filter (bit d.seq.lanes)).length
  if !(headsOf c).contains n then 0
  else ready * 256 + (if ls.any (bit d.seq.reacq) then 3 else if ready = ls.length then 2 else 1)

/-- SEQ words (R111). -/
def Dev.liveSeq (d : Dev) (a : Nat) : Option Nat :=
  if a = Reg.SEQ_STAT then
    some (b2n d.seq.en * 128 + b2n d.seq.flush * 64 + b2n (d.rf Reg.SEQ_CTRL 0 0 == 1) * 32 + d.seq.pend.length % 8)
  else if a = Reg.SEQ_GRID_LO then some (loW d.seq.high)
  else if a = Reg.SEQ_GRID_HI then some (hiW d.seq.high % 65536)
  else if a = Reg.SEQ_STROKE_NO_LO then some (loW d.seq.strokeNo)
  else if a = Reg.SEQ_STROKE_NO_HI then some (hiW d.seq.strokeNo % 65536)
  else match ixOf (Reg.SEQ_LANE_STAT 0) 4 8 a with
    | some (m, _) => some (d.seq.lanes / 2 ^ (32 * m) % 2 ^ 32)
    | none =>
      match ixOf (Reg.SEQ_H_CTRL 0) 0x40 32 a with
      | some (n, 0x3C) => some (d.headStat n)
      | _ => none

/-- AFE words (R146). -/
def Dev.liveAfe (d : Dev) (a : Nat) : Option Nat :=
  if a = Reg.AFE_ROT_STAT then
    some (maskOf 4 (fun q => !(d.quad q).retired.isEmpty) * 16 + maskOf 4 (fun q => (d.quad q).ready.isSome))
  else match ixOf (Reg.AFE_CORE_MAP 0) 4 16 a with
    | some (w, _) => some (((d.afe.core.drop (4 * w)).take 4).foldl (fun v c => v * 256 + c % 256) 0)
    | none => none

/-- MON words (R147): result words without STALE, which PARAM_READ adds. -/
def Dev.liveMon (d : Dev) (a : Nat) : Option Nat :=
  match ixOf (Reg.MON_A_RES_LO 0) 8 128 a with
  | some (e, o) =>
    let r := d.monResult (decide (64 ≤ e)) (e % 64)
    some (if o = 0 then loW r else hiW r % 65536)
  | none => none

/-- PIX words (R177, R178). -/
def Dev.livePix (d : Dev) (a : Nat) : Option Nat :=
  let c := d.regs.act
  if a = Reg.PIX_STAT then
    some (d.rf a 19 16 * 65536 + maskOf 8 d.slotUsed * 256 + d.cal.valid % 256)
  else if a = Reg.PIX_OUT_WIDTH then some (outWidth c)
  else if a = Reg.PIX_PAYLOAD_LEN then some (payloadLen c)
  else match ixOf 0x040080 8 8 a with
    | some (m, o) =>
      let v := bit d.cal.valid m
      some (if o = 0 then b2n (bit d.cal.crcFail m) * 4 + b2n (d.slotUsed m) * 2 + b2n v
        else if v then d.tag m 4 4 else 0)
    | none =>
      match ixOf (Reg.PIX_H_BLK01 0 - 8) 16 32 a with
      | some (n, o) =>
        let f := fun (l : Nat) => twos 16 ((aget d.clamp (4 * n + l)).getD 0)
        if o = 8 then some (f 0 * 65536 + f 1) else if o = 12 then some (f 2) else none
      | none => none

/-- The columns and rows of a stored plane of `w` columns and `h` rows: all of it, but for a fixed crop (R190). -/
def cropMax (c : List (Nat × Word)) (w h : Nat) : Nat × Nat :=
  if rfA c Reg.PAGE_CTRL 5 4 = 1 then
    (min (rdA c Reg.PAGE_CROP_W) (w - rdA c Reg.PAGE_CROP_X), min (rdA c Reg.PAGE_CROP_H) (h - rdA c Reg.PAGE_CROP_Y))
  else (w, h)

/-- The bytes that a coded plane can take at most: ISO/IEC 14495-1 spends no more than LIMIT = 2 × (P + max(8, P)) bits on
a sample and stuffs one bit after fifteen; markers and headers follow (R192; log 50). -/
def codedMax (c : List (Nat × Word)) (w h : Nat) : Nat :=
  let p := outBits c
  2 * ceilDiv (w * h * (2 * (p + max 8 p)) + h) 15 + 4 * h + 128

/-- The largest container of a configuration, bytes (log 50): planes of a page of PAGE_ROWS positions, or PAGE_MAX_ROWS
where the sheet sensor bounds pages (R183), cropped where the crop is fixed and coded where JLS is set; the trailers of the
strokes that such a page takes until it closes (R185), and a manifest with 1,024 splice and 1,024 gap entries (R193 to
R195). -/
def contMax (c : List (Nat × Word)) : Nat :=
  let w := outWidth c
  if w = 0 then 0 else
  let lg := if rfA c Reg.PAGE_CTRL 9 8 = 0 then max 1 (rdA c Reg.PAGE_ROWS) else rdA c Reg.PAGE_MAX_ROWS
  let planes := nphOf c * linesOf c
  let chain := lg + ceilDiv (ofsMax c) 256 + nphOf c
  let tr := rfA c Reg.PAGE_CTRL 1 1
  let secs := planes + tr
  let sample := if outBits c = 8 then 1 else 2
  let (cw, ch) := cropMax c w (ceilDiv lg (nphOf c))
  let plane := if rfA c Reg.PAGE_CTRL 7 7 = 1 then codedMax c cw ch else cw * ch * sample
  ceilDiv (64 + 32 * secs) 64 * 64 + planes * (ceilDiv plane 64 * 64) + tr * 64 * chain
    + 128 + 32 * secs + 32 * 1024 + 16 * 1024 + 8 * ceilDiv (4 * chain) 8 + 32

/-- PAGE words (R206). -/
def Dev.livePage (d : Dev) (a : Nat) : Option Nat :=
  if a = Reg.PAGE_STAT then
    let nopen := (d.pages.list.filter (fun (p : Page) => !p.closed)).length
    let npend := (d.pages.list.filter (fun (p : Page) => p.closed)).length
    some (min 255 nopen * 65536 + min 255 npend * 256 + d.pages.engines % 16)
  else if a = Reg.PAGE_LOAD then
    let work := sumN ((d.pages.work.filter (fun x => decide (d.now ≤ x.1 + msCyc 1000))).map (·.2))
    some (min 65535 (work / (8000000 * max 1 (popc d.pages.engines 4))))
  else if a = Reg.PAGE_CONT_MAX then some (ceilDiv (contMax d.regs.act) 1048576)
  else none

/-- LMP words (R232, R233). LMP_AC_STAT.T is cut down to whole microseconds and reads 0 without lock (DESIGN CHOICE,
log 184). -/
def Dev.liveLmp (d : Dev) (a : Nat) : Option Nat :=
  let c := d.regs.act
  if a = Reg.LMP_STAT then
    some (b2n d.lamp.rot.isSome * 2 ^ 31 + b2n d.lamp.confirm * 2 ^ 30 +
      maskOf 16 (fun n => chainEn c n && lowDuty c n (d.level n)))
  else if a = Reg.LMP_AC_STAT then
    some (b2n d.lamp.acLock * 2 ^ 31 + (if d.lamp.acLock then d.lamp.acT * 8 / 25000 % 65536 else 0))
  else match ixOf (Reg.LMP_P_ID 0 - 8) 16 4 a with
    | some (p, 8) => some (d.phaseId p).toNat
    | some (p, 12) => some (d.lamptField (d.lampT p))
    | _ => none

/-- Remaining distance of the current move, 1/65,536 step, rounded down. -/
def Group.rem (g : Group) : Nat := match g.cur with | some m => (m.lenU - g.u) / motHz2 | none => 0

/-- STATE of a group (R266). -/
def GSt.code : GSt → Nat
  | .rest => 0 | .run => 1 | .halting => 2 | .halted => 3 | .paceStop => 4 | .splice => 5 | .homing => 6 | .limit => 7
  | .fault => 8

/-- MOT words of an axis (R271). -/
def Dev.liveAx (d : Dev) (x o : Nat) : Option Nat :=
  let ax := d.ax x
  match o with
  | 0x30 => some (loW (twos 64 (d.axPos x)))
  | 0x34 => some (hiW (twos 64 (d.axPos x)))
  | 0x38 => some (satS 32 (Int.tdiv (d.fe x) 65536))
  | 0x3C => some (b2n ax.valid * 2 ^ 31 + b2n ax.homed * 2 ^ 30 + b2n (d.limAct x true) * 2 ^ 29 +
      b2n (d.limAct x false) * 2 ^ 28 + b2n ax.moving * 2 ^ 27 + b2n ax.dir * 2 ^ 26 + d.rf (Reg.MOT_A_STAT x) 3 0)
  | _ => none

/-- MOT words of a group (R272). -/
def Dev.liveGrp (d : Dev) (g o : Nat) : Option Nat :=
  let x := d.grp g
  match o with
  | 0x04 =>
    let lead := match x.cur with | some m => m.lead.getD 15 | none => 15
    some ((if x.st = .run ∧ x.intern ≠ 0 then 5 else x.st.code) * 2 ^ 28 + min 32 x.count * 65536 + lead * 256 + (d.groupAxes g).length)
  | 0x08 => some (if x.intern = 0 then x.moveId.toNat else 0)
  | 0x0C => some (twos 32 (if x.intern = 1 then -((x.v / motHz : Nat) : Int) else ((x.v / motHz : Nat) : Int)))
  | 0x10 => some (loW x.rem)
  | 0x14 => some (hiW x.rem)
  | 0x18 => some (match x.vpace with | some v => min 0xFFFFFFFF v | none => 0xFFFFFFFF)
  | _ => none

/-- MOT words (R270 to R273). -/
def Dev.liveMot (d : Dev) (a : Nat) : Option Nat :=
  match ixOf (Reg.MOT_A_CFG 0) 0x40 12 a with
  | some (x, o) => d.liveAx x o
  | none =>
    match ixOf 0x070400 0x40 4 a with
    | some (g, o) => d.liveGrp g o
    | none =>
      match ixOf 0x070700 0x20 6 a with
      | some (e, o) =>
        let n := twos 48 (d.mot.enc.getD e 0)
        let z := twos 48 (d.mot.encZ.getD e 0)
        (match o with
        | 0x04 => some (loW n) | 0x08 => some (hiW n) | 0x0C => some (loW z) | 0x10 => some (hiW z)
        | _ => none)
      | none => none

/-- COX words (R302). -/
def Dev.liveCox (d : Dev) (a : Nat) : Option Nat :=
  let c := d.regs.act
  if a = Reg.COX_STATE then
    some (d.cox.st * 2 ^ 28 + d.cox.stop * 2 ^ 26 +
      min 255 (d.pageFill * 256 / (max 1 (rdA c Reg.PAGE_BUF_SIZE) * 1048576)) * 65536)
  else if a = Reg.COX_FILL then some (d.pageFill / 1048576)
  else if a = Reg.COX_DRAIN then some (d.cox.drain / 1024)
  else if a = Reg.COX_VD then some (min 0xFFFFFFFF (d.drainSpeed d.cox.drain))
  else if a = Reg.COX_BPS then some (bytesPerStroke c)
  else if a = Reg.COX_RESERVE then some (coxReserve c)
  else none

/-- CLS words (R303). -/
def Dev.liveCls (d : Dev) (a : Nat) : Option Nat :=
  if a = Reg.CLS_STAT then
    some (d.cls.step * 2 ^ 28 + min 64 d.cls.refs.length * 65536 +
      min 64 d.cls.band)
  else if a = Reg.CLS_CORR then some (satS 16 d.cls.cf * 65536 + twos 16 d.cls.cl)
  else if a = Reg.CLS_REF_LAST_LO then some (loW d.cls.refLast)
  else if a = Reg.CLS_REF_LAST_HI then some (hiW d.cls.refLast % 65536)
  else none

/-- CAL words (R331, R308). -/
def Dev.liveCal (d : Dev) (a : Nat) : Option Nat :=
  if a = Reg.CAL_STAT then
    let kind := match d.cal.run with | some r => r.kind | none => 0
    some (kind % 65536 * 65536 + d.cal.pend.length % 16 * 256 + d.rf a 7 0)
  else if a = Reg.CAL_APPLY_AT then some (b2n d.boundaryMode)
  else match ixOf (Reg.CAL_CORE 0) 4 68 a with
    | some (k, _) => some (d.rf a 31 16 * 65536 + b2n (d.coreValid k))
    | none => none

/-- STATE of a DMA channel (R358). -/
def DSt.code : DSt → Nat
  | .idle => 0 | .fetch => 1 | .waitReq => 2 | .run => 3 | .writeBack => 4 | .halted => 5 | .restart => 6

/-- Transactions of the host channels in flight (log 51): 0 while no channel moves data, else a free value within their
share. -/
def Dev.inflight (d : Dev) : Nat :=
  if (List.range 16).any (fun n => (d.chan n).st == DSt.run || (d.chan n).st == DSt.fetch || (d.chan n).flying) then
    (Config.freeValue 21 d.frees).toNat % (d.rd Reg.DMA_INFLIGHT_MAX + 1)
  else 0

/-- Transactions of the other agents in flight (log 51): a free value within what R352 leaves them while strokes are on the
way, pages are delivered or a queue pair of a client is ready. -/
def Dev.inflightOthers (d : Dev) : Nat :=
  if !d.bzl.framed.isEmpty || d.pages.deliv.isSome || d.sess.any (fun x => (d.qp x.1).st == 1) then
    (Config.freeValue 37 d.frees).toNat % (4097 - d.rd Reg.DMA_INFLIGHT_MAX)
  else 0

/-- DMA words (R357, R358). -/
def Dev.liveDma (d : Dev) (a : Nat) : Option Nat :=
  if a = Reg.DMA_STAT then
    some (maskOf 16 (fun n => (d.chan n).st != DSt.idle) * 65536 + maskOf 16 (fun n => (d.chan n).st == DSt.halted))
  else if a = Reg.DMA_INFLIGHT then some ((d.inflight + d.inflightOthers) * 65536 + d.inflight)
  else if a = Reg.DMA_SHR_SIZE then some d.shrMib
  else if a = Reg.DMA_PBUF_BASE then some (shrBase / 1048576 + d.shrMib)
  else match ixOf (Reg.DMA_CH_CTRL 0) 0x20 16 a with
    | some (n, o) =>
      let x := d.chan n
      (match o with
      | 0x08 => some (x.st.code * 2 ^ 28 + min 16 x.held * 65536 + min 255 x.reqs * 256 + d.rf (Reg.DMA_CH_STAT n) 2 0)
      | 0x0C => some (loW x.desc) | 0x10 => some (hiW x.desc)
      | 0x14 => some (loW x.errAddr) | 0x18 => some (hiW x.errAddr)
      | _ => none)
    | none => none

/-- The open sessions as a mask, bit n − 1 for session n (R83). -/
def Dev.sesMask (d : Dev) : Nat := maskOf 64 (fun i => (d.ses? (i + 1)).isSome)

/-- NET words (R83, R383 to R385). -/
def Dev.liveNet (d : Dev) (a : Nat) : Option Nat :=
  if a = Reg.NET_SKM_SESS_CNT then some d.sess.length
  else if a = Reg.NET_SKM_SESS_MAP_LO then some (loW d.sesMask)
  else if a = Reg.NET_SKM_SESS_MAP_HI then some (hiW d.sesMask)
  else if a = Reg.NET_STAT then some (b2n (d.link .eth0) + 2 * b2n (d.link .eth1) + 4 * b2n (d.link .sgmii))
  else match ixOf (Reg.NET_P_CFG 0) 0x80 3 a with
    | some (p, 8) => some (macOf (portOf p) / 2 ^ 32 % 65536)
    | some (p, 12) => some (loW (macOf (portOf p)))
    | some _ => none
    | none =>
      match ixOf 0x0C1000 0x40 64 a with
      | some (i, o) =>
        let q := d.qp (i + 1)
        (match o with
        | 0x20 => some (0x100 + i + 1)
        | 0x24 => some q.rkey.toNat
        | 0x28 => some (q.st * 2 ^ 28 + q.cause * 2 ^ 24 + q.resends % 8)
        | _ => none)
      | none => none

/-- TIM words (R386). -/
def Dev.liveTim (d : Dev) (a : Nat) : Option Nat :=
  let slew := twos 64 (Int.tdiv d.tim.slew (2 ^ 32))
  if a = Reg.TIM_NS_LO then some (loW d.ns)
  else if a = Reg.TIM_NS_HI then some (hiW d.ns)
  else if a = Reg.TIM_FRAC then some (loW d.tim.cnt)
  else if a = Reg.TIM_INCR_LO then some (loW d.tim.incr)
  else if a = Reg.TIM_INCR_HI then some (hiW d.tim.incr)
  else if a = Reg.TIM_SLEW_LO then some (loW slew)
  else if a = Reg.TIM_SLEW_HI then some (hiW slew)
  else if a = Reg.TIM_STAT then
    some (b2n (decide (d.tim.slew ≠ 0)) * 2 ^ 31 + d.tim.ptp % 16 * 2 ^ 24 + b2n d.tim.lock * 65536 + d.tim.src % 4)
  else none

/-- FLT words (R414). -/
def Dev.liveFlt (d : Dev) (a : Nat) : Option Nat :=
  if a = Reg.FLT_STAT then
    some (b2n d.promise * 2 ^ 31 + b2n (d.mode == .service) * 2 ^ 30 + b2n d.mechOff * 2 ^ 29 +
      b2n (d.flt.roc != 0) * 2 ^ 28 + b2n d.flt.flashLow * 4 + b2n (d.rf Reg.FLT_CORE_STAT 7 4 == 0) * 2 +
      b2n (d.rd Reg.FLT_SCRUB_CTRL != 15))
  else if a = Reg.FLT_LOG_NEXT then some (d.flt.next % 2 ^ 32)
  else if a = Reg.FLT_LOG_OLDEST then
    some ((match d.flt.log.getLast? with | some e => e.index | none => d.flt.next) % 2 ^ 32)
  else if a = Reg.FLT_LOG_UNCLEARED then some d.uncleared
  -- R403: how far the pass has come is a free value while it goes on
  else if a = Reg.FLT_DRAM_SCRUB_POS then
    some (if bit (d.rd Reg.FLT_SCRUB_CTRL) 2 && !d.flt.l3run then (Config.freeValue 44 d.frees).toNat % 65536 else 0)
  else match ixOf (Reg.FLT_S_TELEM 0) 4 64 a with
    | some (i, _) => (d.ses? (i + 1)).map (fun s => s.telMask % 1024 * 65536 + s.telPeriod % 16384)
    | none => none

/-- PWR words (R46, R439). -/
def Dev.livePwr (d : Dev) (a : Nat) : Option Nat :=
  if a = Reg.PWR_STAT then
    some (b2n d.pwr.gridLost * 32 + d.rf a 4 4 * 16 + b2n d.pwr.acDip * 8 + b2n d.pwr.fbusValid * 4 +
      b2n (decide (3 ≤ d.bzl.goodStatus)) * 2 +
      b2n (d.mode == .standby && (d.pwr.modeHeld || d.rf Reg.DEV_CTRL 0 0 == 1)))
  else if a = Reg.PWR_FBUS then some (d.pwr.fbusMin.getD d.pwr.fbus * 65536 + d.pwr.fbus)
  else if a = Reg.PWR_BZL_STAT then
    let fill := if d.fieldRuns then sumN (d.bzl.stage.map (fun (f : Frame) => f.len)) else d.bzl.stageLast
    some (min 255 (fill / 4096) * 65536 + popc d.bzl.h2f.spares 4 * 1024 + popc d.bzl.f2h.spares 24 * 256 +
      popc d.bzl.h2f.map 4 * 32 + popc d.bzl.f2h.map 24)
  else if a = Reg.PWR_BZL_F2H_MAP then some (d.bzl.f2h.map % 2 ^ 24)
  else if a = Reg.PWR_BZL_H2F_MAP then some (d.bzl.h2f.map % 16)
  else none

/-- The live value of a word; none where the word is one that is stored. -/
def Dev.live (d : Dev) (a : Nat) : Option Nat :=
  match a / 65536 with
  | 0 => d.liveDev a | 1 => d.liveSeq a | 2 => d.liveAfe a | 3 => d.liveMon a | 4 => d.livePix a | 5 => d.livePage a
  | 6 => d.liveLmp a | 7 => d.liveMot a | 8 => d.liveCox a | 9 => d.liveCls a | 10 => d.liveCal a | 11 => d.liveDma a
  | 12 => d.liveNet a | 13 => d.liveTim a | 14 => d.liveFlt a | 15 => d.livePwr a
  | _ => none

/-- What a word reads now. -/
def Dev.word (d : Dev) (a : Nat) : Nat := (d.live a).getD (d.rd a)

end Sys2Proof.Machine
end

