-- ==== Sys2Proof/Machine/Skm.lean ====
section
/-! DEFINITION. The SKM layer (R47 to R83): PING, sessions with their replay caches and events, rejected datagrams, modes
(R40, R460), jobs (R42, R58 to R61), the status block (R66), telemetry (R407 to R409), the manifest key (R64), firmware
(R65) and the fault log (R413). -/

namespace Sys2Proof.Machine

open Sys2Proof

/-! Requests on session 0 (R51, R57). -/

/-- PING and SESSION_OPEN: rows 4, 5 and 7 to 10 of R51. `dup` answers a resend of a SESSION_OPEN. -/
def Dev.serve0 (d : Dev) (h : Req) (op : Nat) (bare : Bool) (dup : Dev → Option Dev) (k : Dev → Answer) : Dev :=
  if !d.served then d else
  let d := d.runtimeBack.bump (Reg.NET_P_RX_FRAME_CNT (portIx h.port))
  match d.notRequest h bare with
  | some d => d
  | none =>
  if h.session ≠ 0 then
    match d.ses? h.session with
    | none => d.refuse h op stBadParam
    | some x =>
      if h.src ≠ x.ep then d.bump Reg.NET_SKM_ADDR_DROP_CNT else (d.valid h).answer h op stBadParam []
  else if badHeader h then d.refuse h op stBadParam
  else match dup d with
  | some d => d
  | none =>
    let d := d.bump Reg.NET_SKM_RX_CNT
    if h.rsv then d.refuse h op stBadParam else
    let r := k d
    let d := r.2.2.bumpIf (decide (0x200 ≤ r.1)) Reg.NET_SKM_ERR_CNT
    if replySent h r.1 then d.sendReply h.src h.port 0 h.seq op r.1 r.2.1 else d

/-- PING (R62): the request's payload comes back. -/
def execPing (h : Req) (data : List Byte) (s : State) : Host.Outcome State Fault Refusal :=
  s.onDev fun d => d.serve0 h 1 data.isEmpty (fun _ => none) fun d => (stOk, data, d)

/-! Sessions (R53 to R60). -/

/-- The words of a session on the PAGE and NET pages (R207, R385). -/
def ofSession (n a : Nat) : Bool :=
  decide (0x051000 + 0x40 * (n - 1) ≤ a ∧ a < 0x051000 + 0x40 * n) ||
    decide (0x0C1000 + 0x40 * (n - 1) ≤ a ∧ a < 0x0C1000 + 0x40 * n)

/-- A session ends (R54, R55): its slot is free, its queue pair is in RESET with its key invalid, its delivery stops, an
update not yet committed is dropped; what it asked for goes on without it. -/
def Dev.freeSession (d : Dev) (n : Nat) : Dev :=
  let mv := fun (m : Move) => if m.session = n then { m with session := 0 } else m
  { d with
    sess := adel d.sess n
    ops := d.ops.map (fun (o : LongOp) => if o.session = n then { o with session := 0 } else o)
    jobs := d.jobs.map (fun (j : Job) => if j.owner = some n then { j with owner := none } else j)
    regs := { d.regs with
      sn := d.regs.sn.filter (fun p => p.1 / 2 ^ 24 != n)
      heldBy := d.regs.heldBy.map (fun x => if x.1 = n then (0, x.2) else x)
      com := d.regs.com.map (fun (c : PendCommit) => if c.session = n then { c with session := 0 } else c) }
    monA := { d.monA with fresh := d.monA.fresh.filter (fun x => x / 64 != n) }
    monB := { d.monB with fresh := d.monB.fresh.filter (fun x => x / 64 != n) }
    mot := { d.mot with groups := d.mot.groups.map (fun (g : Group) => { g with
      cur := g.cur.map mv, q := g.q.map mv, heldMove := g.heldMove.map mv, lastMove := g.lastMove.map mv }) }
    dma := { d.dma with fences := d.dma.fences.filter (fun f => f.h.session != n) }
    pages := { d.pages with
      deliv := if d.pages.deliv.any (fun x => x.session == n) then none else d.pages.deliv
      dseq := adel d.pages.dseq n
      rseq := adel d.pages.rseq n }
    net := { d.net with qps := aset d.net.qps n { rkey := (d.qp n).rkey } }
    pwr := match d.pwr.fw with
      | some (m, _) => if m = n ∧ !d.pwr.fwBusy then { d.pwr with fw := none, fwImg := [] } else d.pwr
      | none => d.pwr }

/-- A new remote key of a slot (R371): low byte s, upper 24 bits unlike the previous key's. -/
def Dev.newKey (d : Dev) (n : Nat) : Word :=
  let old := (d.qp n).rkey.toNat / 256
  let k := (Config.rkey d.net.keys).toNat
  let k := if k = old then (k + 1) % 2 ^ 24 else k
  w32 (k * 256 + n)

/-- The job a resume token names, until its last page is delivered (R58, log 52). -/
def Dev.tokenJob (d : Dev) (token : Nat) : Option Job := d.jobs.find? (fun j => j.token.toNat == token)

/-- The job is attached to a session (R60): the previous owner hears of it, and the job event queue is sent. -/
def Dev.attach (d : Dev) (n : Nat) (j : Job) : Dev :=
  let d := match j.owner with
    | some o => if o = n then d else d.ev o 6 (beW j.id ++ be 2 n)
    | none => d
  let d := { d with
    jobs := d.jobs.map (fun (x : Job) => if x.serial = j.serial then { x with owner := some n, evq := [] } else x)
    pages := { d.pages with deliv := if d.pages.deliv.any (fun x => x.serial == j.serial) then none else d.pages.deliv } }
  j.evq.foldl (fun d e => d.pushEv n ⟨e.code, 0, 0, 0, 0, e.time, e.stroke, e.body, false⟩) d

/-- The lowest free session number. -/
def Dev.freeSlot (d : Dev) : Option Nat := (List.range' 1 64).find? (fun n => (d.ses? n).isNone)

/-- A session opens (R53, R54): its words return to their reset values, its reply becomes its open record. -/
def Dev.openSession (d : Dev) (h : Req) (n ka : Nat) (tag : Word) (job : Word) : List Byte × Dev :=
  let ka := if ka = 0 then d.rd Reg.NET_SKM_KA_TMO else max 100 (min 60000 ka)
  let ev := Config.eventSeq d.opens
  let body := be 2 n ++ be 2 0 ++ be 4 ka ++ beW job ++ beW ev ++ be 8 Config.devUid.toNat
  let key := d.newKey n
  let x : Session :=
    { ep := h.src, port := h.port, kaMs := ka, openSeq := h.seq, openTag := tag, openBody := body, openLive := true
      cache := [], evNext := ev, evq := [], evLost := 0, telPeriod := 0, telMask := 0, telSeq := 0 }
  (body, { d with
    opens := d.opens + 1
    sess := aset d.sess n x
    regs := { d.regs with act := d.regs.act.filter (fun p => !ofSession n p.1)
                          net := d.regs.net.filter (fun p => !ofSession n p.1) }
    net := { d.net with keys := d.net.keys + 1, qps := aset d.net.qps n { rkey := key } } })

/-- The open record a SESSION_OPEN matches (R57). -/
def Dev.openRecord (d : Dev) (h : Req) (tag : Word) : Option Session :=
  (d.sess.find? (fun p => p.2.openLive && p.2.ep == h.src && p.2.openSeq == h.seq && p.2.openTag == tag)).map (·.2)

/-- SESSION_OPEN (R53, R57, R60): the events of a reattached job follow the reply. -/
def execSessionOpen (h : Req) (kaMs token : Nat) (tag : Word) (s : State) : Host.Outcome State Fault Refusal :=
  s.onDev fun d =>
    let before := d
    let d := d.serve0 h 2 false
      (fun d => (d.openRecord h tag).map fun x =>
        let d := d.bump Reg.NET_SKM_DUP_CNT
        if replySent h stOk then d.sendReply h.src h.port 0 h.seq 2 stOk x.openBody else d)
      fun d =>
        let job := if token = 0 then none else d.tokenJob token
        if token ≠ 0 ∧ job.isNone then no stBadParam d
        else match d.freeSlot with
        | none => no stNoSlot (d.bump Reg.NET_SKM_SLOT_REFUSE_CNT)
        | some n =>
          let r := d.openSession h n kaMs tag (match job with | some j => j.id | none => 0)
          (stOk, r.1, r.2)
    if d.opens = before.opens ∨ token = 0 then d else
    match before.tokenJob token, before.freeSlot with
    | some j, some n => d.attach n j
    | _, _ => d

/-- SESSION_CLOSE (R55): the slot is free once the reply is sent. -/
def execSessionClose (h : Req) (s : State) : Host.Outcome State Fault Refusal :=
  s.onDev fun d => d.serveThen h 3 (fun d => (stOk, [], d)) fun st d => if st = stOk then d.freeSession h.session else d

/-- KEEPALIVE (R54). -/
def execKeepalive (h : Req) (s : State) : Host.Outcome State Fault Refusal :=
  s.onDev fun d => d.serve h 4 fun d => (stOk, [], d)

/-- SESSION_EXPIRE (R54): no valid request for the keepalive time; nothing is sent to the expired endpoint. -/
def execSessionExpire (session : Nat) (s : State) : Host.Outcome State Fault Refusal := s.onDev fun d =>
  if !d.served || (d.ses? session).isNone then d else
  ((d.freeSession session).bump Reg.NET_SKM_EXPIRE_CNT).logHere { cls := 0x10, code := 1, unit := session }

/-! Events (R79, R80). -/

/-- EVENT_ACK (R79): row 5 of R51. -/
def execEventAck (h : Req) (s : State) : Host.Outcome State Fault Refusal := s.onDev fun d =>
  if !d.served then d else
  (d.bump (Reg.NET_P_RX_FRAME_CNT (portIx h.port))).ackEvent h (!h.rsv)

/-- EVENT_RESEND (R79): an unacknowledged event is sent again, unchanged. -/
def execEventResend (session : Nat) (seq : Word) (s : State) : Host.Outcome State Fault Refusal := s.onDev fun d =>
  if !d.served then d else
  match d.ses? session with
  | none => d
  | some x =>
    match x.evq.find? (fun e => e.sent && e.seq == seq) with
    | some e => d.send x.port 1 (.skm x.ep x.port (e.packet session))
    | none => d

/-- REPLY_CACHE_EXPIRE (R56, R57): a reply, or the reply of the open record, has been kept for NET_SKM_REPLY_TMO. -/
def execReplyCacheExpire (session : Nat) (seq : Word) (s : State) : Host.Outcome State Fault Refusal := s.onDev fun d =>
  d.modSes session fun x =>
    { x with cache := x.cache.filter (fun c => c.seq != seq), openLive := x.openLive && x.openSeq != seq }

/-! Rejected datagrams (R51). -/

/-- Whether an opcode's payload length is the one its layout gives; MOVE_QUEUE's follows from its mask (R63). -/
def payloadOk (op : Nat) (p : List Byte) : Bool :=
  lenOk op p.length && (op != 0x40 || p.length == 24 + 8 * popc (getBe p 8 2) 16)

/-- A payload that names a mode, kind, halt or scope for which no opcode's own command stands: MODE_SET of another code
(R40), CAL_RUN of a kind that runs alone (R318), AXIS_HALT of another MODE (R256), FAULT_CLEAR of another SCOPE (R401). -/
def otherValue (op : Nat) (p : List Byte) : Bool :=
  match op with
  | 0x20 => !([Mode.reset, .standby, .idle, .calibrate, .service].any (fun m => m.code == getBe p 0 4))
  | 0x43 => decide (2 ≤ getBe p 2 2)
  | 0x60 => !([1, 2, 3, 5, 6, 7].contains (getBe p 0 2))
  | 0xF1 => decide (2 ≤ getBe p 0 4)
  | _ => false

/-- Its answer: BAD_PARAM, after the mode that the opcode needs (R52). -/
def otherStatus (op : Nat) (p : List Byte) (d : Dev) : Answer :=
  let feed := d.jobMode && (bitsOf (getBe p 0 2) 12).any (fun a => d.axEn a && d.feed == some (d.axGroup a))
  if op = 0x43 ∧ getBe p 0 2 < 4096 ∧ (d.mode = .standby ∨ d.mode = .wake ∨ feed) then no stBadState d
  else no stBadParam d

/-- SKM_DATAGRAM_REJECT (R51): the first row that matches decides, then the value that no opcode takes (R62). A datagram
that neither stops is not one of these commands and changes nothing. BAD_OPCODE (rows 3 and 6) is not put in a session's
replay cache (DEDUCED, log 149). -/
def execSkmDatagramReject (src : Endpoint) (port : NetPort) (bytes : List Byte) (s : State) :
    Host.Outcome State Fault Refusal := s.onDev fun d =>
  if !d.served then d else
  let n := bytes.length
  let rx := d.bump (Reg.NET_P_RX_FRAME_CNT (portIx port))
  if n < 20 ∨ getBe bytes 0 1 ≠ 0xA7 ∨ crc32c (bytes.take (n - 4)) ≠ w32 (getBe bytes (n - 4) 4) then
    rx.bump Reg.NET_SKM_CRC_DROP_CNT
  else
    let len := getBe bytes 12 2
    let op := getBe bytes 2 2
    let fl := getBe bytes 10 2
    let body := (bytes.drop 16).take (n - 20)
    let h : Req := ⟨src, port, getBe bytes 8 2, w32 (getBe bytes 4 4), BitVec.ofNat 16 fl,
      BitVec.ofNat 16 (getBe bytes 14 2), false⟩
    if n ≠ 20 + len ∨ 8192 < len then rx.bump Reg.NET_SKM_LEN_DROP_CNT
    else if getBe bytes 1 1 ≠ 2 then rx.refuse h op stBadOpcode
    else if bit fl 0 != bit fl 2 then rx.bump Reg.NET_SKM_LEN_DROP_CNT
    else if bit fl 0 then
      match d.ses? h.session with
      | none => rx
      | some x => if src ≠ x.ep then rx.bump Reg.NET_SKM_ADDR_DROP_CNT else if len ≠ 0 then rx else d
    else if !opcodes.contains op then rx.refuse h op stBadOpcode
    else
      let zero := op == 1 || op == 2
      match d.ses? h.session with
      | none =>
        if h.session = 0 ∧ zero then
          if badHeader h || !payloadOk op body then rx.refuse h op stBadParam else d
        else rx.refuse h op stBadParam
      | some x =>
        if src ≠ x.ep then rx.bump Reg.NET_SKM_ADDR_DROP_CNT
        else if badHeader h || !payloadOk op body || zero then (rx.valid h).answer h op stBadParam []
        else if otherValue op body then d.serve h op (otherStatus op body)
        else d

/-- SKM_REPLY_TIMEOUT (R81): TIMEOUT is answered and the request has no effect. A FENCE that waits is answered so
where window writes wait for the link (R348), and at no other time. -/
def execSkmReplyTimeout (h : Req) (opcode : Nat) (s : State) : Host.Outcome State Fault Refusal := s.onDev fun d =>
  match d.dma.fences.find? (fun f => opcode == 0x81 && f.h.session == h.session && f.h.seq == h.seq) with
  | some f => if d.fenceStuck f then d.fenceReply f stTimeout else d
  | none =>
    if !opcodes.contains opcode then d
    else if opcode = 1 ∨ opcode = 2 then d.serve0 h opcode false (fun _ => none) (no stTimeout)
    else d.serve h opcode fun d => no stTimeout (d.bumpIf (opcode == 0x81) Reg.DMA_FENCE_CNT)

/-! Modes (R40, R460, R461). -/

/-- MODE_SET takes the device to STANDBY. The field side stays present and is held. -/
def Dev.holdStandby (d : Dev) : Dev :=
  let good := d.bzl.goodStatus
  let d := d.toStandby
  { d with bzl := { d.bzl with goodStatus := good }, pwr := { d.pwr with modeHeld := true } }

/-- A MODE_SET (R40, R461): refused in a mode `p` rules out; else ACCEPTED, the change `k` follows the reply, and OP_DONE
marks the mode asked for. -/
def Dev.modeSetTo (d : Dev) (h : Req) (m : Mode) (p : Dev → Bool) (k : Dev → Dev) : Dev :=
  d.serveThen h 0x20 (fun d => if p d then (stAccepted, [], d.startOp h (.modeSet m)) else no stBadState d)
    fun st d => if st = stAccepted then k d else d

/-- MODE_SET_STANDBY (R40, R460). -/
def execModeSetStandby (h : Req) (s : State) : Host.Outcome State Fault Refusal :=
  s.onDev fun d => d.modeSetTo h .standby (fun d => d.mode == .idle || d.mode == .safe || d.mode == .wake) Dev.holdStandby

/-- MODE_SET_IDLE (R40, R460): WAKE from STANDBY with the field side present; CALIBRATE or SERVICE is left, and a commanded run
ends with BAD_STATE (R323). -/
def execModeSetIdle (h : Req) (s : State) : Host.Outcome State Fault Refusal :=
  s.onDev fun d => d.modeSetTo h .idle
    (fun d => (d.mode == .standby && decide (3 ≤ d.bzl.goodStatus)) || d.mode == .calibrate || d.mode == .service)
    fun d => match d.mode with
      | .standby => d.enterWake
      | _ => (d.failRun stBadState false).toIdle

/-- MODE_SET_CALIBRATE (R40). -/
def execModeSetCalibrate (h : Req) (s : State) : Host.Outcome State Fault Refusal :=
  s.onDev fun d => d.modeSetTo h .calibrate (fun d => d.mode == .idle) fun d => d.setMode .calibrate

/-- MODE_SET_SERVICE (R40, R94). -/
def execModeSetService (h : Req) (s : State) : Host.Outcome State Fault Refusal :=
  s.onDev fun d => d.modeSetTo h .service (fun d => d.mode == .idle) fun d => (d.setMode .service).serviceCatches

/-- MODE_SET_RESET (R40): the level 3 restart begins after the reply. -/
def execModeSetReset (h : Req) (s : State) : Host.Outcome State Fault Refusal :=
  s.onDev fun d => d.serveThen h 0x20 (fun d => (stOk, [], d)) fun st d => if st = stOk then d.level3 else d

/-! Jobs (R42, R58, R61, R185, R253, R255, R461). -/

/-- Why a SCAN_START is refused (R40, R42, R109, R197, R200, R253), in the order of R52; OK where it is not. -/
def Dev.scanCheck (d : Dev) (n : Nat) (jobId : Word) (group : Nat) : Nat :=
  let axes := if group < 4 then d.groupAxes group else []
  let i := n - 1
  let ring := d.rd (Reg.PAGE_S_DRING_LEN i) * 4096
  if d.mode != .idle || d.jobHeld then stBadState
  else if d.delivMode n = 0 then stBadState
  else if axes.any (fun a => !(d.ax a).valid) || (!axes.isEmpty && !d.aena group) then stBadState
  else if jobId = 0 ∨ 4 ≤ group ∨ axes.isEmpty ∨ (headsOf d.regs.act).isEmpty then stBadParam
  else if d.delivMode n = 1 ∧ ring < ceilDiv (contMax d.regs.act) 1048576 * 1048576 then stBadParam
  else if d.rf Reg.PAGE_CTRL 0 0 = 1 ∧ d.pages.key.isNone then stNotProvisioned
  else stOk

/-- A job is created (R42, R58, R85, R183): the grid origin is set, pages number from FIRST_PAGE_ID, Catches are enabled
once the lanes are ready. The state of the Clasp begins anew, CLS_REF_LAST among it (DESIGN CHOICE, log 201). -/
def Dev.createJob (d : Dev) (n : Nat) (jobId firstPage : Word) (group : Nat) : BitVec 64 × Dev :=
  let token := Config.resumeToken d.frees
  let d := { d with frees := d.frees + 1 }
  let j : Job := { id := jobId, serial := d.frees, group := group, owner := some n, token := token, ended := false, nextPage := firstPage
                   delivered := 0, evq := [] }
  let d := { d with
    jobs := d.jobs ++ [j]
    pages := { d.pages with edges := [], nextK0 := 1, stopPages := none, gapNext := none, gaps := [], jobFrom := d.seq.strokeNo }
    cls := {} }.newGrid.modGrp group fun x => { x with lastMove := x.cur }
  (token, { d.rotAbandon with seq := { d.seq with scanWait := true } })

/-- SCAN_START (R40, R42, R461). -/
def execScanStart (h : Req) (jobId firstPage : Word) (group : Nat) (s : State) : Host.Outcome State Fault Refusal :=
  s.onDev fun d => d.serveThen h 0x30
    (fun d =>
      let st := d.scanCheck h.session jobId group
      if st ≠ stOk then no st d else
      let r := (d.startOp h .scanStart).createJob h.session jobId firstPage group
      (stAccepted, be 8 r.1.toNat, r.2))
    fun st d => if st = stAccepted ∧ d.lanesMissing.isEmpty then d.scanBegin else d

/-- SCAN_STOP (R40, R185). -/
def execScanStop (h : Req) (s : State) : Host.Outcome State Fault Refusal :=
  s.onDev fun d => d.serveThen h 0x31
    (fun d =>
      if d.mode != .scan then no stBadState d else
      let l := d.pages.stopPages.getD (d.openList.map (fun (p : Page) => p.id))
      (stAccepted, [], { d.startOp h .scanStop with pages := { d.pages with stopPages := some l } }))
    fun st d => if st = stAccepted then d.stopCheck else d

/-- SCAN_HOLD (R38, R40). -/
def execScanHold (h : Req) (s : State) : Host.Outcome State Fault Refusal :=
  s.onDev fun d => d.serve h 0x32 fun d =>
    match d.mode with
    | .scan | .splice => (stAccepted, [], (d.setHold hcHost).startOp h .scanHold)
    | .hold => (stOk, [], d.setHold hcHost)
    | _ => no stBadState d

/-- SCAN_RESUME (R38, R40, R41, R422): where no cause remains, the device leaves HOLD for SPLICE by itself. -/
def execScanResume (h : Req) (s : State) : Host.Outcome State Fault Refusal :=
  s.onDev fun d => d.serve h 0x33 fun d =>
    let lost := match d.feed with | some g => (d.groupAxes g).any (fun a => !(d.ax a).valid) | none => false
    if d.mode != .hold || d.pwr.gridLost || lost then no stBadState d else
    let d := (d.clrHold hcHost).clrHold hcStroke
    if d.hold = 0 then (stAccepted, [], d.startOp h .scanResume) else (stOk, [], d)

/-- The feed group under JOB_ABORT (R255): it ramps to rest at its move's DEC, its queue is flushed, it returns to REST. -/
def Dev.abortFeed (d : Dev) : Dev :=
  match d.feed with
  | none => d
  | some g =>
    let d := d.modGrp g fun x => { x with stopAt := none, stopDue := false, decNew := false, hard := false }
    let x := d.grp g
    match x.st, x.cur with
    | .run, some m | .splice, some m | .halting, some m =>
      if x.v = 0 then d.abortEnd g
      else d.modGrp g fun x => { x with st := .halting, haltDec := m.dec, restEnd := true, clamp := none, limitBy := none }
    | .rest, _ | .halted, _ | .paceStop, _ => d.abortEnd g
    | _, _ => d.flushQ g true

/-- The job is aborted (R42, R255, R299, R422). -/
def Dev.abortJob (d : Dev) : Dev :=
  let d := d.abortFeed.dropBand.closeAll
  ({ d with pwr := { d.pwr with gridLost := false } }).captureEnd stBadState

/-- JOB_ABORT (R40, R255). -/
def execJobAbort (h : Req) (s : State) : Host.Outcome State Fault Refusal :=
  s.onDev fun d => d.serveThen h 0x34
    (fun d => if d.jobMode then (stAccepted, [], d.startOp h .jobAbort) else no stBadState d)
    fun st d => if st = stAccepted then d.abortJob else d

/-! The status block and telemetry (R66, R407 to R409). -/

/-- The page being captured: the oldest open one, 0 if none. -/
def Dev.pageNow (d : Dev) : Word := match d.openList with | p :: _ => p.id | [] => 0

/-- The status block (R66). -/
def Dev.statusBlock (d : Dev) : List Byte :=
  be 4 d.modeWord ++ be 4 d.hold ++ be 6 d.seq.strokeNo ++ be 2 d.sess.length ++ beW d.jobId ++ beW d.pageNow
    ++ be 4 (d.word Reg.COX_STATE) ++ be 4 (d.pageFill / 1048576) ++ be 4 (d.word Reg.PWR_BZL_STAT)
    ++ be 4 (d.word Reg.DEV_CLK_STAT) ++ be 2 d.bzl.tField ++ be 2 d.bzl.tHost ++ be 4 d.uncleared ++ be 8 d.ns ++ be 8 0

/-- The host die temperature is read: a free value, since the spec gives no source of it (log 6). -/
def Dev.sampleHost (d : Dev) : Dev :=
  let (v, d) := d.free 32
  { d with bzl := { d.bzl with tHost := v.toNat % 65536 } }

/-- STATUS_GET (R66). -/
def execStatusGet (h : Req) (s : State) : Host.Outcome State Fault Refusal :=
  s.onDev fun d => d.serve h 0x21 fun d => (stOk, d.sampleHost.statusBlock, d.sampleHost)

/-- TELEMETRY_SUBSCRIBE (R407). -/
def execTelemetrySubscribe (h : Req) (period : Nat) (mask : Word) (s : State) : Host.Outcome State Fault Refusal :=
  s.onDev fun d => d.serve h 0xA0 fun d =>
    if period ≠ 0 ∧ (period < 10 ∨ 10000 < period) then no stBadParam d
    else if period ≠ 0 ∧ (mask = 0 ∨ 1024 ≤ mask.toNat) then no stBadParam d
    else (stOk, [], d.modSes h.session fun x =>
      { x with telPeriod := period, telMask := if period = 0 then 0 else mask.toNat })

/-- The words of a telemetry record (R409). -/
def Dev.telWords (d : Dev) (type : Nat) : List Nat :=
  let w := fun (l : List Nat) => l.map d.word
  match type with
  | 0 => w [Reg.DEV_MODE, Reg.DEV_HOLD_CAUSE, Reg.DEV_CLK_STAT, Reg.FLT_STAT, Reg.FLT_SAFE_CAUSE, Reg.FLT_LOG_UNCLEARED,
            Reg.FLT_CORE_STAT]
  | 1 => (d.bzl.tField % 65536 * 65536 + d.bzl.tHost % 65536) ::
      w [Reg.CAL_TQ 0, Reg.CAL_TQ 1, Reg.CAL_TQ 2, Reg.CAL_TQ 3, Reg.CAL_TBZ_F, Reg.CAL_TBZ_H]
  | 2 => w [Reg.PWR_BZL_STAT, Reg.PWR_BZL_F2H_MAP, Reg.PWR_BZL_H2F_MAP, Reg.PWR_BZL_DISCARD_CNT,
            Reg.PWR_BZL_REPLAY_CNT, Reg.PWR_BZL_SPARE_CNT]
  | 3 => w [Reg.COX_STATE, Reg.COX_FILL, Reg.COX_DRAIN, Reg.COX_VD, Reg.PAGE_STAT, Reg.PAGE_LOAD, Reg.PAGE_LAST_ID,
            Reg.PAGE_DELIV_CNT]
  | 4 => w [Reg.SEQ_CATCH_CNT, Reg.SEQ_OVERSPEED_CNT, Reg.SEQ_WITHHELD_CNT, Reg.AFE_OVR_CNT, Reg.AFE_SUSPECT_CNT,
            Reg.AFE_TAKEOVER_CNT, Reg.AFE_ROT_STAT, Reg.PIX_DRIFT_CNT, Reg.PIX_SAT_CNT, Reg.CAL_EPOCH_NOW]
  | 5 => (List.range 16).flatMap (fun n => w [Reg.LMP_C_LEVEL n, Reg.LMP_C_RATIO n, Reg.LMP_C_DIAG n]) ++
      w [Reg.LMP_AC_STAT]
  | 6 => (List.range 4).flatMap (fun g => w [Reg.MOT_G_STAT g, Reg.MOT_G_VCUR g, Reg.MOT_G_VPACE g, Reg.MOT_G_FLAGS g])
  | 7 => w [Reg.DMA_STAT, Reg.DMA_INFLIGHT, Reg.DMA_ECC_CORR_CNT, Reg.DMA_ECC_DBL_CNT, Reg.FLT_SCRUB_CORR_CNT,
            Reg.FLT_DRAM_PASS_CNT, Reg.FLT_DRAM_SCRUB_POS]
  | 8 => w [Reg.NET_STAT] ++ (List.range 2).flatMap (fun p => w [Reg.NET_P_STAT p, Reg.NET_P_FEC_CORR_CNT p,
            Reg.NET_P_FEC_UNCORR_CNT p, Reg.NET_P_RX_DROP_CNT p, Reg.NET_P_LINK_DOWN_CNT p]) ++
      w [Reg.TIM_STAT, Reg.TIM_PTP_OFS]
  | 9 => (List.range (d.rf Reg.MON_A_CTRL 6 0)).map (fun e => loW (d.monResult false e)) ++
      (List.range (d.rf Reg.MON_B_CTRL 6 0)).map (fun e => loW (d.monResult true e))
  | _ => []

/-- TELEMETRY's event-specific bytes (R408). -/
def Dev.telBody (d : Dev) (mask seq : Nat) : List Byte :=
  let types := bitsOf mask 10
  be 4 seq ++ be 2 types.length ++ be 2 0 ++ types.flatMap (fun t =>
    let ws := d.telWords t
    be 2 t ++ be 2 (4 * ws.length) ++ ws.flatMap (be 4))

/-- A telemetry packet of a session. -/
def isTelemetry (session : Nat) : Out → Bool
  | .skm _ _ p => p.session == session && p.flags == 4
  | _ => false

/-- A record of a session that still waits to be transmitted is dropped (R407). -/
def Dev.telSkip (d : Dev) (session : Nat) : Dev :=
  if d.net.ports.any (fun (p : Port) => p.waitq.any (fun m => isTelemetry session m.2)) then
    ({ d with net := { d.net with ports := d.net.ports.map (fun (p : Port) =>
      { p with waitq := p.waitq.filter (fun m => !isTelemetry session m.2) }) } }).bump Reg.FLT_TELEM_SKIP_CNT
  else d

/-- TELEMETRY_TICK (R407, R408): a record falls due. -/
def execTelemetryTick (session : Nat) (s : State) : Host.Outcome State Fault Refusal := s.onDev fun d =>
  if !d.served then d else
  match d.ses? session with
  | none => d
  | some x =>
    if x.telPeriod = 0 then d else
    let seq := (x.telSeq + 1) % 2 ^ 32
    let d := d.sampleHost
    let e : Ev := ⟨0x20, 0, x.evNext, 0, 0, d.ns, d.seq.strokeNo, d.telBody x.telMask seq, true⟩
    let d := (d.telSkip session).modSes session fun x => { x with telSeq := seq, evNext := x.evNext + 1 }
    { d.send x.port 1 (.skm x.ep x.port (e.packet session)) with frees := d.frees + 1 }

/-! Key, firmware and fault log (R64, R65, R413). -/

/-- KEY_PROVISION (R64): the reply is the key check. -/
def execKeyProvision (h : Req) (keyId : Nat) (key : List Byte) (s : State) : Host.Outcome State Fault Refusal :=
  s.onDev fun d => d.serve h 0xB0 fun d =>
    if (d.mode != .standby && d.mode != .idle) || d.jobHeld then no stBadState d
    else if d.pages.list.any (fun (p : Page) => p.closed && p.container.isNone) then no stBadState d
    else if keyId ≠ 0 then no stBadParam d
    else if key.all (· == 0) then no stZero d
    else (stOk, (hmac key (be 8 Config.devUid.toNat)).take 4, { d with pages := { d.pages with key := some key } })

/-- FW_BEGIN (R65). -/
def execFwBegin (h : Req) (len : Nat) (s : State) : Host.Outcome State Fault Refusal :=
  s.onDev fun d => d.serve h 0xC0 fun d =>
    match d.pwr.fw with
    | some (n, _) =>
      if n ≠ h.session ∨ d.pwr.fwBusy then no stBusy d
      else (stOk, [], { d with pwr := { d.pwr with fw := some (h.session, len), fwImg := [] } })
    | none => (stOk, [], { d with pwr := { d.pwr with fw := some (h.session, len), fwImg := [] } })

/-- FW_BLOCK (R65). -/
def execFwBlock (h : Req) (offset : Nat) (data : List Byte) (s : State) : Host.Outcome State Fault Refusal :=
  s.onDev fun d => d.serve h 0xC1 fun d =>
    match d.pwr.fw with
    | some (n, len) =>
      if n ≠ h.session ∨ d.pwr.fwBusy then no stBadState d
      else if len < offset + data.length then no stBadParam d
      else (stOk, [], { d with pwr := { d.pwr with fwImg := mwrite d.pwr.fwImg offset data } })
    | none => no stBadState d

/-- FW_COMMIT (R65): verification and the flash write end with FW_COMMIT_DONE. -/
def execFwCommit (h : Req) (s : State) : Host.Outcome State Fault Refusal :=
  s.onDev fun d => d.serve h 0xC2 fun d =>
    match d.pwr.fw with
    | some (n, _) =>
      if n ≠ h.session ∨ d.pwr.fwBusy then no stBadState d
      else (stAccepted, [], { d.startOp h .fwCommit with pwr := { d.pwr with fwBusy := true } })
    | none => no stBadState d

/-- FAULT_LOG_READ (R413). -/
def execFaultLogRead (h : Req) (first count : Nat) (s : State) : Host.Outcome State Fault Refusal :=
  s.onDev fun d => d.serve h 0xF0 fun d =>
    if count = 0 ∨ 127 < count then no stBadParam d else
    let oldest := match d.flt.log.getLast? with | some e => e.index | none => d.flt.next
    let i := max first oldest
    let es := (d.flt.log.reverse.filter (fun e => decide (i ≤ e.index))).take count
    (stOk, be 4 (if d.flt.next ≤ first then first else i) ++ be 2 es.length ++ be 2 0 ++ es.flatMap FEntry.bytes, d)

end Sys2Proof.Machine
end

