-- ==== Sys2Proof/Machine/Params.lean ====
section
/-! DEFINITION. The parameter space (R68 to R73): PARAM_READ with the snapshots of SN pairs, and PARAM_WRITE with its
checks, its effect on the words and what a written word does. -/

namespace Sys2Proof.Machine

open Sys2Proof

/-! Reading (R69, R70, R139). -/

/-- Whether a word of access SN is the high word of its pair. -/
def snHigh (a : Nat) : Bool :=
  a == Reg.DEV_UID_HI || a == Reg.NET_SKM_SESS_MAP_HI || a == Reg.SEQ_GRID_HI || a == Reg.SEQ_STROKE_NO_HI ||
  a == Reg.CLS_REF_LAST_HI || a == Reg.TIM_NS_HI || a == Reg.TIM_FRAC || a == Reg.TIM_INCR_HI || a == Reg.TIM_SLEW_HI ||
  (a / 65536 == 3 && a % 8 == 4) ||
  (a / 65536 == 7 && (a % 0x40 == 0x34 && decide (a < 0x070400) || a % 0x40 == 0x14 && decide (0x070400 ≤ a ∧ a < 0x070700)
    || decide (0x070700 ≤ a) && (a % 0x20 == 0x08 || a % 0x20 == 0x10))) ||
  (a / 65536 == 11 && (a % 0x20 == 0x10 || a % 0x20 == 0x18))

/-- The high words a low word's read snapshots. -/
def snPartners (a : Nat) : List Nat := if a = Reg.TIM_NS_LO then [Reg.TIM_NS_HI, Reg.TIM_FRAC] else [a + 4]

/-- What an SN high word reads before its first snapshot (log 53): its reset value. -/
def snReset (a : Nat) : Nat :=
  if a = Reg.DEV_UID_HI then hiW Config.devUid.toNat else if a = Reg.TIM_INCR_HI then 5 else resetWord a

/-- The MON result entry of an address: the converter and the entry. -/
def monEntryOf (a : Nat) : Option (Bool × Nat) :=
  (ixOf (Reg.MON_A_RES_LO 0) 8 128 a).map (fun x => (decide (64 ≤ x.1), x.1 % 64))

/-- Mark an entry's snapshot for a session as fresh, or as used (R139). -/
def Dev.setFresh (d : Dev) (s a : Nat) (fresh : Bool) : Dev :=
  match monEntryOf a with
  | some (b, e) => d.modMon b fun m =>
    let l := m.fresh.filter (fun x => x != s * 64 + e)
    { m with fresh := if fresh then (s * 64 + e) :: l else l }
  | none => d

/-- STALE of a MON result's high word (R139): bit 31. -/
def Dev.staleBit (d : Dev) (s a : Nat) : Nat :=
  match monEntryOf a with
  | some (b, e) => if (d.mon b).fresh.contains (s * 64 + e) then 0 else 2 ^ 31
  | none => 0

/-- A session reads one assigned word (R69, R70). -/
def Dev.readWord (d : Dev) (s a : Nat) : Nat × Dev :=
  match rowOf a with
  | none => (0, d)
  | some r =>
    match r.acc with
    | .wo => (0, d)
    | .sn =>
      let key := s * 2 ^ 24
      if snHigh a then
        let v := match aget d.regs.sn (key + a) with | some w => w.toNat | none => snReset a
        (v + d.staleBit s a, d.setFresh s a false)
      else
        let sn := (snPartners a).foldl (fun l p => aset l (key + p) (w32 (d.word p))) d.regs.sn
        (d.word a, ({ d with regs := { d.regs with sn := sn } }).setFresh s a true)
    | _ =>
      let v := d.word a
      if a = Reg.PWR_FBUS then (v, { d with pwr := { d.pwr with fbusMin := none } })
      else if a = Reg.DMA_INFLIGHT then (v, { d with frees := d.frees + 1 })
      else (v, d)

/-- Words are read in ascending address order. -/
def Dev.readWords (d : Dev) (s a : Nat) : Nat → List Byte × Dev
  | 0 => ([], d)
  | n + 1 =>
    let r := d.readWord s a
    let t := r.2.readWords s (a + 4) n
    (be 4 r.1 ++ t.1, t.2)

/-- Whether every word of a block is assigned and inside the page of its first (R69). -/
def blockOk (a n : Nat) : Bool :=
  (List.range n).all (fun i => (rowOf (a + 4 * i)).isSome && (a + 4 * i) / 65536 == a / 65536)

/-- PARAM_READ (R69, R70). -/
def execParamRead (h : Req) (addr count : Nat) (s : State) : Host.Outcome State Fault Refusal :=
  s.onDev fun d => d.serve h 0x10 fun d =>
    if 2 ^ 24 ≤ addr then no stBadParam d
    else if !blockOk addr (max 1 (min count 16384)) then no stBadAddress d
    else if count = 0 ∨ 2047 < count then no stBadParam d
    else
      let r := d.readWords h.session addr count
      (stOk, be 4 addr ++ r.1, r.2)

/-! Writing (R71 to R73). -/

/-- One data word of a packet: record and word index, address, the record's first address, value; `ok` is false where the
packet ends inside the record. -/
structure WWord where
  ri   : Nat
  wi   : Nat
  addr : Nat
  base : Nat
  val  : Word
  ok   : Bool
  deriving DecidableEq, Repr, Inhabited

/-- The words of a packet's records (R71); `tail` is the number of bytes after the last whole word. -/
def wrecs (tail : Nat) : Nat → Nat → List Word → List WWord
  | _, r, [] => if tail = 0 then [] else [⟨r, 0, 0, 0, 0, false⟩]
  | 0, r, _ => [⟨r, 0, 0, 0, 0, false⟩]
  | n + 1, r, hd :: rest =>
    let cnt := hd.toNat / 2 ^ 24 + 1
    let a := hd.toNat % 2 ^ 24
    let ws := (rest.take cnt).zipIdx.map (fun (x : Word × Nat) => (⟨r, x.2, a + 4 * x.2, a, x.1, true⟩ : WWord))
    if rest.length < cnt then ws ++ [⟨r, rest.length, 0, 0, 0, false⟩] else ws ++ wrecs tail n (r + 1) (rest.drop cnt)

/-- A field's value is one it takes (R72). -/
def rngOk (f : Fld) (v : Nat) : Bool :=
  let x := v / 2 ^ f.lo % 2 ^ (f.hi + 1 - f.lo)
  match f.rng with
  | .any => true
  | .rng lo hi => decide (lo ≤ x ∧ x ≤ hi)
  | .srng lo hi => let i := sext (f.hi + 1 - f.lo) x; decide (lo ≤ i ∧ i ≤ hi)
  | .zrng lo hi => x == 0 || decide (lo ≤ x ∧ x ≤ hi)
  | .orv lo hi w => x == w || decide (lo ≤ x ∧ x ≤ hi)
  | .exc lo hi w => x != w && decide (lo ≤ x ∧ x ≤ hi)

/-- The bits of a field. -/
def fldMask (f : Fld) : Nat := 2 ^ (f.hi + 1) - 2 ^ f.lo
/-- The bits of a word that belong to some field. -/
def rowMask (r : Row) : Nat := sumN (r.flds.map fldMask)
/-- The bits whose fields have an access. -/
def accMask (r : Row) (p : Fld → Bool) : Nat := sumN ((r.flds.filter p).map fldMask)
/-- Whether any part of a word can be written (R72). -/
def rowWritable (r : Row) : Bool :=
  match r.acc with
  | .sn => false
  | .ro => r.flds.any (fun f => f.acc == FAcc.w1c || f.acc == FAcc.wo)
  | _ => true

/-- The session whose PAGE words an address is one of, and the offset (R207). -/
def pageSes (a : Nat) : Option (Nat × Nat) := (ixOf 0x051000 0x40 64 a).map (fun x => (x.1 + 1, x.2))
/-- The session whose NET words an address is one of, and the offset (R385). -/
def netSes (a : Nat) : Option (Nat × Nat) := (ixOf 0x0C1000 0x40 64 a).map (fun x => (x.1 + 1, x.2))

/-- The value an RW word has once the whole packet is applied. -/
def Dev.packetVal (d : Dev) (ws : List WWord) (a : Nat) : Nat :=
  match ws.reverse.find? (fun w => w.ok && w.addr == a) with
  | some w => w.val.toNat
  | none => d.rd a

/-- A delivery to a session is in progress (R207). -/
def Dev.delivering (d : Dev) (n : Nat) : Bool :=
  d.pages.deliv.any (fun x => x.session == n) && d.jobs.any (fun j => j.owner == some n)

/-- The largest MTU that a queue pair's control word and GID need (R371). -/
def qpNeeds (ctrl gid0 gid1 gid2 : Nat) : Nat :=
  1024 * 2 ^ (ctrl / 65536 % 4) + (if gid0 = 0 ∧ gid1 = 0 ∧ gid2 = 0xFFFF then 60 else 80)

/-- Whether every enabled queue pair of an Ethernet port still fits an MTU (R384). -/
def Dev.qpsFit (d : Dev) (p mtu : Nat) : Bool :=
  (List.range' 1 64).all (fun n =>
    let c := d.rd (Reg.NET_S_QP_CTRL (n - 1))
    !bit c 31 || c / 2 ^ 24 % 2 != p ||
      decide (qpNeeds c (d.rd (Reg.NET_S_GID (n - 1) 0)) (d.rd (Reg.NET_S_GID (n - 1) 1)) (d.rd (Reg.NET_S_GID (n - 1) 2))
        ≤ mtu))

/-- R73. Words a mode, or the state of their block, restricts: whether a write of `v` is BAD_STATE. -/
def Dev.modeBad (d : Dev) (a v : Nat) : Bool :=
  let quiet := d.mode == .idle || d.mode == .calibrate || d.mode == .service
  if a = Reg.AFE_REF_CTRL then !quiet
  else if a = Reg.AFE_OW_CTRL then bit v 0 && !quiet
  else if a = Reg.PAGE_BUF_SIZE then
    (d.mode != .standby && d.mode != .idle) || d.jobHeld || !d.pages.list.isEmpty
  else if a = Reg.NET_P_CFG 0 ∨ a = Reg.NET_P_CFG 1 then !d.qpsFit ((a - Reg.NET_P_CFG 0) / 0x80) (v % 16384)
  else match pageSes a with
  | some (n, o) => d.delivering n && !([0x00, 0x24, 0x28, 0x2C, 0x30, 0x34, 0x3C].contains o)
  | none =>
    match netSes a with
    | some (n, o) =>
      let c := d.rd (Reg.NET_S_QP_CTRL (n - 1))
      bit c 31 && (if o = 0 then v % 2 ^ 31 != c % 2 ^ 31 else decide (o < 0x20) && v != d.rd a)
    | none => false

/-- R207, R308, R371. A word made read-only for this session by its owner or by a setting. -/
def Dev.accBad (d : Dev) (s a : Nat) : Bool :=
  if a = Reg.CAL_APPLY_AT then bit (d.rd Reg.DEV_COMPAT) 0
  else match pageSes a, netSes a with
  | some (n, _), _ => n != s
  | none, some (n, _) => n != s
  | none, none => false

/-- R97. One byte of SEQ_Hn_OUTCFG. -/
def outByteOk (b : Nat) : Bool := if bit b 7 then decide (4 ≤ b % 64) else b % 64 == 0

/-- Reserved bits of a word whose row of the map is one field: bits 22:21 of a waveform entry's word 0 (R98), and bits 7
and 3:2 of each byte of a slot table (R120). -/
def entryReserved (a : Nat) : Nat :=
  if Reg.SEQ_H_WAVE 0 0 ≤ a ∧ a ≤ Reg.SEQ_H_WAVE 31 127 ∧ a / 4 % 2 = 0 then 0x600000
  else if Reg.AFE_SLOT 0 0 ≤ a ∧ a ≤ Reg.AFE_SLOT 63 15 then 0x8C8C8C8C
  else 0

/-- Rules between fields or words that a chapter states for a write: whether the value is BAD_PARAM. -/
def Dev.valueBad (d : Dev) (ws : List WWord) (a v : Nat) : Bool :=
  if a = Reg.PWR_FBUS_LOW ∨ a = Reg.PWR_FBUS_HYST ∨ a = Reg.PWR_FBUS_HIGH then
    decide (d.packetVal ws Reg.PWR_FBUS_HIGH ≤ d.packetVal ws Reg.PWR_FBUS_LOW + d.packetVal ws Reg.PWR_FBUS_HYST)
  else if (match ixOf (Reg.LMP_C_ITHR 0) 0x40 16 a with | some (_, 0) => true | _ => false) then
    decide (v / 65536 % 4096 ≤ v % 4096)
  else if (match ixOf (Reg.SEQ_H_OUTCFG 0) 0x40 32 a with | some (_, 0) => true | _ => false) then
    !(outByteOk (v / 2 ^ 24) && outByteOk (v / 2 ^ 16 % 256) && outByteOk (v / 256 % 256) && outByteOk (v % 256))
  else if (ixOf (Reg.LMP_P_AC 0 0) 0x40 4 a).isSome then
    !(decide (0x3000 ≤ v / 65536 ∧ v / 65536 ≤ 0x5000) && decide (0x3000 ≤ v % 65536 ∧ v % 65536 ≤ 0x5000))
  else match ixOf (Reg.DMA_CH_CTRL 0) 0x20 16 a with
  | some (n, 0) => v / 256 % 8 == 4 && v / 65536 % 16 == n
  | _ =>
    match pageSes a with
    | some (_, 0x04) => v % 4096 != 0
    | some (_, 0x14) => v % 64 != 0
    | some (n, 0x0C) =>
      d.packetVal ws (Reg.PAGE_S_DELIV (n - 1)) % 4 == 1 && d.jobs.any (fun j => j.owner == some n) &&
        decide (v * 4096 < ceilDiv (contMax d.regs.act) 1048576 * 1048576)
    | some _ => false
    | none =>
      match netSes a with
      | some (n, 0) =>
        let g := fun (i : Nat) => d.packetVal ws (Reg.NET_S_GID (n - 1) i)
        bit v 31 && !bit (d.rd a) 31 &&
          ((g 0 == 0 && g 1 == 0 && g 2 == 0 && g 3 == 0) ||
            decide (d.packetVal ws (Reg.NET_P_CFG (v / 2 ^ 24 % 2)) % 16384 < qpNeeds v (g 0) (g 1) (g 2)))
      | _ => false

/-- The status of one word's checks in the order of R52; OK where it passes. -/
def Dev.wordCheck (d : Dev) (s : Nat) (ws : List WWord) (w : WWord) : Nat :=
  if !w.ok then stBadParam
  else if w.addr / 65536 ≠ w.base / 65536 then stBadAddress
  else match rowOf w.addr with
  | none => stBadAddress
  | some r =>
    let v := w.val.toNat
    if v &&& (0xFFFFFFFF ^^^ rowMask r) ≠ 0 ∨ v &&& entryReserved w.addr ≠ 0 then stBadParam
    else if rowWritable r && d.modeBad w.addr v then stBadState
    else if !rowWritable r || d.accBad s w.addr then stReadOnly
    else if (r.flds.filter (fun f => f.acc == FAcc.plain)).any (fun f => !rngOk f v) then stBadParam
    else if d.valueBad ws w.addr v then stBadParam
    else stOk

/-- The first word that fails decides (R72): its status, record index and word index. -/
def Dev.packetCheck (d : Dev) (s : Nat) (ws : List WWord) : Nat × Nat × Nat :=
  match ws.find? (fun w => d.wordCheck s ws w != stOk) with
  | some w => (d.wordCheck s ws w, w.ri, w.wi)
  | none => (stOk, 0xFFFF, 0xFFFF)

/-- What a written word holds: its plain fields from the write, RO fields as before, W1C bits cleared where written 1, WO
fields 0 (R9, R72). -/
def newWord (r : Row) (old v : Nat) : Nat :=
  let plain := if r.acc == Acc.ro then 0 else accMask r (fun f => f.acc == FAcc.plain)
  let w1c := accMask r (fun f => f.acc == FAcc.w1c || (r.acc == Acc.w1c && f.acc == FAcc.plain))
  let keep := accMask r (fun f => f.acc == FAcc.ro || (r.acc == Acc.ro && f.acc == FAcc.plain))
  if r.acc == Acc.w1c then old &&& (0xFFFFFFFF ^^^ (v &&& w1c))
  else (v &&& plain) ||| (old &&& keep) ||| (old &&& w1c &&& (0xFFFFFFFF ^^^ v))

/-- One word of an accepted packet is stored: an ST word in the shadow set, any other at once (R11, R72). -/
def Dev.storeWord (d : Dev) (a : Nat) (v : Word) : Dev :=
  match rowOf a with
  | none => d
  | some r =>
    match r.acc with
    | .st => { d with regs := { d.regs with shd := aset d.regs.shd a v } }
    | .wo => d
    | _ => d.put a (newWord r (d.rd a) v.toNat)

/-- A ring's address, length or key has changed (R207): its producer and consumer words return to 0. -/
def Dev.ringWritten (d0 d : Dev) (n a : Nat) : Dev :=
  if d.rd a = d0.rd a then d
  else
    let o := a % 0x40
    let i := n - 1
    if o = 0x04 ∨ o = 0x08 ∨ o = 0x0C ∨ o = 0x10 then (d.put (Reg.PAGE_S_DPROD i) 0).put (Reg.PAGE_S_DCONS i) 0
    else if o = 0x14 ∨ o = 0x18 ∨ o = 0x1C ∨ o = 0x20 then (d.put (Reg.PAGE_S_CPROD i) 0).put (Reg.PAGE_S_CCONS i) 0
    else d

/-- What a written word does beyond holding its value; `d0` is the device before the packet. -/
def Dev.wordEffect (d0 d : Dev) (a : Nat) (v : Word) : Dev :=
  if a = Reg.DEV_CTRL then d.wakeIf d0.presence
  else if a = Reg.AFE_REF_CTRL then d.selectRef
  else if a = Reg.AFE_OW_CTRL then (if v.getLsbD 0 then d.owStart else d)
  else if a = Reg.MON_A_REF then d.monRefWritten false
  else if a = Reg.MON_B_REF then d.monRefWritten true
  else if a = Reg.NET_CTRL then (if v.getLsbD 0 then d.netStore else d)
  else if a = Reg.NET_P_CFG 0 ∨ a = Reg.NET_P_CFG 1 ∨ a = Reg.NET_SG_CFG then
    d.linkLost (portOf ((a - Reg.NET_P_CFG 0) / 0x80))
  else if a = Reg.TIM_PTP_CTRL then d.ptpCtrl (d0.rd a)
  else match pageSes a with
  | some (n, o) =>
    if o = 0x34 then (if d.pages.deliv.any (fun x => x.session == n) then d.pushUdp else d) else Dev.ringWritten d0 d n a
  | none =>
    match netSes a with
    | some (n, o) => if o = 0 then d.qpWritten n (d0.rd a) else d
    | none =>
      match ixOf (Reg.DMA_CH_CTRL 0) 0x20 16 a with
      | some (n, 0x1C) => if v.getLsbD 23 then d.errCleared n else d
      | _ => d

/-- The words of an accepted packet take effect together (R72); those of the field side that are not staged go to it (R19). -/
def Dev.writeWords (d : Dev) (ws : List WWord) : Dev :=
  let d1 := ws.foldl (fun d w => d.storeWord w.addr w.val) d
  (ws.foldl (fun x w => Dev.wordEffect d x w.addr w.val) d1).forward
    ((ws.filter (fun w => (rowOf w.addr).any (fun r => r.acc != Acc.st))).map (fun w => (w.addr, w32 (d1.rd w.addr))))

/-- Whether a request reaches its opcode's own checks: it passes every row of R51 and sets no reserved payload bit. -/
def Dev.fresh (d : Dev) (h : Req) : Bool :=
  d.served && !h.flags.getLsbD 0 && !h.flags.getLsbD 2 && (match d.ses? h.session with
    | none => false
    | some x => h.src == x.ep && !badHeader h && !x.cache.any (fun c => c.seq == h.seq) && !h.rsv)

/-- The channel control words of a packet that have been written (R345, R349). -/
def State.ctrlsWritten (s : State) (ws : List WWord) : State :=
  ws.foldl (fun s w => match ixOf (Reg.DMA_CH_CTRL 0) 0x20 16 w.addr with
    | some (n, 0) => s.ctrlWritten n w.val
    | _ => s) s

/-- PARAM_WRITE of a payload: the whole packet is checked, then applied (R72). -/
def State.paramWrite (s : State) (h : Req) (payload : List Word) (tail : Nat) : State :=
  let ws := wrecs tail payload.length 0 payload
  let r := s.d.packetCheck h.session ws
  let t := { s with d := s.d.serve h 0x11 fun d =>
    (r.1, be 2 r.2.1 ++ be 2 r.2.2, if r.1 = stOk then d.writeWords ws else d) }
  if s.d.fresh h && r.1 == stOk then t.ctrlsWritten ws else t

/-- A PARAM_WRITE of one record with one word. -/
def State.writeOne (s : State) (h : Req) (a : Nat) (v : Word) : State := s.paramWrite h [w32 (a % 2 ^ 24), v] 0

/-- PARAM_WRITE (R71, R72). -/
def execParamWrite (h : Req) (payload : List Word) (tail : Nat) (s : State) : Host.Outcome State Fault Refusal :=
  .next (s.paramWrite h payload tail)

/-! The rows of the table that are writes of one word. -/

/-- DEV_CTRL_WRITE (R460). -/
def execDevCtrlWrite (h : Req) (value : Word) (s : State) : Host.Outcome State Fault Refusal :=
  .next (s.writeOne h Reg.DEV_CTRL value)

/-- AFE_REF_SEL_WRITE (R133). -/
def execAfeRefSelWrite (h : Req) (value : Word) (s : State) : Host.Outcome State Fault Refusal :=
  .next (s.writeOne h Reg.AFE_REF_CTRL value)

/-- AFE_OW_START (R135): a write of AFE_OW_CTRL with START = 1. -/
def execAfeOwStart (h : Req) (value : Word) (s : State) : Host.Outcome State Fault Refusal :=
  .next (s.writeOne h Reg.AFE_OW_CTRL (value ||| 1))

/-- MON_REF_WRITE (R140). -/
def execMonRefWrite (h : Req) (b : Bool) (value : Word) (s : State) : Host.Outcome State Fault Refusal :=
  .next (s.writeOne h (monRefReg b) value)

/-- PAGE_SESSION_WORD_WRITE (R207). -/
def execPageSessionWordWrite (h : Req) (session offset : Nat) (value : Word) (s : State) :
    Host.Outcome State Fault Refusal :=
  .next (s.writeOne h (0x051000 + 0x40 * (session - 1) + offset) value)

/-- DMA_REQ_WRITE (R345): a write of DMA_CHn_CTRL. -/
def execDmaReqWrite (h : Req) (ch : Nat) (value : Word) (s : State) : Host.Outcome State Fault Refusal :=
  .next (s.writeOne h (Reg.DMA_CH_CTRL ch) value)

/-- DMA_CHANNEL_DISABLE (R349): EN written 0, the other fields as they are. -/
def execDmaChannelDisable (h : Req) (ch : Nat) (s : State) : Host.Outcome State Fault Refusal :=
  .next (s.writeOne h (Reg.DMA_CH_CTRL ch) (w32 (clrBit (s.d.rd (Reg.DMA_CH_CTRL ch)) 0)))

/-- DMA_CHANNEL_ENABLE (R349): EN written 1, the other fields as they are. -/
def execDmaChannelEnable (h : Req) (ch : Nat) (s : State) : Host.Outcome State Fault Refusal :=
  .next (s.writeOne h (Reg.DMA_CH_CTRL ch) (w32 (setBit (s.d.rd (Reg.DMA_CH_CTRL ch)) 0)))

/-- DMA_ABORT (R349): ABORT written 1, the other fields as they are. -/
def execDmaAbort (h : Req) (ch : Nat) (s : State) : Host.Outcome State Fault Refusal :=
  .next (s.writeOne h (Reg.DMA_CH_CTRL ch) (w32 (setBit (s.d.rd (Reg.DMA_CH_CTRL ch)) 1)))

/-- DMA_ERR_CLEAR (R350): VALID of DMA_CHn_ERR_INFO written 1. -/
def execDmaErrClear (h : Req) (ch : Nat) (s : State) : Host.Outcome State Fault Refusal :=
  .next (s.writeOne h (Reg.DMA_CH_ERR_INFO ch) (w32 (2 ^ 23)))

/-- NET_PORT_CFG_WRITE (R361). -/
def execNetPortCfgWrite (h : Req) (p : NetPort) (value : Word) (s : State) : Host.Outcome State Fault Refusal :=
  .next (s.writeOne h (cfgAddr p) value)

/-- NET_STORE (R366): NET_CTRL.STORE written 1. -/
def execNetStore (h : Req) (s : State) : Host.Outcome State Fault Refusal := .next (s.writeOne h Reg.NET_CTRL 1)

/-- QP_ENABLE (R371): NET_Ss_QP_CTRL written with EN = 1. -/
def execQpEnable (h : Req) (session : Nat) (value : Word) (s : State) : Host.Outcome State Fault Refusal :=
  .next (s.writeOne h (Reg.NET_S_QP_CTRL (session - 1)) (value ||| 0x80000000))

/-- QP_DISABLE (R373): EN written 0, the other fields as they are. -/
def execQpDisable (h : Req) (session : Nat) (s : State) : Host.Outcome State Fault Refusal :=
  .next (s.writeOne h (Reg.NET_S_QP_CTRL (session - 1)) (w32 (clrBit (s.d.rd (Reg.NET_S_QP_CTRL (session - 1))) 31)))

end Sys2Proof.Machine
end

