-- ==== Sys2Proof/Machine/Commit.lean ====
section
/-! DEFINITION. COMMIT and DISCARD (R8, R12 to R14, R74 to R76): the cross-checks of every chapter against the set as it
would be (R2, R98, R109, R110, R144, R145, R175, R176, R205, R216, R218, R269, R286, R301, R334, R344), the accepted
COMMIT that waits for its stroke boundary, and the values that come into force at once. -/

namespace Sys2Proof.Machine

open Sys2Proof

/-! What a COMMIT would change. -/

/-- A COMMIT under check: the active set with the values held for it (R76, R308; DESIGN CHOICE, log 173), the set as it
would be, and the addresses that change, rising. -/
structure Com where
  old : List (Nat × Word)
  new : List (Nat × Word)
  ch  : List Nat
  deriving DecidableEq, Repr, Inhabited

/-- The staged words that differ from their active value, or from the value held for them (R75, R76, log 54). -/
def Dev.staged? (d : Dev) : List (Nat × Word) :=
  d.regs.shd.filter (fun p => p.2.toNat != d.rd p.1 || !(d.imagePart [p]).isEmpty)

/-- The COMMIT of a list of words. -/
def Dev.comOf (d : Dev) (vals : List (Nat × Word)) : Com :=
  let put := fun (c : List (Nat × Word)) (p : Nat × Word) => putA c p.1 p.2.toNat
  ⟨d.withHeld, vals.foldl put d.withHeld, vals.map (·.1)⟩

/-- A changed address on a page. -/
def Com.page (x : Com) (p : Nat) : Bool := x.ch.any (fun a => a / 65536 == p)
/-- A field of a word changes. -/
def Com.fldCh (x : Com) (a hi lo : Nat) : Bool := rfA x.old a hi lo != rfA x.new a hi lo
/-- A word changes. -/
def Com.wordCh (x : Com) (a : Nat) : Bool := x.ch.contains a
/-- The address where the condition holds, for a check that reports it. -/
def bad (b : Bool) (a : Nat) : List Nat := if b then [a] else []

/-! SEQ (R98, R109, R110). -/

/-- The fields of an entry agree with its kind (R98). PERIOD and HIGH of an entry that is no BURST must be 0, which R98 states for
its other fields alone (DESIGN CHOICE, log 197). -/
def wFormOk (e : Nat × Nat) : Bool :=
  decide (wKind e ≤ 3) && e.1 / 2 ^ 21 % 4 == 0 &&
  (if wKind e = 2 then decide (e.1 / 2 ^ 25 % 4 ≤ 2) else e.1 / 2 ^ 25 % 4 == 0) &&
  (wKind e == 1 || wKind e == 2 || !bit e.1 24) && (wKind e == 3 || !bit e.1 23) &&
  (if wKind e = 3 then
    decide (1 ≤ wCount e ∧ 4 ≤ wPeriod e ∧ 1 ≤ wHigh e ∧ wHigh e < wPeriod e) &&
      (!wPix e || (wPeriod e % 4 == 0 && decide (12 ≤ wPeriod e)))
  else e.2 == 0)

/-- The entry of a head's table that fails, by the rules of R98 and R109. -/
def waveFail (c : List (Nat × Word)) (n : Nat) : Option Nat :=
  let es := (List.range 64).map (waveOf c n)
  match es.findIdx? (fun e => wKind e == 0) with
  | none => some 63
  | some k =>
    let fin := wTime c n (waveOf c n k)
    let body := es.take k
    let entryBad := fun (i : Nat) (e : Nat × Nat) =>
      let prev := ((body.take i).filter (fun p => wOut p == wOut e)).getLast?
      !wFormOk e || decide (wTime c n e < 0 ∨ fin < wTime c n e ∨ fin < wUntil c n e) ||
        (match prev with
        | some p => decide (wTime c n e ≤ wTime c n p ∨ wTime c n e < wUntil c n p)
        | none => false) ||
        bit (rdA c (Reg.SEQ_H_OUTCFG n)) (31 - 8 * wOut e) ||
        (wPix e && (headSrc c n == 2 || (body.take i).any wPix))
    match body.zipIdx.find? (fun x => entryBad x.2 x.1) with
    | some x => some x.2
    | none =>
      if !wFormOk (waveOf c n k) || decide (((rdA c Reg.SEQ_MIN_INTERVAL : Nat) : Int) < fin) ||
          (headSrc c n == 1 && !body.any wPix) then some k
      else none

/-- The PIXCLK burst of a head, COUNT and PERIOD. -/
def pixClk (c : List (Nat × Word)) (n : Nat) : Nat × Nat :=
  let es := (List.range 64).map (waveOf c n)
  match (es.take ((es.findIdx? (fun e => wKind e == 0)).getD 64)).find? wPix with
  | some e => (wCount e, wPeriod e)
  | none => (0, 0)

/-- The first head, ascending, at which a running total exceeds a limit. -/
def overAt (limit : Nat) : Nat → List (Nat × Nat) → Option Nat
  | _, [] => none
  | t, (n, v) :: l => if limit < t + v then some n else overAt limit (t + v) l

/-- A head's optical-black region lies inside its raw pixels and outside its overlaps (R100). -/
def obOk (c : List (Nat × Word)) (n : Nat) : Bool :=
  let left := obStart c n
  let right := rawCount c n - obStart c n - obCount c n
  obCount c n == 0 || (decide (obStart c n + obCount c n ≤ rawCount c n) && (left == 0 || decide (ovlLeft c n ≤ left)) &&
    (right == 0 || decide (ovlRight c n ≤ right)))

/-- A head's overlaps fit its pixels (R100). -/
def ovlOk (c : List (Nat × Word)) (n : Nat) : Bool :=
  decide (ovlLeft c n ≤ rawCount c n - obCount c n ∧ ovlRight c n ≤ rawCount c n - obCount c n)

/-- R109: words that fail with BAD_PARAM, in the order of the table. -/
def Com.seqParam (x : Com) (mode : Mode) : List Nat :=
  let c := x.new
  let hs := headsOf c
  let lines := linesOf c
  let mi := rdA c Reg.SEQ_MIN_INTERVAL
  let dig := hs.filter (fun n => headSrc c n == 2)
  bad (decide (mi < 3255 ∨ mi < ceilDiv (lines * sumRaw c) 16)) Reg.SEQ_MIN_INTERVAL ++
  bad (rfA c Reg.SEQ_CTRL 0 0 == 1 && decide (rdA c Reg.SEQ_TIMER_PERIOD < mi)) Reg.SEQ_TIMER_PERIOD ++
  hs.flatMap (fun n => (List.range lines).flatMap (fun l =>
    bad (decide (mi < rdA c (Reg.SEQ_H_INT n l) + 64)) (Reg.SEQ_H_INT n l))) ++
  hs.flatMap (fun n => match waveFail c n with | some i => [Reg.SEQ_H_WAVE n (2 * i)] | none => []) ++
  hs.flatMap (fun n => bad (!obOk c n) (Reg.SEQ_H_OB n) ++ bad (!ovlOk c n) (Reg.SEQ_H_OVL n)) ++
  (match overAt 81920 0 (hs.map (fun n => (n, rawCount c n))) with | some n => [Reg.SEQ_H_RAW n] | none => []) ++
  (if stitchOn c then
    (match overAt 65536 0 (hs.map (fun n => (n, rawCount c n - obCount c n - (if hs.head? = some n then 0 else ovlLeft c n))))
      with | some n => [Reg.SEQ_H_RAW n] | none => [])
  else []) ++
  dig.flatMap (fun n =>
    let ls := lanesOfHead c n
    bad (ls.isEmpty || decide (64 < ls.length) || ls.any (fun l => decide (255 < l)) ||
      (dig.filter (· < n)).any (fun m => (lanesOfHead c m).any ls.contains)) (Reg.SEQ_H_LANES n) ++
    bad (decide (sampleCount c n = 0 ∨ sampleCount c n * ls.length < extLen c n * lines)) (Reg.SEQ_H_LANEWORDS n)) ++
  dig.flatMap (fun n =>
    bad (decide (mi * 2 < (sampleCount c n + 4) * laneWidth c n * 2 ^ rfA c (Reg.SEQ_H_LANES n) 21 20))
      (Reg.SEQ_H_LANEWORDS n)) ++
  bad ((mode == .scan || mode == .splice) && hs.isEmpty) (Reg.SEQ_H_CTRL 0)

/-- R109, R110: words that fail with BAD_STATE. -/
def Com.seqState (x : Com) (mode : Mode) : List Nat :=
  let c := x.new
  let run := mode == .scan || mode == .splice
  bad (rfA c Reg.SEQ_CTRL 0 0 == 1 && mode != .service && mode != .calibrate) Reg.SEQ_CTRL ++
  bad (rfA c Reg.SEQ_TEST 1 0 != 0 && mode != .service) Reg.SEQ_TEST ++
  (if run then
    bad (x.fldCh Reg.SEQ_CTRL 4 4 || x.fldCh Reg.SEQ_CTRL 15 12) Reg.SEQ_CTRL ++
    (List.range 32).flatMap (fun n =>
      let lag := headLag x.old n || headLag c n
      bad (x.fldCh (Reg.SEQ_H_CTRL n) 1 0 || (lag && x.wordCh (Reg.SEQ_H_CTRL n))) (Reg.SEQ_H_CTRL n) ++
      (if lag then
        ([Reg.SEQ_H_RAW n, Reg.SEQ_H_DUMMY n, Reg.SEQ_H_LANES n, Reg.SEQ_H_LANEWORDS n].filter x.wordCh) ++
        ((List.range 128).filter (fun j => x.wordCh (Reg.SEQ_H_WAVE n j) &&
          (wPix (waveOf x.old n (j / 2)) || wPix (waveOf c n (j / 2))))).map (Reg.SEQ_H_WAVE n)
      else []))
  else [])

/-! AFE and MON (R117, R120, R121, R144, R145). -/

/-- The slot entries of a channel, first to last of its 64. -/
def slotsOf (c : List (Nat × Word)) (ch : Nat) : List Nat :=
  (List.range 64).map (fun k => rdA c (Reg.AFE_SLOT ch (k / 4)) / 2 ^ (24 - 8 * (k % 4)) % 256)

/-- The table word of a channel that fails R120 or R121. -/
def slotFail (c : List (Nat × Word)) (ch : Nat) : Option Nat :=
  let len := rfA c (Reg.AFE_CV_CTRL ch) 6 0
  let es := slotsOf c ch
  let tap := fun (k : Nat) => es.getD k 0 / 16 % 8
  let gapOf := fun (t : Nat) => (pixClk c (tapHead c (6 * ch + t))).2 / 4
  let on := fun (t : Nat) => tapMode c (6 * ch + t) != 0
  let entryBad := fun (k : Nat) =>
    let e := es.getD k 0
    bit e 7 || e / 4 % 4 != 0 || tap k == 6 ||
      (decide (k < len ∧ tap k < 6) && (!on (tap k) ||
        (let g := gapOf (tap k)
        g == 0 || len % g != 0 || tap ((k + g) % len) != tap k ||
          (List.range' 1 (g - 1)).any (fun j => tap ((k + j) % len) == tap k))))
  match (List.range 64).find? entryBad with
  | some k => some (Reg.AFE_SLOT ch (k / 4))
  | none =>
    if (List.range 6).any (fun t => on t && !(List.range len).any (fun k => tap k == t)) then some (Reg.AFE_SLOT ch 0)
    else none

/-- R144: words that fail, in the order of the table. -/
def Com.afeParam (x : Com) : List Nat :=
  let c := x.new
  let taps := (List.range 384).filter (fun t => tapMode c t != 0)
  let ana := (headsOf c).filter (fun n => headSrc c n == 1)
  taps.flatMap (fun t => bad (headSrc c (tapHead c t) != 1) (Reg.AFE_T_CFG t)) ++
  ana.flatMap (fun n => bad (tapsOf c n).isEmpty (Reg.SEQ_H_CTRL n)) ++
  ana.flatMap (fun n =>
    let k := (tapsOf c n).length
    bad (extLen c n * linesOf c % max 1 k != 0 || sampleCount c n != (pixClk c n).1) (Reg.SEQ_H_RAW n)) ++
  (List.range 64).flatMap (fun ch => (slotFail c ch).toList) ++
  taps.flatMap (fun t =>
    let r := rfA c (Reg.AFE_T_CDS t) 22 16
    let s := rfA c (Reg.AFE_T_CDS t) 6 0
    let p := (pixClk c (tapHead c t)).2
    bad (if tapMode c t = 1 then decide (s < r + 4 ∨ p ≤ s) else r != 0 || decide (p ≤ s)) (Reg.AFE_T_CDS t)) ++
  taps.flatMap (fun t =>
    bad (decide (sampleCount c (tapHead c t) < rfA c (Reg.AFE_T_CLAMP t) 31 16 + rfA c (Reg.AFE_T_CLAMP t) 15 0))
      (Reg.AFE_T_CLAMP t)) ++
  (List.range 64).flatMap (fun e =>
    bad (decide (47 < rfA c (Reg.MON_A_SEQ e) 6 0 ∨ rfA c (Reg.MON_A_SEQ e) 31 22 < 2)) (Reg.MON_A_SEQ e)) ++
  (List.range 64).flatMap (fun e =>
    let i := rfA c (Reg.MON_B_SEQ e) 6 0
    bad (decide (i < 48 ∨ 95 < i ∨ rfA c (Reg.MON_B_SEQ e) 31 22 < 2)) (Reg.MON_B_SEQ e))

/-- R145: the layout words of the converters. -/
def afeLayout (a : Nat) : Bool :=
  (decide (0x021000 ≤ a ∧ a < 0x024000) && decide ((a - 0x021000) % 32 < 12)) ||
    decide (Reg.AFE_CV_CTRL 0 ≤ a ∧ a ≤ Reg.AFE_CV_CTRL 63) || decide (0x028000 ≤ a ∧ a < 0x029000)

/-! PIX (R154, R175, R176). -/

/-- The sources of a head as (index, sample) pairs in order. -/
def samplesOf (c : List (Nat × Word)) (n : Nat) : List (Nat × Nat) :=
  (List.range (sourcesOf c n).length).flatMap (fun s => (List.range (sampleCount c n)).map (fun i => (s, i)))

/-- The first failing pair of line and position in a sorted list of (key, source): the source to report. -/
def coverFail : Nat → List (Nat × Nat) → Option Nat
  | _, [] => none
  | k, (key, s) :: l =>
    if key < k then some s            -- filled again
    else if k < key then some 0       -- `k` filled by no source
    else coverFail (k + 1) l

/-- The source of a head that fails the coverage of R154 and R175. A source with LINE = 3 under LMODE = 0, which R153 does not
list and no check of R175 names, covers nothing (DESIGN CHOICE, log 198). -/
def coverBad (c : List (Nat × Word)) (n : Nat) : Option Nat :=
  let e := extLen c n
  let lines := linesOf c
  let srcs := List.range (sourcesOf c n).length
  match srcs.find? (fun s =>
    decide (1 ≤ rdA c (Reg.PIX_H_SRC n s) / 2 ^ 30) && (lines != 3 || sampleCount c n % 3 != 0)) with
  | some s => some s
  | none =>
    match (samplesOf c n).find? (fun x =>
      let p := samplePos c n x.1 x.2
      decide (p.2 < 0 ∨ (e : Int) ≤ p.2)) with
    | some x => some x.1
    | none =>
      -- samples on a line not in use fill no pair
      let keys := (samplesOf c n).filterMap (fun x => let p := samplePos c n x.1 x.2
        if p.1 < lines then some (p.1 * e + p.2.toNat, x.1) else none)
      let sorted := keys.mergeSort (fun a b => decide (a.1 < b.1) || (a.1 == b.1 && decide (a.2 ≤ b.2)))
      match coverFail 0 sorted with
      | some s => some s
      | none => if keys.length < lines * e then some 0 else none

/-- A defect list is one F7 takes (R175). -/
def defectsOk (c : List (Nat × Word)) (sram : List Host.Cell) (n : Nat) : Bool :=
  let ds := defects c sram n
  decide (ds.length ≤ 4096) && ds.all (fun w => decide (w % 65536 < rawCount c n) && w / 2 ^ 27 % 8 != 0 && w / 2 ^ 30 != 3) &&
    (pairs ds).all (fun p => decide (p.1 % 65536 < p.2 % 65536))

/-- R175: words that fail, in the order of the table. -/
def Com.pixParam (x : Com) (d : Dev) : List Nat :=
  let c := x.new
  let hs := headsOf c
  let lines := linesOf c
  let f56 := rfA c Reg.PIX_CTRL 2 2 == 1 || rfA c Reg.PIX_CTRL 3 3 == 1
  hs.flatMap (fun n =>
    let k := (sourcesOf c n).length
    bad (k == 0 || decide (128 < k)) (Reg.PIX_H_SRC n 0) ++
    (List.range (min k 128)).flatMap (fun s =>
      let w := rdA c (Reg.PIX_H_SRC n s)
      bad (w / 2 ^ 18 % 256 == 0 || w / 2 ^ 30 == 3 || (w / 2 ^ 30 != 0 && w / 2 ^ 28 % 4 != 0)) (Reg.PIX_H_SRC n s))) ++
  hs.flatMap (fun n => match coverBad c n with | some s => [Reg.PIX_H_SRC n s] | none => []) ++
  (if stitchOn c then
    bad (hs.head?.any (fun n => ovlLeft c n != 0)) (Reg.SEQ_H_OVL (hs.headD 0)) ++
    (pairs hs).flatMap (fun p => bad (ovlRight c p.1 != ovlLeft c p.2) (Reg.SEQ_H_OVL p.1)) ++
    bad (hs.getLast?.any (fun n => ovlRight c n != 0)) (Reg.SEQ_H_OVL (hs.getLastD 0)) ++
    bad ((pairs hs).zipIdx.any (fun y => !bit (rdA c Reg.PIX_STITCH) y.2 &&
      (List.range lines).any (fun l => rdA c (Reg.SEQ_H_OFS y.1.1 l) != rdA c (Reg.SEQ_H_OFS y.1.2 l)))) Reg.PIX_STITCH
  else []) ++
  (if f56 then
    bad ((List.range (nphOf c)).any (fun p =>
      let m := slotSel (rdA c Reg.PIX_MAPSEL) p
      !bit d.cal.valid m || d.tag m 8 1 != p || decide (d.tag m 28 4 < sumRaw c) || decide (d.tag m 9 1 < lines)))
      Reg.PIX_MAPSEL
  else []) ++
  (if rfA c Reg.PIX_CTRL 4 4 = 1 then hs.flatMap (fun n => bad (!defectsOk c d.fsram n) (Reg.PIX_H_DEF n)) else []) ++
  bad (!hs.isEmpty && decide (outWidth c = 0 ∨ 65536 < outWidth c)) Reg.PIX_CTRL

/-- R176: what SCAN and SPLICE do not let a COMMIT change on the PIX page, and W. -/
def Com.pixState (x : Com) : List Nat :=
  (if outWidth x.old ≠ outWidth x.new then
    (x.ch.filter (fun a => a == Reg.PIX_CTRL || (List.range 32).any (fun n =>
      a == Reg.SEQ_H_CTRL n || a == Reg.SEQ_H_RAW n || a == Reg.SEQ_H_OB n || a == Reg.SEQ_H_OVL n))).take 1
  else []) ++
  bad (x.fldCh Reg.PIX_CTRL 5 5) Reg.PIX_CTRL ++ bad (x.fldCh Reg.PIX_OUT 1 0) Reg.PIX_OUT ++
  bad (x.wordCh Reg.PIX_STITCH) Reg.PIX_STITCH ++
  ((List.range 32).filter (fun n => headLag x.old n || headLag x.new n)).flatMap (fun n =>
    x.ch.filter (fun a => decide (Reg.PIX_H_SRC n 0 ≤ a ∧ a ≤ Reg.PIX_H_SRC n 127)))

/-! PAGE (R205, R334). -/

/-- R205: words that fail, in the order of the table. -/
def Com.pageParam (x : Com) : List Nat :=
  let c := x.new
  let crop := rfA c Reg.PAGE_CTRL 5 4
  bad (rfA c Reg.PAGE_CTRL 9 8 == 1 && decide (17 < rfA c Reg.PAGE_SENSOR 4 0)) Reg.PAGE_SENSOR ++
  bad (decide (rdA c Reg.PAGE_MAX_ROWS < rdA c Reg.PAGE_ROWS)) Reg.PAGE_ROWS ++
  bad (crop == 1 && (rdA c Reg.PAGE_CROP_W == 0 || rdA c Reg.PAGE_CROP_H == 0)) Reg.PAGE_CROP_W ++
  bad ((crop == 2 || rfA c Reg.PAGE_CTRL 6 6 == 1) &&
    decide (nphOf c ≤ rfA c Reg.PAGE_EDGE 1 0 ∨ linesOf c ≤ rfA c Reg.PAGE_EDGE 3 2)) Reg.PAGE_EDGE ++
  bad (crop == 3) Reg.PAGE_CTRL

/-! LMP (R216, R218, R221). -/

/-- R218: words that fail, in the order of the table; `lvl` gives the level of each chain after the COMMIT. -/
def Com.lmpParam (x : Com) (lvl : Nat → Word) : List Nat :=
  let c := x.new
  let en := (List.range 16).filter (chainEn c)
  let cls := fun (n i : Nat) => rdA c (Reg.LMP_C_CLASS n (i / 8)) / 2 ^ (28 - 4 * (i % 8)) % 16
  let tp := proofTime c
  let low := en.any (fun n => lowDuty c n (lvl n))
  en.flatMap (fun n =>
    let b := chainBits c n
    bad (b % 8 != 0 || decide (b < 8 ∨ 384 < b) || populated c n == 0) (Reg.LMP_C_CFG n) ++
    (((List.range 384).filter (fun i => decide (b ≤ i) && cls n i != 0)).map (fun i => Reg.LMP_C_CLASS n (i / 8))).take 1) ++
  en.flatMap (fun n => bad (decide (nphOf c ≤ chainPhase c n)) (Reg.LMP_C_CFG n)) ++
  bad (decide (rdA c Reg.LMP_BLANK < 782)) Reg.LMP_BLANK ++
  en.flatMap (fun n => bad (decide (rfA c (Reg.LMP_C_ONDLY n) 20 0 < 128)) (Reg.LMP_C_ONDLY n)) ++
  en.flatMap (fun n => bad (!windowFits c n (lvl n)) (Reg.LMP_C_ONDLY n)) ++
  bad (diagEn c && low && (decide (windowLimit c < tp + 1250) || en.any (fun n =>
    let s := rfA c (Reg.LMP_C_ONDLY n) 20 0
    levelOn (lvl n) != 0 && decide (s < tp + 1250 ∧ tp * 16384 < windowEnd c n (lvl n))))) Reg.LMP_CTRL ++
  (List.range 4).flatMap (fun p => (List.range 16).flatMap (fun w =>
    let v := rdA c (Reg.LMP_P_AC p w)
    let out := fun (k : Nat) => decide (k < 0x3000 ∨ 0x5000 < k)
    bad (out (v / 65536) || out (v % 65536)) (Reg.LMP_P_AC p w)))

/-- R216: what SCAN, HOLD and SPLICE do not let a COMMIT change. -/
def Com.lmpState (x : Com) : List Nat :=
  bad (x.fldCh Reg.LMP_CTRL 1 0) Reg.LMP_CTRL ++
  (List.range 16).flatMap (fun n =>
    bad (x.fldCh (Reg.LMP_C_CFG n) 31 31 || x.fldCh (Reg.LMP_C_CFG n) 29 28 || x.fldCh (Reg.LMP_C_CFG n) 24 16)
      (Reg.LMP_C_CFG n) ++
    x.ch.filter (fun a => decide (Reg.LMP_C_CLASS n 0 ≤ a ∧ a ≤ Reg.LMP_C_CLASS n 47)))

/-! MOT (R269). -/

/-- R269: words that fail with BAD_PARAM. -/
def Com.motParam (x : Com) : List Nat :=
  let c := x.new
  let en := (List.range 12).filter (fun a => rfA c (Reg.MOT_A_CFG a) 31 31 == 1)
  let grp := fun (a : Nat) => rfA c (Reg.MOT_A_CFG a) 29 28
  en.flatMap (fun a => bad (decide (4 ≤ (en.filter (fun b => decide (b < a) && grp b == grp a)).length)) (Reg.MOT_A_CFG a)) ++
  (List.range 12).flatMap (fun a =>
    let v := rdA c (Reg.MOT_A_VLIM a)
    bad (decide (min 5000000 (48828125 / (rfA c (Reg.MOT_A_CFG a) 6 0 + 4)) < v)) (Reg.MOT_A_VLIM a) ++
    bad (decide (v < rdA c (Reg.MOT_A_HOME_V a))) (Reg.MOT_A_HOME_V a)) ++
  (List.range 12).flatMap (fun a =>
    bad (rfA c (Reg.MOT_A_CFG a) 22 20 != 7 && rdA c (Reg.MOT_A_ENC_RATIO a) == 0) (Reg.MOT_A_ENC_RATIO a)) ++
  (List.range 12).flatMap (fun a =>
    bad (rfA c (Reg.MOT_A_HOME a) 30 30 == 1 && rfA c (Reg.MOT_A_CFG a) 22 20 == 7) (Reg.MOT_A_HOME a))

/-- R269: words that fail with BAD_STATE. -/
def Com.motState (x : Com) (d : Dev) : List Nat :=
  let grpOf := fun (c : List (Nat × Word)) (a : Nat) =>
    if rfA c (Reg.MOT_A_CFG a) 31 31 = 1 then some (rfA c (Reg.MOT_A_CFG a) 29 28) else none
  let quiet := fun (g : Nat) =>
    let y := d.grp g
    (y.st == GSt.rest || y.st == GSt.halted || y.st == GSt.limit) && y.q.isEmpty
  let job := d.jobMode
  x.ch.filter (fun w =>
    match ixOf (Reg.MOT_A_CFG 0) 0x40 12 w with
    | some (a, _) =>
      let gs := (grpOf x.old a).toList ++ (grpOf x.new a).toList
      gs.any (fun g => !quiet g) || (d.ax a).home.isSome || (job && gs.any (fun g => d.feed == some g))
    | none =>
      match ixOf 0x070400 0x40 4 w with
      | some (g, _) => job && d.feed == some g
      | none =>
        match ixOf 0x070700 0x20 6 w with
        | some (e, _) => job && e == rfA x.old Reg.SEQ_CTRL 15 12
        | none => false)

/-! COX and CLS (R286, R301). -/

/-- R301: words that fail with BAD_PARAM. -/
def Com.coxParam (x : Com) : List Nat :=
  let c := x.new
  let r := rdA c
  let nph := nphOf c
  bad (decide (r Reg.COX_HWM ≤ r Reg.COX_LWM ∨ r Reg.COX_HOLD_MARK ≤ r Reg.COX_HWM)) Reg.COX_HWM ++
  bad (decide (r Reg.PAGE_BUF_SIZE < r Reg.COX_HOLD_MARK + coxReserve c)) Reg.COX_HOLD_MARK ++
  bad (decide (r Reg.COX_VMAX ≤ r Reg.COX_VMIN)) Reg.COX_VMIN ++
  bad (decide (r Reg.CLS_OVL + 2 < r Reg.CLS_REF + 2 * r Reg.CLS_SEARCH + 2 * nph)) Reg.CLS_OVL ++
  bad (decide (r Reg.CLS_REWIND < r Reg.CLS_REF + r Reg.CLS_SEARCH + nph + 6)) Reg.CLS_REWIND ++
  bad (decide (nph ≤ rfA c Reg.CLS_CTRL 5 4 ∨ linesOf c ≤ rfA c Reg.CLS_CTRL 9 8)) Reg.CLS_CTRL ++
  bad (rfA c Reg.CLS_CTRL 1 1 == 0 && decide (rfA c Reg.CLS_WIN 31 16 < 8 ∨
    outWidth c < rfA c Reg.CLS_WIN 31 16 + rfA c Reg.CLS_WIN 15 0 + 8)) Reg.CLS_WIN

/-- R286, R301: words that fail with BAD_STATE. While a job is held R286 refuses the pitch and the offsets in SCAN too,
where R87 and R110 let them change: the refusal is taken (DESIGN CHOICE, log 160). -/
def Com.coxState (x : Com) (d : Dev) : List Nat :=
  x.ch.filter (fun a =>
    (d.jobHeld && (a == Reg.SEQ_DIV_INT || a == Reg.SEQ_DIV_FRAC || a == Reg.COX_FEED_RATIO || a / 65536 == 9 ||
      (List.range 32).any (fun n => (List.range 3).any (fun l => a == Reg.SEQ_H_OFS n l)))) ||
    (d.jobMode && a == Reg.COX_FEED_RATIO))

/-! The whole check (R52, R74). -/

/-- The words that fail with BAD_STATE, page by page. -/
def Dev.commitState (d : Dev) (x : Com) : List Nat :=
  let run := d.mode == .scan || d.mode == .splice
  bad (x.wordCh Reg.DEV_COMPAT && d.jobMode) Reg.DEV_COMPAT ++
  (if x.page 1 then x.seqState d.mode else []) ++
  (if run then x.ch.filter afeLayout ++ x.pixState else []) ++
  bad (x.wordCh Reg.PAGE_BUF_SIZE && d.modeBad Reg.PAGE_BUF_SIZE 0) Reg.PAGE_BUF_SIZE ++
  (if d.jobMode then x.lmpState else []) ++ x.motState d ++ x.coxState d

/-- The words that fail with BAD_PARAM: a page's checks run when the COMMIT changes a word of a page they rest on
(log 55). -/
def Dev.commitParam (d : Dev) (x : Com) : List Nat :=
  let any := fun (l : List Nat) => l.any x.page
  let reset := d.chainsChanged (x.ch.map (fun a => (a, w32 (rdA x.new a))))
  let lvl := fun (n : Nat) => if reset.contains n then w32 (populated x.new n * 8388608) else d.level n
  (if any [1] then x.seqParam d.mode else []) ++ (if any [1, 2, 3] then x.afeParam else []) ++
  (if any [1, 2, 4, 6] then x.pixParam d else []) ++ (if any [1, 5, 6] then x.pageParam else []) ++
  (if any [1, 6] then x.lmpParam lvl else []) ++ (if any [7] then x.motParam else []) ++
  (if any [1, 4, 5, 6, 8, 9] then x.coxParam else [])

/-- The words that fail with BUSY (R334, R344). -/
def Dev.commitBusy (d : Dev) (x : Com) : List Nat :=
  bad (x.wordCh Reg.PAGE_BUF_SIZE && d.dma.ch.any (fun (c : Chan) => c.st != DSt.idle || !c.q.isEmpty || c.busy))
    Reg.PAGE_BUF_SIZE ++
  (if rfA x.new Reg.PIX_CTRL 4 4 = 1 then
    (headsOf x.new).flatMap (fun n =>
      let b := rfA x.new (Reg.PIX_H_DEF n) 31 31
      let lo := defBank x.new n + winBase
      bad (!d.bankUsed n b && d.dma.ch.any (fun (c : Chan) => c.st == DSt.run && dWrites c.img &&
        decide ((dDstSpan c.img).1 < ((lo + 0x4000 : Nat) : Int) ∧ ((lo : Nat) : Int) < (dDstSpan c.img).2)))
        (Reg.PIX_H_DEF n))
  else [])

/-- Why a COMMIT is refused, with the first failing word; OK where it is not. -/
def Dev.commitCheck (d : Dev) (x : Com) : Nat × Nat :=
  match d.commitState x, d.commitParam x, d.commitBusy x with
  | a :: _, _, _ => (stBadState, a)
  | [], a :: _, _ => (stBadParam, a)
  | [], [], a :: _ => (stBusy, a)
  | [], [], [] => (stOk, 0xFFFFFFFF)

/-! COMMIT and DISCARD (R12 to R14, R75, R76). -/

/-- A change of DEV_COMPAT (R8): corrections held while VH4 was 1 come into force when it becomes 0, or where R309 lets no
correction into force, at the first Catch at which it does (DESIGN CHOICE, log 174). -/
def Dev.compatChanged (d : Dev) : Dev :=
  if bit (d.rd Reg.DEV_COMPAT) 0 then d else
  let held := d.cal.held
  let d := { d with cal := { d.cal with held := [] } }
  if d.imageClosed then { d with cal := { d.cal with due := held ++ d.cal.due } } else (d.applyCorrs held).settleCommits 0

/-- The values of a COMMIT take effect at once (R12, R76). -/
def Dev.commitNow (d : Dev) (h : Req) (vals : List (Nat × Word)) : Dev :=
  let compat := (vals.map (·.1)).contains Reg.DEV_COMPAT
  let img := d.imagePart vals
  let shut := d.imageClosed
  let d := d.takeCommit shut vals
  let wait := d.imageWait shut d.newGroup img
  let d := if wait.isSome then { d with regs := { d.regs with heldBy := d.regs.heldBy ++ [(h.session, h.seq, wait)] } } else d
  let d := if compat then d.compatChanged else d
  d.serviceCatches

/-- COMMIT on the device (R74 to R76): the accepted words of the field side go to it (R19). -/
def Dev.commit (d : Dev) (h : Req) : Dev :=
  d.serve h 0x13 fun d =>
    if d.regs.com.isSome then (stBusy, be 4 0xFFFFFFFF, d) else
    let vals := d.staged?
    if vals.isEmpty then (stOk, be 4 0xFFFFFFFF, { d with regs := { d.regs with shd := [] } }) else
    let r := d.commitCheck (d.comOf vals)
    if r.1 ≠ stOk then (r.1, be 4 r.2, d) else
    let d := { d with regs := { d.regs with shd := [] } }.forward vals
    if d.mode == .scan || d.mode == .splice then
      (stAccepted, be 4 0xFFFFFFFF, { d with regs := { d.regs with com := some ⟨vals, h.session, h.seq⟩ } })
    else (stOk, be 4 0xFFFFFFFF, d.commitNow h vals)

/-- Listed bytes beyond a new end of the shared region are lost: free values (R334). -/
def State.loseBeyond (s : State) (fin : Nat) : State :=
  (s.mem.filter (fun c => decide (fin ≤ c.1))).foldl (fun s c =>
    let (v, d) := s.d.free 22
    { s with mem := mset s.mem c.1 (v.setWidth 8), d := d }) s

/-- COMMIT (R74 to R76, R334). -/
def execCommit (h : Req) (s : State) : Host.Outcome State Fault Refusal :=
  let t := { s with d := s.d.commit h }
  if t.d.shrMib < s.d.shrMib then .next (t.loseBeyond (shrBase + t.d.shrMib * 1048576)) else .next t

/-- DISCARD (R14). -/
def execDiscard (h : Req) (s : State) : Host.Outcome State Fault Refusal :=
  s.onDev fun d => d.serve h 0x14 fun d => (stOk, [], { d with regs := { d.regs with shd := [] } })

end Sys2Proof.Machine
end

