-- ==== Sys2Proof/Machine/Dispatch.lean ====
section
/-! DEFINITION. One arm for every command: a direct call of its meaning. -/

namespace Sys2Proof.Machine

open Sys2Proof

/-- The effect of a command on everything but the queue. -/
def exec (i : Instr) (s : State) : Host.Outcome State Fault Refusal :=
  match i with
  | .ping h data => Sys2Proof.Machine.execPing h data s
  | .sessionOpen h kaMs token tag => Sys2Proof.Machine.execSessionOpen h kaMs token tag s
  | .sessionClose h => Sys2Proof.Machine.execSessionClose h s
  | .keepalive h => Sys2Proof.Machine.execKeepalive h s
  | .paramRead h addr count => Sys2Proof.Machine.execParamRead h addr count s
  | .paramWrite h payload tail => Sys2Proof.Machine.execParamWrite h payload tail s
  | .commit h => Sys2Proof.Machine.execCommit h s
  | .discard h => Sys2Proof.Machine.execDiscard h s
  | .modeSetStandby h => Sys2Proof.Machine.execModeSetStandby h s
  | .modeSetIdle h => Sys2Proof.Machine.execModeSetIdle h s
  | .modeSetCalibrate h => Sys2Proof.Machine.execModeSetCalibrate h s
  | .modeSetService h => Sys2Proof.Machine.execModeSetService h s
  | .modeSetReset h => Sys2Proof.Machine.execModeSetReset h s
  | .statusGet h => Sys2Proof.Machine.execStatusGet h s
  | .scanStart h jobId firstPage group => Sys2Proof.Machine.execScanStart h jobId firstPage group s
  | .scanStop h => Sys2Proof.Machine.execScanStop h s
  | .scanHold h => Sys2Proof.Machine.execScanHold h s
  | .scanResume h => Sys2Proof.Machine.execScanResume h s
  | .jobAbort h => Sys2Proof.Machine.execJobAbort h s
  | .moveQueue h m => Sys2Proof.Machine.execMoveQueue h m s
  | .moveModify h group moveId vmax acc dec => Sys2Proof.Machine.execMoveModify h group moveId vmax acc dec s
  | .home h mask => Sys2Proof.Machine.execHome h mask s
  | .axisHaltRamp h mask => Sys2Proof.Machine.execAxisHaltRamp h mask s
  | .axisHaltHard h mask => Sys2Proof.Machine.execAxisHaltHard h mask s
  | .moveResume h group => Sys2Proof.Machine.execMoveResume h group s
  | .lampLevel h chain level => Sys2Proof.Machine.execLampLevel h chain level s
  | .lampTest h chain => Sys2Proof.Machine.execLampTest h chain s
  | .calRunAdcCore h unit => Sys2Proof.Machine.execCalRunAdcCore h unit s
  | .calRunAfeOffset h unit => Sys2Proof.Machine.execCalRunAfeOffset h unit s
  | .calRunBezelLane h unit => Sys2Proof.Machine.execCalRunBezelLane h unit s
  | .calRunShading h unit => Sys2Proof.Machine.execCalRunShading h unit s
  | .calRunLampAbs h unit => Sys2Proof.Machine.execCalRunLampAbs h unit s
  | .calRunVrefTrace h unit => Sys2Proof.Machine.execCalRunVrefTrace h unit s
  | .calApply h kind unit epoch => Sys2Proof.Machine.execCalApply h kind unit epoch s
  | .calStore h kind unit => Sys2Proof.Machine.execCalStore h kind unit s
  | .calRestore h kind unit epoch => Sys2Proof.Machine.execCalRestore h kind unit epoch s
  | .monConvert h input sample => Sys2Proof.Machine.execMonConvert h input sample s
  | .dmaEnqueue h ch addr => Sys2Proof.Machine.execDmaEnqueue h ch addr s
  | .fence h mask => Sys2Proof.Machine.execFence h mask s
  | .timeSet h ns frac => Sys2Proof.Machine.execTimeSet h ns frac s
  | .timeAdjust h offset incr => Sys2Proof.Machine.execTimeAdjust h offset incr s
  | .telemetrySubscribe h period mask => Sys2Proof.Machine.execTelemetrySubscribe h period mask s
  | .keyProvision h keyId key => Sys2Proof.Machine.execKeyProvision h keyId key s
  | .fwBegin h len => Sys2Proof.Machine.execFwBegin h len s
  | .fwBlock h offset data => Sys2Proof.Machine.execFwBlock h offset data s
  | .fwCommit h => Sys2Proof.Machine.execFwCommit h s
  | .faultLogRead h first count => Sys2Proof.Machine.execFaultLogRead h first count s
  | .faultClearSafe h => Sys2Proof.Machine.execFaultClearSafe h s
  | .faultClearLog h => Sys2Proof.Machine.execFaultClearLog h s
  | .safeClearDone cleared => Sys2Proof.Machine.execSafeClearDone cleared s
  | .skmDatagramReject src port bytes => Sys2Proof.Machine.execSkmDatagramReject src port bytes s
  | .eventAck h => Sys2Proof.Machine.execEventAck h s
  | .sessionExpire session => Sys2Proof.Machine.execSessionExpire session s
  | .eventResend session seq => Sys2Proof.Machine.execEventResend session seq s
  | .replyCacheExpire session seq => Sys2Proof.Machine.execReplyCacheExpire session seq s
  | .devCtrlWrite h value => Sys2Proof.Machine.execDevCtrlWrite h value s
  | .bzlIdleRx d f => Sys2Proof.Machine.execBzlIdleRx d f s
  | .bzlIdleTx d => Sys2Proof.Machine.execBzlIdleTx d s
  | .bzlFrameDiscard d f => Sys2Proof.Machine.execBzlFrameDiscard d f s
  | .bzlReplay d f => Sys2Proof.Machine.execBzlReplay d f s
  | .strokeFrameTx => Sys2Proof.Machine.execStrokeFrameTx s
  | .strokeFrameRx f => Sys2Proof.Machine.execStrokeFrameRx f s
  | .strokeDiscardRelease => Sys2Proof.Machine.execStrokeDiscardRelease s
  | .bzlStatusRx f st => Sys2Proof.Machine.execBzlStatusRx f st s
  | .fieldAbsent => Sys2Proof.Machine.execFieldAbsent s
  | .bzlEventRx f => Sys2Proof.Machine.execBzlEventRx f s
  | .bzlCmdRx f c => Sys2Proof.Machine.execBzlCmdRx f c s
  | .bzlReplyRx f => Sys2Proof.Machine.execBzlReplyRx f s
  | .bzlTimeRx f => Sys2Proof.Machine.execBzlTimeRx f s
  | .timeFrameTx => Sys2Proof.Machine.execTimeFrameTx s
  | .bzlLaneFail d lane => Sys2Proof.Machine.execBzlLaneFail d lane s
  | .bzlLaneDegraded d lane errs => Sys2Proof.Machine.execBzlLaneDegraded d lane errs s
  | .bzlLaneSpare d => Sys2Proof.Machine.execBzlLaneSpare d s
  | .bzlLaneRetrainDone d lane => Sys2Proof.Machine.execBzlLaneRetrainDone d lane s
  | .bzlLaneTestDone d lane pass => Sys2Proof.Machine.execBzlLaneTestDone d lane pass s
  | .bzlLaneTempRetrain d lane => Sys2Proof.Machine.execBzlLaneTempRetrain d lane s
  | .bzlStageHigh => Sys2Proof.Machine.execBzlStageHigh s
  | .bzlLinkDown d => Sys2Proof.Machine.execBzlLinkDown d s
  | .fieldHoldover => Sys2Proof.Machine.execFieldHoldover s
  | .fieldPllRelock => Sys2Proof.Machine.execFieldPllRelock s
  | .fieldLocalOsc => Sys2Proof.Machine.execFieldLocalOsc s
  | .bzlLinkUp lat => Sys2Proof.Machine.execBzlLinkUp lat s
  | .linkCauseClear => Sys2Proof.Machine.execLinkCauseClear s
  | .rootPllUnlock => Sys2Proof.Machine.execRootPllUnlock s
  | .xtalFail => Sys2Proof.Machine.execXtalFail s
  | .xtalResume => Sys2Proof.Machine.execXtalResume s
  | .profileBoundary => Sys2Proof.Machine.execProfileBoundary s
  | .holdEntry => Sys2Proof.Machine.execHoldEntry s
  | .spliceEntry => Sys2Proof.Machine.execSpliceEntry s
  | .coxPeriod => Sys2Proof.Machine.execCoxPeriod s
  | .encEdge enc b level held t => Sys2Proof.Machine.execEncEdge enc b level held t s
  | .encIllegal enc t => Sys2Proof.Machine.execEncIllegal enc t s
  | .encZEdge enc level held => Sys2Proof.Machine.execEncZEdge enc level held s
  | .catchStroke t => Sys2Proof.Machine.execCatchStroke t s
  | .catchDeferred t => Sys2Proof.Machine.execCatchDeferred t s
  | .timerStroke t => Sys2Proof.Machine.execTimerStroke t s
  | .flushCycle => Sys2Proof.Machine.execFlushCycle s
  | .strokeWdog => Sys2Proof.Machine.execStrokeWdog s
  | .lanePhaseAcquired lane => Sys2Proof.Machine.execLanePhaseAcquired lane s
  | .laneReadyTimeout => Sys2Proof.Machine.execLaneReadyTimeout s
  | .laneDeadline missing early => Sys2Proof.Machine.execLaneDeadline missing early s
  | .laneTransitionLoss lane => Sys2Proof.Machine.execLaneTransitionLoss lane s
  | .pipelineStrokeStart data => Sys2Proof.Machine.execPipelineStrokeStart data s
  | .trailerAppend checkOk => Sys2Proof.Machine.execTrailerAppend checkOk s
  | .adcCheckFail ch => Sys2Proof.Machine.execAdcCheckFail ch s
  | .adcFaultTakeover q => Sys2Proof.Machine.execAdcFaultTakeover q s
  | .adcRotationStep q => Sys2Proof.Machine.execAdcRotationStep q s
  | .adcCoreCalDone core pass => Sys2Proof.Machine.execAdcCoreCalDone core pass s
  | .adcCoreProbationEnd core clean => Sys2Proof.Machine.execAdcCoreProbationEnd core clean s
  | .coreCalInvalid core => Sys2Proof.Machine.execCoreCalInvalid core s
  | .clampWindowEnd tap gset mean => Sys2Proof.Machine.execClampWindowEnd tap gset mean s
  | .vrefxLost => Sys2Proof.Machine.execVrefxLost s
  | .afeRefSelWrite h value => Sys2Proof.Machine.execAfeRefSelWrite h value s
  | .pixelRefSettled => Sys2Proof.Machine.execPixelRefSettled s
  | .afeOwStart h value => Sys2Proof.Machine.execAfeOwStart h value s
  | .afeOwDone means => Sys2Proof.Machine.execAfeOwDone means s
  | .monPassStart b => Sys2Proof.Machine.execMonPassStart b s
  | .monConversionDone b sample second => Sys2Proof.Machine.execMonConversionDone b sample second s
  | .monRefWrite h b value => Sys2Proof.Machine.execMonRefWrite h b value s
  | .monRefSettled b => Sys2Proof.Machine.execMonRefSettled b s
  | .mapSlotCrcCheck slot => Sys2Proof.Machine.execMapSlotCrcCheck slot s
  | .switchEdge sw level agree t => Sys2Proof.Machine.execSwitchEdge sw level agree t s
  | .switchChatter axis => Sys2Proof.Machine.execSwitchChatter axis s
  | .homeRetry axis => Sys2Proof.Machine.execHomeRetry axis s
  | .followingError axis => Sys2Proof.Machine.execFollowingError axis s
  | .axisResync axis => Sys2Proof.Machine.execAxisResync axis s
  | .stepWdog g => Sys2Proof.Machine.execStepWdog g s
  | .profileRestartDone g => Sys2Proof.Machine.execProfileRestartDone g s
  | .claspRefFixed => Sys2Proof.Machine.execClaspRefFixed s
  | .claspSpliceDecide => Sys2Proof.Machine.execClaspSpliceDecide s
  | .containerComplete page => Sys2Proof.Machine.execContainerComplete page s
  | .filigreeUnitDone engine => Sys2Proof.Machine.execFiligreeUnitDone engine s
  | .filigreeMismatch engine => Sys2Proof.Machine.execFiligreeMismatch engine s
  | .deliveryStart => Sys2Proof.Machine.execDeliveryStart s
  | .rdmaAckRx => Sys2Proof.Machine.execRdmaAckRx s
  | .udpAckRx src f => Sys2Proof.Machine.execUdpAckRx src f s
  | .udpNakRx src f => Sys2Proof.Machine.execUdpNakRx src f s
  | .udpRto => Sys2Proof.Machine.execUdpRto s
  | .pageSessionWordWrite h session offset value => Sys2Proof.Machine.execPageSessionWordWrite h session offset value s
  | .lampShiftEnd chain => Sys2Proof.Machine.execLampShiftEnd chain s
  | .lampLatch chain => Sys2Proof.Machine.execLampLatch chain s
  | .lampRefresh => Sys2Proof.Machine.execLampRefresh s
  | .lampWindowDiag chain iCode mCode second => Sys2Proof.Machine.execLampWindowDiag chain iCode mCode second s
  | .lampProofResult chain iCode mCode => Sys2Proof.Machine.execLampProofResult chain iCode mCode s
  | .lampConfirmStart => Sys2Proof.Machine.execLampConfirmStart s
  | .lampConfirmDone chain dark p1 p2 => Sys2Proof.Machine.execLampConfirmDone chain dark p1 p2 s
  | .lampRotCheck => Sys2Proof.Machine.execLampRotCheck s
  | .lampRotDone chain m1 m2 m3 => Sys2Proof.Machine.execLampRotDone chain m1 m2 m3 s
  | .lampRecordStore chain => Sys2Proof.Machine.execLampRecordStore chain s
  | .acSyncEdge t => Sys2Proof.Machine.execAcSyncEdge t s
  | .acLoss => Sys2Proof.Machine.execAcLoss s
  | .afeOffsetDone q => Sys2Proof.Machine.execAfeOffsetDone q s
  | .lampCompUpdate => Sys2Proof.Machine.execLampCompUpdate s
  | .shadingSettleDone => Sys2Proof.Machine.execShadingSettleDone s
  | .shadingDone => Sys2Proof.Machine.execShadingDone s
  | .lampAbsDone => Sys2Proof.Machine.execLampAbsDone s
  | .vrefTraceDone uv => Sys2Proof.Machine.execVrefTraceDone uv s
  | .calRunTimeout => Sys2Proof.Machine.execCalRunTimeout s
  | .calPeriodicStore => Sys2Proof.Machine.execCalPeriodicStore s
  | .calFlashWriteDone ok => Sys2Proof.Machine.execCalFlashWriteDone ok s
  | .dmaChainFetch ch => Sys2Proof.Machine.execDmaChainFetch ch s
  | .dmaWriteback ch e => Sys2Proof.Machine.execDmaWriteback ch e s
  | .dmaPaceTimer ch => Sys2Proof.Machine.execDmaPaceTimer ch s
  | .dmaReqWrite h ch value => Sys2Proof.Machine.execDmaReqWrite h ch value s
  | .dmaChannelDisable h ch => Sys2Proof.Machine.execDmaChannelDisable h ch s
  | .dmaChannelEnable h ch => Sys2Proof.Machine.execDmaChannelEnable h ch s
  | .dmaAbort h ch => Sys2Proof.Machine.execDmaAbort h ch s
  | .dmaErrClear h ch => Sys2Proof.Machine.execDmaErrClear h ch s
  | .dmaWdog ch => Sys2Proof.Machine.execDmaWdog ch s
  | .dmaChannelRestartDone ch => Sys2Proof.Machine.execDmaChannelRestartDone ch s
  | .netLinkUp p speed => Sys2Proof.Machine.execNetLinkUp p speed s
  | .netLinkDown p => Sys2Proof.Machine.execNetLinkDown p s
  | .netPortCfgWrite h p value => Sys2Proof.Machine.execNetPortCfgWrite h p value s
  | .netStore h => Sys2Proof.Machine.execNetStore h s
  | .netFrameDrop f => Sys2Proof.Machine.execNetFrameDrop f s
  | .pauseRx p quanta => Sys2Proof.Machine.execPauseRx p quanta s
  | .pauseExpire p => Sys2Proof.Machine.execPauseExpire p s
  | .pfcRx p quanta => Sys2Proof.Machine.execPfcRx p quanta s
  | .pfcXoffTx p prio occupancy => Sys2Proof.Machine.execPfcXoffTx p prio occupancy s
  | .arpRequest p src target => Sys2Proof.Machine.execArpRequest p src target s
  | .ndSolicit p src target => Sys2Proof.Machine.execNdSolicit p src target s
  | .icmpEcho p e data => Sys2Proof.Machine.execIcmpEcho p e data s
  | .ipFragment p key udpPort offset last data => Sys2Proof.Machine.execIpFragment p key udpPort offset last data s
  | .reasmTimeout key => Sys2Proof.Machine.execReasmTimeout key s
  | .qpEnable h session value => Sys2Proof.Machine.execQpEnable h session value s
  | .qpDisable h session => Sys2Proof.Machine.execQpDisable h session s
  | .roceWriteRx session ecnCe rkey addr data => Sys2Proof.Machine.execRoceWriteRx session ecnCe rkey addr data s
  | .roceReadRx session ecnCe rkey addr len => Sys2Proof.Machine.execRoceReadRx session ecnCe rkey addr len s
  | .roceBadRequest session k => Sys2Proof.Machine.execRoceBadRequest session k s
  | .roceNakRx session k => Sys2Proof.Machine.execRoceNakRx session k s
  | .roceAckTimeout session => Sys2Proof.Machine.execRoceAckTimeout session s
  | .cnpRx session => Sys2Proof.Machine.execCnpRx session s
  | .cnpRateRecover session => Sys2Proof.Machine.execCnpRateRecover session s
  | .timeSlewEnd => Sys2Proof.Machine.execTimeSlewEnd s
  | .ptpEventRx m at_ lat posn => Sys2Proof.Machine.execPtpEventRx m at_ lat posn s
  | .ptpTxTimestamp m at_ lat => Sys2Proof.Machine.execPtpTxTimestamp m at_ lat s
  | .ptpMsgTimer k => Sys2Proof.Machine.execPtpMsgTimer k s
  | .ptpAnnounceTimeout => Sys2Proof.Machine.execPtpAnnounceTimeout s
  | .lockstepMismatch pair => Sys2Proof.Machine.execLockstepMismatch pair s
  | .coreCheckpoint => Sys2Proof.Machine.execCoreCheckpoint s
  | .eccDoubleError r addr => Sys2Proof.Machine.execEccDoubleError r addr s
  | .hostWdogExpire => Sys2Proof.Machine.execHostWdogExpire s
  | .fieldWdogExpire => Sys2Proof.Machine.execFieldWdogExpire s
  | .recoveryL1Done b => Sys2Proof.Machine.execRecoveryL1Done b s
  | .fieldWarmRestart => Sys2Proof.Machine.execFieldWarmRestart s
  | .fieldWarmRestartDone => Sys2Proof.Machine.execFieldWarmRestartDone s
  | .level3Restart => Sys2Proof.Machine.execLevel3Restart s
  | .recoveryTimeout => Sys2Proof.Machine.execRecoveryTimeout s
  | .scrubPassDone t => Sys2Proof.Machine.execScrubPassDone t s
  | .flashVerify bad => Sys2Proof.Machine.execFlashVerify bad s
  | .flashReclaim => Sys2Proof.Machine.execFlashReclaim s
  | .faultLogFlush => Sys2Proof.Machine.execFaultLogFlush s
  | .telemetryTick session => Sys2Proof.Machine.execTelemetryTick session s
  | .hostPowerValid => Sys2Proof.Machine.execHostPowerValid s
  | .hostPowerLost => Sys2Proof.Machine.execHostPowerLost s
  | .fieldPowerValid => Sys2Proof.Machine.execFieldPowerValid s
  | .fieldPowerLost rail => Sys2Proof.Machine.execFieldPowerLost rail s
  | .nrstHFall => Sys2Proof.Machine.execNrstHFall s
  | .nrstHRise dramKept => Sys2Proof.Machine.execNrstHRise dramKept s
  | .nrstFFall => Sys2Proof.Machine.execNrstFFall s
  | .nrstFRise => Sys2Proof.Machine.execNrstFRise s
  | .thermalTrip side => Sys2Proof.Machine.execThermalTrip side s
  | .thermalRelease side => Sys2Proof.Machine.execThermalRelease side s
  | .fbusDip code => Sys2Proof.Machine.execFbusDip code s
  | .fbusRecover code durationUs => Sys2Proof.Machine.execFbusRecover code durationUs s
  | .supplyClear => Sys2Proof.Machine.execSupplyClear s
  | .fbusSurge code => Sys2Proof.Machine.execFbusSurge code s
  | .acDip => Sys2Proof.Machine.execAcDip s
  | .bootComplete dramFull fallback => Sys2Proof.Machine.execBootComplete dramFull fallback s
  | .bootRetry => Sys2Proof.Machine.execBootRetry s
  | .wakeComplete t => Sys2Proof.Machine.execWakeComplete t s
  | .wakeStepFail => Sys2Proof.Machine.execWakeStepFail s
  | .lampPreload => Sys2Proof.Machine.execLampPreload s
  | .skmReplyTimeout h opcode => Sys2Proof.Machine.execSkmReplyTimeout h opcode s
  | .retrainSpareWaitTimeout => Sys2Proof.Machine.execRetrainSpareWaitTimeout s
  | .fwCommitDone => Sys2Proof.Machine.execFwCommitDone s
  | .calRestoreDone => Sys2Proof.Machine.execCalRestoreDone s
  | .lampTestDone chain dark p1 p2 => Sys2Proof.Machine.execLampTestDone chain dark p1 p2 s
  | .ptpGeneralRx m => Sys2Proof.Machine.execPtpGeneralRx m s
  | .rocChange side outside => Sys2Proof.Machine.execRocChange side outside s
  | .pgHigh side => Sys2Proof.Machine.execPgHigh side s
  | .bootRefused => Sys2Proof.Machine.execBootRefused s
  | .writesArrived ch => Sys2Proof.Machine.execWritesArrived ch s

end Sys2Proof.Machine
end

