-- ==== Sys2Proof/Safety.lean ====
section
/-! DEFINITION. What counts as a safe run, and the vocabulary of the claims: no step stops, the memories keep their
form, and `Quiet` says that a command has done nothing beyond sending, answering and queueing events. -/

namespace Sys2Proof.Machine

open Sys2Proof

/-- A step that goes on. -/
def Runs (s : State) : Prop := ∃ t, step s = .next t

/-- The DRAM keeps its canonical form (R333). -/
def MemInv (s : State) : Prop := Memory.wf s.mem = true

/-- A session without what sending, answering and queueing events changes: its port, its reply cache and its events. -/
def Session.base (x : Session) : Session :=
  { x with port := .eth0, openLive := false, cache := [], evNext := 0, evq := [], evLost := 0 }

/-- A job without the events it keeps for its next owner. -/
def Job.base (j : Job) : Job := { j with evq := [] }

/-- A link direction without what sending frames changes: the next SEQ and the frames not acknowledged. -/
def Link.base (l : Link) : Link := { l with txSeq := 0, retry := [] }

/-- The Bezel link without its CMD and EVENT traffic: of what is staged, the STROKE frames remain. -/
def Bezel.base (b : Bezel) : Bezel :=
  { b with f2h := b.f2h.base, h2f := b.h2f.base, stage := b.stage.filter (fun f => f.typ == 1), wait := [], cmds := []
           cmdTag := 0 }

/-- `d'` differs from `d` in what it has sent, answered and queued as events, in its CMD and EVENT frames and in the
counters of the NET page, and in nothing else: every parameter word outside the NET page reads as before. -/
structure Quiet (d d' : Dev) : Prop where
  now : d'.now = d.now
  frees : d'.frees = d.frees
  mode : d'.mode = d.mode
  prev : d'.prev = d.prev
  trans : d'.trans = d.trans
  hold : d'.hold = d.hold
  shd : d'.regs.shd = d.regs.shd
  held : d'.regs.held = d.regs.held
  heldBy : d'.regs.heldBy = d.regs.heldBy
  com : d'.regs.com = d.regs.com
  sn : d'.regs.sn = d.regs.sn
  act : d'.regs.act = d.regs.act
  sess : d'.sess.map (fun p => (p.1, p.2.base)) = d.sess.map (fun p => (p.1, p.2.base))
  opens : d'.opens = d.opens
  jobs : d'.jobs.map Job.base = d.jobs.map Job.base
  ops : d'.ops = d.ops
  bzl : d'.bzl.base = d.bzl.base
  seq : d'.seq = d.seq
  afe : d'.afe = d.afe
  monA : d'.monA = d.monA
  monB : d'.monB = d.monB
  clamp : d'.clamp = d.clamp
  pages : d'.pages = d.pages
  lamp : d'.lamp = d.lamp
  mot : d'.mot = d.mot
  cox : d'.cox = d.cox
  cls : d'.cls = d.cls
  cal : d'.cal = d.cal
  dma : d'.dma = d.dma
  qps : d'.net.qps = d.net.qps
  reasm : d'.net.reasm = d.net.reasm
  record : d'.net.record = d.net.record
  keys : d'.net.keys = d.net.keys
  tim : d'.tim = d.tim
  flt : d'.flt = d.flt
  pwr : d'.pwr = d.pwr
  fsram : d'.fsram = d.fsram

/-- The command completes: the queue and the DRAM stay as they are, and what it makes of the device satisfies `P`. -/
def Does (c : Instr) (s : State) (P : Dev → Prop) : Prop := ∃ d, exec c s = .next { s with d := d } ∧ P d

/-- A request that reaches its opcode's own checks (R51): SKM is served, the runtime is not restarting (R393), neither REPLY nor EVENT is set, the session is open
and bound to the source, the header is good, no reserved bit is set, and the session's replay cache holds no reply to this SEQ. -/
def Ready (h : Req) (d : Dev) : Prop :=
  d.served = true ∧ d.flt.recs.all (fun x => !ofRuntime x) = true ∧ h.flags.getLsbD 0 = false ∧ h.flags.getLsbD 2 = false ∧ badHeader h = false ∧ h.rsv = false ∧
    ∃ x, d.ses? h.session = some x ∧ h.src = x.ep ∧ x.cache.find? (fun c => c.seq == h.seq) = none

/-- The session's newest cached reply (R56) is this one. -/
def Replied (d : Dev) (h : Req) (op st : Nat) (body : List Byte) : Prop :=
  (d.ses? h.session).bind (fun x => x.cache.head?) = some ⟨h.seq, op, st, body⟩

/-- The bytes a PARAM_WRITE answers when every word is accepted (R72). -/
abbrev wroteAll : List Byte := [0xFF, 0xFF, 0xFF, 0xFF]

/-- A PARAM_WRITE of one word, sent by session `n`, passes its checks (R52, R72, R73). -/
def Writable (d : Dev) (n a : Nat) (v : Word) : Prop :=
  d.wordCheck n [⟨0, 0, a, a, v, true⟩] ⟨0, 0, a, a, v, true⟩ = stOk

/-- The entry a MOVE_QUEUE of session `n` adds to its group: it starts at the planned end, and REL adds to it (R247). -/
def Dev.entryOf (d : Dev) (n : Nat) (m : MoveReq) : Move :=
  let start := (maskAxes m.mask).map (fun a => (a, d.planned m.group a))
  ⟨m.moveId, m.vmax, m.acc, m.dec, m.mflags.getLsbD 1,
    (start.zip m.targets).map (fun x => (x.1.1, if m.mflags.getLsbD 0 then x.1.2 + x.2 else x.2)), start, n⟩

/-- A written word that does something beyond holding its value (R72): DEV_CTRL, the converters' and references' controls,
the ports', the clock's and the queue pairs' controls, the client rings and the DMA channels' words. -/
def hasEffect (a : Nat) : Bool :=
  a == Reg.DEV_CTRL || a == Reg.AFE_REF_CTRL || a == Reg.AFE_OW_CTRL || a == Reg.MON_A_REF || a == Reg.MON_B_REF ||
    a == Reg.NET_CTRL || a == Reg.NET_P_CFG 0 || a == Reg.NET_P_CFG 1 || a == Reg.NET_SG_CFG ||
    a == Reg.TIM_PTP_CTRL || (pageSes a).isSome || (netSes a).isSome || (ixOf (Reg.DMA_CH_CTRL 0) 0x20 16 a).isSome

/-- A MOVE_QUEUE of session `n` passes its checks; its group may still be full (R247, R248). -/
structure MoveOk (d : Dev) (n : Nat) (m : MoveReq) : Prop where
  mode : d.mode ≠ .standby ∧ d.mode ≠ .wake ∧ d.mode ≠ .reset ∧ d.mode ≠ .safe
  bits : m.mflags &&& 0xFFFC#16 = 0 ∧ m.mask &&& 0xF000#16 = 0
  group : m.group < 4 ∧ m.group < d.mot.groups.length
  enabled : d.rf (Reg.MOT_G_CFG m.group) 0 0 = 1
  homing : ∀ a ∈ d.groupAxes m.group, (d.ax a).home = none
  axes : maskAxes m.mask ≠ [] ∧ ∀ a ∈ maskAxes m.mask, a ∈ d.groupAxes m.group
  known : m.mflags.getLsbD 0 = true ∨ ∀ a ∈ maskAxes m.mask, (d.ax a).valid = true
  targets : m.targets.length = (maskAxes m.mask).length
  rates : 0 < m.vmax ∧ m.vmax ≤ 5000000 ∧ m.acc ≠ 0 ∧ m.dec ≠ 0 ∧ d.overVlim (d.entryOf n m) m.vmax = false
  range : ∀ t ∈ (d.entryOf n m).target, -(2 ^ 63) ≤ t.2 ∧ t.2 < 2 ^ 63
  fresh : ∀ y ∈ (d.grp m.group).entries, y.id ≠ m.moveId

/-- The newest entry of the fault log has this class, code and unit (R410, R411). -/
def Logged (d : Dev) (cls code unit : Nat) : Prop :=
  ∃ e, d.flt.log.head? = some e ∧ e.cls = cls ∧ e.code = code ∧ e.unit = unit

/-- A frame of direction `r` that its receiver takes (R19, R20): undamaged, not discarded, in sequence, and no NAK. -/
def FrameIn (d : Dev) (r : Dir) (f : Frame) : Prop :=
  frameGood f = true ∧ f.nak = false ∧ frameBad r f = false ∧ f.seq = (d.bzlLink r).rxNext

/-- How many waiting CMD frames go out behind `n` frames of the retry buffer, which holds at most 64 (R21). -/
def Bezel.waitRoom (b : Bezel) (n : Nat) : Nat := if b.h2f.up then min b.wait.length (64 - n) else 0

/-- The frame has been taken (R20, R21): its number is used, it acknowledges frames of the other direction, and on the
host's side the CMD frames that waited, oldest first, go out as far as the retry buffer has room. `re` is what the device
sent before them. -/
structure FrameTaken (d d' : Dev) (r : Dir) (f : Frame) (re : List Out) : Prop where
  link : d'.bzlLink r = { d.bzlLink r with
    await := false, rxNext := if f.typ = 0 then (d.bzlLink r).rxNext else ((d.bzlLink r).rxNext + 1) % 65536 }
  sent : ∃ sent : List Frame,
    (d'.bzlLink (otherDir r)).retry = ((d.bzlLink (otherDir r)).acked f.ack).retry ++ sent ∧
    sent.length = (match r with
      | .f2h => d.bzl.waitRoom (d.bzl.h2f.acked f.ack).retry.length
      | .h2f => 0) ∧
    d'.bzl.wait = d.bzl.wait.drop sent.length ∧
    sent.map (fun x => (x.typ, x.tag, x.payload)) = (d.bzl.wait.take sent.length).map (fun x => (x.typ, x.tag, x.payload)) ∧
    (∀ x ∈ sent, frameGood x = true) ∧
    d'.tx = (sent.map (Out.bezel .h2f)).reverse ++ re.reverse ++ d.tx

/-- A CMD frame has been taken and its REPLY given to the field side's transmitter (R19). -/
def CmdTaken (d d' : Dev) (f : Frame) : Prop :=
  ∃ e, FrameTaken d e .h2f f [] ∧ e = { d with bzl := e.bzl } ∧ d' = e.fieldFrame (newFrame 5 f.tag [])

/-- An offset has been taken (R377): slewed, or stepped beyond TIM_STEP_THR with no job held. -/
def OffsetTaken (d d' : Dev) (o : Int) : Prop :=
  ((d.tim.slew + o).natAbs ≤ d.rd Reg.TIM_STEP_THR * 2 ^ 32 ∨ d.jobHeld = true →
    d'.tim.slew = d.tim.slew + o ∧ d'.tim.cnt = d.tim.cnt ∧ d'.rd Reg.TIM_STEP_CNT = d.rd Reg.TIM_STEP_CNT) ∧
  (d.rd Reg.TIM_STEP_THR * 2 ^ 32 < (d.tim.slew + o).natAbs → d.jobHeld = false →
    d'.tim.slew = 0 ∧ d'.tim.cnt = ((d.tim.cnt : Int) + (d.tim.slew + o)).toNat % 2 ^ 96 ∧
    d'.rd Reg.TIM_STEP_CNT = min 0xFFFFFFFF (d.rd Reg.TIM_STEP_CNT + 1))

/-- The servo has taken the offset of a Sync received at `t2` with its origin (R381): the offset is reported, the lock
judged, TIM_INCR set within its range (a free value, log 24), and the proportional term taken as an offset. -/
structure ServoTook (d d' : Dev) (t2 origin : Int) : Prop where
  ofs : d'.rd Reg.TIM_PTP_OFS = satNs (d.fromMaster t2 origin)
  tim : d'.tim = { d.tim with
    cnt := d'.tim.cnt, slew := d'.tim.slew, incr := d'.tim.incr, src := 2, ptp := 9, sync := none, t21 := t2 - origin
    good := if (d.fromMaster t2 origin).natAbs < d.rd Reg.TIM_PTP_LOCK_THR * 2 ^ 32 then min 16 (d.tim.good + 1) else 0
    lock := decide ((d.fromMaster t2 origin).natAbs < d.rd Reg.TIM_PTP_LOCK_THR * 2 ^ 32) &&
      (d.tim.lock || decide (15 ≤ d.tim.good)) }
  incr : 21968242323 ≤ d'.tim.incr ∧ d'.tim.incr ≤ 22012222789
  adj : d'.rd Reg.TIM_ADJ_CNT = min 0xFFFFFFFF (d.rd Reg.TIM_ADJ_CNT + 1)
  off : OffsetTaken d d' (-(d.fromMaster t2 origin * (d.rf Reg.TIM_PTP_SERVO 31 16 : Nat) / 65536))

/-- A PTP event message has been received in time: counted, and nothing but the clock's state and words changed (R380). -/
def PtpRx (d d' : Dev) : Prop :=
  d'.rd Reg.TIM_PTP_RX_CNT = min 0xFFFFFFFF (d.rd Reg.TIM_PTP_RX_CNT + 1) ∧
    Quiet { d with tim := d'.tim, regs := d'.regs, frees := d'.frees } d'

/-- A PTP event message's transmission has been timestamped in time (R380). -/
def PtpTx (d d' : Dev) : Prop :=
  d'.rd Reg.TIM_PTP_TX_CNT = min 0xFFFFFFFF (d.rd Reg.TIM_PTP_TX_CNT + 1) ∧
    Quiet { d with tim := d'.tim, regs := d'.regs } d'

/-- A PTP message has left, of the domain and transport of TIM_PTP_CTRL and with the clockIdentity, an Announce with the
data set, or waits where its port cannot send (R379). -/
def PtpSent (d d' : Dev) (kind seq : Nat) (t : Int) : Prop :=
  (d.canSend d.ptpPort 0 = true → d'.tx = .ptp kind seq t
    ⟨d.rf Reg.TIM_PTP_CTRL 15 8, d.rf Reg.TIM_PTP_CTRL 28 28 == 1, d.clockId, if kind = 0xB then d.ownDs else []⟩ :: d.tx) ∧ (d.canSend d.ptpPort 0 = false → d'.tx = d.tx)

/-- The two proof pulses of a confirmation or a LAMP_TEST (R222, R224): 1,250 cycles each, 100 µs apart, counted. -/
structure TestPulses (d d' : Dev) (n bound : Nat) : Prop where
  pulses : ∃ t, d.now ≤ t ∧ t < d.now + bound ∧ Out.lampGate n t (t + 1250) ∈ d'.tx ∧
    Out.lampGate n (t + 78125) (t + 79375) ∈ d'.tx
  count : d'.rd Reg.LMP_PROOF_CNT = min 0xFFFFFFFF (d.rd Reg.LMP_PROOF_CNT + 2)

/-- The three dwells of a wear rotation, 2.0 ms each (R225): the present pattern, every qualifying group one place on, the
present pattern again. -/
def Dwells (d d' : Dev) (n : Nat) : Prop :=
  ∃ t1 t2 t3, d.now ≤ t1 ∧ t1 + msCyc 2 ≤ t2 ∧ t2 + msCyc 2 ≤ t3 ∧
    d'.tx = [.lampGate n t3 (t3 + msCyc 2), .lampShift n (shiftBits d.regs.act n (d.level n) (d.rots n)),
      .lampGate n t2 (t2 + msCyc 2), .lampShift n (shiftBits d.regs.act n (d.level n) (d.rotNext n)),
      .lampGate n t1 (t1 + msCyc 2)] ++ d.tx

/-- Whether the other level of ENCe_A, or of ENCe_B where `b` is set, is an edge by which A leads B (R238). -/
def leads (b : Bool) (ab : Bool × Bool) : Bool := if b then ab.1 != ab.2 else ab.1 == ab.2

/-- The cores that a CAL_RUN of ADC_CORE names, but for the retired ones (R130, R304). -/
def Dev.coresNamed (d : Dev) (u : Nat) : List Nat :=
  (unitsOf u 68).filter (fun k => d.afe.quads.all (fun q => !q.retired.contains k))

/-- The pending results a CAL_APPLY names: of each unit the newest, or the newest of the epoch (R304, R324). -/
def Dev.pendNamed (d : Dev) (k u e : Nat) : List CalRec :=
  (unitsNamed k u).filterMap (fun n => d.cal.pend.reverse.find? (fun r =>
    r.kind == k && r.unit == n && (e == 0 || r.epoch.toNat == e)))

/-- The records of the store a CAL_RESTORE names (R304, R329). -/
def Dev.storeNamed (d : Dev) (k u e : Nat) : List CalRec :=
  (unitsNamed k u).filterMap (fun n => d.cal.store.reverse.find? (fun r =>
    r.kind == k && r.unit == n && k != 0xFFFE && (e == 0 || r.epoch.toNat == e)))

/-- The kinds a CAL_STORE names: 0xFFFF is every kind (R62). -/
def kindsNamed (k : Nat) : List Nat := if k = 0xFFFF then List.range' 1 8 else [k]

/-- The records a CAL_STORE writes: the results in force of the kinds and units it names (R328). -/
def Dev.toStore (d : Dev) (k u : Nat) : List CalRec :=
  (kindsNamed k).flatMap (fun j => ((kindUnits j).filter (fun n => u == 0xFFFF || n == u)).filterMap (d.inForce j))

/-- The phases whose C_p a LAMP_COMP_UPDATE moves: by CAL_COMP_STEP or more from the latest one (R316). -/
def Dev.compMoved (d : Dev) : List Nat :=
  (List.range (nphOf d.regs.act)).filter (fun p => decide (d.rd Reg.CAL_COMP_STEP ≤
    (((d.compTarget (d.ratioMean p d.ratio)).1 : Int) - d.latest (Reg.PIX_LCOMP p)).natAbs))

/-- The RATIO that the thermal model gives a phase at WAKE: none without a VALID slot, a record, KT and LAMPT (R436). -/
def Dev.preloadRatio (d : Dev) (p : Nat) : Option Int :=
  if bit d.cal.valid (d.slotOf p) ∧ (aget d.cal.monRec (d.slotOf p)).isSome ∧ sext 32 (d.rd (Reg.PWR_LAMP_KT p)) ≠ 0 then
    (d.lampT p).map (fun t =>
      16384 + 16384 * sext 32 (d.rd (Reg.PWR_LAMP_KT p)) * (t - sext 16 (d.tag (d.slotOf p) 10 2)) / 160000)
  else none

/-- What has been sent once the next hop of a message on a port is resolved (R366, R367). -/
def Dev.resolved (d : Dev) (p : NetPort) (o : Out) : List Out := (d.resolve p ((d.ipDst o).map (d.nextHop p))).tx

/-- A PTP event message of the device's domain and transport (R379). -/
abbrev Dev.ptpEv (d : Dev) (m : PtpMsg) : PtpEvent :=
  ⟨d.rf Reg.TIM_PTP_CTRL 15 8, d.rf Reg.TIM_PTP_CTRL 28 28 == 1, m⟩

/-- A PTP general message of the device's domain and transport (R379). -/
abbrev Dev.ptpGen (d : Dev) (m : PtpGeneral) : PtpInfo :=
  ⟨d.rf Reg.TIM_PTP_CTRL 15 8, d.rf Reg.TIM_PTP_CTRL 28 28 == 1, m⟩

/-- A scrub pass has ended: only counters and the free values have changed (R403). -/
def Scrubbed (d d' : Dev) : Prop :=
  d.rd Reg.FLT_SCRUB_CORR_CNT ≤ d'.rd Reg.FLT_SCRUB_CORR_CNT ∧ Quiet { d with regs := d'.regs, frees := d'.frees } d' ∧
    d'.tx = d.tx

/-- The commands that may store to the DRAM: the engines and queue pairs that write it, the writes of registers that can
abort a DMA channel, the COMMIT that moves the end of the shared region, and the losses of the host side's supply. -/
def storesToDram : Instr → Bool
  | .dmaWriteback .. | .dmaWdog .. | .dmaAbort .. | .dmaReqWrite .. | .dmaChannelDisable .. | .dmaChannelEnable ..
  | .paramWrite .. | .pageSessionWordWrite .. | .qpEnable .. | .qpDisable .. | .commit .. | .roceWriteRx ..
  | .hostPowerLost | .nrstHRise .. => true
  | _ => false

end Sys2Proof.Machine
end

