-- ==== Sys2Proof/Certificates/Slice0/Obligations.lean ====
section
/-! DEFINITION. The statements for the provers. -/

open Sys2Proof Sys2Proof.Machine

/-! The block itself. -/

/-- A step runs the command at the front of the queue, on the queue's rest (R82; first in, first out is the model's
queue). -/
def Obligations.StepRunsFront : Prop :=
  ∀ (c : Instr) (rest : List Instr) (s : State),
    step { s with pending := c :: rest } = exec c { s with pending := rest }

/-- With nothing waiting, one CLK_ADC tick passes (log 2, the model's choice): with no slew under way the time counter
advances by TIM_INCR and the field replica by its own increment (R375, R33), each modulo 2⁹⁶, and nothing else changes. -/
def Obligations.IdleStepTicks : Prop :=
  ∀ s : State, s.pending = [] → s.d.tim.slew = 0 →
    ∃ t, step s = .next t ∧ t.pending = [] ∧ t.mem = s.mem ∧
      t.d = { s.d with
        now := s.d.now + 4
        tim := { s.d.tim with
          cnt := (s.d.tim.cnt + s.d.tim.incr) % 2 ^ 96
          rep := (s.d.tim.rep + s.d.tim.repIncr) % 2 ^ 96 } }

/-- Every command completes in every state, and none touches the commands that wait behind it. -/
def Obligations.EveryCommandCompletes : Prop :=
  ∀ (c : Instr) (s : State), ∃ t, exec c s = .next t ∧ t.pending = s.pending

/-- The memory's canonical form is kept by every step. -/
def Obligations.MemoryFormKept : Prop :=
  ∀ s t : State, MemInv s → step s = .next t → MemInv t

/-- The memory has its canonical form at reset. -/
def Obligations.MemoryFormAtReset : Prop :=
  MemInv State.reset

/-! Requests that answer. -/

/-- PING, KEEPALIVE, STATUS_GET and FAULT_LOG_READ answer and change nothing else (R62, R54, R66, R413); STATUS_GET reads
the host's temperature anew, which is a free value (the model's choice, log 6). -/
def Obligations.ReadOnlyRequests : Prop :=
  (∀ (h : Req) (data : List Byte) (s : State), s.d.served = true → h.flags.getLsbD 0 = false →
    h.flags.getLsbD 2 = false → h.session = 0 → badHeader h = false → h.rsv = false →
    Does (.ping h data) s fun d => Quiet s.d d ∧ d.sess = s.d.sess ∧
      (h.flags.getLsbD 1 = true → s.d.canSend h.port 1 = true → data.length ≤ s.d.partMax h.port h.src →
        d.tx = .skm h.src h.port (mkPacket 1 h.seq 0 1 stOk data) ::
          s.d.resolved h.port (.skm h.src h.port (mkPacket 1 h.seq 0 1 stOk data)))) ∧
  (∀ (h : Req) (s : State), Ready h s.d →
    Does (.keepalive h) s fun d => Quiet s.d d ∧ Replied d h 4 stOk []) ∧
  (∀ (h : Req) (s : State), Ready h s.d →
    Does (.statusGet h) s fun d => Quiet s.d.sampleHost d ∧
      ∃ b, Replied d h 0x21 stOk b ∧ b.length = 64 ∧ b.take 8 = be 4 s.d.modeWord ++ be 4 s.d.hold ∧
        (b.drop 8).take 6 = be 6 s.d.seq.strokeNo) ∧
  (∀ (h : Req) (first count : Nat) (s : State), Ready h s.d → 1 ≤ count → count ≤ 127 →
    Does (.faultLogRead h first count) s fun d => Quiet s.d d ∧
      ∃ (i : Nat) (es : List FEntry), Replied d h 0xF0 stOk (be 4 i ++ be 2 es.length ++ be 2 0 ++ es.flatMap FEntry.bytes) ∧
        es.length ≤ count ∧ (∀ e ∈ es, e ∈ s.d.flt.log ∧ first ≤ e.index) ∧ (s.d.flt.next ≤ first → i = first))

/-- SESSION_OPEN takes the lowest free number: the new session is bound to the source, its queue and cache are empty,
its words hold their reset values, and no other session changes (R53, R54, R207). -/
def Obligations.SessionOpens : Prop :=
  ∀ (h : Req) (ka : Nat) (tag : Word) (n : Nat) (s : State), s.d.served = true → h.flags.getLsbD 0 = false →
    h.flags.getLsbD 2 = false → h.session = 0 → badHeader h = false → h.rsv = false → s.d.openRecord h tag = none → s.d.freeSlot = some n →
    (Does (.sessionOpen h ka 0 tag) s fun d =>
      (∃ x, d.ses? n = some x ∧ x.ep = h.src ∧ x.port = h.port ∧ x.cache = [] ∧ x.evq = [] ∧
        x.kaMs = if ka = 0 then s.d.rd Reg.NET_SKM_KA_TMO else max 100 (min 60000 ka)) ∧
      (∀ m, m ≠ n → d.ses? m = s.d.ses? m) ∧ (d.qp n).st = 0 ∧
      (∀ a, ofSession n a = true → d.rd a = resetWord a) ∧
      (∀ a, a / 65536 ≠ 12 → ofSession n a = false → d.rd a = s.d.rd a) ∧
      d.mode = s.d.mode ∧ d.hold = s.d.hold ∧ d.jobs = s.d.jobs ∧ d.ops = s.d.ops ∧ d.seq = s.d.seq ∧ d.mot = s.d.mot ∧
      d.lamp = s.d.lamp ∧ d.cal = s.d.cal ∧ d.dma = s.d.dma ∧ d.tim = s.d.tim ∧ d.flt = s.d.flt ∧ d.fsram = s.d.fsram) ∧
    (∀ token, token ≠ 0 → s.d.tokenJob token = none →
      Does (.sessionOpen h ka token tag) s fun d => Quiet s.d d ∧ d.sess = s.d.sess) ∧
    (∀ token j, token ≠ 0 → s.d.tokenJob token = some j →
      Does (.sessionOpen h ka token tag) s fun d =>
        (∃ x, d.ses? n = some x ∧ x.ep = h.src) ∧ ∃ j' ∈ d.jobs, j'.token = j.token ∧ j'.owner = some n)

/-- SESSION_CLOSE and SESSION_EXPIRE free the session's slot: no job keeps it as owner, its queue pair is in RESET, every
other session, the mode, the hold causes and the jobs' number stay; an expiry is counted and logged, and the other
sessions only take its event (R54, R55, R78, R371). -/
def Obligations.SessionEnds : Prop :=
  (∀ (h : Req) (s : State), Ready h s.d →
    Does (.sessionClose h) s fun d =>
      d.ses? h.session = none ∧ (∀ m, m ≠ h.session → d.ses? m = s.d.ses? m) ∧
      (∀ j ∈ d.jobs, j.owner ≠ some h.session) ∧ d.jobs.length = s.d.jobs.length ∧ (d.qp h.session).st = 0 ∧
      (∀ a, a / 65536 ≠ 12 → d.rd a = s.d.rd a) ∧
      d.mode = s.d.mode ∧ d.hold = s.d.hold ∧ d.seq = s.d.seq ∧ d.tim = s.d.tim ∧ d.flt = s.d.flt ∧ d.fsram = s.d.fsram) ∧
  (∀ (n : Nat) (s : State), s.d.served = true → (s.d.ses? n).isSome = true →
    Does (.sessionExpire n) s fun d =>
      d.ses? n = none ∧ (∀ m, m ≠ n → (d.ses? m).map Session.base = (s.d.ses? m).map Session.base) ∧
      (∀ j ∈ d.jobs, j.owner ≠ some n) ∧ d.jobs.length = s.d.jobs.length ∧ (d.qp n).st = 0 ∧
      d.rd Reg.NET_SKM_EXPIRE_CNT = min 0xFFFFFFFF (s.d.rd Reg.NET_SKM_EXPIRE_CNT + 1) ∧
      (∃ e, d.flt.log.head? = some e ∧ e.cls = 0x10 ∧ e.code = 1 ∧ e.unit = n ∧ e.index = s.d.flt.next) ∧
      (∀ a, a / 65536 ≠ 12 → d.rd a = s.d.rd a) ∧
      d.mode = s.d.mode ∧ d.hold = s.d.hold ∧ d.seq = s.d.seq ∧ d.tim = s.d.tim ∧ d.fsram = s.d.fsram)

/-- The event queue: EVENT_ACK removes the acknowledged event and no other, EVENT_RESEND sends an unacknowledged event
again unchanged, and REPLY_CACHE_EXPIRE forgets one reply (R79, R56). -/
def Obligations.EventsAndReplies : Prop :=
  (∀ (h : Req) (x : Session) (s : State), s.d.served = true → s.d.ses? h.session = some x → h.src = x.ep → h.rsv = false →
    x.evLost = 0 →
    Does (.eventAck h) s fun d => Quiet s.d d ∧
      (∃ y, d.ses? h.session = some y ∧ y.cache = x.cache ∧
        y.evq.map (fun e => e.seq) = (x.evq.filter (fun e => !(e.sent && e.seq == h.seq))).map (fun e => e.seq)) ∧
      ∀ m, m ≠ h.session → d.ses? m = s.d.ses? m) ∧
  (∀ (n : Nat) (q : Word) (x : Session) (e : Ev) (s : State), s.d.served = true → s.d.ses? n = some x →
    x.evq.find? (fun e => e.sent && e.seq == q) = some e →
    Does (.eventResend n q) s fun d => Quiet s.d d ∧ d.sess = s.d.sess ∧
      (s.d.canSend x.port 1 = true → d.tx = .skm x.ep x.port (e.packet n) ::
        s.d.resolved x.port (.skm x.ep x.port (e.packet n)))) ∧
  (∀ (n : Nat) (q : Word) (s : State),
    Does (.replyCacheExpire n q) s fun d => d = { s.d with sess := d.sess } ∧
      (∀ m, m ≠ n → d.ses? m = s.d.ses? m) ∧
      d.ses? n = (s.d.ses? n).map fun x =>
        { x with cache := x.cache.filter (fun c => c.seq != q), openLive := x.openLive && x.openSeq != q })

/-- TELEMETRY_SUBSCRIBE sets the session's period and mask, and TELEMETRY_TICK counts its records (R407, R408). A datagram that row 1 of R51 stops is counted and dropped; a request whose reply is late is answered TIMEOUT and has
no effect (R51, R81). -/
def Obligations.TelemetryAndLateRequests : Prop :=
  (∀ (h : Req) (period : Nat) (mask : Word) (s : State), Ready h s.d →
    (period = 0 ∨ 10 ≤ period ∧ period ≤ 10000 ∧ mask ≠ 0 ∧ mask.toNat < 1024) →
    Does (.telemetrySubscribe h period mask) s fun d => Quiet { s.d with sess := d.sess } d ∧
      Replied d h 0xA0 stOk [] ∧ (∀ m, m ≠ h.session → d.ses? m = s.d.ses? m) ∧
      ∃ x, d.ses? h.session = some x ∧ x.telPeriod = period ∧ x.telMask = if period = 0 then 0 else mask.toNat) ∧
  (∀ (h : Req) (period : Nat) (mask : Word) (s : State), Ready h s.d →
    (1 ≤ period ∧ period ≤ 9 ∨ 10000 < period ∨ period ≠ 0 ∧ (mask = 0 ∨ 1024 ≤ mask.toNat)) →
    Does (.telemetrySubscribe h period mask) s fun d => Quiet s.d d ∧ Replied d h 0xA0 stBadParam []) ∧
  (∀ (n : Nat) (x : Session) (s : State), s.d.served = true → s.d.ses? n = some x → x.telPeriod ≠ 0 →
    Does (.telemetryTick n) s fun d =>
      (∃ y, d.ses? n = some y ∧ y.telSeq = (x.telSeq + 1) % 2 ^ 32 ∧ y.evNext = x.evNext + 1 ∧ y.evq = x.evq) ∧
      (∀ m, m ≠ n → d.ses? m = s.d.ses? m) ∧ d.mode = s.d.mode ∧ d.hold = s.d.hold ∧ d.regs.sn = s.d.regs.sn ∧
      d.jobs = s.d.jobs ∧ d.seq = s.d.seq ∧ d.mot = s.d.mot ∧ d.tim = s.d.tim ∧ d.flt = s.d.flt ∧
      ∀ a, a / 65536 ≠ 12 → a ≠ Reg.FLT_TELEM_SKIP_CNT → d.rd a = s.d.rd a) ∧
  (∀ (src : Endpoint) (port : NetPort) (bytes : List Byte) (s : State), s.d.served = true →
    (bytes.length < 20 ∨ getBe bytes 0 1 ≠ 0xA7 ∨
      crc32c (bytes.take (bytes.length - 4)) ≠ w32 (getBe bytes (bytes.length - 4) 4)) →
    Does (.skmDatagramReject src port bytes) s fun d => Quiet s.d d ∧ d.sess = s.d.sess ∧ d.tx = s.d.tx ∧
      d.rd Reg.NET_SKM_CRC_DROP_CNT = min 0xFFFFFFFF (s.d.rd Reg.NET_SKM_CRC_DROP_CNT + 1)) ∧
  (∀ (h : Req) (op : Nat) (s : State), Ready h s.d → opcodes.contains op = true → op ≠ 1 → op ≠ 2 → s.d.dma.fences = [] →
    Does (.skmReplyTimeout h op) s fun d => Quiet s.d d ∧ Replied d h op stTimeout [])

/-- KEY_PROVISION stores the key and answers the first 4 bytes of the HMAC of DEV_UID under it; a key of zeros is refused
with ZERO and changes nothing (R64). The firmware update (R65): FW_BEGIN opens it for its session, FW_BLOCK stores bytes of the image, FW_COMMIT starts the
verification, and FW_COMMIT_DONE ends it: an image that verifies runs from the next RESET. -/
def Obligations.KeyAndFirmware : Prop :=
  (∀ (h : Req) (key : List Byte) (s : State), Ready h s.d → (s.d.mode = .standby ∨ s.d.mode = .idle) →
    s.d.jobHeld = false → s.d.pages.list = [] → key.any (· != 0) = true →
    Does (.keyProvision h 0 key) s fun d =>
      Quiet { s.d with pages := { s.d.pages with key := some key } } d ∧
      Replied d h 0xB0 stOk ((hmac key (be 8 Config.devUid.toNat)).take 4)) ∧
  (∀ (h : Req) (key : List Byte) (s : State), Ready h s.d → (s.d.mode = .standby ∨ s.d.mode = .idle) →
    s.d.jobHeld = false → s.d.pages.list = [] → key.all (· == 0) = true →
    Does (.keyProvision h 0 key) s fun d => Quiet s.d d ∧ Replied d h 0xB0 stZero []) ∧
  (∀ (h : Req) (len : Nat) (s : State), Ready h s.d → s.d.pwr.fw = none →
    Does (.fwBegin h len) s fun d =>
      Quiet { s.d with pwr := { s.d.pwr with fw := some (h.session, len), fwImg := [] } } d ∧ Replied d h 0xC0 stOk []) ∧
  (∀ (h : Req) (len ofs : Nat) (data : List Byte) (s : State), Ready h s.d → s.d.pwr.fw = some (h.session, len) →
    s.d.pwr.fwBusy = false → ofs + data.length ≤ len →
    Does (.fwBlock h ofs data) s fun d =>
      Quiet { s.d with pwr := { s.d.pwr with fwImg := d.pwr.fwImg } } d ∧ Replied d h 0xC1 stOk [] ∧
      (∀ i, i < data.length → mget d.pwr.fwImg (ofs + i) = data.getD i 0) ∧
      (∀ a, a < ofs ∨ ofs + data.length ≤ a → mget d.pwr.fwImg a = mget s.d.pwr.fwImg a)) ∧
  (∀ (h : Req) (len : Nat) (s : State), Ready h s.d → s.d.pwr.fw = some (h.session, len) → s.d.pwr.fwBusy = false →
    Does (.fwCommit h) s fun d =>
      Quiet { s.d with pwr := { s.d.pwr with fwBusy := true }, ops := s.d.ops ++ [⟨.fwCommit, h.session, h.seq⟩] } d ∧
      Replied d h 0xC2 stAccepted []) ∧
  (∀ (n len : Nat) (s : State), s.d.pwr.fw = some (n, len) → s.d.pwr.fwBusy = true →
    Does .fwCommitDone s fun d => d.pwr.fw = none ∧ d.pwr.fwBusy = false ∧
      (Config.imageOk (mread s.d.pwr.fwImg 0 len) = true → d.pwr.slot = 1 - s.d.rf Reg.PWR_BOOT 0 0 ∧
        d.pwr.imgs = s.d.pwr.imgs.set (1 - s.d.rf Reg.PWR_BOOT 0 0) (mread s.d.pwr.fwImg 0 len)) ∧
      (Config.imageOk (mread s.d.pwr.fwImg 0 len) = false → d.pwr.slot = s.d.pwr.slot ∧ d.pwr.imgs = s.d.pwr.imgs) ∧
      Quiet { s.d with pwr := d.pwr, ops := s.d.ops.filter (fun o => o.op != .fwCommit) } d)

/-- MODE_SET (R36, R40, R460): from the modes it is allowed in, the device is then in the mode asked for, with PREV the
mode left and TRANS_CNT advanced; the hold causes, time, the fault log and the field SRAM stay. -/
def Obligations.ModeSetRequests : Prop :=
  ∀ (h : Req) (s : State), Ready h s.d →
    ((s.d.mode = .idle ∨ s.d.mode = .safe ∨ s.d.mode = .wake) →
      Does (.modeSetStandby h) s fun d => d.mode = .standby ∧ d.prev = s.d.mode ∧ d.trans = (s.d.trans + 1) % 65536 ∧
        d.pwr.modeHeld = true ∧ d.seq.en = false ∧ d.hold = s.d.hold ∧ d.tim = s.d.tim ∧ d.flt = s.d.flt ∧
        d.fsram = s.d.fsram ∧ d.dma = s.d.cutChannels.dma) ∧
    (s.d.mode = .standby → 3 ≤ s.d.bzl.goodStatus →
      Does (.modeSetIdle h) s fun d => d.mode = .wake ∧ d.prev = .standby ∧ d.trans = (s.d.trans + 1) % 65536 ∧
        d.pwr.modeHeld = false ∧ d.hold = s.d.hold ∧ d.tim = s.d.tim ∧ d.flt = s.d.flt ∧ d.fsram = s.d.fsram ∧
        ∀ a, a / 65536 ≠ 12 → d.rd a = s.d.rd a) ∧
    ((s.d.mode = .calibrate ∨ s.d.mode = .service) →
      Does (.modeSetIdle h) s fun d => d.mode = .idle ∧ d.prev = s.d.mode ∧ d.trans = (s.d.trans + 1) % 65536 ∧
        d.seq.en = false ∧ d.hold = s.d.hold ∧ d.tim = s.d.tim ∧ d.flt = s.d.flt ∧ d.fsram = s.d.fsram ∧
        d.dma = s.d.dma) ∧
    (s.d.mode = .idle →
      Does (.modeSetCalibrate h) s fun d => d.mode = .calibrate ∧ d.prev = .idle ∧ d.trans = (s.d.trans + 1) % 65536 ∧
        d.hold = s.d.hold ∧ d.tim = s.d.tim ∧ d.flt = s.d.flt ∧ d.fsram = s.d.fsram ∧
        Replied d h 0x20 stAccepted [] ∧
        ∀ a, a / 65536 ≠ 12 → d.rd a = s.d.rd a) ∧
    (s.d.mode = .idle →
      Does (.modeSetService h) s fun d => d.mode = .service ∧ d.prev = .idle ∧ d.trans = (s.d.trans + 1) % 65536 ∧
        d.hold = s.d.hold ∧ d.tim = s.d.tim ∧ d.flt = s.d.flt ∧ d.fsram = s.d.fsram ∧
        Replied d h 0x20 stAccepted [] ∧
        (s.d.seq.en = false → ∀ a, a / 65536 ≠ 12 → d.rd a = s.d.rd a) ∧
        (headsOf s.d.regs.act ≠ [] → s.d.bzl.inhibit = false → d.seq.en = true)) ∧
    Does (.modeSetReset h) s fun d => d.mode = .reset ∧ d.prev = s.d.mode ∧ d.flt.l3run = true ∧ d.seq.en = false ∧
      d.hold = s.d.hold ∧ d.tim = s.d.tim ∧ d.fsram = s.d.fsram

/-- SCAN_START, SCAN_STOP, SCAN_HOLD, SCAN_RESUME and JOB_ABORT (R40, R42, R38, R41, R61, R85): what each does where it is
accepted, with its reply. -/
def Obligations.JobRequests : Prop :=
  (∀ (h : Req) (job page : Word) (g : Nat) (s : State), Ready h s.d → s.d.scanCheck h.session job g = stOk →
    Does (.scanStart h job page g) s fun d =>
      Replied d h 0x30 stAccepted (be 8 (Config.resumeToken s.d.frees).toNat) ∧
      (∃ j ∈ d.jobs, j.id = job ∧ j.group = g ∧ j.owner = some h.session ∧ j.nextPage = page ∧ j.ended = false) ∧
      d.seq.high = 0 ∧ d.seq.k0 = 0 ∧ d.seq.pend = [] ∧
      (s.d.lanesMissing = [] → d.mode = .scan ∧ d.seq.en = !s.d.bzl.inhibit ∧ d.prev = .idle) ∧
      (s.d.lanesMissing ≠ [] → d.mode = .idle ∧ d.seq.scanWait = true) ∧
      d.hold = s.d.hold ∧ d.tim = s.d.tim ∧ d.flt = s.d.flt ∧ d.fsram = s.d.fsram ∧ d.dma = s.d.dma ∧
      ∀ a, a / 65536 ≠ 12 → a / 65536 ≠ 8 → (a / 65536 = 6 → s.d.lamp.rot = none) → d.rd a = s.d.rd a) ∧
  (∀ (h : Req) (s : State), Ready h s.d → s.d.mode = .scan → s.d.openList ≠ [] → s.d.pages.stopPages = none →
    Does (.scanStop h) s fun d =>
      Quiet { s.d with pages := { s.d.pages with stopPages := some (s.d.openList.map (fun p => p.id)) }
                       ops := s.d.ops ++ [⟨.scanStop, h.session, h.seq⟩] } d ∧ Replied d h 0x31 stAccepted []) ∧
  (∀ (h : Req) (s : State), Ready h s.d → (s.d.mode = .scan ∨ s.d.mode = .splice) →
    Does (.scanHold h) s fun d =>
      Quiet { s.d.setHold hcHost with ops := s.d.ops ++ [⟨.scanHold, h.session, h.seq⟩] } d ∧
      bit d.hold hcHost = true ∧ Replied d h 0x32 stAccepted []) ∧
  (∀ (h : Req) (s : State), Ready h s.d → s.d.mode = .hold →
    Does (.scanHold h) s fun d => Quiet (s.d.setHold hcHost) d ∧ bit d.hold hcHost = true ∧ Replied d h 0x32 stOk []) ∧
  (∀ (h : Req) (s : State), Ready h s.d → s.d.mode = .hold → s.d.pwr.gridLost = false →
    (∀ g, s.d.feed = some g → ∀ a ∈ s.d.groupAxes g, (s.d.ax a).valid = true) →
    Does (.scanResume h) s fun d =>
      d.hold = clrBit (clrBit s.d.hold hcHost) hcStroke ∧ d.mode = .hold ∧
      (d.hold = 0 → Replied d h 0x33 stAccepted []) ∧ (d.hold ≠ 0 → Replied d h 0x33 stOk []) ∧
      Quiet { s.d with hold := d.hold, ops := d.ops } d) ∧
  (∀ (h : Req) (s : State), Ready h s.d → s.d.mode = .hold → s.d.pwr.gridLost = true →
    Does (.scanResume h) s fun d => Quiet s.d d ∧ Replied d h 0x33 stBadState []) ∧
  (∀ (h : Req) (j : Job) (s : State), Ready h s.d → s.d.jobMode = true → s.d.job? = some j →
    Does (.jobAbort h) s fun d =>
      d.mode = .idle ∧ d.prev = s.d.mode ∧ d.seq.en = false ∧ d.pwr.gridLost = false ∧
      (∀ x ∈ d.jobs, x.serial = j.serial → x.ended = true) ∧
      bit d.hold hcHost = false ∧ bit d.hold hcPace = false ∧ bit d.hold hcStroke = false)

/-! The parameter space. -/

/-- PARAM_READ answers its words in ascending address order and changes only the snapshots of SN pairs, what MON and the
field bus keep of reads, and the count of free values; a word holds what it read (R69, R70). Reading the low word of the time counter latches its two upper words for this session; reading an upper word answers
the latched value, whatever the counter has become (R70). -/
def Obligations.ParamReadAndSnapshots : Prop :=
  (∀ (h : Req) (addr count : Nat) (s : State), Ready h s.d → addr < 2 ^ 24 → 1 ≤ count → count ≤ 2047 →
    blockOk addr count = true →
    Does (.paramRead h addr count) s fun d =>
      (∃ b, Replied d h 0x10 stOk (be 4 addr ++ b) ∧ b.length = 4 * count) ∧
      Quiet { s.d with regs := { s.d.regs with sn := d.regs.sn }, frees := d.frees
                       monA := { s.d.monA with fresh := d.monA.fresh }, monB := { s.d.monB with fresh := d.monB.fresh }
                       pwr := { s.d.pwr with fbusMin := d.pwr.fbusMin } } d) ∧
  (∀ (h : Req) (s : State), Ready h s.d →
    Does (.paramRead h Reg.DEV_MODE 1) s fun d => Quiet s.d d ∧
      Replied d h 0x10 stOk (be 4 Reg.DEV_MODE ++ be 4 s.d.modeWord)) ∧
  (∀ (h : Req) (s : State), Ready h s.d →
    Does (.paramRead h Reg.FLT_ESC_WIN 1) s fun d => Quiet s.d d ∧
      Replied d h 0x10 stOk (be 4 Reg.FLT_ESC_WIN ++ be 4 (s.d.rd Reg.FLT_ESC_WIN))) ∧
  (∀ (h : Req) (s : State), Ready h s.d →
    Does (.paramRead h Reg.TIM_NS_LO 1) s fun d =>
      Replied d h 0x10 stOk (be 4 Reg.TIM_NS_LO ++ be 4 (s.d.ns % 2 ^ 32)) ∧
      aget d.regs.sn (h.session * 2 ^ 24 + Reg.TIM_NS_HI) = some (w32 (s.d.ns / 2 ^ 32 % 2 ^ 32)) ∧
      aget d.regs.sn (h.session * 2 ^ 24 + Reg.TIM_FRAC) = some (w32 (s.d.tim.cnt % 2 ^ 32)) ∧
      Quiet { s.d with regs := { s.d.regs with sn := d.regs.sn } } d) ∧
  (∀ (h : Req) (v : Word) (s : State), Ready h s.d → aget s.d.regs.sn (h.session * 2 ^ 24 + Reg.TIM_NS_HI) = some v →
    Does (.paramRead h Reg.TIM_NS_HI 1) s fun d => Quiet s.d d ∧
      Replied d h 0x10 stOk (be 4 Reg.TIM_NS_HI ++ be 4 v.toNat))

/-- PARAM_WRITE (R10, R11, R72): a packet with a failing word is refused whole, with the word's place, and changes nothing;
a packet whose words all pass is accepted whole, each word stored where its access type puts it;
an accepted RW word holds its value at once; an accepted ST word goes to the shadow set and the active value stays. -/
def Obligations.ParamWrite : Prop :=
  (∀ (h : Req) (payload : List Word) (tail : Nat) (s : State), Ready h s.d →
    (s.d.packetCheck h.session (wrecs tail payload.length 0 payload)).1 ≠ stOk →
    Does (.paramWrite h payload tail) s fun d => Quiet s.d d ∧
      Replied d h 0x11 (s.d.packetCheck h.session (wrecs tail payload.length 0 payload)).1
        (be 2 (s.d.packetCheck h.session (wrecs tail payload.length 0 payload)).2.1 ++
          be 2 (s.d.packetCheck h.session (wrecs tail payload.length 0 payload)).2.2)) ∧
  (∀ (h : Req) (payload : List Word) (tail : Nat) (s : State), Ready h s.d →
    (s.d.packetCheck h.session (wrecs tail payload.length 0 payload)).1 = stOk →
    (∃ t, exec (.paramWrite h payload tail) s = .next t ∧ t.pending = s.pending ∧ Replied t.d h 0x11 stOk wroteAll) ∧
    ((∀ w ∈ wrecs tail payload.length 0 payload, hasEffect w.addr = false) →
      Does (.paramWrite h payload tail) s fun d => Replied d h 0x11 stOk wroteAll ∧
        Quiet ((wrecs tail payload.length 0 payload).foldl (fun x w => x.storeWord w.addr w.val) s.d) d)) ∧
  (∀ (h : Req) (v : Word) (s : State), Ready h s.d → 1 ≤ v.toNat → v.toNat ≤ 3600 →
    Does (.paramWrite h [w32 Reg.FLT_ESC_WIN, v] 0) s fun d => Quiet (s.d.put Reg.FLT_ESC_WIN v.toNat) d ∧
      d.rd Reg.FLT_ESC_WIN = v.toNat ∧ Replied d h 0x11 stOk wroteAll) ∧
  (∀ (h : Req) (v : Word) (s : State), Ready h s.d → (v.toNat = 0 ∨ 3600 < v.toNat) →
    Does (.paramWrite h [w32 Reg.FLT_ESC_WIN, v] 0) s fun d => Quiet s.d d ∧
      Replied d h 0x11 stBadParam [0, 0, 0, 0]) ∧
  (∀ (h : Req) (v : Word) (s : State), Ready h s.d → 64 ≤ v.toNat → v.toNat ≤ 51200 →
    Does (.paramWrite h [w32 Reg.COX_LWM, v] 0) s fun d =>
      Quiet { s.d with regs := { s.d.regs with shd := aset s.d.regs.shd Reg.COX_LWM v } } d ∧
      d.rd Reg.COX_LWM = s.d.rd Reg.COX_LWM ∧ Replied d h 0x11 stOk wroteAll) ∧
  (∀ (h : Req) (v : Word) (s : State), Ready h s.d →
    Does (.paramWrite h [w32 Reg.FLT_ESC_CNT, v] 0) s fun d => Quiet s.d d ∧
      Replied d h 0x11 stReadOnly [0, 0, 0, 0])

/-- COMMIT and DISCARD (R12 to R14, R74, R75): COMMIT empties the shadow set; in SCAN and SPLICE it is accepted and waits
for the next Catch; with nothing staged it answers OK; one already waiting makes it BUSY; a value that fails a check is
refused, and the shadow set stays. DISCARD empties the shadow set. -/
def Obligations.CommitAndDiscard : Prop :=
  (∀ (h : Req) (s : State), Ready h s.d →
    Does (.discard h) s fun d =>
      Quiet { s.d with regs := { s.d.regs with shd := [] } } d ∧ Replied d h 0x14 stOk []) ∧
  (∀ (h : Req) (s : State), Ready h s.d → s.d.regs.com = none → s.d.regs.shd = [] →
    Does (.commit h) s fun d => Quiet s.d d ∧ Replied d h 0x13 stOk wroteAll) ∧
  (∀ (h : Req) (s : State), Ready h s.d → s.d.regs.com = none → s.d.staged? ≠ [] →
    (s.d.commitCheck (s.d.comOf s.d.staged?)).1 = stOk → (s.d.mode = .scan ∨ s.d.mode = .splice) →
    Does (.commit h) s fun d =>
      Quiet { s.d with regs := { s.d.regs with shd := [], com := some ⟨s.d.staged?, h.session, h.seq⟩ } } d ∧
      Replied d h 0x13 stAccepted wroteAll) ∧
  (∀ (h : Req) (s : State), Ready h s.d → s.d.regs.com ≠ none →
    Does (.commit h) s fun d => Quiet s.d d ∧ Replied d h 0x13 stBusy wroteAll) ∧
  (∀ (h : Req) (s : State), Ready h s.d → s.d.regs.com = none → s.d.staged? ≠ [] →
    (s.d.commitCheck (s.d.comOf s.d.staged?)).1 ≠ stOk →
    Does (.commit h) s fun d => Quiet s.d d ∧
      Replied d h 0x13 (s.d.commitCheck (s.d.comOf s.d.staged?)).1 (be 4 (s.d.commitCheck (s.d.comOf s.d.staged?)).2)) ∧
  (∀ (h : Req) (v : Word) (s : State), Ready h s.d → s.d.mode = .idle → s.d.regs.com = none → s.d.regs.held = [] →
    s.d.regs.shd = [(Reg.PWR_LAMP_KT 0, v)] → v.toNat ≤ 1000 → v.toNat ≠ s.d.rd (Reg.PWR_LAMP_KT 0) →
    (∀ c ∈ s.d.dma.ch, c.st = .idle) →
    Does (.commit h) s fun d => d.rd (Reg.PWR_LAMP_KT 0) = v.toNat ∧ d.regs.shd = [] ∧ d.mode = .idle ∧
      Replied d h 0x13 stOk wroteAll ∧ ∀ a, a / 65536 ≠ 12 → a ≠ Reg.PWR_LAMP_KT 0 → d.rd a = s.d.rd a)

/-- The writes of one word that are commands of their own (R460, R133, R135, R140, R366): the word holds its value and the
effect its rule gives follows; every other word stays. -/
def Obligations.ControlWordWrites : Prop :=
  ∀ (h : Req) (s : State), Ready h s.d →
    (Does (.devCtrlWrite h 1) s fun d => Quiet (s.d.put Reg.DEV_CTRL 1) d ∧ Replied d h 0x11 stOk wroteAll) ∧
    (s.d.mode ≠ .standby →
      Does (.devCtrlWrite h 0) s fun d => Quiet (s.d.put Reg.DEV_CTRL 0) d ∧ Replied d h 0x11 stOk wroteAll) ∧
    (s.d.mode = .standby → s.d.rf Reg.DEV_CTRL 0 0 = 1 → 3 ≤ s.d.bzl.goodStatus → s.d.pwr.nrstF = true →
      Does (.devCtrlWrite h 0) s fun d => d.mode = .wake ∧ d.prev = .standby ∧ d.rd Reg.DEV_CTRL = 0 ∧
        ∀ a, a / 65536 ≠ 12 → a ≠ Reg.DEV_CTRL → d.rd a = s.d.rd a) ∧
    (∀ v : Word, s.d.mode = .idle → v.toNat ≤ 2 →
      Does (.afeRefSelWrite h v) s fun d => d.rf Reg.AFE_REF_CTRL 1 0 = v.toNat ∧ d.rf Reg.AFE_REF_CTRL 9 9 = 0 ∧
        (v = 1 → d.rf Reg.AFE_REF_CTRL 8 8 = 0) ∧ (v = 2 → d.rf Reg.AFE_REF_CTRL 8 8 = 1) ∧
        (v = 0 → d.rf Reg.AFE_REF_CTRL 8 8 = b2n (decide (1140000 ≤ s.d.bzl.vrefx ∧ s.d.bzl.vrefx ≤ 1260000))) ∧
        Replied d h 0x11 stOk wroteAll ∧ ∀ a, a / 65536 ≠ 12 → a ≠ Reg.AFE_REF_CTRL → d.rd a = s.d.rd a) ∧
    (∀ t : Nat, s.d.mode = .idle → 5 ≤ t → t ≤ 1000 →
      Does (.afeOwStart h (w32 (t * 65536))) s fun d => d.rf Reg.AFE_OW_CTRL 1 1 = 1 ∧ d.rf Reg.AFE_OW_CTRL 31 16 = t ∧
        d.seq.pend = [] ∧ Replied d h 0x11 stOk wroteAll ∧
        ∀ a, a / 65536 ≠ 12 → a ≠ Reg.AFE_OW_CTRL → d.rd a = s.d.rd a) ∧
    (∀ (b : Bool) (v : Word), v.toNat ≤ 2 →
      Does (.monRefWrite h b v) s fun d => d.rf (monRefReg b) 1 0 = v.toNat ∧
        ((s.d.mon b).entry = none → (d.mon b).ref = v.toNat ∧
          (v.toNat ≠ (s.d.mon b).ref → d.rf (monRefReg b) 8 8 = 0)) ∧
        ((s.d.mon b).entry ≠ none → (d.mon b).ref = (s.d.mon b).ref) ∧
        Replied d h 0x11 stOk wroteAll ∧ ∀ a, a / 65536 ≠ 12 → a ≠ monRefReg b → d.rd a = s.d.rd a) ∧
    (Does (.netStore h) s fun d => Quiet { s.d with net := { s.d.net with record := d.net.record } } d ∧
      Replied d h 0x11 stOk wroteAll ∧
      ∃ r, d.net.record = some r ∧ ∀ a, inRecord a = true → aget r a = (aget s.d.regs.net a).or (aget s.d.regs.act a))

/-- The session words of PAGE and NET and the port words (R207, R361, R371, R373): a session's own word takes its value,
another session's is read-only; a ring's new base returns its producer and consumer words to 0; a port whose
configuration is written restarts its link; a queue pair follows its enable bit. -/
def Obligations.SessionAndPortWords : Prop :=
  (∀ (h : Req) (v : Word) (s : State), Ready h s.d → 1 ≤ h.session → h.session ≤ 64 →
    Does (.pageSessionWordWrite h h.session 0x24 v) s fun d =>
      Quiet (s.d.put (Reg.PAGE_S_DCONS (h.session - 1)) v.toNat) d ∧ Replied d h 0x11 stOk wroteAll) ∧
  (∀ (h : Req) (v : Word) (s : State), Ready h s.d → 1 ≤ h.session → h.session ≤ 64 → s.d.pages.deliv = none →
    v.toNat % 4096 = 0 → v.toNat ≠ s.d.rd (0x051004 + 0x40 * (h.session - 1)) →
    Does (.pageSessionWordWrite h h.session 0x04 v) s fun d =>
      d.rd (0x051004 + 0x40 * (h.session - 1)) = v.toNat ∧ d.rd (Reg.PAGE_S_DPROD (h.session - 1)) = 0 ∧
      d.rd (Reg.PAGE_S_DCONS (h.session - 1)) = 0 ∧ Replied d h 0x11 stOk wroteAll) ∧
  (∀ (h : Req) (m : Nat) (v : Word) (s : State), Ready h s.d → 1 ≤ m → m ≤ 64 → m ≠ h.session →
    Does (.pageSessionWordWrite h m 0x24 v) s fun d => Quiet s.d d ∧ Replied d h 0x11 stReadOnly [0, 0, 0, 0]) ∧
  (∀ (h : Req) (p : NetPort) (v : Word) (s : State), Ready h s.d → Writable s.d h.session (cfgAddr p) v →
    Does (.netPortCfgWrite h p v) s fun d =>
      Replied d h 0x11 stOk wroteAll ∧
      (p ≠ .sgmii → d.rd (cfgAddr p) = v.toNat) ∧
      (p = .sgmii → d.rd (cfgAddr p) = (v.toNat &&& 0x8FF33FFF) ||| (s.d.rd (cfgAddr p) &&& 0x30000000)) ∧
      d.link p = false ∧ (s.d.link p = true → d.rd (Reg.NET_P_LINK_DOWN_CNT (portIx p)) =
          min 0xFFFFFFFF (s.d.rd (Reg.NET_P_LINK_DOWN_CNT (portIx p)) + 1)) ∧
      ∀ a, a / 65536 ≠ 12 → d.rd a = s.d.rd a) ∧
  (∀ (h : Req) (v : Word) (s : State), Ready h s.d → 1 ≤ h.session → h.session ≤ 64 →
    bit (s.d.rd (Reg.NET_S_QP_CTRL (h.session - 1))) 31 = false →
    Writable s.d h.session (Reg.NET_S_QP_CTRL (h.session - 1)) (v ||| 0x80000000) →
    Does (.qpEnable h h.session v) s fun d => (d.qp h.session).st = 1 ∧ (d.qp h.session).cause = 0 ∧
      d.rd (Reg.NET_S_QP_CTRL (h.session - 1)) = (v ||| 0x80000000).toNat ∧ Replied d h 0x11 stOk wroteAll ∧
      ∀ a, a / 65536 ≠ 12 → d.rd a = s.d.rd a) ∧
  (∀ (h : Req) (s : State), Ready h s.d → 1 ≤ h.session → h.session ≤ 64 →
    bit (s.d.rd (Reg.NET_S_QP_CTRL (h.session - 1))) 31 = true →
    Writable s.d h.session (Reg.NET_S_QP_CTRL (h.session - 1))
      (w32 (clrBit (s.d.rd (Reg.NET_S_QP_CTRL (h.session - 1))) 31)) →
    Does (.qpDisable h h.session) s fun d => (d.qp h.session).st = 0 ∧
      bit (d.rd (Reg.NET_S_QP_CTRL (h.session - 1))) 31 = false ∧ Replied d h 0x11 stOk wroteAll ∧
      ∀ a, a / 65536 ≠ 12 → d.rd a = s.d.rd a)

/-! DMA. -/

/-- The DMA registers (R345, R349, R350): a write of a channel's control word holds and starts its count of requests anew;
ABORT drops every chain of the channel; clearing VALID lets a halted channel go on. DMA_ENQUEUE holds a chain and answers how many the channel holds; FENCE is answered at once where no data write is
outstanding and waits otherwise, until WRITES_ARRIVED (R336, R348). -/
def Obligations.DmaControlAndQueue : Prop :=
  (∀ (h : Req) (ch : Nat) (v : Word) (s : State), Ready h s.d → ch < 16 → Writable s.d h.session (Reg.DMA_CH_CTRL ch) v →
    v.getLsbD 1 = false →
    Does (.dmaReqWrite h ch v) s fun d => d.rd (Reg.DMA_CH_CTRL ch) = v.toNat ∧ (d.chan ch).reqs = 0 ∧
      (∀ n, n ≠ ch → d.chan n = s.d.chan n) ∧ Replied d h 0x11 stOk wroteAll ∧
      Quiet { s.d.put (Reg.DMA_CH_CTRL ch) v.toNat with dma := d.dma } d) ∧
  (∀ (h : Req) (ch : Nat) (s : State), Ready h s.d → ch < 16 → bit (s.d.rd (Reg.DMA_CH_CTRL ch)) 1 = false →
    Writable s.d h.session (Reg.DMA_CH_CTRL ch) (w32 (clrBit (s.d.rd (Reg.DMA_CH_CTRL ch)) 0)) →
    Does (.dmaChannelDisable h ch) s fun d => d.rd (Reg.DMA_CH_CTRL ch) = clrBit (s.d.rd (Reg.DMA_CH_CTRL ch)) 0 ∧
      (d.chan ch).st = (s.d.chan ch).st ∧ (d.chan ch).q = (s.d.chan ch).q ∧ Replied d h 0x11 stOk wroteAll) ∧
  (∀ (h : Req) (ch : Nat) (s : State), Ready h s.d → ch < 16 → bit (s.d.rd (Reg.DMA_CH_CTRL ch)) 1 = false →
    Writable s.d h.session (Reg.DMA_CH_CTRL ch) (w32 (setBit (s.d.rd (Reg.DMA_CH_CTRL ch)) 0)) →
    Does (.dmaChannelEnable h ch) s fun d => d.rd (Reg.DMA_CH_CTRL ch) = setBit (s.d.rd (Reg.DMA_CH_CTRL ch)) 0 ∧
      (d.chan ch).st = (s.d.chan ch).st ∧ (d.chan ch).q = (s.d.chan ch).q ∧ Replied d h 0x11 stOk wroteAll) ∧
  (∀ (h : Req) (ch : Nat) (s : State), Ready h s.d → ch < 16 →
    Writable s.d h.session (Reg.DMA_CH_CTRL ch) (w32 (setBit (s.d.rd (Reg.DMA_CH_CTRL ch)) 1)) →
    ∃ t, exec (.dmaAbort h ch) s = .next t ∧ t.pending = s.pending ∧
      (t.d.chan ch).q = [] ∧ (t.d.chan ch).busy = false ∧ (t.d.chan ch).next = none ∧
      ((t.d.chan ch).st = .idle ∨ (t.d.chan ch).st = .halted ∨ (t.d.chan ch).st = .restart) ∧
      ((s.d.chan ch).st = .idle → t.mem = s.mem)) ∧
  (∀ (h : Req) (ch : Nat) (s : State), Ready h s.d → ch < 16 →
    Does (.dmaErrClear h ch) s fun d => bit (d.rd (Reg.DMA_CH_ERR_INFO ch)) 23 = false ∧
      bit (d.rd (Reg.DMA_CH_ERR_INFO ch)) 22 = false ∧
      (d.chan ch).st = (if (s.d.chan ch).st = .halted then .idle else (s.d.chan ch).st) ∧
      (d.chan ch).q = (s.d.chan ch).q ∧ Replied d h 0x11 stOk wroteAll ∧
      ∀ a, a / 65536 ≠ 12 → a ≠ Reg.DMA_CH_ERR_INFO ch → d.rd a = s.d.rd a) ∧
  (∀ (h : Req) (ch addr : Nat) (s : State), Ready h s.d → ch < 16 → ch < s.d.dma.ch.length → addr % 64 = 0 →
    s.d.inShared addr addr = true → (s.d.chan ch).held < 16 →
    Does (.dmaEnqueue h ch addr) s fun d =>
      (d.chan ch) = { s.d.chan ch with q := (s.d.chan ch).q ++ [addr] } ∧ (∀ n, n ≠ ch → d.chan n = s.d.chan n) ∧
      Replied d h 0x80 stOk (be 4 ((s.d.chan ch).held + 1)) ∧
      Quiet { s.d with dma := { s.d.dma with ch := d.dma.ch } } d) ∧
  (∀ (h : Req) (ch addr : Nat) (s : State), Ready h s.d → ch < 16 → addr % 64 = 0 → s.d.inShared addr addr = true →
    16 ≤ (s.d.chan ch).held →
    Does (.dmaEnqueue h ch addr) s fun d => Quiet s.d d ∧ Replied d h 0x80 stQueueFull []) ∧
  (∀ (h : Req) (m : BitVec 16) (s : State), Ready h s.d → s.d.dma.fences = [] →
    s.d.outstanding (if m = 0 then 0xFFFF else m.toNat) = [] →
    Does (.fence h m) s fun d => Quiet (s.d.bump Reg.DMA_FENCE_CNT) d ∧ Replied d h 0x81 stOk []) ∧
  (∀ (h : Req) (m : BitVec 16) (s : State), Ready h s.d → s.d.dma.fences = [] →
    s.d.outstanding (if m = 0 then 0xFFFF else m.toNat) ≠ [] →
    Does (.fence h m) s fun d => (∃ k, d.dma.fences = [⟨h, k⟩]) ∧
      Quiet { s.d with dma := { s.d.dma with fences := d.dma.fences } } d) ∧
  (∀ (ch : Nat) (s : State), ch < 16 →
    Does (.writesArrived ch) s fun d => (d.chan ch).flying = false ∧ (d.chan ch).st = (s.d.chan ch).st ∧
      (∀ n, n ≠ ch → d.chan n = s.d.chan n) ∧ (∀ f ∈ d.dma.fences, bit f.mask ch = false ∧ f.mask ≠ 0) ∧
      d.fsram = s.d.fsram ∧ d.mode = s.d.mode ∧ d.seq = s.d.seq ∧ d.tim = s.d.tim ∧ d.flt = s.d.flt)

/-- The channel's sequence (R336 to R351): a fetch takes the next chain's first descriptor and, where its checks pass, runs
it; a pacing request starts a waiting descriptor or is counted; a watchdog expiry restarts the channel, which then goes
on. A COPY of one line within the shared region (R337, R340, R347) leaves the source's bytes at the destination, its
outcome in its own descriptor, and every other byte of memory as it was. -/
def Obligations.DmaChannelsAndCopies : Prop :=
  (∀ (ch a : Nat) (r : List Nat) (s : State), ch < 16 → ch < s.d.dma.ch.length → s.d.rf (Reg.DMA_CH_CTRL ch) 0 0 = 1 →
    s.d.served = true → (s.d.chan ch).st = .idle → (s.d.chan ch).busy = false → (s.d.chan ch).q = a :: r →
    s.d.poisonAt a 64 = none → bit (dCtrl (mread s.mem a 64)) 31 = true → s.d.descCheck (mread s.mem a 64) = stOk →
    bit (dCtrl (mread s.mem a 64)) 23 = false →
    Does (.dmaChainFetch ch) s fun d =>
      d.chan ch = { s.d.chan ch with st := .run, busy := true, next := none, q := r, desc := a, early := none
                                     cut := false, img := mread s.mem a 64 } ∧
      (∀ n, n ≠ ch → d.chan n = s.d.chan n) ∧ d = { s.d with dma := { s.d.dma with ch := d.dma.ch } }) ∧
  (∀ (ch : Nat) (s : State), ch < 16 → ch < s.d.dma.ch.length → s.d.rf (Reg.DMA_CH_CTRL ch) 10 8 = 1 →
    Does (.dmaPaceTimer ch) s fun d =>
      ((s.d.chan ch).st = .waitReq → d.chan ch = { s.d.chan ch with st := .run }) ∧
      ((s.d.chan ch).st ≠ .waitReq → (s.d.chan ch).reqs < 255 →
        d.chan ch = { s.d.chan ch with reqs := (s.d.chan ch).reqs + 1 }) ∧
      ((s.d.chan ch).st ≠ .waitReq → 255 ≤ (s.d.chan ch).reqs → d = s.d.bump Reg.DMA_PACE_OVF_CNT) ∧
      (∀ n, n ≠ ch → d.chan n = s.d.chan n)) ∧
  (∀ (ch : Nat) (s : State), ch < 16 → (s.d.chan ch).st = .run →
    ∃ t, exec (.dmaWdog ch) s = .next t ∧ t.pending = s.pending ∧ (t.d.chan ch).st = .restart ∧
      (t.d.chan ch).busy = false ∧ (t.d.chan ch).q = (s.d.chan ch).q ∧
      t.d.rd Reg.DMA_WDOG_CNT = min 0xFFFFFFFF (s.d.rd Reg.DMA_WDOG_CNT + 1) ∧
      t.d.mode = s.d.mode ∧ t.d.hold = s.d.hold ∧ t.d.seq = s.d.seq) ∧
  (∀ (ch : Nat) (s : State), ch < 16 → (s.d.chan ch).st = .restart →
    Does (.dmaChannelRestartDone ch) s fun d =>
      ((d.chan ch).st = if s.d.rf (Reg.DMA_CH_CTRL ch) 2 2 = 1 ∧ bit (s.d.rd (Reg.DMA_CH_ERR_INFO ch)) 23 = true
        then .halted else .idle) ∧ (d.chan ch).q = (s.d.chan ch).q ∧ (∀ n, n ≠ ch → d.chan n = s.d.chan n) ∧
      d = { s.d with dma := d.dma, flt := d.flt }) ∧
  (∀ (ch : Nat) (s : State) (i : List Byte) (a n : Nat), ch < 16 → (s.d.chan ch).st = .run → (s.d.chan ch).img = i →
    (s.d.chan ch).desc = a → dOp i = 0 → dCnt i = 1 → dLen i = n → 1 ≤ n →
    dSrc i + n ≤ winBase → dDst i + n ≤ winBase →
    (dSrc i + n ≤ dDst i ∨ dDst i + n ≤ dSrc i) →
    (a + 64 ≤ dDst i ∨ dDst i + n ≤ a) → s.d.descPoison i = none →
    ∃ t, exec (.dmaWriteback ch .ok) s = .next t ∧ t.pending = s.pending ∧
      (∀ k, k < n → mget t.mem (dDst i + k) = mget s.mem (dSrc i + k)) ∧
      (∀ x, (x < dDst i ∨ dDst i + n ≤ x) → (x < a ∨ a + 60 ≤ x) → mget t.mem x = mget s.mem x) ∧
      mread t.mem (a + 4) 2 = be 2 stOk ∧ mread t.mem (a + 48) 8 = be 8 n ∧
      mread t.mem (a + 56) 4 = beW (crc32c (mread s.mem (dSrc i) n)) ∧ t.d.fsram = s.d.fsram ∧
      t.d.rd Reg.DMA_DESC_CNT = min 0xFFFFFFFF (s.d.rd Reg.DMA_DESC_CNT + 1))

/-! Motion. -/

/-- MOVE_QUEUE (R247, R248, R258, R259, R63): every accepted move is answered with the free room and touches no axis and no
other group. It joins its group's queue, or starts at once where the group is at rest; one without a distance completes at
once; one that drives an axis further toward an active limit is refused with its queue; a group in LIMIT starts only a move
away from every active limit, and keeps another queued; a full queue refuses it. -/
def Obligations.MovesQueue : Prop :=
  (∀ (h : Req) (m : MoveReq) (s : State), Ready h s.d → MoveOk s.d h.session m → (s.d.grp m.group).count < 32 →
    (s.d.grp m.group).st ≠ .rest → (s.d.grp m.group).st ≠ .limit →
    Does (.moveQueue h m) s fun d =>
      (d.grp m.group).q = (s.d.grp m.group).q ++ [s.d.entryOf h.session m] ∧
      (d.grp m.group).cur = (s.d.grp m.group).cur ∧ (d.grp m.group).st = (s.d.grp m.group).st ∧
      (d.grp m.group).u = (s.d.grp m.group).u ∧ (d.grp m.group).v = (s.d.grp m.group).v ∧
      (∀ g, g ≠ m.group → d.grp g = s.d.grp g) ∧
      Replied d h 0x40 stOk (be 4 (31 - (s.d.grp m.group).count)) ∧
      Quiet { s.d with mot := { s.d.mot with groups := d.mot.groups } } d) ∧
  (∀ (h : Req) (m : MoveReq) (s : State), Ready h s.d → MoveOk s.d h.session m → (s.d.grp m.group).count < 32 →
    Does (.moveQueue h m) s fun d =>
      Replied d h 0x40 stOk (be 4 (32 - (d.grp m.group).count)) ∧ (∀ a, d.ax a = s.d.ax a) ∧
      (∀ g, g ≠ m.group → d.grp g = s.d.grp g) ∧
      Quiet { s.d with mot := { s.d.mot with groups := d.mot.groups }, regs := d.regs } d) ∧
  (∀ (h : Req) (m : MoveReq) (s : State), Ready h s.d → MoveOk s.d h.session m → (s.d.grp m.group).entries = [] →
    ((s.d.grp m.group).st = .rest ∧ (s.d.grp m.group).cur = none ∨ (s.d.grp m.group).st = .limit ∧
      s.d.awayFromAll m.group (s.d.entryOf h.session m) = true) →
    (s.d.entryOf h.session m).len = 0 →
    Does (.moveQueue h m) s fun d =>
      (d.grp m.group).cur = none ∧ (d.grp m.group).q = [] ∧ (d.grp m.group).st = .rest ∧
      d.rd Reg.MOT_MOVE_CNT = min 0xFFFFFFFF (s.d.rd Reg.MOT_MOVE_CNT + 1) ∧ Replied d h 0x40 stOk (be 4 32)) ∧
  (∀ (h : Req) (m : MoveReq) (s : State), Ready h s.d → MoveOk s.d h.session m → (s.d.grp m.group).entries = [] →
    ((s.d.grp m.group).st = .rest ∧ (s.d.grp m.group).cur = none ∨ (s.d.grp m.group).st = .limit) →
    s.d.towardLimit (s.d.entryOf h.session m) = true → (s.d.entryOf h.session m).len ≠ 0 →
    Does (.moveQueue h m) s fun d =>
      (d.grp m.group).entries = [] ∧ (d.grp m.group).st = .limit ∧ (d.grp m.group).v = 0 ∧
      d.rd Reg.MOT_LIMIT_REFUSE_CNT = min 0xFFFFFFFF (s.d.rd Reg.MOT_LIMIT_REFUSE_CNT + 1) ∧
      bit (d.rd (Reg.MOT_G_FLAGS m.group)) 3 = true ∧ Replied d h 0x40 stOk (be 4 32)) ∧
  (∀ (h : Req) (m : MoveReq) (s : State), Ready h s.d → MoveOk s.d h.session m → (s.d.grp m.group).entries = [] →
    (s.d.grp m.group).st = .limit → s.d.towardLimit (s.d.entryOf h.session m) = false →
    s.d.awayFromAll m.group (s.d.entryOf h.session m) = false →
    Does (.moveQueue h m) s fun d =>
      (d.grp m.group).q = [s.d.entryOf h.session m] ∧ (d.grp m.group).st = .limit ∧
      (d.grp m.group).cur = (s.d.grp m.group).cur ∧ Replied d h 0x40 stOk (be 4 31)) ∧
  (∀ (h : Req) (m : MoveReq) (s : State), Ready h s.d → MoveOk s.d h.session m → (s.d.grp m.group).st = .rest →
    (s.d.grp m.group).cur = none → (s.d.grp m.group).q = [] → (s.d.grp m.group).heldMove = none →
    (s.d.entryOf h.session m).len ≠ 0 → s.d.towardLimit (s.d.entryOf h.session m) = false →
    (s.d.grp m.group).intern = 0 →
    Does (.moveQueue h m) s fun d =>
      (d.grp m.group).cur = some (s.d.entryOf h.session m) ∧ (d.grp m.group).q = [] ∧ (d.grp m.group).st = .run ∧
      (d.grp m.group).u = 0 ∧ (d.grp m.group).v = 0 ∧ (∀ g, g ≠ m.group → d.grp g = s.d.grp g) ∧
      Replied d h 0x40 stOk (be 4 31) ∧ Quiet { s.d with mot := { s.d.mot with groups := d.mot.groups } } d) ∧
  (∀ (h : Req) (m : MoveReq) (s : State), Ready h s.d → MoveOk s.d h.session m → 32 ≤ (s.d.grp m.group).count →
    Does (.moveQueue h m) s fun d => Quiet (s.d.bump Reg.MOT_QFULL_CNT) d ∧ Replied d h 0x40 stQueueFull [])

/-- MOVE_MODIFY, AXIS_HALT and MOVE_RESUME (R251, R255 to R257): a named move takes the new VMAX, ACC and DEC, 0 keeping
each; a running group begins its ramp, or stops hard at the next boundary; a halted one goes on from rest. -/
def Obligations.MovesModifyHaltResume : Prop :=
  (∀ (h : Req) (g : Nat) (id : Word) (v a e : Nat) (m : Move) (s : State), Ready h s.d → g < 4 →
    m ∈ (s.d.grp g).entries → m.id = id → (∀ x ∈ (s.d.grp g).entries, x.id = id → x = m) →
    v ≤ 5000000 → s.d.overVlim m (if v = 0 then m.vmax else v) = false →
    Does (.moveModify h g id v a e) s fun d =>
      (∀ x ∈ (d.grp g).entries, x.id = id →
        x = { m with vmax := if v = 0 then m.vmax else v
                     acc := if a = 0 then m.acc else a
                     dec := if e = 0 then m.dec else e }) ∧
      (d.grp g).entries.map (·.id) = (s.d.grp g).entries.map (·.id) ∧
      (∀ x, x.id ≠ id → (x ∈ (d.grp g).entries ↔ x ∈ (s.d.grp g).entries)) ∧
      (d.grp g).st = (s.d.grp g).st ∧ (d.grp g).u = (s.d.grp g).u ∧ (d.grp g).v = (s.d.grp g).v ∧
      (∀ n, n ≠ g → d.grp n = s.d.grp n) ∧ Replied d h 0x41 stOk [] ∧
      Quiet { s.d with mot := { s.d.mot with groups := d.mot.groups } } d) ∧
  (∀ (h : Req) (k : BitVec 16) (g : Nat) (m : Move) (s : State), Ready h s.d → k &&& 0xF000#16 = 0 → s.d.mode = .idle →
    maskAxes k ≠ [] → (∀ a ∈ maskAxes k, s.d.axEn a = true ∧ (s.d.ax a).home = none ∧ s.d.axGroup a = g) →
    (s.d.grp g).st = .run → (s.d.grp g).cur = some m →
    Does (.axisHaltRamp h k) s (fun d => d.grp g = { s.d.grp g with st := .halting, haltDec := m.dec } ∧
      (∀ n, n ≠ g → d.grp n = s.d.grp n) ∧ Replied d h 0x43 stOk [] ∧
      Quiet { s.d with mot := { s.d.mot with groups := d.mot.groups } } d) ∧
    Does (.axisHaltHard h k) s (fun d => d.grp g = { s.d.grp g with hard := true } ∧
      (∀ n, n ≠ g → d.grp n = s.d.grp n) ∧ Replied d h 0x43 stOk [] ∧
      Quiet { s.d with mot := { s.d.mot with groups := d.mot.groups } } d)) ∧
  (∀ (h : Req) (g : Nat) (m : Move) (s : State), Ready h s.d → g < 4 → (s.d.jobMode = false ∨ s.d.feed ≠ some g) →
    (s.d.grp g).st = .halted → (∃ a ∈ s.d.groupAxes g, (s.d.ax a).home ≠ none) → (s.d.grp g).cur = some m →
    Does (.moveResume h g) s fun d => (d.grp g).st = .homing ∧ (d.grp g).cur = some m ∧ (d.grp g).q = (s.d.grp g).q ∧
      (∀ a, d.ax a = s.d.ax a) ∧ (∀ n, n ≠ g → d.grp n = s.d.grp n) ∧ Replied d h 0x44 stOk [] ∧
      Quiet { s.d with mot := { s.d.mot with groups := d.mot.groups } } d) ∧
  (∀ (h : Req) (g : Nat) (m : Move) (s : State), Ready h s.d → g < 4 → (s.d.jobMode = false ∨ s.d.feed ≠ some g) →
    (s.d.grp g).st = .halted → (∀ a ∈ s.d.groupAxes g, (s.d.ax a).home = none) → (s.d.grp g).cur = some m →
    Does (.moveResume h g) s fun d => (d.grp g).st = .run ∧ (d.grp g).v = 0 ∧ (d.grp g).cur = some m ∧
      (d.grp g).q = (s.d.grp g).q ∧ (∀ n, n ≠ g → d.grp n = s.d.grp n) ∧ Replied d h 0x44 stOk [] ∧
      Quiet { s.d with mot := { s.d.mot with groups := d.mot.groups } } d)

/-- HOME, its retry and a chattering switch (R260 to R262, R242): the named axes begin an attempt and lose their position;
a first failure waits for the retry, which runs at a quarter of HOME_V; a second failure is SAFE. Following errors, resynchronisation and the step watchdog (R243, R263 to R265): a first following error of the feed
holds the job with FAULT, any other is SAFE; AXIS_RESYNC sets the position to the encoder's; a missing segment stops its
group hard and restarts its generator, and the restart's end ends that recovery. -/
def Obligations.HomingAndMotionFaults : Prop :=
  (∀ (h : Req) (k : BitVec 16) (s : State), Ready h s.d → k &&& 0xF000#16 = 0 → s.d.mode = .idle → maskAxes k ≠ [] →
    (∀ a ∈ maskAxes k, a < s.d.mot.axes.length ∧ s.d.axEn a = true ∧ s.d.homeSw a ≤ 17 ∧
      (s.d.grp (s.d.axGroup a)).q = [] ∧ (s.d.grp (s.d.axGroup a)).cur = none ∧
      (s.d.grp (s.d.axGroup a)).still = true) →
    Does (.home h k) s fun d => d.mode = .homing ∧ d.prev = .idle ∧ Replied d h 0x42 stAccepted [] ∧
      (∃ o ∈ d.ops, o.op = .home ∧ o.session = h.session ∧ o.seq = h.seq) ∧
      (∀ a ∈ maskAxes k, (d.ax a).home ≠ none ∧ (d.ax a).valid = false ∧ (d.ax a).homed = false) ∧
      (∀ a, a ∉ maskAxes k → d.ax a = s.d.ax a) ∧
      d.hold = s.d.hold ∧ d.tim = s.d.tim ∧ d.flt = s.d.flt ∧ d.fsram = s.d.fsram ∧ d.dma = s.d.dma ∧
      (∀ a, a / 65536 ≠ 12 → a / 65536 ≠ 7 → (a / 65536 = 6 → s.d.lamp.rot = none) → d.rd a = s.d.rd a)) ∧
  (∀ (a : Nat) (hm : Machine.Homing) (s : State), (s.d.ax a).home = some hm → hm.st = .retryDue →
    s.d.sw (s.d.rf (Reg.MOT_A_LIM a) 4 0) = false → s.d.sw (s.d.rf (Reg.MOT_A_LIM a) 12 8) = false →
    Does (.homeRetry a) s fun d =>
      (d.ax a).home = some ⟨if s.d.sw (s.d.homeSw a) then .latch else .seek, 1, s.d.rd (Reg.MOT_A_HOME_V a), 0, 0, 0, 0⟩ ∧
      (∀ n, n ≠ a → d.ax n = s.d.ax n) ∧ Quiet { s.d with mot := { s.d.mot with axes := d.mot.axes } } d) ∧
  (∀ (a : Nat) (s : State), ((s.d.ax a).attempting = false ∨ (s.d.ax a).raws.length ≤ s.d.rd Reg.MOT_CHATTER_N) →
    Does (.switchChatter a) s fun d => d = s.d) ∧
  (∀ (a : Nat) (hm : Machine.Homing) (s : State), (s.d.ax a).home = some hm → hm.tries = 0 → a < 12 →
    (s.d.ax a).attempting = true → s.d.rd Reg.MOT_CHATTER_N < (s.d.ax a).raws.length →
    Does (.switchChatter a) s fun d =>
      (∃ x, (d.ax a).home = some x ∧ x.st = .retryDue ∧ x.tries = 1) ∧ (d.ax a).valid = false ∧
      d.rd Reg.MOT_CHATTER_CNT = min 0xFFFFFFFF (s.d.rd Reg.MOT_CHATTER_CNT + 1) ∧
      d.rd Reg.MOT_HOME_FAIL_CNT = min 0xFFFFFFFF (s.d.rd Reg.MOT_HOME_FAIL_CNT + 1) ∧
      bit (d.rd (Reg.MOT_A_STAT a)) 2 = true ∧ bit (d.rd (Reg.MOT_A_STAT a)) 3 = true ∧
      (∀ n, n ≠ a → d.ax n = s.d.ax n) ∧ d.mode = s.d.mode ∧ d.hold = s.d.hold ∧ d.flt = s.d.flt ∧ d.seq = s.d.seq) ∧
  (∀ (a : Nat) (hm : Machine.Homing) (s : State), (s.d.ax a).home = some hm → hm.tries ≠ 0 → s.d.mode = .homing →
    (s.d.ax a).attempting = true → s.d.rd Reg.MOT_CHATTER_N < (s.d.ax a).raws.length → a < 12 → s.d.regs.com = none →
    Does (.switchChatter a) s fun d => d.mode = .safe ∧ d.prev = .homing ∧ (d.ax a).home = none ∧
      d.seq.en = false ∧ bit (d.rd Reg.FLT_SAFE_CAUSE) scMotion = true ∧ Logged d 0xB 3 a) ∧
  (∀ (a : Nat) (s : State), (s.d.ax a).feN < 4 → Does (.followingError a) s fun d => d = s.d) ∧
  (∀ (a : Nat) (s : State), a < 12 → s.d.axEn a = true → s.d.axEnc a ≠ none → (s.d.ax a).home = none → s.d.mode = .idle →
    4 ≤ (s.d.ax a).feN → s.d.regs.com = none →
    Does (.followingError a) s fun d => d.mode = .safe ∧ d.prev = .idle ∧
      d.rd Reg.MOT_FE_CNT = min 0xFFFFFFFF (s.d.rd Reg.MOT_FE_CNT + 1) ∧
      bit (d.rd Reg.FLT_SAFE_CAUSE) scMotion = true ∧ Logged d 0xB 1 a) ∧
  (∀ (a : Nat) (s : State), a < 12 → s.d.axEn a = true → s.d.axEnc a ≠ none → (s.d.ax a).home = none → s.d.jobMode = true →
    4 ≤ (s.d.ax a).feN → s.d.feed = some (s.d.axGroup a) → s.d.axGroup a < s.d.mot.groups.length →
    (s.d.grp (s.d.axGroup a)).feLast = none →
    Does (.followingError a) s fun d => d.mode = s.d.mode ∧ bit d.hold hcFault = true ∧
      (d.grp (s.d.axGroup a)).feLast = some s.d.ns ∧ (d.grp (s.d.axGroup a)).st = .fault ∧ (d.grp (s.d.axGroup a)).v = 0 ∧
      d.rd Reg.MOT_FE_CNT = min 0xFFFFFFFF (s.d.rd Reg.MOT_FE_CNT + 1) ∧ Logged d 0xB 1 a ∧
      d.seq = s.d.seq ∧ d.lamp = s.d.lamp ∧ d.dma = s.d.dma ∧ d.tim = s.d.tim) ∧
  (∀ (a : Nat) (s : State), (s.d.ax a).resync = true →
    Does (.axisResync a) s fun d => (d.ax a).resync = false ∧ (d.ax a).feN = 0 ∧
      (∀ p, s.d.encPos a = some p → (d.ax a).pos = p) ∧ (s.d.encPos a = none → (d.ax a).pos = (s.d.ax a).pos) ∧
      (∀ n, n ≠ a → d.ax n = s.d.ax n) ∧
      Quiet { s.d with mot := d.mot, hold := d.hold, flt := { s.d.flt with why := d.flt.why } } d) ∧
  (∀ (g : Nat) (s : State), g < 4 → (s.d.grp g).st = .homing → s.d.jobMode = false → (s.d.grp g).restEnd = false →
    (s.d.grp g).limitBy = none → s.d.recurs 0xB 4 ((s.d.groupAxes g).headD 0) = none →
    Does (.stepWdog g) s fun d => (d.grp g).st = .halted ∧ (d.grp g).v = 0 ∧
      (∀ a ∈ s.d.groupAxes g, (d.ax a).home = (s.d.ax a).home.map fun hm => { hm with speed := 0, frac := 0 }) ∧
      d.rd Reg.MOT_WDOG_CNT = min 0xFFFFFFFF (s.d.rd Reg.MOT_WDOG_CNT + 1) ∧ bit (d.rd (Reg.MOT_G_FLAGS g)) 5 = true ∧
      d.mode = s.d.mode ∧ d.hold = s.d.hold) ∧
  (∀ (g : Nat) (s : State), g < 4 → (s.d.grp g).st = .run → s.d.jobMode = false → (s.d.grp g).restEnd = false →
    (s.d.grp g).limitBy = none →
    s.d.recurs 0xB 4 ((s.d.groupAxes g).headD 0) = none →
    Does (.stepWdog g) s fun d => (d.grp g).st = .halted ∧ (d.grp g).v = 0 ∧ (d.grp g).cur = (s.d.grp g).cur ∧
      (d.grp g).q = (s.d.grp g).q ∧ (∀ n, n ≠ g → d.grp n = s.d.grp n) ∧
      d.rd Reg.MOT_WDOG_CNT = min 0xFFFFFFFF (s.d.rd Reg.MOT_WDOG_CNT + 1) ∧ bit (d.rd (Reg.MOT_G_FLAGS g)) 5 = true ∧
      Logged d 0xB 4 ((s.d.groupAxes g).headD 0) ∧
      (∃ x ∈ d.flt.recs, x.level = 1 ∧ x.cls = 0xB ∧ x.code = 4) ∧ d.mode = s.d.mode ∧ d.hold = s.d.hold) ∧
  (∀ (g : Nat) (s : State),
    Does (.profileRestartDone g) s fun d =>
      (∀ x, x ∈ d.flt.recs ↔ x ∈ s.d.flt.recs ∧
        ¬ (x.cls = 0xB ∧ x.code = 4 ∧ x.unit = (s.d.groupAxes g).headD 0)) ∧
      (s.d.feed = some g → clrBit s.d.flt.why whyStepWd = 0 → d.hold = clrBit s.d.hold hcFault) ∧
      (s.d.feed ≠ some g → d.hold = s.d.hold) ∧ (∀ n, n ≠ g → d.grp n = s.d.grp n) ∧
      Quiet { s.d with mot := { s.d.mot with groups := d.mot.groups }, hold := d.hold
                       flt := { s.d.flt with recs := d.flt.recs, hist := d.flt.hist, why := d.flt.why } } d)

/-! Lamps. -/

/-- Lamp levels (R210 to R214): LAMP_LEVEL begins a shift and leaves the level in force; the end of a shift makes its
pattern await the latch; a latch with Catches disabled and no window open brings the level into force; a refresh shifts
idle chains again. A warm restart of the field die keeps the lamp outputs idle (R396). -/
def Obligations.LampLevels : Prop :=
  (∀ (h : Req) (n : Nat) (w : Word) (s : State), Ready h s.d → fld w 22 21 = 0 → s.d.mode = .idle → n < 16 →
    n < s.d.lamp.chains.length → chainEn s.d.regs.act n = true → fixedCount s.d.regs.act n ≤ levelLit w →
    levelLit w ≤ populated s.d.regs.act n → (levelOn w = 0 ∨ 8 ≤ levelOn w) → windowFits s.d.regs.act n w = true →
    Does (.lampLevel h n w) s fun d =>
      ((s.d.chain n).shifting = false →
        d.chain n = { s.d.chain n with want := some w, shifting := true, shifted := false }) ∧
      ((s.d.chain n).shifting = true → d.chain n = { s.d.chain n with next := some w }) ∧
      (∀ k, k ≠ n → d.chain k = s.d.chain k) ∧ Replied d h 0x50 stOk [] ∧
      Quiet { s.d with lamp := { s.d.lamp with chains := d.lamp.chains } } d) ∧
  (∀ (n : Nat) (s : State), (s.d.chain n).shifting = true → s.d.flt.l2run = false →
    Does (.lampShiftEnd n) s fun d =>
      ((s.d.chain n).next = none → d = { s.d with lamp := d.lamp } ∧
        d.chain n = { s.d.chain n with shifting := false, shifted := (s.d.chain n).want.isSome }) ∧
      (∀ w, (s.d.chain n).next = some w → d = { s.d with lamp := d.lamp, tx := d.tx } ∧
        d.chain n = { s.d.chain n with want := some w, next := none, shifting := true, shifted := false }) ∧
      ∀ k, k ≠ n → d.chain k = s.d.chain k) ∧
  (∀ (n : Nat) (w : Word) (s : State), s.d.seq.en = false → (s.d.chain n).shifted = true → (s.d.chain n).want = some w →
    (s.d.chain n).gate.any (fun g => decide (s.d.now < g.2)) = false →
    Does (.lampLatch n) s fun d => d.rd (Reg.LMP_C_LEVEL n) = w.toNat ∧
      d.chain n = { s.d.chain n with want := none, shifted := false } ∧ (∀ k, k ≠ n → d.chain k = s.d.chain k) ∧
      (∀ a, a ≠ Reg.LMP_C_LEVEL n → d.rd a = s.d.rd a) ∧ d = { s.d with lamp := d.lamp, regs := d.regs }) ∧
  (∀ s : State, s.d.fieldRuns = true → s.d.bzl.inhibit = false → s.d.flt.l2run = false →
    Does .lampRefresh s fun d => d = { s.d with lamp := { s.d.lamp with chains := d.lamp.chains }, tx := d.tx } ∧
      ∀ n, n < s.d.lamp.chains.length → d.chain n =
        if n < 16 ∧ chainEn s.d.regs.act n = true ∧ (s.d.chain n).shifting = false ∧ (s.d.chain n).want = none then
          { s.d.chain n with shifting := true } else s.d.chain n)

/-- Lamp diagnosis (R219 to R223): the samples of a normal-duty window go to LMP_Cn_SENSE, the second of a long one last; out of its thresholds in SCAN the chain is
suspect, the job holds with FAULT and later strokes are withheld; elsewhere it is only reported; a passing proof pulse is
counted. Confirmation and LAMP_TEST (R222, R224): a confirmation starts once the hold is quiet; TRANSIENT lets the job go on
and the next stroke carries LAMP_DIAG; any other finding is SAFE. A confirmation that FAULT_CLEAR asked for (R401) only
settles its chain. -/
def Obligations.LampDiagnosisAndConfirmation : Prop :=
  (∀ (n i m : Nat) (sec : Option (Nat × Nat)) (s : State), n < 16 → n < s.d.lamp.chains.length →
    levelOn (s.d.level n) ≠ 0 → i < 4096 → m < 4096 → (s.d.lampThr n).1 ≤ i → i ≤ (s.d.lampThr n).2.1 →
    (normalDuty s.d.regs.act n (s.d.level n) = true → sec.isSome = decide (2344 ≤ s.d.windowLen n) →
      sec.all (fun x => decide (x.1 < 4096 ∧ x.2 < 4096 ∧ (s.d.lampThr n).1 ≤ x.1 ∧ x.1 ≤ (s.d.lampThr n).2.1)) = true →
    Does (.lampWindowDiag n i m sec) s (fun d =>
      d.rd (Reg.LMP_C_SENSE n) = (sec.getD (i, m)).1 * 65536 + (sec.getD (i, m)).2 ∧
      ((s.d.chain n).diagN = 0 → (d.chain n).monf = 16 * m) ∧
      ((s.d.chain n).diagN ≠ 0 → (d.chain n).monf =
        ((s.d.chain n).monf + (16 * (m : Int) - (s.d.chain n).monf + 8) / 16).toNat) ∧
      (s.d.rf (Reg.LMP_C_MONREF n) 15 0 = 0 → d.rd (Reg.LMP_C_RATIO n) = 0) ∧
      (d.chain n).suspect = (s.d.chain n).suspect ∧ (∀ k, k ≠ n → d.chain k = s.d.chain k) ∧
      Quiet { s.d with lamp := d.lamp, regs := d.regs, seq := { s.d.seq with flight := d.seq.flight } } d)) ∧
    ((s.d.lampThr n).2.2 ≤ m →
      Does (.lampProofResult n i m) s fun d => d.rd (Reg.LMP_C_SENSE n) = i * 65536 + m ∧
        d.rd Reg.LMP_PROOF_CNT = min 0xFFFFFFFF (s.d.rd Reg.LMP_PROOF_CNT + 1) ∧
        (d.chain n).suspect = (s.d.chain n).suspect ∧ (∀ k, k ≠ n → d.chain k = s.d.chain k) ∧
        Quiet { s.d with lamp := d.lamp, regs := d.regs, seq := { s.d.seq with flight := d.seq.flight } } d)) ∧
  (∀ (n i m : Nat) (sec : Option (Nat × Nat)) (s : State), normalDuty s.d.regs.act n (s.d.level n) = false →
    Does (.lampWindowDiag n i m sec) s fun d => d = s.d) ∧
  (∀ (n i m : Nat) (sec : Option (Nat × Nat)) (s : State), n < 16 → n < s.d.lamp.chains.length →
    normalDuty s.d.regs.act n (s.d.level n) = true → sec.isSome = decide (2344 ≤ s.d.windowLen n) →
    ((i :: (sec.map Prod.fst).toList).any (fun x => decide (x < (s.d.lampThr n).1 ∨ (s.d.lampThr n).2.1 < x))) = true →
    (s.d.mode = .idle → s.d.cal.run = none →
      Does (.lampWindowDiag n i m sec) s fun d => d.rf (Reg.LMP_C_DIAG n) 31 24 = 1 ∧
        (d.chain n).suspect = (s.d.chain n).suspect ∧
        Quiet { s.d with lamp := d.lamp, regs := d.regs, seq := { s.d.seq with flight := d.seq.flight } } d) ∧
    (s.d.mode = .scan → s.d.recurs 0xA 1 n = none →
      Does (.lampWindowDiag n i m sec) s fun d => (d.chain n).suspect = true ∧ bit d.hold hcFault = true ∧
        d.rd Reg.LMP_SUSPECT_CNT = min 0xFFFFFFFF (s.d.rd Reg.LMP_SUSPECT_CNT + 1) ∧ d.seq.withhold = true ∧
        Logged d 0xA 1 n ∧ d.mode = .scan ∧ d.dma = s.d.dma ∧ d.tim = s.d.tim ∧ d.mot = s.d.mot)) ∧
  (∀ s : State, s.d.lamp.chains.any (·.suspect) = true → s.d.seq.en = false → s.d.seq.pend = [] →
    s.d.seq.flush = false → s.d.seq.flushDue = false → s.d.mode = .hold → s.d.flt.l2run = false →
    Does .lampConfirmStart s fun d => d.lamp.confirm = true ∧ (∀ k, (d.chain k).suspect = (s.d.chain k).suspect) ∧
      (∀ n, n < 16 → (s.d.chain n).suspect = true → (∀ k, k ≠ n → (s.d.chain k).suspect = false) →
        TestPulses s.d d n 700000 ∧ .lampShift n (shiftBits s.d.regs.act n (s.d.level n) (s.d.rots n)) ∈ d.tx) ∧
      Quiet { s.d with lamp := d.lamp, regs := d.regs, frees := d.frees } d) ∧
  (∀ (n : Nat) (dark p1 p2 : Nat × Nat) (s : State), n < 16 → s.d.lamp.confirm = true → (s.d.chain n).suspect = true →
    s.d.flt.clearing = false → finding (s.d.lampThr n) dark p1 p2 = 2 →
    Does (.lampConfirmDone n dark p1 p2) s fun d => (d.chain n).suspect = false ∧ d.lamp.diagNext = true ∧
      d.rd Reg.LMP_TRANSIENT_CNT = min 0xFFFFFFFF (s.d.rd Reg.LMP_TRANSIENT_CNT + 1) ∧ Logged d 0xA 5 n ∧
      ((∀ k, k ≠ n → (s.d.chain k).suspect = false) → d.lamp.confirm = false ∧ bit d.flt.why whyLamp = false) ∧
      d.mode = s.d.mode ∧ d.seq = s.d.seq ∧ d.mot = s.d.mot ∧ d.dma = s.d.dma ∧ d.tim = s.d.tim) ∧
  (∀ (n : Nat) (dark p1 p2 : Nat × Nat) (s : State), n < 16 → s.d.lamp.confirm = true → (s.d.chain n).suspect = true →
    s.d.flt.clearing = false → finding (s.d.lampThr n) dark p1 p2 ≠ 2 → s.d.mode = .hold → s.d.regs.com = none →
    Does (.lampConfirmDone n dark p1 p2) s fun d => d.mode = .safe ∧ d.prev = .hold ∧
      bit (d.rd Reg.FLT_SAFE_CAUSE) scLamp = true ∧ Logged d 0xA (finding (s.d.lampThr n) dark p1 p2 - 1) n ∧
      d.rd Reg.LMP_FAULT_CNT = min 0xFFFFFFFF (s.d.rd Reg.LMP_FAULT_CNT + 1)) ∧
  (∀ (n : Nat) (dark p1 p2 : Nat × Nat) (s : State), n < 16 → s.d.flt.clearing = true → n ∈ s.d.flt.lampClr →
    Does (.lampConfirmDone n dark p1 p2) s fun d => d.mode = s.d.mode ∧ d.hold = s.d.hold ∧ d.seq = s.d.seq ∧
      (finding (s.d.lampThr n) dark p1 p2 = 2 → d.flt.lampClr = s.d.flt.lampClr.filter (fun k => k != n) ∧
        d.rd Reg.LMP_TRANSIENT_CNT = min 0xFFFFFFFF (s.d.rd Reg.LMP_TRANSIENT_CNT + 1)) ∧
      (finding (s.d.lampThr n) dark p1 p2 ≠ 2 → d.flt.lampClr = s.d.flt.lampClr)) ∧
  (∀ (h : Req) (n : Nat) (s : State), Ready h s.d → s.d.mode ∈ [Mode.idle, .calibrate, .service] → n < 16 →
    chainEn s.d.regs.act n = true →
    Does (.lampTest h n) s fun d => Replied d h 0x51 stAccepted [] ∧
      (s.d.flt.l2run = false → TestPulses s.d d n 3500000) ∧ d.lamp.test = some n ∧ d.ops = s.d.ops ++ [⟨.lampTest n, h.session, h.seq⟩] ∧
      (d.chain n).suspect = (s.d.chain n).suspect ∧ (∀ k, k ≠ n → d.chain k = s.d.chain k) ∧
      Quiet { s.d with lamp := d.lamp, regs := d.regs, ops := d.ops, frees := d.frees } d) ∧
  (∀ (n : Nat) (dark p1 p2 : Nat × Nat) (s : State), n < 16 → s.d.opRuns (fun o => o == .lampTest n) = true →
    p2.1 < 4096 → p2.2 < 4096 →
    Does (.lampTestDone n dark p1 p2) s fun d => d.lamp.test = none ∧ d.rd (Reg.LMP_C_SENSE n) = p2.1 * 65536 + p2.2 ∧
      d.ops = s.d.ops.filter (fun o => o.op != .lampTest n) ∧
      Quiet { s.d with lamp := d.lamp, regs := d.regs, ops := d.ops } d)

/-- Wear rotation (R225 to R227): the first due chain rotates; a rotation whose dwell means agree is kept, counted and
stored; another is undone. LAMP_RECORD_STORE writes the chain's record to the store. Mains compensation (R228, R229): an edge less than 5 ms after the last is ignored; four good intervals in succession
lock to their mean; a loss unlocks, is counted and keeps the levels. -/
def Obligations.LampWearAndMains : Prop :=
  (∀ (n : Nat) (s : State), s.d.mode = .idle → s.d.seq.scanWait = false → s.d.lamp.rot = none →
    s.d.flt.l2run = false → s.d.rf Reg.LMP_ROT_CTRL 0 0 = 1 → n < 16 →
    (∀ k, k ≤ n → (decide (k = n) = (chainEn s.d.regs.act k &&
      decide (60 * s.d.rf Reg.LMP_ROT_CTRL 31 16 ≤ s.d.rd (Reg.LMP_C_ROT_MIN k)) &&
      !bit (s.d.rd (Reg.LMP_C_DIAG k)) 5))) → s.d.rotGroups n ≠ [] →
    Does .lampRotCheck s fun d => d.lamp.rot = some n ∧ Dwells s.d d n ∧ (∀ k, k ≠ n → d.chain k = s.d.chain k) ∧
      Quiet { s.d with lamp := d.lamp, frees := d.frees } d) ∧
  (∀ (n m1 m2 m3 : Nat) (s : State), n < 16 → n < s.d.lamp.chains.length → s.d.lamp.rot = some n → s.d.mode = .idle →
    ((2 * m2 : Int) - ((m1 + m3 : Nat) : Int)).natAbs * 10000 ≤ s.d.rf Reg.LMP_ROT_TOL 15 0 * (m1 + m3) →
    Does (.lampRotDone n m1 m2 m3) s fun d => d.lamp.rot = none ∧ d.rots n = s.d.rotNext n ∧
      d.rd (Reg.LMP_C_ROT_MIN n) = 0 ∧ d.rd Reg.LMP_ROT_CNT = min 0xFFFFFFFF (s.d.rd Reg.LMP_ROT_CNT + 1) ∧
      (d.chain n).undone = 0 ∧ d.cal.writes = s.d.cal.writes ++ [d.lampRecord n] ∧
      Quiet { s.d with lamp := d.lamp, regs := d.regs, cal := d.cal } d) ∧
  (∀ (n m1 m2 m3 : Nat) (s : State), n < 16 → s.d.lamp.rot = some n → s.d.mode = .idle →
    s.d.rf Reg.LMP_ROT_TOL 15 0 * (m1 + m3) < ((2 * m2 : Int) - ((m1 + m3 : Nat) : Int)).natAbs * 10000 →
    Does (.lampRotDone n m1 m2 m3) s fun d => d.lamp.rot = none ∧ d.rots n = s.d.rots n ∧
      d.rd (Reg.LMP_C_ROT_MIN n) = s.d.rd (Reg.LMP_C_ROT_MIN n) ∧
      d.rd Reg.LMP_ROT_UNDO_CNT = min 0xFFFFFFFF (s.d.rd Reg.LMP_ROT_UNDO_CNT + 1) ∧
      Quiet { s.d with lamp := d.lamp, regs := d.regs } d) ∧
  (∀ (n : Nat) (s : State),
    Does (.lampRecordStore n) s fun d =>
      d = { s.d with cal := { s.d.cal with writes := s.d.cal.writes ++ [s.d.lampRecord n] } }) ∧
  (∀ (t : Nat) (s : State), t ≤ s.d.now → acEn s.d.regs.act = true →
    Does (.acSyncEdge t) s fun d =>
      (s.d.lamp.acEdge = none → d = { s.d with lamp := { s.d.lamp with acEdge := some t } }) ∧
      (∀ e, s.d.lamp.acEdge = some e → t < e + msCyc 5 → d = s.d) ∧
      (∀ e, s.d.lamp.acEdge = some e → e + msCyc 5 ≤ t →
        d.lamp.acEdge = some t ∧ d.lamp.acInt = ((t - e) :: s.d.lamp.acInt).take 4 ∧
        (mainsLock (((t - e) :: s.d.lamp.acInt).take 4) = none → d.lamp.acLock = s.d.lamp.acLock) ∧
        (∀ m, mainsLock (((t - e) :: s.d.lamp.acInt).take 4) = some m → d.lamp.acLock = true ∧ d.lamp.acT = m)) ∧
      Quiet { s.d with lamp := d.lamp } d) ∧
  (∀ s : State, s.d.lamp.acLock = true →
    Does .acLoss s fun d => d.rd Reg.LMP_AC_LOSS_CNT = min 0xFFFFFFFF (s.d.rd Reg.LMP_AC_LOSS_CNT + 1) ∧
      Quiet { s.d.bump Reg.LMP_AC_LOSS_CNT with
        lamp := { s.d.lamp with acLock := false, acInt := [], acEdge := none } } d)

/-! The Bezel. -/

/-- Frames at a receiver (R19 to R22): a good frame in sequence acknowledges the other direction's frames, and CMD frames
that waited for room go out; a damaged frame, or one that shows a frame missing, is answered with a NAK, once until the
replay comes, and damage in the replay with another; one of a type its direction does not carry is discarded and counted; a
NAK makes the other transmitter send its retry buffer again, oldest first, marked as a replay; an idle link sends IDLE. -/
def Obligations.BezelFrames : Prop :=
  (∀ (r : Dir) (f : Frame) (s : State), FrameIn s.d r f →
    Does (.bzlIdleRx r f) s fun d => FrameTaken s.d d r f [] ∧ d = { s.d with bzl := d.bzl, tx := d.tx } ∧
      d.bzl = { s.d.bzl with f2h := d.bzl.f2h, h2f := d.bzl.h2f, wait := d.bzl.wait }) ∧
  (∀ (r : Dir) (f : Frame) (s : State),
    frameGood f = false ∨ (frameBad r f = false ∧ f.replay = false ∧ f.seq ≠ (s.d.bzlLink r).rxNext) →
    ((s.d.bzlLink r).await = true → f.replay = false → Does (.bzlIdleRx r f) s fun d => d = s.d) ∧
    ((s.d.bzlLink r).await = false ∨ f.replay = true →
      Does (.bzlIdleRx r f) s fun d =>
        d.tx = .bezel (otherDir r) (s.d.idleFrame (otherDir r) true) :: s.d.tx ∧
        d = { s.d with bzl := d.bzl, tx := d.tx } ∧ d.bzlLink (otherDir r) = s.d.bzlLink (otherDir r) ∧
        d.bzlLink r = { s.d.bzlLink r with await := true })) ∧
  (∀ (r : Dir) (f : Frame) (s : State), frameBad r f = true →
    Does (.bzlFrameDiscard r f) s fun d => d = s.d.bump Reg.PWR_BZL_DISCARD_CNT) ∧
  (∀ (r : Dir) (f : Frame) (s : State), frameGood { f with nak := true } = true → frameBad r f = false →
    f.seq = (s.d.bzlLink r).rxNext →
    Does (.bzlReplay r f) s fun d => FrameTaken s.d d r f (((s.d.bzlLink (otherDir r)).acked f.ack).retry.map
        (fun x => Out.bezel (otherDir r) (sealFrame { x with replay := true }))) ∧
      (((s.d.bzlLink (otherDir r)).acked f.ack).retry ≠ [] →
        d.rd Reg.PWR_BZL_REPLAY_CNT = min 0xFFFFFFFF (s.d.rd Reg.PWR_BZL_REPLAY_CNT + 1)) ∧
      d = { s.d with bzl := d.bzl, tx := d.tx, regs := d.regs } ∧
      ∀ a, a ≠ Reg.PWR_BZL_REPLAY_CNT → d.rd a = s.d.rd a) ∧
  (∀ (r : Dir) (s : State), (s.d.bzlLink r).up = true →
    Does (.bzlIdleTx r) s fun d => d = { s.d with tx := .bezel r (s.d.idleFrame r false) :: s.d.tx })

/-- What frames bring (R17 to R19, R33): an EVENT frame is taken; a REPLY ends its CMD; TIME sets the field replica,
corrected for the link latency; TIME is sent with the counter and its increment; a CMD is answered with a REPLY and hands
the feed group a Cox limit, its release or a stop point for the next boundary, the field supervisor a mode, or field SRAM
its bytes. Field STATUS (R421, R460, R66): the third good report in succession in STANDBY begins WAKE; a report without PG_F while
the field side runs is its loss; no report for 3 ms in STANDBY ends presence. -/
def Obligations.BezelTrafficAndStatus : Prop :=
  (∀ (f : Frame) (s : State), FrameIn s.d .f2h f →
    Does (.bzlEventRx f) s (fun d => FrameTaken s.d d .f2h f [] ∧ d = { s.d with bzl := d.bzl, tx := d.tx } ∧
      d.bzl = { s.d.bzl with f2h := d.bzl.f2h, h2f := d.bzl.h2f, wait := d.bzl.wait }) ∧
    Does (.bzlReplyRx f) s (fun d => FrameTaken s.d d .f2h f [] ∧ d = { s.d with bzl := d.bzl, tx := d.tx } ∧
      d.bzl = { s.d.bzl with f2h := d.bzl.f2h, h2f := d.bzl.h2f, wait := d.bzl.wait
                             cmds := s.d.bzl.cmds.filter (· != f.tag) })) ∧
  (∀ (f : Frame) (s : State), FrameIn s.d .h2f f → f.typ = 6 →
    Does (.bzlTimeRx f) s fun d => FrameTaken s.d d .h2f f [] ∧ d = { s.d with bzl := d.bzl, tim := { s.d.tim with
      rep := getBe f.payload 0 12 + s.d.bzl.lat, repIncr := getBe f.payload 12 8 } }) ∧
  (∀ s : State, s.d.bzl.h2f.up = true → s.d.bzl.h2f.retry.length < 64 →
    Does .timeFrameTx s fun d => d.bzl.timeTx = s.d.tim.cnt ∧ d = { s.d with bzl := d.bzl, tx := d.tx } ∧
      ∃ f : Frame, f.typ = 6 ∧ f.seq = s.d.bzl.h2f.txSeq ∧ f.payload = timePayload s.d.tim.cnt s.d.tim.incr ∧
        frameGood f = true ∧
        d.tx = .bezel .h2f f :: s.d.tx ∧ d.bzl.h2f.retry = s.d.bzl.h2f.retry ++ [f] ∧
        d.bzl.h2f.txSeq = (s.d.bzl.h2f.txSeq + 1) % 65536) ∧
  (∀ (f : Frame) (g : Nat) (s : State), FrameIn s.d .h2f f → f.typ = 4 → f.tag ∉ s.d.bzl.applied →
    s.d.feed = some g → g < s.d.mot.groups.length →
    (∀ v, s.d.jobMode = true → Does (.bzlCmdRx f (.coxLimit v)) s fun d => ∃ e, CmdTaken s.d e f ∧
      d.grp g = { s.d.grp g with paceNext := some (some v) } ∧ (∀ n, n ≠ g → d.grp n = s.d.grp n) ∧
      d = { e with mot := { s.d.mot with groups := d.mot.groups } }) ∧
    Does (.bzlCmdRx f .coxRelease) s (fun d => ∃ e, CmdTaken s.d e f ∧
      d.grp g = { s.d.grp g with paceNext := some none } ∧ (∀ n, n ≠ g → d.grp n = s.d.grp n) ∧
      d = { e with mot := { s.d.mot with groups := d.mot.groups } }) ∧
    (∀ (p : Int) (m : Move) (x : Nat × Int), (s.d.grp g).cur = some m →
      m.start.find? (fun t => some t.1 == m.lead) = some x →
      Does (.bzlCmdRx f (.coxStop p)) s fun d => ∃ e, CmdTaken s.d e f ∧
        d.grp g = { s.d.grp g with stopAt := some (min m.lenU ((p - x.2).natAbs * motHz2)) } ∧
        (∀ n, n ≠ g → d.grp n = s.d.grp n) ∧ d = { e with mot := { s.d.mot with groups := d.mot.groups } })) ∧
  (∀ (f : Frame) (c : FieldCmd) (s : State), FrameIn s.d .h2f f → f.typ = 4 → f.tag ∈ s.d.bzl.applied →
    (∀ o n, c ≠ .sramRead o n) → Does (.bzlCmdRx f c) s fun d => ∃ e, CmdTaken s.d e f ∧
      d = { e with bzl := { e.bzl with applied := s.d.bzl.applied.filter (fun t => t != f.tag) } }) ∧
  (∀ (f : Frame) (s : State), FrameIn s.d .h2f f → f.typ = 4 → f.tag ∉ s.d.bzl.applied →
    (∀ a v, Does (.bzlCmdRx f (.paramWrite a v)) s fun d => ∃ e, CmdTaken s.d e f ∧
      d = { e with bzl := { e.bzl with fieldWords := aset s.d.bzl.fieldWords a v } }) ∧
    ∀ m : Mode, Does (.bzlCmdRx f (.mode m.code)) s fun d => ∃ e, CmdTaken s.d e f ∧
      d = { e with bzl := { e.bzl with fieldMode := m } }) ∧
  (∀ (f : Frame) (o : Nat) (data : List Byte) (s : State), FrameIn s.d .h2f f → f.typ = 4 → f.tag ∉ s.d.bzl.applied →
    data ≠ [] → o + data.length ≤ 0x900000 →
    (s.d.fieldInUse o data.length = false → Does (.bzlCmdRx f (.sramWrite o data)) s fun d => ∃ e, CmdTaken s.d e f ∧
      (∀ i, i < data.length → mget d.fsram (o + i) = data.getD i 0) ∧
      (∀ a, a < o ∨ o + data.length ≤ a → mget d.fsram a = mget s.d.fsram a) ∧
      (∀ m, m < 8 → bit d.cal.valid m = (bit s.d.cal.valid m && !touches o data.length (0x100000 * m) 983104)) ∧
      (∀ m, m < 8 → touches o data.length (0x100000 * m) 983104 = true → aget d.cal.monRec m = none) ∧
      d.flt.poison = s.d.flt.poison.filter (fun x => !decide (o ≤ x.2 ∧ x.2 + 8 ≤ o + data.length)) ∧
      d = { e with fsram := d.fsram
                   flt := { s.d.flt with poison := d.flt.poison }
                   cal := { s.d.cal with valid := d.cal.valid, crcFail := d.cal.crcFail, chk := d.cal.chk
                                         monRec := d.cal.monRec, heads := d.cal.heads } }) ∧
    (s.d.fieldInUse o data.length = true → Does (.bzlCmdRx f (.sramWrite o data)) s fun d => ∃ e, CmdTaken s.d e f ∧
      d = e.bump Reg.PIX_MAP_REFUSE_CNT)) ∧
  (∀ (f : Frame) (st : FieldStatus) (s : State), FrameIn s.d .f2h f → f.typ = 2 → s.d.mode = .standby →
    st.rails = 31#5 → st.pgF = true → s.d.bzl.goodStatus = 2 → s.d.pwr.nrstF = true → s.d.rf Reg.DEV_CTRL 0 0 = 0 →
    Does (.bzlStatusRx f st) s fun d => d.mode = .wake ∧ d.prev = .standby ∧ d.trans = (s.d.trans + 1) % 65536 ∧
      d.bzl.goodStatus = 3 ∧ d.bzl.tField = st.tField.toNat ∧ d.rd Reg.PWR_RAIL_F = 31 ∧
      d.rd (Reg.CAL_TQ 0) = st.tq0.toNat ∧ d.rd (Reg.CAL_TQ 3) = st.tq3.toNat ∧ d.hold = s.d.hold ∧
      d.mot = { s.d.mot with groups := d.mot.groups } ∧ (∀ g, d.grp g = { s.d.grp g with drive := (d.grp g).drive }) ∧
      d.dma = s.d.dma ∧ d.flt = s.d.flt ∧ d.tim = s.d.tim ∧ d.fsram = s.d.fsram) ∧
  (∀ (f : Frame) (st : FieldStatus) (s : State), FrameIn s.d .f2h f → f.typ = 2 → s.d.mode = .idle → st.pgF = true →
    Does (.bzlStatusRx f st) s fun d => d.rd Reg.PWR_RAIL_F = st.rails.toNat ∧
      d.bzl.goodStatus = (if st.rails = 31#5 then min 3 (s.d.bzl.goodStatus + 1) else 0) ∧
      d.bzl.vrefx = st.vrefxUv ∧ d.rd Reg.CAL_TBZ_F = st.tbzF.toNat ∧
      (st.mode = s.d.mode.code → FrameTaken s.d d .f2h f [] ∧ d.bzl.cmds = s.d.bzl.cmds) ∧
      (st.mode ≠ s.d.mode.code → s.d.bzl.cmds = [] → s.d.bzl.h2f.up = true →
        d.bzl.cmds = [s.d.bzl.cmdTag] ∧ d.bzl.cmdTag = (s.d.bzl.cmdTag + 1) % 2 ^ 32) ∧
      d = { s.d with bzl := d.bzl, regs := d.regs, tx := d.tx, afe := { s.d.afe with vrefKept := d.afe.vrefKept } } ∧
      ∀ a, a ≠ Reg.PWR_RAIL_F → (∀ q, q < 4 → a ≠ Reg.CAL_TQ q) → a ≠ Reg.CAL_TBZ_F → d.rd a = s.d.rd a) ∧
  (∀ (f : Frame) (st : FieldStatus) (s : State), FrameIn s.d .f2h f → f.typ = 2 → s.d.fieldRuns = true →
    st.pgF = false → s.d.jobHeld = true → s.d.pwr.gridLost = false → s.d.regs.com = none → s.d.cal.run = none →
    Does (.bzlStatusRx f st) s fun d => d.mode = .standby ∧ d.prev = s.d.mode ∧ d.bzl.goodStatus = 0 ∧
      d.pwr.gridLost = true ∧ bit d.hold hcHost = true ∧ d.seq.en = false ∧ d.seq.flight = [] ∧
      d.rd Reg.PWR_FIELD_LOSS_CNT = min 0xFFFFFFFF (s.d.rd Reg.PWR_FIELD_LOSS_CNT + 1) ∧
      d.flt = s.d.flt ∧ d.tim = s.d.tim ∧ d.dma = s.d.cutChannels.dma ∧ d.fsram = s.d.fsram) ∧
  (∀ s : State, (s.d.mode = .standby ∨ s.d.mode = .reset) →
    Does .fieldAbsent s fun d => d = { s.d with bzl := { s.d.bzl with goodStatus := 0 } })

/-- Strokes across the Bezel (R21, R180, R181): staged frames go out while fewer than 64 wait for an acknowledgement; a
frame that is not the last joins the stroke of its TAG; a stroke whose trailer fails its CRC is discarded, counted and
logged, and FAULT is set until its buffers are released. -/
def Obligations.StrokeFrames : Prop :=
  (∀ s : State, s.d.bzl.f2h.up = true → s.d.bzl.f2h.retry.length ≤ 64 → s.d.bzl.f2h.txSeq < 65536 →
    Does .strokeFrameTx s fun d =>
      d.bzl.stage = s.d.bzl.stage.drop (64 - s.d.bzl.f2h.retry.length) ∧
      d.bzl.f2h.retry.map (·.payload) = s.d.bzl.f2h.retry.map (·.payload) ++
        (s.d.bzl.stage.take (64 - s.d.bzl.f2h.retry.length)).map (·.payload) ∧
      d.bzl.f2h.txSeq = (s.d.bzl.f2h.txSeq + min s.d.bzl.stage.length (64 - s.d.bzl.f2h.retry.length)) % 65536 ∧
      d = { s.d with bzl := d.bzl, tx := d.tx }) ∧
  (∀ (f : Frame) (s : State), FrameIn s.d .f2h f → f.typ = 1 → f.first = true → f.offset = 0 → f.last = false →
    Does (.strokeFrameRx f) s fun d => FrameTaken s.d d .f2h f [] ∧ d = { s.d with bzl := d.bzl, tx := d.tx } ∧
      d.bzl = { s.d.bzl with f2h := d.bzl.f2h, h2f := d.bzl.h2f, wait := d.bzl.wait
                             asm := some ⟨w32 f.tag, f.payload⟩ }) ∧
  (∀ (f : Frame) (a : Assembly) (s : State), FrameIn s.d .f2h f → f.typ = 1 → s.d.bzl.asm = some a → f.first = false →
    a.tag.toNat = f.tag → f.offset = a.bytes.length → f.last = false →
    Does (.strokeFrameRx f) s fun d => FrameTaken s.d d .f2h f [] ∧ d = { s.d with bzl := d.bzl, tx := d.tx } ∧
      d.bzl = { s.d.bzl with f2h := d.bzl.f2h, h2f := d.bzl.h2f, wait := d.bzl.wait
                             asm := some ⟨a.tag, a.bytes ++ f.payload⟩ }) ∧
  (∀ (f : Frame) (s : State), FrameIn s.d .f2h f → f.typ = 1 → f.first = true → f.offset = 0 → f.last = true →
    64 ≤ f.payload.length → tCrcOk (f.payload.drop (f.payload.length - 64)) = false →
    Does (.strokeFrameRx f) s fun d => d.bzl.asm = none ∧ d.pages.discard = true ∧ bit d.hold hcFault = true ∧
      bit d.flt.why whyDiscard = true ∧ d.rd Reg.PAGE_CRC_ERR_CNT = min 0xFFFFFFFF (s.d.rd Reg.PAGE_CRC_ERR_CNT + 1) ∧
      Logged d 9 1 0 ∧ d.pages.lastIng = s.d.pages.lastIng ∧ d.pages.list = s.d.pages.list ∧ d.mode = s.d.mode ∧
      d.seq = s.d.seq ∧ d.mot = s.d.mot ∧ d.dma = s.d.dma) ∧
  (∀ (f : Frame) (s : State), FrameIn s.d .f2h f → f.typ = 1 → f.first = true → f.offset = 0 → f.last = true →
    64 ≤ f.payload.length → tCrcOk (f.payload.drop (f.payload.length - 64)) = true →
    f.payload.length = tPayload (f.payload.drop (f.payload.length - 64)) + 64 →
    beW (crc32c (f.payload.take (f.payload.length - 64))) = slice (f.payload.drop (f.payload.length - 64)) 52 4 →
    (tNo (f.payload.drop (f.payload.length - 64)) ≤ s.d.pages.lastIng →
      Does (.strokeFrameRx f) s fun d => d.bzl.asm = none ∧
        d = { s.d.bump Reg.PAGE_DUP_CNT with bzl := d.bzl, tx := d.tx }) ∧
    (s.d.pages.lastIng < tNo (f.payload.drop (f.payload.length - 64)) → s.d.jobHeld = false →
      Does (.strokeFrameRx f) s fun d => d.bzl.asm = none ∧
        d.pages.lastIng = tNo (f.payload.drop (f.payload.length - 64)) ∧ d.pages.list = s.d.pages.list ∧
        d.mode = s.d.mode ∧ d.hold = s.d.hold ∧ d.seq = s.d.seq ∧ d.flt = s.d.flt)) ∧
  (∀ s : State, s.d.pages.discard = true →
    Does .strokeDiscardRelease s fun d => d.pages.discard = false ∧ bit d.flt.why whyDiscard = false ∧
      (clrBit s.d.flt.why whyDiscard = 0 → d.hold = clrBit s.d.hold hcFault) ∧
      d = { s.d with pages := { s.d.pages with discard := false }, hold := d.hold
                     flt := { s.d.flt with why := d.flt.why } })

/-- Lanes (R24 to R26, R314): a failed or degraded lane is declared and logged, the lowest ready spare takes its place, the
lane is retrained and tested, and comes back as a spare; once the temperature has moved by more than CAL_DTEMP since a
lane's last training, a planned retraining swaps the lowest such lane with a spare. -/
def Obligations.BezelLanes : Prop :=
  (∀ (r : Dir) (n : Nat) (s : State), n < lanesOf r → bit (s.d.bzlLink r).bad n = false →
    s.d.recurs 2 1 (laneUnit r n) = none →
    (bit (s.d.bzlLink r).map n = true →
      Does (.bzlLaneFail r n) s fun d => d.bzlLink r = { s.d.bzlLink r with bad := setBit (s.d.bzlLink r).bad n } ∧
        d.bzlLink (otherDir r) = s.d.bzlLink (otherDir r) ∧ Logged d 2 1 (laneUnit r n) ∧
        (∃ x ∈ d.flt.recs, x.level = 0 ∧ x.cls = 2 ∧ x.unit = laneUnit r n) ∧
        Quiet { s.d with bzl := d.bzl, flt := d.flt, regs := d.regs } d) ∧
    (bit (s.d.bzlLink r).map n = false → bit (s.d.bzlLink r).spares n = true →
      Does (.bzlLaneFail r n) s fun d => d.bzlLink r = { s.d.bzlLink r with
          spares := clrBit (s.d.bzlLink r).spares n, retrain := setBit (s.d.bzlLink r).retrain n } ∧
        Logged d 2 1 (laneUnit r n) ∧ Quiet { s.d with bzl := d.bzl, flt := d.flt, regs := d.regs } d) ∧
    (∀ e, s.d.rd Reg.PWR_BZL_DEG_N ≤ e → bit (s.d.bzlLink r).map n = true →
      Does (.bzlLaneDegraded r n e) s fun d => d.bzlLink r = { s.d.bzlLink r with bad := setBit (s.d.bzlLink r).bad n } ∧
        Logged d 2 1 (laneUnit r n) ∧ Quiet { s.d with bzl := d.bzl, flt := d.flt, regs := d.regs } d) ∧
    (∀ e, e < s.d.rd Reg.PWR_BZL_DEG_N → Does (.bzlLaneDegraded r n e) s fun d => d = s.d)) ∧
  (∀ (r : Dir) (n k : Nat) (s : State), bitsOf (s.d.bzlLink r).bad (lanesOf r) = [n] →
    (s.d.bzlLink r).spare? = some k → bit (s.d.bzlLink r).map n = true → bit (s.d.bzlLink r).map k = false →
    Does (.bzlLaneSpare r) s fun d => (d.bzlLink r).map = setBit (clrBit (s.d.bzlLink r).map n) k ∧
      (d.bzlLink r).spares = clrBit (s.d.bzlLink r).spares k ∧ (d.bzlLink r).bad = clrBit (s.d.bzlLink r).bad n ∧
      bit (d.bzlLink r).retrain n = true ∧ d.bzlLink (otherDir r) = s.d.bzlLink (otherDir r) ∧
      d = { s.d.bump Reg.PWR_BZL_SPARE_CNT with bzl := d.bzl }) ∧
  (∀ (r : Dir) (n : Nat) (s : State), n < lanesOf r → bit (s.d.bzlLink r).retrain n = true →
    Does (.bzlLaneRetrainDone r n) s fun d =>
      d.bzlLink r = { s.d.bzlLink r with
        retrain := clrBit (s.d.bzlLink r).retrain n, test := setBit (s.d.bzlLink r).test n } ∧
      d.bzlLink (otherDir r) = s.d.bzlLink (otherDir r) ∧ d.mode = s.d.mode ∧ d.hold = s.d.hold ∧
      d.rf (laneWord r n) 31 16 = s.d.laneTemp r % 65536 ∧ d.flt.log = s.d.flt.log ∧
      d = { s.d with bzl := d.bzl, flt := d.flt, regs := d.regs, cal := { s.d.cal with heads := d.cal.heads } }) ∧
  (∀ (r : Dir) (n : Nat) (s : State), bit (s.d.bzlLink r).test n = true → (s.d.bzlLink r).todo = [] →
    s.d.cal.run = none → (∀ x ∈ (s.d.bzlLink r).swap, x.1 ≠ n) →
    Does (.bzlLaneTestDone r n true) s (fun d => d.bzlLink r = { s.d.bzlLink r with
        test := clrBit (s.d.bzlLink r).test n, spares := setBit (s.d.bzlLink r).spares n } ∧
      d = { s.d with bzl := d.bzl }) ∧
    Does (.bzlLaneTestDone r n false) s (fun d =>
      d.bzlLink r = { s.d.bzlLink r with test := clrBit (s.d.bzlLink r).test n } ∧ Logged d 2 2 (laneUnit r n) ∧
      Quiet { s.d with bzl := d.bzl, flt := d.flt } d)) ∧
  (∀ (r : Dir) (n k : Nat) (s : State), bit (s.d.rd Reg.CAL_CTRL) 2 = true → bit (s.d.bzlLink r).map n = true →
    bit (s.d.bzlLink r).bad n = false → (s.d.bzlLink r).retrain = 0 → (s.d.bzlLink r).test = 0 →
    s.d.rd Reg.CAL_DTEMP < (sext 16 (s.d.laneTemp r) - sext 16 (s.d.rf (laneWord r n) 31 16)).natAbs →
    (∀ m, m < n → s.d.laneDue r m = false) → (s.d.bzlLink r).spare? = some k →
    Does (.bzlLaneTempRetrain r n) s fun d => d.bzlLink r = { s.d.bzlLink r with
        map := setBit (clrBit (s.d.bzlLink r).map n) k, spares := clrBit (s.d.bzlLink r).spares k
        retrain := setBit 0 n, sub := setBit (clrBit (s.d.bzlLink r).sub n) k
        swap := (s.d.bzlLink r).swap ++ [(n, k)] } ∧
      d.bzlLink (otherDir r) = s.d.bzlLink (otherDir r) ∧ d = { s.d.bump Reg.PWR_BZL_SPARE_CNT with bzl := d.bzl }) ∧
  (∀ (c : CalRun) (n : Nat) (t : List Nat) (s : State), s.d.cal.run = some c → c.kind = 3 → s.d.bzl.f2h.todo = n :: t →
    bit s.d.bzl.f2h.map n = true → s.d.bzl.f2h.spares = 0 → s.d.bzl.f2h.retrain = 0 → s.d.bzl.f2h.test = 0 →
    Does .retrainSpareWaitTimeout s fun d => d.cal.run = none ∧ d.bzl.f2h.todo = [] ∧ d.bzl.h2f.todo = [] ∧
      d.ops = s.d.ops.filter (fun o => o.op != .calRun) ∧
      Quiet { s.d with bzl := d.bzl, cal := { s.d.cal with run := none }, ops := d.ops } d)

/-- Link loss and return, holdover and LINK (R23, R28, R29, R31): a direction that goes down inhibits Catches and sets
LINK; the field clocks hold over, relock, or run on the local oscillator, with every stroke withheld; both directions up
end it all: what was not acknowledged is sent again, every lane's temperature is kept as that of its training, SERVICE and a
capturing run in CALIBRATE go on with their Catches (R94), and LINK clears with the staging
buffer below a quarter. The clocks (R32, R392): an unlock of the root PLL is FAULT and a recovery; a crystal failure stops the host side and
leaves the field side on its own oscillator, with no Catch; when the crystal runs again a level 3 restart follows. -/
def Obligations.BezelLinkAndClocks : Prop :=
  (∀ s : State, 3 * 1048576 ≤ 4 * s.d.staged →
    Does .bzlStageHigh s fun d => d = s.d.setHold hcLink ∧ bit d.hold hcLink = true) ∧
  (∀ (r : Dir) (s : State), (s.d.bzlLink r).up = true → s.d.fieldRuns = true → s.d.regs.com = none →
    s.d.recurs 2 3 0 = none →
    Does (.bzlLinkDown r) s fun d => (d.bzlLink r).up = false ∧ d.bzl.inhibit = true ∧ bit d.hold hcLink = true ∧
      d.seq.en = false ∧ d.seq.flight = s.d.seq.flight ∧ d.seq.strokeNo = s.d.seq.strokeNo ∧
      d.bzlLink (otherDir r) = s.d.bzlLink (otherDir r) ∧ Logged d 2 3 0 ∧ d.mode = s.d.mode ∧ d.jobs = s.d.jobs ∧
      d.pages = s.d.pages ∧ d.dma = s.d.cutChannels.dma ∧ d.tim = s.d.tim) ∧
  (∀ s : State, s.d.bzl.localOsc = false →
    Does .fieldHoldover s fun d => d = { s.d with bzl := { s.d.bzl with holdover := true, fieldLock := false } }) ∧
  (∀ s : State, s.d.bzl.localOsc = false → s.d.bzl.holdover = true →
    s.d.bzl.h2f.map &&& (15 ^^^ s.d.bzl.h2f.bad) ≠ 0 →
    Does .fieldPllRelock s fun d =>
      d = { s.d with bzl := { s.d.bzl with holdover := false, fieldLock := true, refLane := s.d.refLane } }) ∧
  (∀ s : State, s.d.bzl.holdover = true → s.d.bzl.inhibit = false → s.d.fieldRuns = true → s.d.mode ≠ .calibrate →
    s.d.regs.com = none → s.d.recurs 2 3 0 = none →
    Does .fieldLocalOsc s fun d => d.bzl.localOsc = true ∧ d.bzl.holdover = false ∧ d.bzl.inhibit = true ∧
      bit d.hold hcLink = true ∧ d.seq.en = false ∧ d.seq.ht = [] ∧
      d.seq.flight = [] ∧ d.seq.strokeNo = s.d.seq.strokeNo ∧ d.mode = s.d.mode) ∧
  (∀ (lat : Nat) (s : State), s.d.fieldRuns = true → s.d.mode ≠ .wake → s.d.bzl.rootLock = true →
    Does (.bzlLinkUp lat) s fun d => d.bzl.f2h.up = true ∧ d.bzl.h2f.up = true ∧ d.bzl.inhibit = false ∧
      d.bzl.holdover = false ∧ d.bzl.localOsc = false ∧ d.bzl.fieldLock = true ∧ d.bzl.lat = lat ∧
      (∀ x ∈ d.flt.recs, ¬ (x.cls = 2 ∧ x.code = 3)) ∧ bit d.flt.why whyPll = false ∧
      (s.d.bzl.wait = [] → d.tx = (s.d.bzl.h2f.retry.map (fun x => Out.bezel .h2f (sealFrame { x with replay := true }))).reverse
        ++ (s.d.bzl.f2h.retry.map (fun x => Out.bezel .f2h (sealFrame { x with replay := true }))).reverse ++ s.d.tx) ∧
      (s.d.mode = .service → s.d.seq.en = false → headsOf s.d.regs.act ≠ [] → d.seq.en = true) ∧
      (s.d.mode = .calibrate → s.d.seq.en = false → s.d.captures = true → d.seq.en = true) ∧
      (s.d.mode ≠ .service → s.d.mode ≠ .calibrate → d = { s.d with
        bzl := d.bzl, flt := d.flt, hold := d.hold, tx := d.tx, regs := d.regs, afe := d.afe
        cal := { s.d.cal with heads := d.cal.heads } }) ∧
      (∀ r ∈ [Dir.f2h, .h2f], ∀ n ∈ List.range (lanesOf r), bit ((s.d.bzlLink r).map ||| (s.d.bzlLink r).spares) n = true →
        d.rf (laneWord r n) 31 16 = s.d.laneTemp r) ∧
      (s.d.bzl.localOsc = false → d.afe = s.d.afe) ∧
      ∀ a, a ≠ Reg.PWR_BZL_REPLAY_CNT → (∀ r ∈ [Dir.f2h, .h2f], ∀ n ∈ List.range (lanesOf r), a ≠ laneWord r n) →
        d.rd a = s.d.rd a) ∧
  (∀ s : State, s.d.bzl.f2h.up = true → s.d.bzl.h2f.up = true → s.d.bzl.inhibit = false → 4 * s.d.staged < 1048576 →
    Does .linkCauseClear s fun d => d = s.d.clrHold hcLink ∧ bit d.hold hcLink = false) ∧
  (∀ s : State, s.d.bzl.rootLock = true → s.d.recurs 3 1 0 = none →
    Does .rootPllUnlock s fun d => d.bzl.rootLock = false ∧ bit (d.rd Reg.DEV_CLK_STAT) 8 = true ∧
      bit d.hold hcFault = true ∧ Logged d 3 1 0 ∧ d.mode = s.d.mode ∧ d.seq = s.d.seq ∧ d.mot = s.d.mot ∧
      d.lamp = s.d.lamp ∧ d.tim = s.d.tim) ∧
  (∀ s : State, s.d.mode ≠ .calibrate → s.d.regs.com = none →
    Does .xtalFail s fun d => d.bzl.xtalDead = true ∧ d.served = false ∧ d.bzl.rootLock = false ∧ d.bzl.inhibit = true ∧
      d.bzl.localOsc = s.d.fieldRuns ∧ bit (d.rd Reg.DEV_CLK_STAT) 9 = true ∧ d.flt.fieldRec = some (s.d.flt.fieldRec.getD s.d.sight) ∧ d.seq.en = false ∧
      d.seq.flight = [] ∧ d.bzl.f2h.up = false ∧ d.bzl.h2f.up = false ∧
      d.mode = s.d.mode ∧ d.jobs = s.d.jobs ∧ d.tim = s.d.tim ∧ d.dma = s.d.dma) ∧
  (∀ s : State, s.d.bzl.xtalDead = true → s.d.mode ≠ .off →
    Does .xtalResume s fun d => d.bzl.xtalDead = false ∧ d.bzl.rootLock = true ∧ d.mode = .reset ∧ d.flt.l3run = true ∧
      d.seq.en = false ∧ d.seq.flight = [] ∧ d.fsram = s.d.fsram ∧ d.tim = s.d.tim)

/-! Pacing and the profile boundary. -/

/-- A profile boundary (R244, R246): time stands at the next multiple of the period; groups at rest stay where they are; a
running move's speed never exceeds its VMAX; the field side sends its STATUS. The Cox (R274, R276 to R278, R285): the rate is taken in every period; above COX_HOLD_MARK the PACE cause is set and
counted, above COX_HWM pacing begins with a CMD frame that carries its limit, and below COX_LWM a hold's PACE clears. -/
def Obligations.ProfileAndCox : Prop :=
  (∀ s : State, Does .profileBoundary s fun d => d.now = (s.d.now / periodCyc + 1) * periodCyc ∧
    d.dma = s.d.dma ∧ d.fsram = s.d.fsram ∧ d.pages.list = s.d.pages.list) ∧
  (∀ s : State, s.d.mode ≠ .homing → (∀ g, g < 4 → (s.d.grp g).st = .rest ∧ (s.d.grp g).hard = false ∧
      (s.d.grp g).stopDue = false) → (∀ a, (s.d.ax a).home = none) →
    Does .profileBoundary s fun d => (∀ a, (d.ax a).pos = (s.d.ax a).pos) ∧ (∀ g, g < 4 → (d.grp g).st = .rest) ∧
      d.mode = s.d.mode ∧ d.jobs = s.d.jobs ∧
      (s.d.fieldRuns = true → s.d.bzl.stage = [] → s.d.bzl.f2h.room = true →
        ∃ f ∈ d.bzl.f2h.retry, f.typ = 2 ∧ f.seq = s.d.bzl.f2h.txSeq ∧ frameGood f = true)) ∧
  (∀ (g : Nat) (m : Move) (s : State), g < 4 → (s.d.grp g).st = .run → (s.d.grp g).cur = some m →
    (s.d.grp g).intern = 0 → (s.d.grp g).hard = false → (s.d.grp g).stopDue = false → (s.d.grp g).stopAt = none →
    (s.d.grp g).paceNext = none → (s.d.grp g).v ≤ m.vmax * motHz →
    Does .profileBoundary s fun d => (d.grp g).v ≤ m.vmax * motHz) ∧
  (∀ s : State, s.d.mode ≠ .scan → s.d.mode ≠ .splice → bit s.d.hold hcPace = false →
    Does .coxPeriod s fun d => d.cox.drain = s.d.drainRate ∧ d = { s.d with cox := d.cox } ∧ d.cox.st = s.d.cox.st) ∧
  (∀ s : State, s.d.mode = .scan → s.d.jobHeld = true → bit s.d.hold hcPace = false →
    s.d.rd Reg.COX_HOLD_MARK * 1048576 ≤ s.d.pageFill →
    Does .coxPeriod s fun d => bit d.hold hcPace = true ∧
      d.rd Reg.COX_HOLD_CNT = min 0xFFFFFFFF (s.d.rd Reg.COX_HOLD_CNT + 1) ∧ d.cox.st = s.d.cox.st ∧
      d.mode = .scan ∧ d.seq = s.d.seq ∧ d.pages = s.d.pages ∧ d.flt = s.d.flt ∧ d.tim = s.d.tim) ∧
  (∀ s : State, s.d.mode = .scan → s.d.jobHeld = true → s.d.cox.st = 1 →
    s.d.rf Reg.COX_CTRL 0 0 = 1 → s.d.pageFill < s.d.rd Reg.COX_HOLD_MARK * 1048576 →
    s.d.rd Reg.COX_HWM * 1048576 ≤ s.d.pageFill → s.d.rd Reg.COX_VMIN ≤ s.d.lawSpeed s.d.drainRate →
    s.d.bzl.wait = [] → s.d.bzl.h2f.room = true →
    Does .coxPeriod s fun d => d.cox.st = 2 ∧ d.rd Reg.COX_PACE_CNT = min 0xFFFFFFFF (s.d.rd Reg.COX_PACE_CNT + 1) ∧
      (∃ f : Frame, f.typ = 4 ∧ f.tag = s.d.bzl.cmdTag ∧ f.payload = cmdPayload (.coxLimit (s.d.lawSpeed s.d.drainRate)) ∧
        frameGood f = true ∧ d.tx = .bezel .h2f f :: s.d.tx ∧ d.bzl.h2f.retry = s.d.bzl.h2f.retry ++ [f]) ∧
      d.bzl.cmds = s.d.bzl.cmds ++ [s.d.bzl.cmdTag] ∧
      d.mot = s.d.mot ∧ d.hold = s.d.hold ∧ d.mode = .scan ∧ d.seq = s.d.seq) ∧
  (∀ s : State, s.d.mode = .hold → bit s.d.hold hcPace = true → s.d.pageFill < s.d.rd Reg.COX_LWM * 1048576 →
    Does .coxPeriod s fun d => d.hold = clrBit s.d.hold hcPace ∧ bit d.hold hcPace = false ∧
      d = { s.d with cox := d.cox, hold := d.hold })

/-- HOLD and SPLICE (R36, R38, R284, R288, R290): a hold cause in SCAN leads to HOLD, with Catches disabled and the Cox
stopping; with every cause clear and the feed at rest, a hold with reference strokes goes to SPLICE with its rewind or
run-up, and one without goes back to SCAN; with a feed axis of no valid position it stays. Encoder edges (R85 to R90, R238
to R241): a level held for FILT + 1 cycles counts, up where A leads B, and one held for less does not; a forward edge of
the feed that reaches new grid points asks for a Catch of the last of them, 16 CLK_PIX cycles or more after the edge; a
backward one asks for none; either completes the feed position of a switch's raw edge before it; an illegal
transition of the feed is FAULT; a Z edge toward the level of Z_POL latches the count, and the other edge nothing. -/
def Obligations.BoundaryEntryAndEdges : Prop :=
  (∀ s : State, s.d.mode = .scan → s.d.hold ≠ 0 → s.d.jobHeld = true → s.d.regs.com = none → s.d.flt.poison = [] →
    s.d.pages.stopPages = none →
    Does .holdEntry s fun d => d.mode = .hold ∧ d.prev = .scan ∧ d.trans = (s.d.trans + 1) % 65536 ∧ d.seq.en = false ∧
      d.hold = s.d.hold ∧ d.cox.st = 3 ∧ d.cls.causes = s.d.hold ∧ d.cls.holdNo = s.d.seq.strokeNo ∧
      d.seq.flight = s.d.seq.flight ∧ d.seq.high = s.d.seq.high ∧ d.pages.list = s.d.pages.list ∧
      d.dma = s.d.dma ∧ d.tim = s.d.tim ∧ d.fsram = s.d.fsram) ∧
  (∀ (g : Nat) (r : Ing) (l : List Ing) (s : State), s.d.mode = .hold → s.d.feed = some g → g < s.d.mot.groups.length →
    s.d.hold = 0 → s.d.feedStill = true → (∀ a ∈ s.d.groupAxes g, (s.d.ax a).valid = true) →
    s.d.cls.fixed = true → s.d.cls.refs = r :: l → s.d.cls.staging = [] →
    Does .spliceEntry s fun d => d.mode = .splice ∧ d.prev = .hold ∧ (d.cls.step = 2 ∨ d.cls.step = 3) ∧
      d.cls.kb = (r.k : Int) - s.d.rd Reg.CLS_SEARCH - nphOf s.d.regs.act + 1 ∧ d.seq.high = (d.cls.kb - 1).toNat ∧
      (d.grp g).st = .run ∧ (d.grp g).heldMove = (s.d.spliceMove g).1 ∧ d.cox.st = 5 ∧ d.seq.en = s.d.seq.en ∧
      d.hold = 0 ∧ d.pages.list = s.d.pages.list ∧ d.dma = s.d.dma ∧ d.tim = s.d.tim) ∧
  (∀ (g : Nat) (s : State), s.d.mode = .hold → s.d.feed = some g → s.d.hold = 0 → s.d.feedStill = true →
    (s.d.groupAxes g).any (fun a => !(s.d.ax a).valid) = true → Does .spliceEntry s fun d => d = s.d) ∧
  (∀ (g : Nat) (s : State), s.d.mode = .hold → s.d.feed = some g → s.d.hold = 0 → s.d.feedStill = true →
    (∀ a ∈ s.d.groupAxes g, (s.d.ax a).valid = true) →
    s.d.cls.fixed = true → s.d.cls.refs = [] → (s.d.grp g).cur.isSome = true →
    Does .spliceEntry s fun d => d.mode = .scan ∧ d.prev = .splice ∧ d.trans = ((s.d.trans + 1) % 65536 + 1) % 65536 ∧
      d.seq.en = !s.d.bzl.inhibit ∧ d.cls.step = 0 ∧ (d.grp g).st = .run ∧ (d.cox.st = 1 ∨ d.cox.st = 2) ∧ d.hold = 0) ∧
  (∀ (e : Nat) (b : Bool) (ab : Bool × Bool) (held t : Nat) (s : State), t ≤ s.d.now → e < 6 → e < s.d.mot.enc.length →
    e < s.d.mot.encAB.length → s.d.mot.encAB.getD e (false, false) = ab →
    (s.d.rf (Reg.MOT_ENC_CFG e) 3 0 < held → e ≠ s.d.rf Reg.SEQ_CTRL 15 12 →
      Does (.encEdge e b (if b then !ab.2 else !ab.1) held t) s fun d =>
        d.mot.enc.getD e 0 = sext 48 (twos 48 (s.d.mot.enc.getD e 0 + if leads b ab then 1 else -1)) ∧
        (∀ n, n ≠ e → d.mot.enc.getD n 0 = s.d.mot.enc.getD n 0) ∧
        d.mot.encAB.getD e (false, false) = (if b then (ab.1, !ab.2) else (!ab.1, ab.2)) ∧
        (∀ n, n ≠ e → d.mot.encAB.getD n (false, false) = s.d.mot.encAB.getD n (false, false)) ∧
        d = { s.d with mot := { s.d.mot with enc := d.mot.enc, encAB := d.mot.encAB } }) ∧
    (∀ level, held ≤ s.d.rf (Reg.MOT_ENC_CFG e) 3 0 → Does (.encEdge e b level held t) s fun d => d = s.d)) ∧
  (∀ (t k held : Nat) (b : Bool) (ab : Bool × Bool) (c : Int) (s : State), t ≤ s.d.now → s.d.rf Reg.SEQ_CTRL 15 12 < 6 →
    s.d.mot.encAB.getD (s.d.rf Reg.SEQ_CTRL 15 12) (false, false) = ab → leads b ab = true →
    s.d.rf (Reg.MOT_ENC_CFG (s.d.rf Reg.SEQ_CTRL 15 12)) 3 0 < held → s.d.rf Reg.SEQ_CTRL 15 12 < s.d.mot.enc.length →
    s.d.rf Reg.SEQ_CTRL 8 8 = 0 → s.d.rf Reg.SEQ_CTRL 0 0 = 0 → s.d.mot.enc.getD (s.d.rf Reg.SEQ_CTRL 15 12) 0 = c →
    -(2 ^ 47) ≤ c → c + 1 < 2 ^ 47 → k = (s.d.seq.index ((c + 1) * 65536 + 65535)).toNat →
    s.d.mode ≠ .splice → s.d.seq.en = true → s.d.seq.pend = [] → s.d.seq.limit = false → s.d.owBusy = false →
    s.d.seq.passed < k → s.d.seq.high < k →
    Does (.encEdge (s.d.rf Reg.SEQ_CTRL 15 12) b (if b then !ab.2 else !ab.1) held t) s fun d => d.seq.high = k ∧
      d.seq.passed = k ∧ d.seq.edgeQ = c + 1 ∧ d.seq.edgeT = t ∧ (∃ r, t + 16 ≤ r ∧ d.seq.pend = [(k, r)]) ∧
      d.mot.sw = s.d.mot.sw.map (SwLatch.close s.d.seq.edgeQ s.d.seq.edgeT (c + 1) t) ∧
      d = { s.d with mot := { s.d.mot with enc := d.mot.enc, encAB := d.mot.encAB, sw := d.mot.sw }, seq := d.seq } ∧
      d.seq.flight = s.d.seq.flight) ∧
  (∀ (t held : Nat) (b : Bool) (ab : Bool × Bool) (c : Int) (s : State), t ≤ s.d.now → s.d.rf Reg.SEQ_CTRL 15 12 < 6 →
    s.d.mot.encAB.getD (s.d.rf Reg.SEQ_CTRL 15 12) (false, false) = ab → leads b ab = false →
    s.d.rf (Reg.MOT_ENC_CFG (s.d.rf Reg.SEQ_CTRL 15 12)) 3 0 < held → s.d.rf Reg.SEQ_CTRL 15 12 < s.d.mot.enc.length →
    s.d.rf Reg.SEQ_CTRL 8 8 = 0 → s.d.mot.enc.getD (s.d.rf Reg.SEQ_CTRL 15 12) 0 = c →
    -(2 ^ 47) < c → c < 2 ^ 47 →
    Does (.encEdge (s.d.rf Reg.SEQ_CTRL 15 12) b (if b then !ab.2 else !ab.1) held t) s fun d => d.seq.pend = s.d.seq.pend ∧
      d.seq.high = s.d.seq.high ∧ d.seq.passed ≤ s.d.seq.passed ∧ d.seq.edgeQ = c - 1 ∧
      (s.d.mode ≠ .scan → d.rd Reg.SEQ_REVERSE_CNT = s.d.rd Reg.SEQ_REVERSE_CNT) ∧
      (s.d.mode = .scan → d.rd Reg.SEQ_REVERSE_CNT =
        min 0xFFFFFFFF (s.d.rd Reg.SEQ_REVERSE_CNT + (s.d.seq.passed - d.seq.passed))) ∧
      d.mot.sw = s.d.mot.sw.map (SwLatch.close s.d.seq.edgeQ s.d.seq.edgeT (c - 1) t) ∧
      d = { s.d with mot := { s.d.mot with enc := d.mot.enc, encAB := d.mot.encAB, sw := d.mot.sw }
                     seq := d.seq, regs := d.regs }) ∧
  (∀ (e t : Nat) (ab : Bool × Bool) (s : State), t ≤ s.d.now → e < 6 → e < s.d.mot.encAB.length →
    s.d.mot.encAB.getD e (false, false) = ab →
    (s.d.seq.en = true → e = s.d.rf Reg.SEQ_CTRL 15 12 →
      Does (.encIllegal e t) s fun d => d.rd (Reg.MOT_ENC_ERR_CNT e) = min 0xFFFFFFFF (s.d.rd (Reg.MOT_ENC_ERR_CNT e) + 1) ∧
        bit d.hold hcFault = true ∧ Logged d 0xB 5 e ∧ d.mode = s.d.mode ∧ d.seq = s.d.seq ∧
        d.mot.encAB.getD e (false, false) = (!ab.1, !ab.2) ∧ d.mot = { s.d.mot with encAB := d.mot.encAB }) ∧
    ((s.d.seq.en = false ∨ e ≠ s.d.rf Reg.SEQ_CTRL 15 12) →
      Does (.encIllegal e t) s fun d => d.mot.encAB.getD e (false, false) = (!ab.1, !ab.2) ∧
        d = { s.d.bump (Reg.MOT_ENC_ERR_CNT e) with mot := { s.d.mot with encAB := d.mot.encAB } })) ∧
  (∀ (e held : Nat) (s : State), e < 6 → e < s.d.mot.encZ.length → (∀ a, (s.d.ax a).home = none) →
    (s.d.rf (Reg.MOT_ENC_CFG e) 3 0 < held →
      Does (.encZEdge e (s.d.rf (Reg.MOT_ENC_CFG e) 8 8 == 0) held) s fun d =>
        d.mot.encZ.getD e 0 = s.d.mot.enc.getD e 0 ∧ d.mot.enc = s.d.mot.enc ∧
        (∀ n, n ≠ e → d.mot.encZ.getD n 0 = s.d.mot.encZ.getD n 0) ∧
        d.rd (Reg.MOT_ENC_Z_CNT e) = (s.d.rd (Reg.MOT_ENC_Z_CNT e) + 1) % 2 ^ 32 ∧
        (∀ a, a ≠ Reg.MOT_ENC_Z_CNT e → d.rd a = s.d.rd a) ∧
        d = { s.d with regs := d.regs, mot := { s.d.mot with encZ := d.mot.encZ } }) ∧
    Does (.encZEdge e (s.d.rf (Reg.MOT_ENC_CFG e) 8 8 == 1) held) s fun d => d = s.d)

/-! Encoders, Catches and strokes. -/

/-- Catches (R84, R91, R93, R94, R107): the pending Catch at the head of the queue is captured at its instant, one
requested sooner than SEQ_MIN_INTERVAL after the last exactly that interval after it, and the timer's at its own; each
is counted and puts one stroke into the pipeline. The flush cycle and the stroke watchdog (R99, R106). -/
def Obligations.CatchesAndWatchdog : Prop :=
  (∀ (t : Nat) (s : State), s.d.regs.com = none → s.d.regs.held = [] → s.d.cal.due = [] → s.d.cal.held = [] →
    s.d.seq.withhold = false →
    (∀ k r l, s.d.seq.pend = (k, r) :: l → s.d.earliest ≤ r →
      Does (.catchStroke t) s fun d => d.seq.pend = l ∧ d.seq.last = some r ∧
        (∃ x, d.seq.flight.getLast? = some x ∧ x.k = k ∧ x.at_ = r ∧ x.px = none ∧ x.deferred = false) ∧
        d.seq.flight.length = s.d.seq.flight.length + 1 ∧ d.seq.strokeNo = s.d.seq.strokeNo ∧
        d.rd Reg.SEQ_CATCH_CNT = min 0xFFFFFFFF (s.d.rd Reg.SEQ_CATCH_CNT + 1) ∧
        d.mode = s.d.mode ∧ d.hold = s.d.hold ∧ d.dma = s.d.dma ∧ d.fsram = s.d.fsram) ∧
    (∀ k r l, s.d.seq.pend = (k, r) :: l → r < s.d.earliest →
      Does (.catchStroke t) s (fun d => d.seq = s.d.seq ∧ d = { s.d with now := d.now, tim := d.tim }) ∧
      Does (.catchDeferred t) s fun d => d.seq.pend = l ∧ d.seq.last = some s.d.earliest ∧
        (∃ x, d.seq.flight.getLast? = some x ∧ x.k = k ∧ x.at_ = s.d.earliest ∧ x.px = none ∧ x.deferred = true) ∧
        d.rd Reg.SEQ_OVERSPEED_CNT = min 0xFFFFFFFF (s.d.rd Reg.SEQ_OVERSPEED_CNT + 1) ∧
        d.rd Reg.SEQ_CATCH_CNT = min 0xFFFFFFFF (s.d.rd Reg.SEQ_CATCH_CNT + 1) ∧
        d.mode = s.d.mode ∧ d.hold = s.d.hold ∧ d.dma = s.d.dma ∧ d.fsram = s.d.fsram) ∧
    (s.d.seq.en = true → s.d.rf Reg.SEQ_CTRL 0 0 = 1 → s.d.owBusy = false →
      Does (.timerStroke t) s fun d => d.seq.timerN = s.d.seq.timerN + 1 ∧ d.seq.last = some t ∧
        (∃ x, d.seq.flight.getLast? = some x ∧ x.k = s.d.seq.timerN + 1 ∧ x.pos = 2 ^ 63 ∧ x.px = none) ∧
        d.rd Reg.SEQ_CATCH_CNT = min 0xFFFFFFFF (s.d.rd Reg.SEQ_CATCH_CNT + 1) ∧
        d.mode = s.d.mode ∧ d.hold = s.d.hold ∧ d.dma = s.d.dma ∧ d.fsram = s.d.fsram)) ∧
  (∀ s : State, s.d.seq.flushDue = true → s.d.seq.en = false → s.d.seq.pend = [] → s.d.regs.com = none →
    Does .flushCycle s fun d => d.seq.flushDue = false ∧ (∀ x ∈ d.seq.flight, x.lagDone = true) ∧
      d.seq.flight.map (·.k) = s.d.seq.flight.map (·.k) ∧ d.seq.strokeNo = s.d.seq.strokeNo ∧
      d.lamp = s.d.lamp ∧ d = { s.d with seq := d.seq, tx := d.tx }) ∧
  (∀ s : State, s.d.wdogRuns = true →
    Does .strokeWdog s fun d => bit d.hold hcStroke = true ∧ Logged d 8 2 0 ∧
      d.rd Reg.SEQ_WDOG_CNT = min 0xFFFFFFFF (s.d.rd Reg.SEQ_WDOG_CNT + 1) ∧
      Quiet { s.d.bump Reg.SEQ_WDOG_CNT with hold := d.hold, cls := d.cls, flt := d.flt } d) ∧
  (∀ s : State, s.d.wdogRuns = false → Does .strokeWdog s fun d => d = s.d)

/-- Digital lanes (R103 to R105): a lane whose phase is acquired is ready, and the last one starts a waiting scan; with
lanes still missing at the bound the SCAN_START fails and leaves no job; a lane that misses its deadline, carries a
preamble while words of the previous stroke are expected, or loses its transitions withholds the strokes not yet read out,
sets FAULT and is reacquired; one on which no words are expected does not. -/
def Obligations.Lanes : Prop :=
  (∀ (l : Nat) (s : State), l < 256 → s.d.fieldRuns = true → s.d.seq.scanWait = false → s.d.seq.bandWait = false →
    Does (.lanePhaseAcquired l) s fun d => d.seq.lanes = setBit s.d.seq.lanes l ∧
      d.seq.reacq = clrBit s.d.seq.reacq l ∧ d.seq.flight = s.d.seq.flight ∧ d.mode = s.d.mode ∧
      d = { s.d with seq := d.seq, flt := d.flt, hold := d.hold }) ∧
  (∀ (l : Nat) (s : State), l < 256 → s.d.mode = .idle → s.d.seq.scanWait = true →
    (∀ x ∈ lanesNeeded s.d.regs.act, bit (setBit s.d.seq.lanes l) x = true) →
    Does (.lanePhaseAcquired l) s fun d => d.mode = .scan ∧ d.prev = .idle ∧ d.seq.en = !s.d.bzl.inhibit ∧ d.seq.scanWait = false ∧
      d.seq.lanes = setBit s.d.seq.lanes l ∧ d.dma = s.d.dma ∧ d.tim = s.d.tim ∧ d.fsram = s.d.fsram) ∧
  (∀ s : State, s.d.lanesMissing ≠ [] → s.d.seq.scanWait = true →
    Does .laneReadyTimeout s fun d => d.seq.scanWait = false ∧ d.jobs.map Job.base = (s.d.jobs.filter (fun j => j.ended)).map Job.base ∧
      d.ops = s.d.ops.filter (fun o => o.op != .scanStart) ∧ (∃ l, Logged d 7 2 l) ∧ d.mode = s.d.mode ∧
      d.hold = s.d.hold ∧ d.seq.lanes = s.d.seq.lanes ∧ ∀ a, a / 65536 ≠ 12 → d.rd a = s.d.rd a) ∧
  (∀ s : State, s.d.lanesMissing = [] → Does .laneReadyTimeout s fun d => d = s.d) ∧
  (∀ (l : Nat) (s : State), l ∈ lanesNeeded s.d.regs.act → s.d.mode = .scan → s.d.recurs 7 1 l = none →
    (s.d.seq.flight.any (fun x => x.expects l) = true → Does (.laneDeadline [l] []) s (fun d => d.seq.lanes = clrBit s.d.seq.lanes l ∧ bit d.seq.reacq l = true ∧
      d.seq.flight = s.d.seq.flight.filter (fun x => !x.px.isNone) ∧ d.seq.withhold = true ∧ bit d.hold hcFault = true ∧
      d.rd Reg.SEQ_LANE_ERR_CNT = min 0xFFFFFFFF (s.d.rd Reg.SEQ_LANE_ERR_CNT + 1) ∧ Logged d 7 1 l ∧
      d.mode = .scan ∧ d.seq.strokeNo = s.d.seq.strokeNo ∧ d.mot = s.d.mot)) ∧
    (s.d.seq.flight.any (fun x => x.px.isNone && (lanesNeeded x.cfg).contains l) = true →
      Does (.laneDeadline [] [l]) s (fun d => d.seq.lanes = clrBit s.d.seq.lanes l ∧ bit d.seq.reacq l = true ∧
        d.seq.flight = s.d.seq.flight.filter (fun x => !x.px.isNone) ∧ d.seq.withhold = true ∧ bit d.hold hcFault = true ∧
        Logged d 7 1 l ∧ d.mode = .scan)) ∧
    (s.d.seq.flight.any (fun x => x.expects l) = true → Does (.laneTransitionLoss l) s (fun d => d.seq.lanes = clrBit s.d.seq.lanes l ∧ bit d.seq.reacq l = true ∧
      d.seq.flight = s.d.seq.flight.filter (fun x => !x.px.isNone) ∧ bit d.hold hcFault = true ∧ Logged d 7 1 l ∧
      d.mode = .scan))) ∧
  (∀ (l : Nat) (s : State), s.d.seq.flight.any (fun x => x.expects l) = false →
    Does (.laneDeadline [l] []) s fun d => d = s.d) ∧
  (∀ (l : Nat) (s : State), l < 256 → s.d.seq.flight.any (fun x => x.expects l) = false →
    Does (.laneTransitionLoss l) s fun d => d = { s.d with seq := { s.d.seq with lanes := clrBit s.d.seq.lanes l } })

/-- The pipeline and the trailer (R96, R151, R170, R171, R389): the oldest stroke is processed in place; leaving F10 it
takes the next STROKE_NO, and its payload is staged with a trailer of 64 bytes that passes its CRC and carries its grid
index and the flags that the field sets; a failing datapath
check withholds every stroke in flight and sets FAULT. -/
def Obligations.PipelineAndTrailer : Prop :=
  (∀ (x : Stroke) (l : List Stroke) (data : List SourceData) (s : State), s.d.seq.flight = x :: l → x.px = none →
    x.lags = false → lanesBad x.cfg data = [] → s.d.regs.com = none →
    Does (.pipelineStrokeStart data) s fun d =>
      (∃ p b, d.seq.flight = { x with px := some p, spare := b } :: l ∧ p.drift = s.d.strokeDrift x (s.d.runOf x) ∧
        (b = true ↔ ∃ q ∈ s.d.afe.quads, q.retired ≠ [])) ∧
      d.seq.strokeNo = s.d.seq.strokeNo ∧
      d = { s.d with clamp := d.clamp, afe := { s.d.afe with suspect := d.afe.suspect }
                     seq := { s.d.seq with flight := d.seq.flight, flush := d.seq.flush }
                     cal := { s.d.cal with afeRun := d.cal.afeRun }
                     regs := d.regs, frees := d.frees, tx := d.tx }) ∧
  (∀ (x : Stroke) (p : PxOut) (l : List Stroke) (s : State), s.d.seq.flight = x :: l → x.px = some p → x.waits = [] →
    s.d.cal.run = none → s.d.seq.strokeNo + 1 < 2 ^ 48 →
    Does (.trailerAppend true) s fun d => d.seq.strokeNo = s.d.seq.strokeNo + 1 ∧ d.seq.flight = l ∧
      (∃ t : List Byte, t.length = 64 ∧ tCrcOk t = true ∧ tNo t = s.d.seq.strokeNo + 1 ∧ tGrid t = x.k % 2 ^ 48 ∧
        bit (tFlags t) 0 = decide (p.ovr ≠ 0) ∧ bit (tFlags t) 1 = decide (p.suspect ≠ 0) ∧
        bit (tFlags t) 2 = decide (p.drift ≠ 0) ∧ bit (tFlags t) 6 = x.deferred ∧
        bit (tFlags t) 7 = (x.spare || s.d.spareActive) ∧ bit (tFlags t) 9 = x.paced ∧
        d.bzl.stage = s.d.bzl.stage ++ strokeFrames (s.d.seq.strokeNo + 1) (p.payload ++ t)) ∧
      d.bzl.framed.map (·.no) = s.d.bzl.framed.map (·.no) ++ [s.d.seq.strokeNo + 1] ∧
      d.mode = s.d.mode ∧ d.hold = s.d.hold ∧ d.mot = s.d.mot ∧ d.lamp = s.d.lamp ∧ d.flt = s.d.flt) ∧
  (∀ (x : Stroke) (p : PxOut) (l : List Stroke) (s : State), s.d.seq.flight = x :: l → x.px = some p → x.waits = [] →
    s.d.mode ≠ .calibrate → s.d.recurs 8 3 0 = none →
    Does (.trailerAppend false) s fun d => d.seq.flight = [] ∧ d.seq.strokeNo = s.d.seq.strokeNo ∧
      bit d.hold hcFault = true ∧ Logged d 8 3 0 ∧ (∀ f ∈ d.bzl.stage, f ∈ s.d.bzl.stage ∨ f.typ = 3) ∧
      d.rd Reg.FLT_PIPE_CHK_CNT = min 0xFFFFFFFF (s.d.rd Reg.FLT_PIPE_CHK_CNT + 1) ∧
      d.rd Reg.SEQ_WITHHELD_CNT = min 0xFFFFFFFF (s.d.rd Reg.SEQ_WITHHELD_CNT + (l.length + 1)) ∧ d.mode = s.d.mode)

/-! Converters. -/

/-- Core rotation and core faults (R127, R128, R130, R132, R310): the ready core takes over the channel in turn; a failing
check sets FAULT and waits for a takeover, and without a core that can mask it leads to SAFE; a calibrated core becomes
ready, or is retired where its calibration fails; a core proved clean for 1 s becomes ready again. A calibration is valid
with the field clocks locked (holdover counts as lock, log 178) and the temperature within CAL_DTEMP; one that loses its
validity in service without rotation is reported once. -/
def Obligations.ConverterCores : Prop :=
  (∀ (q k : Nat) (s : State), q < 4 → (s.d.quad q).ready = some k → s.d.rf Reg.AFE_ROT_CTRL 0 0 = 1 →
    s.d.bzl.fieldLock = true → s.d.fieldRuns = true → (s.d.quad q).failCh = [] →
    16 * q + (s.d.quad q).turn < s.d.afe.core.length →
    Does (.adcRotationStep q) s fun d => nth d.afe.core (16 * q + (s.d.quad q).turn) = k ∧
      d.quad q = { s.d.quad q with
        ready := none, cal := (s.d.quad q).cal ++ [nth s.d.afe.core (16 * q + (s.d.quad q).turn)]
        turn := ((s.d.quad q).turn + 1) % 16 } ∧
      (∀ n, n ≠ q → d.quad n = s.d.quad n) ∧
      (∀ c, c ≠ 16 * q + (s.d.quad q).turn → nth d.afe.core c = nth s.d.afe.core c) ∧
      d = { s.d.bump Reg.AFE_TAKEOVER_CNT with afe := d.afe }) ∧
  (∀ (ch : Nat) (s : State), ch < 64 → s.d.fieldRuns = true → s.d.mode ≠ .calibrate →
    (s.d.quad (ch / 16)).canMask = true → ch / 16 < s.d.afe.quads.length →
    Does (.adcCheckFail ch) s fun d => (d.quad (ch / 16)).failCh = (s.d.quad (ch / 16)).failCh.filter (· != ch) ++ [ch] ∧
      bit d.hold hcFault = true ∧
      bit d.flt.why whyCore = true ∧ Logged d 5 1 ch ∧ d.seq.flight = s.d.seq.flight.filter (fun x => !x.px.isNone) ∧
      d.rd Reg.AFE_CHK_FAIL_CNT = min 0xFFFFFFFF (s.d.rd Reg.AFE_CHK_FAIL_CNT + 1) ∧ d.afe.core = s.d.afe.core ∧
      d.mode = s.d.mode ∧ d.seq.strokeNo = s.d.seq.strokeNo ∧ d.mot = s.d.mot) ∧
  (∀ (ch : Nat) (s : State), ch < 64 → s.d.mode = .scan → ch / 16 < s.d.afe.quads.length →
    (s.d.quad (ch / 16)).canMask = false → s.d.regs.com = none →
    Does (.adcCheckFail ch) s fun d => d.mode = .safe ∧ d.prev = .scan ∧
      bit (d.rd Reg.FLT_SAFE_CAUSE) scNoSpare = true ∧ d.seq.en = false ∧
        Logged d 5 3 (((s.d.quad (ch / 16)).failCh.filter (· != ch)).headD ch)) ∧
  (∀ (q ch k : Nat) (cs : List Nat) (s : State), (s.d.quad q).failCh = ch :: cs → s.d.standIn q = some k →
    ch < s.d.afe.core.length →
    Does (.adcFaultTakeover q) s fun d => nth d.afe.core ch = k ∧ (d.quad q).failCh = cs ∧ (d.quad q).ready = none ∧
      nth s.d.afe.core ch ∈ (d.quad q).cal ∧ nth s.d.afe.core ch ∈ (d.quad q).probation ∧
      (∀ n, n ≠ q → d.quad n = s.d.quad n) ∧
      (cs = [] → (∀ n, n ≠ q → (s.d.quad n).failCh = []) →
        bit d.flt.why whyCore = false ∧ bit d.flt.why whyBlack = false) ∧
      d = { s.d.bump Reg.AFE_TAKEOVER_CNT with afe := d.afe, flt := { s.d.flt with why := d.flt.why }, hold := d.hold }) ∧
  (∀ (k : Nat) (s : State), k < 68 → (s.d.quad (k / 17)).cal.contains k = true → s.d.cal.run = none →
    (s.d.quad (k / 17)).retired.contains k = false → s.d.rd (Reg.CAL_TQ (k / 17)) < 65536 →
    ((s.d.quad (k / 17)).probation.contains k = false →
      Does (.adcCoreCalDone k true) s fun d => (d.quad (k / 17)).ready = some k ∧
        (d.quad (k / 17)).cal = (s.d.quad (k / 17)).cal.filter (· != k) ∧
        d.rd (Reg.CAL_CORE k) = s.d.rd (Reg.CAL_TQ (k / 17)) * 65536 + 1 ∧
        (∀ a, a ≠ Reg.CAL_CORE k → a ≠ Reg.CAL_BG_RATIO → d.rd a = s.d.rd a) ∧
        d = { s.d with
          afe := d.afe, regs := d.regs, frees := d.frees
          cal := { s.d.cal with asked := d.cal.asked, heads := d.cal.heads } }) ∧
    ((s.d.quad (k / 17)).failCh = [] →
      Does (.adcCoreCalDone k false) s fun d => k ∈ (d.quad (k / 17)).retired ∧ k ∉ (d.quad (k / 17)).cal ∧
        (d.quad (k / 17)).ready ≠ some k ∧ (∃ u, Logged d 5 2 u) ∧
        d.rd Reg.AFE_CORE_FAULT_CNT = min 0xFFFFFFFF (s.d.rd Reg.AFE_CORE_FAULT_CNT + 1) ∧
        Quiet { s.d.bump Reg.AFE_CORE_FAULT_CNT with afe := d.afe, flt := d.flt } d)) ∧
  (∀ (k : Nat) (s : State), k < 68 → (s.d.quad (k / 17)).probation.contains k = true →
    (s.d.quad (k / 17)).cal.contains k = false →
    Does (.adcCoreProbationEnd k true) s (fun d => d.quad (k / 17) = { s.d.quad (k / 17) with
        ready := some k, probation := (s.d.quad (k / 17)).probation.filter (· != k) } ∧
      (∀ n, n ≠ k / 17 → d.quad n = s.d.quad n) ∧ d = { s.d with afe := d.afe }) ∧
    ((s.d.quad (k / 17)).failCh = [] →
      Does (.adcCoreProbationEnd k false) s (fun d => k ∈ (d.quad (k / 17)).retired ∧
        k ∉ (d.quad (k / 17)).probation ∧
        Quiet { s.d.bump Reg.AFE_CORE_FAULT_CNT with afe := d.afe, flt := d.flt } d))) ∧
  (∀ (k : Nat) (s : State), k < 68 → (s.d.quad (k / 17)).cal.contains k = true →
    (s.d.quad (k / 17)).retired.contains k = true →
    Does (.adcCoreCalDone k false) s (fun d => k ∈ (d.quad (k / 17)).retired ∧ k ∉ (d.quad (k / 17)).cal ∧
      d = { s.d with afe := d.afe }) ∧
    ((s.d.quad (k / 17)).ready = none → k / 17 < s.d.afe.quads.length → Does (.adcCoreCalDone k true) s fun d =>
      (d.quad (k / 17)).ready = some k ∧ k ∉ (d.quad (k / 17)).retired ∧ d.mode = s.d.mode)) ∧
  (∀ (k : Nat) (s : State), k < 68 →
    (s.d.coreValid k = false ↔ bit (s.d.rd (Reg.CAL_CORE k)) 0 = false ∨
      (s.d.bzl.fieldLock = false ∧ s.d.bzl.holdover = false) ∨ s.d.rd Reg.CAL_DTEMP <
        (sext 16 (s.d.rf (Reg.CAL_CORE k) 31 16) - sext 16 (s.d.rd (Reg.CAL_TQ (k / 17)))).natAbs) ∧
    (s.d.coreValid k = false → s.d.live (Reg.CAL_CORE k) = some (s.d.rf (Reg.CAL_CORE k) 31 16 * 65536)) ∧
    (s.d.coreValid k = true ∨ s.d.rf Reg.AFE_ROT_CTRL 0 0 = 1 ∨ s.d.afe.core.contains k = false →
      Does (.coreCalInvalid k) s fun d => d = s.d) ∧
    (s.d.coreValid k = false → s.d.rf Reg.AFE_ROT_CTRL 0 0 = 0 → s.d.afe.core.contains k = true →
      Does (.coreCalInvalid k) s fun d => (1, k, 5) ∈ d.cal.asked ∧ d.afe = s.d.afe ∧
        ((1, k, 5) ∈ s.d.cal.asked → d = s.d) ∧
        ((1, k, 5) ∉ s.d.cal.asked →
          d.rd Reg.CAL_RECAL_REQ_CNT = min 0xFFFFFFFF (s.d.rd Reg.CAL_RECAL_REQ_CNT + 1)) ∧
        Quiet { s.d with cal := { s.d.cal with asked := d.cal.asked }, regs := d.regs } d))

/-- The black-level monitor, the pixel reference and the open-wire check (R131, R133 to R135): a window's mean goes to
AFE_Tt_STAT; the second window in succession out of its limit sets FAULT and replaces the tap's core; a lost VREFX is
FAULT until a reference has settled; the open-wire check ends with its results. The MON converters (R137, R138, R140, R141): a pass runs through its entries, each with its result, and is counted at
its end; a chosen reference comes into use between conversions and settles; MON_CONVERT answers its sample, or BUSY while
a conversion runs. -/
def Obligations.ConverterMonitorsAndMon : Prop :=
  (∀ (t g m b : Nat) (s : State), t < 384 → g < 3 → m < 16384 → 4 ≤ s.d.rf (Reg.AFE_T_CLAMP t) 15 0 →
    s.d.blackWaits t = false → s.d.bref t g = some b → aget s.d.afe.blkStep t = none →
    (((m : Int) - b).natAbs ≤ s.d.rd Reg.AFE_BLK_LIMIT →
      Does (.clampWindowEnd t g m) s fun d => d.rf (Reg.AFE_T_STAT t) 29 16 = m ∧ aget d.afe.blk t = none ∧
        (∀ a, a ≠ Reg.AFE_T_STAT t → d.rd a = s.d.rd a) ∧
        d = { s.d with regs := d.regs, afe := { s.d.afe with blk := d.afe.blk } }) ∧
    (s.d.rd Reg.AFE_BLK_LIMIT < ((m : Int) - b).natAbs → aget s.d.afe.blk t = none →
      Does (.clampWindowEnd t g m) s fun d => d.rf (Reg.AFE_T_STAT t) 29 16 = m ∧
        aget d.afe.blk t = some s.d.readoutNo ∧
        d = { s.d with regs := d.regs, afe := { s.d.afe with blk := d.afe.blk } }) ∧
    (∀ no, s.d.rd Reg.AFE_BLK_LIMIT < ((m : Int) - b).natAbs → aget s.d.afe.blk t = some no → s.d.mode ≠ .calibrate →
      (s.d.quad (t / 6 / 16)).canMask = true → t / 6 / 16 < s.d.afe.quads.length →
      Does (.clampWindowEnd t g m) s fun d => bit d.hold hcFault = true ∧ bit d.flt.why whyBlack = true ∧
        Logged d 6 1 t ∧ t / 6 ∈ (d.quad (t / 6 / 16)).failCh ∧ d.rf (Reg.AFE_T_STAT t) 1 1 = 1 ∧
        d.seq.flight = s.d.seq.flight.filter (fun x => !x.px.isNone) ∧ d.mode = s.d.mode ∧ d.mot = s.d.mot)) ∧
  (∀ s : State, s.d.rf Reg.AFE_REF_CTRL 8 8 = 1 → s.d.fieldRuns = true → s.d.mode ≠ .calibrate →
    Does .vrefxLost s fun d => d.rf Reg.AFE_REF_CTRL 8 8 = 0 ∧ d.rf Reg.AFE_REF_CTRL 9 9 = 0 ∧ d.afe.scaled = true ∧
      bit d.hold hcFault = true ∧ bit d.flt.why whyVref = true ∧ Logged d 6 2 0 ∧
      d.seq.flight = s.d.seq.flight.filter (fun x => !x.px.isNone) ∧ d.mode = s.d.mode ∧ d.mot = s.d.mot) ∧
  (∀ s : State, s.d.fieldRuns = true →
    Does .pixelRefSettled s fun d => d.rf Reg.AFE_REF_CTRL 9 9 = 1 ∧ bit d.flt.why whyVref = false ∧
      (∀ a, a ≠ Reg.AFE_REF_CTRL → d.rd a = s.d.rd a) ∧
      d = { s.d with regs := d.regs, flt := { s.d.flt with why := d.flt.why }, hold := d.hold }) ∧
  (∀ (ms : List (Nat × Nat × Nat × Nat)) (s : State), s.d.rf Reg.AFE_OW_CTRL 1 1 = 1 →
    Does (.afeOwDone ms) s fun d => d.rf Reg.AFE_OW_CTRL 1 1 = 0 ∧
      (∀ t, t < 384 → bit (d.rd (Reg.AFE_OW_RESULT (t / 32))) (t % 32) =
        (s.d.rf (Reg.AFE_T_CFG t) 1 0 != 0 && ms.any (fun m => m.1 == t &&
          (decide (s.d.rd Reg.AFE_OW_THR < ((m.2.2.1 : Int) - m.2.1).natAbs) ||
            decide (s.d.rd Reg.AFE_OW_THR < ((m.2.2.2 : Int) - m.2.1).natAbs))))) ∧
      d = { s.d with regs := d.regs }) ∧
  (∀ (b : Bool) (s : State), s.d.fieldRuns = true → s.d.rf (monCtrl b) 6 0 ≠ 0 → (s.d.mon b).entry = none →
    Does (.monPassStart b) s fun d => d.mon b = { s.d.mon b with entry := some 0, set0 := s.d.monSettled b == 1 } ∧ d.mon (!b) = s.d.mon (!b) ∧
      d = { s.d with monA := d.monA, monB := d.monB }) ∧
  (∀ (b : Bool) (e : Nat) (x y : BitVec 14) (s : State), (s.d.mon b).entry = some e → (s.d.mon b).changed = none →
    s.d.fieldRuns = true →
    Does (.monConversionDone b x y) s fun d => aget (d.mon b).res e = some (s.d.monNew b e x.toNat y.toNat) ∧
      (∀ i, i ≠ e → aget (d.mon b).res i = aget (s.d.mon b).res i) ∧
      (d.mon b).ref = s.d.rf (monRefReg b) 1 0 ∧ (d.mon b).set0 = (d.monSettled b == 1) ∧ d.mon (!b) = s.d.mon (!b) ∧
      (e + 1 < s.d.rf (monCtrl b) 6 0 → (d.mon b).entry = some (e + 1)) ∧
      (s.d.rf (monCtrl b) 6 0 ≤ e + 1 → (d.mon b).entry = none ∧
        d.rd (if b then Reg.MON_PASS_CNT_B else Reg.MON_PASS_CNT_A) =
          min 0xFFFFFFFF (s.d.rd (if b then Reg.MON_PASS_CNT_B else Reg.MON_PASS_CNT_A) + 1)) ∧
      d = { s.d with monA := d.monA, monB := d.monB, regs := d.regs }) ∧
  (∀ (b : Bool) (s : State), s.d.fieldRuns = true →
    Does (.monRefSettled b) s fun d => d.rf (monRefReg b) 8 8 = 1 ∧ (∀ a, a ≠ monRefReg b → d.rd a = s.d.rd a) ∧
      d = { s.d with regs := d.regs }) ∧
  (∀ (h : Req) (i : Nat) (x : BitVec 14) (s : State), Ready h s.d → i < 96 → s.d.mode ≠ .standby →
    ((s.d.mon (decide (48 ≤ i))).entry = none →
      Does (.monConvert h i x) s fun d => Quiet (s.d.bump Reg.MON_URGENT_CNT) d ∧ Replied d h 0x70 stOk
        (be 2 0 ++ be 6 (x.toNat * 2 ^ 10 + 32 +
          s.d.monTag (decide (48 ≤ i)) x.toNat (s.d.monSettled (decide (48 ≤ i)))))) ∧
    ((s.d.mon (decide (48 ≤ i))).entry ≠ none →
      Does (.monConvert h i x) s fun d => Quiet (s.d.bump Reg.MON_DROP_CNT) d ∧ Replied d h 0x70 stBusy []))

/-! Calibration. -/

/-- CAL_RUN (R304, R310, R313, R315, R318, R319, R321, R322): in every mode, and for every unit, for which R318 accepts the
run, it is answered ACCEPTED and is the commanded run, and OP_DONE is owed; with another one in progress it is answered
BUSY. From IDLE the runs of AFE_OFFSET, SHADING, LAMP_ABS and VREF_TRACE go to CALIBRATE, and those that capture have
Catches enabled, unless the link inhibits them (R94). A core leaves its channel's readiness where it was ready; retired
cores are not calibrated, and a run that names only those is over at once (log 179). UNIT 0xFFFF names every unit. -/
def Obligations.CalibrationRuns : Prop :=
  (∀ (h : Req) (u : Nat) (s : State), Ready h s.d → s.d.mode ∈ [Mode.idle, .calibrate, .service] → u < 68 ∨ u = 0xFFFF →
    (s.d.cal.run = none → s.d.coresNamed u ≠ [] →
      Does (.calRunAdcCore h u) s fun d => Replied d h 0x60 stAccepted [] ∧ d.mode = s.d.mode ∧
        (∃ r, d.cal.run = some r ∧ r.kind = 1 ∧ r.left = s.d.coresNamed u) ∧
        (∀ n, n < 4 → ∀ k ∈ s.d.coresNamed u, (d.quad n).ready = some k → n ≠ k / 17) ∧
        Quiet { s.d with afe := { s.d.afe with quads := d.afe.quads }, cal := { s.d.cal with run := d.cal.run }
                         ops := s.d.ops ++ [⟨.calRun, h.session, h.seq⟩] } d) ∧
    (s.d.cal.run = none → s.d.coresNamed u = [] →
      Does (.calRunAdcCore h u) s fun d => Replied d h 0x60 stAccepted [] ∧ d.mode = s.d.mode ∧ d.cal.run = none ∧
        d.rd Reg.CAL_RUN_CNT = min 0xFFFFFFFF (s.d.rd Reg.CAL_RUN_CNT + 1) ∧ d.rd Reg.CAL_LAST_EPOCH = 0 ∧
        d.ops = s.d.ops.filter (fun o => o.op != .calRun) ∧ d.hold = s.d.hold ∧ d.tim = s.d.tim ∧ d.flt = s.d.flt) ∧
    (s.d.cal.run ≠ none → Does (.calRunAdcCore h u) s fun d => Quiet s.d d ∧ Replied d h 0x60 stBusy [])) ∧
  (∀ (h : Req) (u : Nat) (s : State), Ready h s.d → s.d.mode ∈ [Mode.idle, .scan, .calibrate] → u < 4 ∨ u = 0xFFFF →
    (s.d.cal.run = none →
      Does (.calRunAfeOffset h u) s fun d => Replied d h 0x60 stAccepted [] ∧
        d.mode = (if s.d.mode = .scan then .scan else .calibrate) ∧ (s.d.mode = .idle → d.prev = .idle) ∧
        (∃ r, d.cal.run = some r ∧ r.kind = 2 ∧ r.left = unitsOf u 4 ∧ r.fromIdle = decide (s.d.mode = .idle)) ∧
        (∀ q ∈ unitsOf u 4, ∃ r ∈ d.cal.afeRun, r.quad = q) ∧
        d.seq.en = (if s.d.mode = .scan then s.d.seq.en else !s.d.bzl.inhibit) ∧ d.seq.strokeNo = s.d.seq.strokeNo ∧
        d.hold = s.d.hold ∧ d.tim = s.d.tim ∧ d.flt = s.d.flt ∧ d.dma = s.d.dma ∧ d.fsram = s.d.fsram) ∧
    (s.d.cal.run ≠ none → Does (.calRunAfeOffset h u) s fun d => Quiet s.d d ∧ Replied d h 0x60 stBusy [])) ∧
  (∀ (h : Req) (u : Nat) (s : State), Ready h s.d →
    s.d.mode ∈ [Mode.idle, .homing, .scan, .hold, .splice, .calibrate, .service, .safe] →
    u < 24 ∨ 32 ≤ u ∧ u < 36 ∨ u = 0xFFFF →
    (∀ r ∈ [Dir.f2h, .h2f], (s.d.bzlLink r).spares = 0 → ∀ n ∈ laneNames u r, bit (s.d.bzlLink r).map n = false) →
    (s.d.cal.run = none →
      Does (.calRunBezelLane h u) s fun d => Replied d h 0x60 stAccepted [] ∧ d.mode = s.d.mode ∧
        (∃ r, d.cal.run = some r ∧ r.kind = 3) ∧ d.bzl.f2h.todo = laneNames u .f2h ∧ d.bzl.h2f.todo = laneNames u .h2f ∧
        (∀ a, a ≠ Reg.PWR_BZL_SPARE_CNT → a / 65536 ≠ 12 → d.rd a = s.d.rd a) ∧
        Quiet { s.d with bzl := d.bzl, regs := d.regs, cal := { s.d.cal with run := d.cal.run }
                         ops := s.d.ops ++ [⟨.calRun, h.session, h.seq⟩] } d) ∧
    (s.d.cal.run ≠ none → Does (.calRunBezelLane h u) s fun d => Quiet s.d d ∧ Replied d h 0x60 stBusy [])) ∧
  (∀ (h : Req) (u : Nat) (s : State), Ready h s.d → s.d.mode ∈ [Mode.idle, .calibrate] → u < 64 → u / 8 % 2 = 0 →
    u / 16 < nphOf s.d.regs.act → phaseChains s.d.regs.act (u / 16) ≠ [] → s.d.slotUsed (u % 8) = false →
    headsOf s.d.regs.act ≠ [] →
    (s.d.cal.run = none →
      Does (.calRunShading h u) s fun d => Replied d h 0x60 stAccepted [] ∧ d.mode = .calibrate ∧
        (s.d.mode = .idle → d.prev = .idle) ∧
        (∃ r, d.cal.run = some r ∧ r.kind = 5 ∧ r.unit = u ∧ r.stage = 0 ∧ r.strokes = 0 ∧
          r.fromIdle = decide (s.d.mode = .idle)) ∧ d.seq.en = !s.d.bzl.inhibit ∧
        d.hold = s.d.hold ∧ d.tim = s.d.tim ∧ d.flt = s.d.flt ∧ d.dma = s.d.dma ∧ d.fsram = s.d.fsram) ∧
    (s.d.cal.run ≠ none → Does (.calRunShading h u) s fun d => Quiet s.d d ∧ Replied d h 0x60 stBusy [])) ∧
  (∀ (h : Req) (u : Nat) (s : State), Ready h s.d → s.d.mode ∈ [Mode.idle, .calibrate] → u < 4 →
    u < nphOf s.d.regs.act → phaseChains s.d.regs.act u ≠ [] → headsOf s.d.regs.act ≠ [] →
    (aget s.d.cal.monRec (s.d.slotOf u)).isSome = true →
    (s.d.cal.run = none →
      Does (.calRunLampAbs h u) s fun d => Replied d h 0x60 stAccepted [] ∧ d.mode = .calibrate ∧
        (s.d.mode = .idle → d.prev = .idle) ∧
        (∃ r, d.cal.run = some r ∧ r.kind = 6 ∧ r.unit = u ∧ r.strokes = 0 ∧ r.fromIdle = decide (s.d.mode = .idle)) ∧
        d.seq.en = !s.d.bzl.inhibit ∧ d.hold = s.d.hold ∧ d.tim = s.d.tim ∧
        d.flt = s.d.flt ∧ d.dma = s.d.dma ∧ d.fsram = s.d.fsram) ∧
    (s.d.cal.run ≠ none → Does (.calRunLampAbs h u) s fun d => Quiet s.d d ∧ Replied d h 0x60 stBusy [])) ∧
  (∀ (h : Req) (s : State), Ready h s.d → s.d.mode ∈ [Mode.idle, .calibrate] → s.d.rd Reg.CAL_VREFX_UV ≠ 0 →
    1140000 ≤ s.d.bzl.vrefx → s.d.bzl.vrefx ≤ 1260000 →
    (s.d.cal.run = none →
      Does (.calRunVrefTrace h 0) s fun d => Replied d h 0x60 stAccepted [] ∧ d.mode = .calibrate ∧
        (s.d.mode = .idle → d.prev = .idle) ∧ (∃ r, d.cal.run = some r ∧ r.kind = 7 ∧
          r.fromIdle = decide (s.d.mode = .idle)) ∧ d.hold = s.d.hold ∧ d.tim = s.d.tim ∧ d.flt = s.d.flt ∧
        d.dma = s.d.dma ∧ d.fsram = s.d.fsram) ∧
    (s.d.cal.run ≠ none → Does (.calRunVrefTrace h 0) s fun d => Quiet s.d d ∧ Replied d h 0x60 stBusy []))

/-- How runs end (R312, R313, R318 to R324): an AFE run ends once it has measured 64 strokes; it is counted, its quadrant's
temperature kept, and an unset black reference of an automatic run taken from the mean of its codes; a commanded one is
over with its last quadrant. SHADING, LAMP_ABS and VREF_TRACE leave a pending result and, begun in IDLE, return there; a run
that meets no Catch fails with TIMEOUT and is counted. How the bandgap is rounded is the model's choice (log 181). -/
def Obligations.CalibrationResults : Prop :=
  (∀ (q : Nat) (s : State), s.d.cal.afeRun.find? (fun x => x.quad == q && decide (64 ≤ x.strokes)) = none →
    Does (.afeOffsetDone q) s fun d => d = s.d) ∧
  (∀ (q : Nat) (r : AfeRun) (s : State), q < 4 →
    s.d.cal.afeRun.find? (fun x => x.quad == q && decide (64 ≤ x.strokes)) = some r →
    Does (.afeOffsetDone q) s fun d => d.cal.afeRun = s.d.cal.afeRun.filter (fun x => x.quad != q) ∧
      d.rd Reg.CAL_AFE_RUN_CNT = min 0xFFFFFFFF (s.d.rd Reg.CAL_AFE_RUN_CNT + 1) ∧
      d.rf (Reg.CAL_AFE_Q q) 31 16 = s.d.rd (Reg.CAL_TQ q) % 65536 ∧
      (s.d.cal.run = none → d.cal.run = none ∧ d.mode = s.d.mode ∧ d.ops = s.d.ops ∧ d.seq = s.d.seq ∧
        d.rd Reg.CAL_RUN_CNT = min 0xFFFFFFFF (s.d.rd Reg.CAL_RUN_CNT + 1)) ∧
      (∀ x, s.d.cal.run = some x → x.kind = 2 → x.left = [q] → d.cal.run = none ∧
        d.rd Reg.CAL_RUN_CNT = min 0xFFFFFFFF (s.d.rd Reg.CAL_RUN_CNT + 1) ∧
        d.ops.filter (fun o => o.op == .calRun) = [] ∧
        d.mode = (if x.fromIdle = true ∧ s.d.mode = .calibrate then .idle else s.d.mode)) ∧
      (∀ x, s.d.cal.run = some x → x.kind = 2 → q ∈ x.left → x.left.filter (fun y => y != q) ≠ [] → d.mode = s.d.mode ∧
        d.ops = s.d.ops ∧ ∃ y, d.cal.run = some y ∧ y.left = x.left.filter (fun y => y != q)) ∧
      d.hold = s.d.hold ∧ d.tim = s.d.tim ∧ d.dma = s.d.dma ∧ d.fsram = s.d.fsram) ∧
  (∀ (q t sum n : Nat) (r : AfeRun) (s : State), t < 384 → t / 96 = q →
    s.d.cal.afeRun.find? (fun x => x.quad == q && decide (64 ≤ x.strokes)) = some r → r.sums = [(t, 0, sum, n)] →
    s.d.cal.run = none → s.d.bref t 0 = none → 0 < n → sum ≤ 16383 * n →
    Does (.afeOffsetDone q) s fun d =>
      d.rf (Reg.CAL_BREF01 t) 31 16 = (2 * sum + n) / (2 * n) ∧ d.rd Reg.CAL_LAST_EPOCH = 0 ∧
      d.rd (Reg.CAL_TRIM t) = s.d.rd (Reg.CAL_TRIM t) ∧ Quiet { s.d with regs := d.regs, cal := d.cal } d) ∧
  (∀ (r : CalRun) (s : State), s.d.cal.run = some r →
    (r.kind = 5 → r.stage = 1 → Does .shadingSettleDone s fun d =>
      d = { s.d with cal := { s.d.cal with run := some { r with stage := 2, strokes := 0 } } }) ∧
    (r.kind ≠ 5 ∨ r.stage ≠ 1 → Does .shadingSettleDone s fun d => d = s.d) ∧
    (r.kind = 5 → r.stage = 2 → s.d.rf Reg.CAL_SHADE_N 31 16 ≤ r.strokes →
      Does .shadingDone s fun d => d.cal.run = none ∧
        d.mode = (if r.fromIdle = true ∧ s.d.mode = .calibrate then .idle else s.d.mode) ∧
        (s.d.mode = .calibrate → d.seq.en = false) ∧ d.cal.pend.length ≤ 8 ∧
        (∃ x, d.cal.pend.getLast? = some x ∧ x.kind = 5 ∧ x.unit = r.unit ∧ x.epoch = w32 (s.d.rd Reg.CAL_EPOCH_NEXT) ∧
          x.body = r.mon) ∧
        d.rd Reg.CAL_EPOCH_NEXT = (s.d.rd Reg.CAL_EPOCH_NEXT + 1) % 2 ^ 32 ∧
        d.rd Reg.CAL_RUN_CNT = min 0xFFFFFFFF (s.d.rd Reg.CAL_RUN_CNT + 1) ∧
        d.ops.filter (fun o => o.op == .calRun) = [] ∧ d.fsram = s.d.fsram ∧ d.tim = s.d.tim) ∧
    (∀ y, r.kind = 6 → s.d.rf Reg.CAL_SHADE_N 31 16 ≤ r.strokes → s.d.whitePixels r = y →
      (s.d.rf Reg.CAL_WHITE_TARGET 15 0 * y.length ≤ 4 * sumN y →
        Does .lampAbsDone s fun d => d.cal.run = none ∧
          d.mode = (if r.fromIdle = true ∧ s.d.mode = .calibrate then .idle else s.d.mode) ∧
          (∃ x, d.cal.pend.getLast? = some x ∧ x.kind = 6 ∧ x.unit = r.unit ∧
            x.body = (List.range 16).map (fun n => ((aget s.d.cal.monRec (s.d.slotOf r.unit)).getD []).getD n 0 *
              s.d.rf Reg.CAL_WHITE_TARGET 15 0 * y.length / max 1 (sumN y))) ∧ d.fsram = s.d.fsram ∧ d.tim = s.d.tim) ∧
      (4 * sumN y < s.d.rf Reg.CAL_WHITE_TARGET 15 0 * y.length →
        Does .lampAbsDone s fun d => d.cal.run = none ∧
          d.mode = (if r.fromIdle = true ∧ s.d.mode = .calibrate then .idle else s.d.mode) ∧ d.cal.pend = s.d.cal.pend)) ∧
    (∀ ratio, r.kind = 7 →
      Does (.vrefTraceDone ratio) s fun d => d.cal.run = none ∧
        d.mode = (if r.fromIdle = true ∧ s.d.mode = .calibrate then .idle else s.d.mode) ∧
        d.rd Reg.CAL_BG_RATIO = ratio % 2 ^ 32 ∧
        (∃ x, d.cal.pend.getLast? = some x ∧ x.kind = 7 ∧ x.unit = 0 ∧
          x.body = [(s.d.rd Reg.CAL_VREFX_UV * (ratio % 2 ^ 32) + 2 ^ 29) / 2 ^ 30]) ∧
        d.rd Reg.CAL_RUN_CNT = min 0xFFFFFFFF (s.d.rd Reg.CAL_RUN_CNT + 1)) ∧
    ((r.kind = 2 ∨ r.kind = 5 ∨ r.kind = 6) → s.d.mode ≠ .hold → s.d.mode ≠ .splice →
      Does .calRunTimeout s fun d => d.cal.run = none ∧
        d.mode = (if r.fromIdle = true ∧ s.d.mode = .calibrate then .idle else s.d.mode) ∧ d.cal.pend = s.d.cal.pend ∧
        d.rd Reg.CAL_FAIL_CNT = min 0xFFFFFFFF (s.d.rd Reg.CAL_FAIL_CNT + 1) ∧
        d.ops.filter (fun o => o.op == .calRun) = []))

/-- CAL_APPLY and the slot check (R161, R304, R308, R324): every pending result that a request names, of each unit the newest
or the one of its epoch, takes its effect and leaves the pending set, and the request is answered OK: a VREF_TRACE result
becomes CAL_BG_UV, an AFE_OFFSET result a correction due at the next Catch or held, a LAMP_ABS result the slot's monitor
record, a LAMP_REC result the chain's offsets, a SHADING result the contents of its slot, which the check makes VALID or
CRC_FAIL, with FAULT and the result kept for the latter. Nothing pending: BAD_PARAM; in HOLD and SPLICE, or into a slot
IN_USE: BAD_STATE. Lamp-monitor compensation (R316, R436): the C_p of every phase that moves by CAL_COMP_STEP or more become
one correction with a new epoch, and the DRIFT bits follow; at WAKE a phase takes C_p from the thermal model, or 1.0. -/
def Obligations.CorrectionsApplied : Prop :=
  (∀ (m : Nat) (s : State),
    (bit s.d.cal.chk m = true → Does (.mapSlotCrcCheck m) s fun d => bit d.cal.chk m = false ∧
      bit d.cal.valid m = (beW (setCrc s.d.fsram (0x100000 * m)) == mread s.d.fsram (0x100000 * m + 0xF003C) 4) ∧
      bit d.cal.crcFail m = (beW (setCrc s.d.fsram (0x100000 * m)) != mread s.d.fsram (0x100000 * m + 0xF003C) 4) ∧
      (∀ n, n ≠ m → bit d.cal.valid n = bit s.d.cal.valid n ∧ bit d.cal.crcFail n = bit s.d.cal.crcFail n) ∧
      d = { s.d with cal := { s.d.cal with
        chk := d.cal.chk, valid := d.cal.valid, crcFail := d.cal.crcFail, asked := d.cal.asked } }) ∧
    (bit s.d.cal.chk m = false → Does (.mapSlotCrcCheck m) s fun d => d = s.d)) ∧
  (∀ (h : Req) (k u e : Nat) (s : State), Ready h s.d → s.d.mode ≠ .hold → s.d.mode ≠ .splice →
    s.d.pendNamed k u e ≠ [] → k ≠ 1 → k ≠ 3 → (k ≠ 5 ∨ s.d.slotUsed (u % 8) = false) →
    Does (.calApply h k u e) s fun d =>
      (k ≠ 5 ∨ bit d.cal.crcFail (u % 8) = false → Replied d h 0x61 stOk [] ∧
        d.cal.pend = s.d.cal.pend.filter (fun x => !(s.d.pendNamed k u e).contains x)) ∧
      (k = 5 → bit d.cal.crcFail (u % 8) = true → Replied d h 0x61 stFault [] ∧ d.cal.pend = s.d.cal.pend) ∧
      (k = 2 → (s.d.boundaryMode && s.d.jobHeld) = false →
        d.cal.due = s.d.cal.due ++ (s.d.pendNamed k u e).map (fun r =>
          ⟨2, r.unit, r.epoch, none, afeVals r.unit r.body, [(headKey 2 r.unit, r.head)]⟩)) ∧
      (k = 2 → (s.d.boundaryMode && s.d.jobHeld) = true → d.cal.due = s.d.cal.due ∧
        d.cal.held.map (fun c => { c with k0 := none }) = s.d.cal.held.map (fun c => { c with k0 := none }) ++
          (s.d.pendNamed k u e).map (fun r =>
            ⟨2, r.unit, r.epoch, none, afeVals r.unit r.body, [(headKey 2 r.unit, r.head)]⟩)) ∧
      (k = 7 → ∀ r ∈ s.d.pendNamed k u e, d.rd Reg.CAL_BG_UV = r.body.headD 0 % 2 ^ 32) ∧
      (k = 8 → ∀ r ∈ s.d.pendNamed k u e, r.unit < 16 → ∀ g, g < 14 →
        d.rd (Reg.LMP_C_ROT r.unit g) = r.body.getD g 0 % 2 ^ 32) ∧
      (k = 6 → ∀ r ∈ s.d.pendNamed k u e, aget d.cal.monRec (s.d.slotOf r.unit) = some r.body) ∧
      (k = 5 → ∀ r ∈ s.d.pendNamed k u e, aget d.cal.monRec (u % 8) = some r.body ∧
        bit d.cal.valid (u % 8) = !bit d.cal.crcFail (u % 8) ∧
        ∀ a, (a < 0x100000 * (u % 8) ∨ 0x100000 * (u % 8) + 983104 ≤ a) →
          (∀ x ∈ r.cells, x.1 < 983104) → mget d.fsram a = mget s.d.fsram a) ∧
      (k ≠ 5 → d.fsram = s.d.fsram) ∧
      Quiet { s.d with
        fsram := d.fsram, cal := d.cal, flt := { s.d.flt with poison := d.flt.poison }
        regs := if k = 6 ∨ k = 7 ∨ k = 8 then d.regs else s.d.regs } d) ∧
  (∀ (h : Req) (k u e : Nat) (s : State), Ready h s.d →
    ((s.d.mode = .hold ∨ s.d.mode = .splice) →
      Does (.calApply h k u e) s fun d => Quiet s.d d ∧ Replied d h 0x61 stBadState []) ∧
    (s.d.mode ≠ .hold → s.d.mode ≠ .splice → s.d.pendNamed k u e = [] ∨ k = 1 ∨ k = 3 →
      Does (.calApply h k u e) s fun d => Quiet s.d d ∧ Replied d h 0x61 stBadParam []) ∧
    (s.d.mode ≠ .hold → s.d.mode ≠ .splice → s.d.pendNamed 5 u e ≠ [] → s.d.slotUsed (u % 8) = true →
      Does (.calApply h 5 u e) s fun d => Quiet s.d d ∧ Replied d h 0x61 stBadState [])) ∧
  (∀ s : State,
    Does .lampCompUpdate s fun d =>
      (∀ p, p < nphOf s.d.regs.act →
        bit (d.rd Reg.CAL_STAT) (4 + p) = (s.d.compTarget (s.d.ratioMean p s.d.ratio)).2) ∧
      (∀ p, d.rd (Reg.PIX_LCOMP p) = s.d.rd (Reg.PIX_LCOMP p)) ∧
      (s.d.compMoved = [] → d.cal.due = s.d.cal.due ∧ d.cal.held = s.d.cal.held ∧
        d.rd Reg.CAL_EPOCH_NEXT = s.d.rd Reg.CAL_EPOCH_NEXT ∧ d.rd Reg.CAL_COMP_UPD_CNT = s.d.rd Reg.CAL_COMP_UPD_CNT) ∧
      (s.d.compMoved ≠ [] →
        d.rd Reg.CAL_EPOCH_NEXT = (s.d.rd Reg.CAL_EPOCH_NEXT + 1) % 2 ^ 32 ∧
        d.rd Reg.CAL_COMP_UPD_CNT = min 0xFFFFFFFF (s.d.rd Reg.CAL_COMP_UPD_CNT + s.d.compMoved.length) ∧
        ((s.d.boundaryMode && s.d.jobHeld) = false →
          d.cal.due = s.d.cal.due ++ [⟨4, 0, w32 (s.d.rd Reg.CAL_EPOCH_NEXT), none,
            s.d.compMoved.map (fun p => (Reg.PIX_LCOMP p, w32 (s.d.compTarget (s.d.ratioMean p s.d.ratio)).1)),
            s.d.compMoved.map (fun p => (headKey 4 p, s.d.compHead p (w32 (s.d.rd Reg.CAL_EPOCH_NEXT))))⟩]) ∧
        ((s.d.boundaryMode && s.d.jobHeld) = true → d.cal.due = s.d.cal.due ∧
          (d.cal.held.drop s.d.cal.held.length).map (fun c => c.vals) =
            [s.d.compMoved.map (fun p => (Reg.PIX_LCOMP p, w32 (s.d.compTarget (s.d.ratioMean p s.d.ratio)).1))])) ∧
      Quiet { s.d with cal := d.cal, regs := d.regs } d) ∧
  (∀ s : State,
    (s.d.mode = .wake → Does .lampPreload s fun d =>
      (∀ p, p < nphOf s.d.regs.act → d.rd (Reg.PIX_LCOMP p) = match s.d.preloadRatio p with
        | some x => (s.d.compTarget (some x)).1 % 2 ^ 32
        | none => 16384) ∧
      ((∀ p, p < nphOf s.d.regs.act → s.d.preloadRatio p = none) → d.cal.heads = s.d.cal.heads ∧
        d.rd Reg.CAL_EPOCH_NOW = s.d.rd Reg.CAL_EPOCH_NOW) ∧
      Quiet { s.d with regs := d.regs, cal := d.cal } d) ∧
    (s.d.mode ≠ .wake → Does .lampPreload s fun d => d = s.d))

/-- The calibration store (R327 to R329): CAL_STORE queues the results in force of every kind and unit it names and is
answered ACCEPTED, and with none in force and none being written its operation is over; the periodic store queues its three
kinds; a written record joins the store and is counted, a first failure is retried in the next sector, a second loses the
record; CAL_RESTORE takes a record of the store for every unit named, of the epoch named or the newest, and its end makes
them pending results; of a record the store does not hold, or in WAKE, none. -/
def Obligations.CalibrationStore : Prop :=
  (∀ (h : Req) (k u : Nat) (s : State), Ready h s.d → 1 ≤ k → k ≤ 8 ∨ k = 0xFFFF →
    u = 0xFFFF ∨ (∃ j ∈ kindsNamed k, u ∈ kindUnits j) →
    Does (.calStore h k u) s fun d => d.cal.writes = s.d.cal.writes ++ s.d.toStore k u ∧ Replied d h 0x62 stAccepted [] ∧
      (d.cal.writes ≠ [] → d.ops = s.d.ops ++ [⟨.calStore, h.session, h.seq⟩]) ∧
      (d.cal.writes = [] → d.ops = s.d.ops.filter (fun o => o.op != .calStore)) ∧
      Quiet { s.d with cal := { s.d.cal with writes := d.cal.writes, lost := false }, ops := d.ops } d) ∧
  (∀ s : State,
    (s.d.fieldRuns = true → Does .calPeriodicStore s fun d => d.cal.writes = s.d.cal.writes ++
        ([1, 2, 3] : List Nat).flatMap (fun k => (kindUnits k).filterMap (s.d.inForce k)) ∧
      d = { s.d with cal := { s.d.cal with writes := d.cal.writes } }) ∧
    (s.d.fieldRuns = false → Does .calPeriodicStore s fun d => d = s.d)) ∧
  (∀ (r : CalRec) (l : List CalRec) (s : State), s.d.cal.writes = r :: l →
    Does (.calFlashWriteDone true) s (fun d => d.cal.store = storeAdd s.d.cal.store r ∧ d.cal.writes = l ∧
      d.cal.retry = false ∧ d.rd Reg.CAL_STORE_CNT = min 0xFFFFFFFF (s.d.rd Reg.CAL_STORE_CNT + 1) ∧
      Out.flashRecord r.bytes ∈ d.tx ∧
      (l = [] → d.ops = s.d.ops.filter (fun o => o.op != .calStore)) ∧ (l ≠ [] → d.ops = s.d.ops) ∧
      Quiet { s.d with cal := d.cal, regs := d.regs, ops := d.ops } d) ∧
    (s.d.cal.retry = false → Does (.calFlashWriteDone false) s fun d => d.cal.store = s.d.cal.store ∧ d.cal.writes = r :: l ∧
      d.cal.retry = true ∧ d.ops = s.d.ops ∧ d.rd Reg.CAL_FLASH_ERR_CNT = s.d.rd Reg.CAL_FLASH_ERR_CNT ∧
      d.mode = s.d.mode ∧ d.hold = s.d.hold) ∧
    (s.d.cal.retry = true → Does (.calFlashWriteDone false) s fun d => d.cal.store = s.d.cal.store ∧ d.cal.writes = l ∧
      d.cal.retry = false ∧ (l = [] → d.ops = s.d.ops.filter (fun o => o.op != .calStore)) ∧
      d.rd Reg.CAL_FLASH_ERR_CNT = min 0xFFFFFFFF (s.d.rd Reg.CAL_FLASH_ERR_CNT + 1) ∧ (∃ u, Logged d 0x11 2 u) ∧
      d.mode = s.d.mode ∧ d.hold = s.d.hold)) ∧
  (∀ (h : Req) (k u e : Nat) (s : State), Ready h s.d →
    (s.d.mode ≠ .wake → s.d.storeNamed k u e ≠ [] →
      Does (.calRestore h k u e) s fun d =>
        d.cal.restore = s.d.cal.restore ++ [(h.session, h.seq, s.d.storeNamed k u e)] ∧ Replied d h 0x63 stAccepted [] ∧
        Quiet { s.d with cal := { s.d.cal with restore := d.cal.restore }
                         ops := s.d.ops ++ [⟨.calRestore, h.session, h.seq⟩] } d) ∧
    (s.d.mode ≠ .wake → s.d.storeNamed k u e = [] →
      Does (.calRestore h k u e) s fun d => Quiet s.d d ∧ Replied d h 0x63 stBadParam []) ∧
    (s.d.mode = .wake → Does (.calRestore h k u e) s fun d => Quiet s.d d ∧ Replied d h 0x63 stBadState [])) ∧
  (∀ (n : Nat) (q : Word) (rs : List CalRec) (l : List (Nat × Word × List CalRec)) (s : State),
    s.d.cal.restore = (n, q, rs) :: l →
    Does .calRestoreDone s fun d => d.cal.restore = l ∧ (s.d.cal.pend.length ≤ 8 → d.cal.pend.length ≤ 8) ∧
      (rs ≠ [] → d.cal.pend.getLast? = rs.getLast? ∧ d.cal.pend.length ≤ 8) ∧
      (s.d.ops.find? (fun o => o.op == .calRestore && o.seq == q && (o.session == n || o.session == 0)) =
          some ⟨.calRestore, n, q⟩ → d.ops = s.d.ops.erase ⟨.calRestore, n, q⟩) ∧
      Quiet { s.d with cal := { s.d.cal with restore := l, pend := d.cal.pend }, ops := d.ops } d)

/-! Splices, pages and delivery. -/

/-- References, splices, switches and the Filigree (R198, R199, R241, R258, R287, R292): the references of a hold are the
last strokes ingested before it, CLS_REF at most, for as long as their grid indices are consecutive, and they are fixed
once; a decided splice goes on to SCAN; a raw edge of a switch latches the positions, DEB agreeing samples change its
level, and a hard limit driven toward stops its group; an engine completes its unit and takes the next that may start,
restarts on a fault, its unit left to another, and is retired on its second fault within the hour; a page whose units are
done gets its container. -/
def Obligations.SplicesAndPages : Prop :=
  (∀ s : State, s.d.mode = .hold → s.d.jobHeld = true → s.d.cls.fixed = false → s.d.beforeHold = false →
    Does .claspRefFixed s fun d =>
      d = { s.d with cls := { s.d.cls with refs := d.cls.refs, fixed := true, step := 1, refLast := d.cls.refLast } } ∧
      (∀ x, d.cls.refs.getLast? = some x → d.cls.refLast = x.no) ∧
      d.cls.refs.length ≤ s.d.rd Reg.CLS_REF ∧
      (∀ i, i + 1 < d.cls.refs.length → (nth d.cls.refs i).k + 1 = (nth d.cls.refs (i + 1)).k) ∧
      ∃ before, s.d.cls.ring.filter (fun x => match s.d.cls.breakAt with
          | some n => decide (x.no < n)
          | none => decide (x.no ≤ s.d.cls.holdNo)) = before ++ d.cls.refs ∧
        (∀ a, before.getLast? = some a → d.cls.refs.length < s.d.rd Reg.CLS_REF →
          ∃ b, d.cls.refs.head? = some b ∧ a.k + 1 ≠ b.k)) ∧
  (∀ s : State, (s.d.mode = .hold → s.d.jobHeld = true → s.d.cls.fixed = true ∨ s.d.beforeHold = true) →
    Does .claspRefFixed s fun d => d = s.d) ∧
  (∀ s : State, s.d.mode = .splice → s.d.hold = 0 → s.d.pages.stopPages = none →
    s.d.cls.staging.any (fun x => decide (s.d.cls.kb + s.d.rd Reg.CLS_OVL ≤ x.k + 1)) = true →
    Does .claspSpliceDecide s fun d => d.mode = .scan ∧ d.prev = .splice ∧ d.trans = (s.d.trans + 1) % 65536 ∧
      d.cls.step = 0 ∧ d.cls.refs = [] ∧ d.cls.fixed = false ∧ d.cls.staging = [] ∧ d.hold = s.d.hold ∧
      d.rd Reg.CLS_SPLICE_CNT = min 0xFFFFFFFF (s.d.rd Reg.CLS_SPLICE_CNT + 1) ∧ d.seq.en = s.d.seq.en ∧
      d.seq.high = s.d.seq.high ∧ -8 ≤ d.cls.cl ∧ d.cls.cl ≤ 8) ∧
  (∀ (w n t : Nat) (on : Bool) (s : State), t ≤ s.d.now → w < 18 →
    (s.d.rf Reg.PAGE_CTRL 9 8 ≠ 1 ∨ w ≠ s.d.rf Reg.PAGE_SENSOR 4 0 ∨ s.d.jobHeld = false) →
    (∀ a, (s.d.ax a).home = none ∧ (s.d.ax a).rate = 0) →
    Does (.switchEdge w (on == (s.d.rf (Reg.MOT_SW_CFG w) 31 31 == 0)) n t) s fun d =>
      bit (d.rd Reg.MOT_SW_RAW) w = on ∧
      bit (d.rd Reg.MOT_SW_STAT) w = (if s.d.rf (Reg.MOT_SW_CFG w) 15 0 ≤ n then on else bit (s.d.rd Reg.MOT_SW_STAT) w) ∧
      (∀ i, i ≠ w → bit (d.rd Reg.MOT_SW_STAT) i = bit (s.d.rd Reg.MOT_SW_STAT) i ∧
        bit (d.rd Reg.MOT_SW_RAW) i = bit (s.d.rd Reg.MOT_SW_RAW) i) ∧
      (w < s.d.mot.sw.length → bit (s.d.rd Reg.MOT_SW_RAW) w ≠ on →
        nth d.mot.sw w = ⟨s.d.feedPos s.d.now, (List.range 12).map s.d.axPos, s.d.now, true⟩) ∧
      (bit (s.d.rd Reg.MOT_SW_RAW) w = on → d.mot.sw = s.d.mot.sw) ∧
      (∀ a, a ≠ Reg.MOT_SW_STAT → a ≠ Reg.MOT_SW_RAW → d.rd a = s.d.rd a) ∧
      d = { s.d with regs := d.regs, mot := { s.d.mot with sw := d.mot.sw } }) ∧
  (∀ (w a n t : Nat) (s : State), t ≤ s.d.now → w < 18 → s.d.sw w = false → s.d.rf (Reg.MOT_SW_CFG w) 15 0 ≤ n →
    s.d.rf Reg.PAGE_CTRL 9 8 ≠ 1 → s.d.mode = .idle → a < 12 → s.d.axEn a = true →
    (∀ b, b < 12 → b ≠ a → s.d.axEn b = false) → (s.d.ax a).home = none → s.d.runsToward a w = true →
    s.d.rf (Reg.MOT_A_LIM a) 16 16 = 1 → s.d.axGroup a < s.d.mot.groups.length →
    Does (.switchEdge w (s.d.rf (Reg.MOT_SW_CFG w) 31 31 == 0) n t) s fun d =>
      (d.grp (s.d.axGroup a)).st = .limit ∧ (d.grp (s.d.axGroup a)).v = 0 ∧
      (d.grp (s.d.axGroup a)).q = [] ∧ (d.ax a).rate = 0 ∧ bit (d.rd (Reg.MOT_A_STAT a)) 1 = true ∧
      d.rd Reg.MOT_LIMIT_CNT = min 0xFFFFFFFF (s.d.rd Reg.MOT_LIMIT_CNT + 1) ∧ d.mode = .idle ∧ d.hold = s.d.hold) ∧
  (∀ (e : Nat) (s : State),
    (s.d.engineUnit e = none → Does (.filigreeUnitDone e) s fun d => d = s.d) ∧
    (e < 4 → s.d.engineUnit e ≠ none → bit s.d.pages.engines e = true → bit s.d.pages.engRestart e = false →
      s.d.freeEngines = [] →
      ((s.d.engineFree e).nextUnit = none → Does (.filigreeUnitDone e) s fun d => d = s.d.engineFree e ∧
        d.engineUnit e = none) ∧
      (∀ p u, (s.d.engineFree e).nextUnit = some (p, u) → Does (.filigreeUnitDone e) s fun d =>
        d.engineUnit e = some (p.serial, p.id, u) ∧ (∀ n, n ≠ e → d.engineUnit n = s.d.engineUnit n) ∧
        d.pages.list = s.d.pages.list.map (fun q => if q == p then { q with units := q.units.erase u } else q) ∧
        d = { s.d with pages := { s.d.pages with list := d.pages.list, busy := d.pages.busy } }))) ∧
  (∀ (e : Nat) (s : State), bit s.d.pages.engines e = true → e < 4 →
    (aget s.d.pages.engFault e = none → s.d.recurs 0xF 1 e = none →
      Does (.filigreeMismatch e) s fun d => bit d.pages.engRestart e = true ∧ d.pages.engines = s.d.pages.engines ∧
        Logged d 0xF 1 e ∧ d.rd Reg.PAGE_ENG_FAULT_CNT = min 0xFFFFFFFF (s.d.rd Reg.PAGE_ENG_FAULT_CNT + 1) ∧
        d.engineUnit e = none ∧ (s.d.engineUnit e = none → s.d.nextUnit = none → d.pages.list = s.d.pages.list) ∧
        d.mode = s.d.mode ∧ d.hold = s.d.hold) ∧
    (∀ t, aget s.d.pages.engFault e = some t → s.d.ns ≤ t + 3600000000000 →
      Does (.filigreeMismatch e) s fun d => bit d.pages.engines e = false ∧ Logged d 0xF 2 e ∧
        d.engineUnit e = none ∧ d.mode = s.d.mode ∧ d.hold = s.d.hold) ∧
    (∀ j id u p, s.d.engineUnit e = some (j, id, u) → p ∈ s.d.pages.list → p.serial = j → p.id = id →
      Does (.filigreeMismatch e) s fun d => (∃ n, n ≠ e ∧ d.engineUnit n = some (j, id, u)) ∨
        ∃ q ∈ d.pages.list, q.serial = j ∧ q.id = id ∧ u ∈ q.units)) ∧
  (∀ (id : Word) (q : Page) (s : State),
    s.d.pages.list.find? (fun p => p.id == id && p.closed && p.units.isEmpty && (s.d.busyUnits p).isEmpty &&
      p.container.isNone) = some q →
    Does (.containerComplete id) s fun d =>
      d.pages.list = s.d.pages.list.map (fun p => if p == q then { q with
        container := some (q.build s.d.pages.key).1, mflags := (q.build s.d.pages.key).2.1, doneAt := s.d.ns } else p) ∧
      (∀ a, a ≠ Reg.PAGE_EDGE_NONE_CNT → a ≠ Reg.PAGE_SKEW_LIMIT_CNT → a ≠ Reg.PAGE_JLS_SKIP_CNT → d.rd a = s.d.rd a) ∧
      d = { s.d with pages := { s.d.pages with list := d.pages.list }, regs := d.regs })

/-- Delivery (R200 to R203): with room in the client's ring a container goes out whole, inside the ring and on a multiple
of 4,096; with the completion record acknowledged, or the last byte over UDP, the page is released and counted; an ACK
moves the window; a resend interval doubles up to 100 ms; a client's datagram that is damaged, or not of the delivery and
its session's binding, is only counted on its port. -/
def Obligations.Delivery : Prop :=
  (∀ (p : Page) (b : List Byte) (n : Nat) (s : State), 1 ≤ n → n ≤ 64 → s.d.served = true → s.d.pages.deliv = none →
    s.d.nextDelivery = some (p, b, n) → s.d.delivMode n = 1 → (s.d.qp n).st = 1 →
    s.d.rd (Reg.PAGE_S_CRING_N (n - 1)) ≠ 0 → s.d.rd (Reg.PAGE_S_DPROD (n - 1)) = s.d.rd (Reg.PAGE_S_DCONS (n - 1)) →
    b.length + 4096 ≤ s.d.rd (Reg.PAGE_S_DRING_LEN (n - 1)) * 4096 →
    Does .deliveryStart s fun d => (∃ x, d.pages.deliv = some x ∧ x.page = p.id ∧ x.serial = p.serial ∧ x.session = n ∧
        x.rdma = true ∧ x.record = false ∧ x.offset % 4096 = 0 ∧
        x.offset + b.length ≤ s.d.rd (Reg.PAGE_S_DRING_LEN (n - 1)) * 4096) ∧
      d.pages.list = s.d.pages.list ∧
      Quiet { s.d with pages := { s.d.pages with deliv := d.pages.deliv, wait := none, tooSmall := none }
                       net := { s.d.net with qps := d.net.qps } } d) ∧
  (∀ (x : Deliv) (p : Page) (b : List Byte) (s : State), s.d.pages.deliv = some x → x.rdma = true →
    s.d.delivPage x = some (p, b) →
    (x.record = true →
      Does .rdmaAckRx s fun d => d.pages.deliv = none ∧ d.pages.list = s.d.pages.list.filter (fun q => !(q == p)) ∧
        d.rd Reg.PAGE_DELIV_CNT = min 0xFFFFFFFF (s.d.rd Reg.PAGE_DELIV_CNT + 1) ∧ d.rd Reg.PAGE_LAST_ID = p.id.toNat ∧
        d.mode = s.d.mode ∧ d.hold = s.d.hold ∧ d.seq = s.d.seq ∧ d.flt = s.d.flt) ∧
    (x.record = false → 1 ≤ x.session → x.session ≤ 64 → 2 ≤ s.d.rd (Reg.PAGE_S_CRING_N (x.session - 1)) →
      s.d.rd (Reg.PAGE_S_CPROD (x.session - 1)) = s.d.rd (Reg.PAGE_S_CCONS (x.session - 1)) →
      s.d.rd (Reg.PAGE_S_CPROD (x.session - 1)) < s.d.rd (Reg.PAGE_S_CRING_N (x.session - 1)) →
      Does .rdmaAckRx s fun d => (∃ y, d.pages.deliv = some y ∧ y.record = true ∧ y.page = x.page) ∧
        d.rd (Reg.PAGE_S_CPROD (x.session - 1)) =
          (s.d.rd (Reg.PAGE_S_CPROD (x.session - 1)) + 1) % s.d.rd (Reg.PAGE_S_CRING_N (x.session - 1)) ∧
        d.pages.list = s.d.pages.list ∧ d.mode = s.d.mode ∧ d.hold = s.d.hold ∧ d.seq = s.d.seq)) ∧
  (∀ (e : Endpoint) (f : ClientData) (s : State),
    (s.d.fromClient e f 2 = none → Does (.udpAckRx e f) s fun d => d = s.d.clientRx f) ∧
    (s.d.fromClient e f 3 = none → Does (.udpNakRx e f) s fun d => d = s.d.clientRx f)) ∧
  (∀ (x : Deliv) (p : Page) (b : List Byte) (y : Session) (e : Endpoint) (f : ClientData) (s : State),
    s.d.pages.deliv = some x → x.rdma = false → s.d.delivPage x = some (p, b) → s.d.ses? x.session = some y →
    (s.d.fromClient e f 2 = some x → x.acked < f.offset → f.offset ≤ x.sent → f.offset = b.length →
      Does (.udpAckRx e f) s fun d => d.pages.deliv = none ∧
        d.pages.list = s.d.pages.list.filter (fun q => !(q == p)) ∧
        d.rd Reg.PAGE_DELIV_CNT = min 0xFFFFFFFF (s.d.rd Reg.PAGE_DELIV_CNT + 1) ∧ d.rd Reg.PAGE_LAST_ID = p.id.toNat ∧
        d.mode = s.d.mode ∧ d.hold = s.d.hold ∧ d.seq = s.d.seq ∧ d.flt = s.d.flt) ∧
    (s.d.fromClient e f 2 = some x → x.acked < f.offset → f.offset ≤ x.sent → f.offset ≠ b.length →
      Does (.udpAckRx e f) s fun d =>
        (∃ z, d.pages.deliv = some z ∧ z.acked = f.offset ∧ x.sent ≤ z.sent ∧ z.rto = s.d.rd Reg.PAGE_UDP_RTO) ∧
        d.pages.list = s.d.pages.list ∧
        Quiet { s.d with pages := { s.d.pages with deliv := d.pages.deliv, dseq := d.pages.dseq } } d) ∧
    (s.d.fromClient e f 3 = some x →
      Does (.udpNakRx e f) s fun d => (∃ z, d.pages.deliv = some z ∧ z.acked = x.acked ∧ x.sent ≤ z.sent) ∧
        d.pages.list = s.d.pages.list ∧ s.d.rd Reg.PAGE_UDP_RETX_CNT ≤ d.rd Reg.PAGE_UDP_RETX_CNT ∧
        Quiet { s.d with pages := { s.d.pages with deliv := d.pages.deliv, dseq := d.pages.dseq }, regs := d.regs } d) ∧
    (x.acked < x.sent →
      Does .udpRto s fun d => (∃ z, d.pages.deliv = some z ∧ z = { x with rto := min 100000 (2 * x.rto) }) ∧
        d.pages.list = s.d.pages.list ∧
        Quiet { s.d with pages := { s.d.pages with deliv := d.pages.deliv, dseq := d.pages.dseq }, regs := d.regs } d))

/-! The network and time. -/

/-- The ports (R362 to R365): a link that comes up sends what waits on it; one that goes down is counted and closes
nothing; a frame that the MAC does not accept, or to a UDP port that is not served, is dropped and counted; PAUSE and PFC
stop and resume sending, each for its quanta, and XOFF and XON go out at their marks. Address resolution, echo and
reassembly (R367, R368): the device answers for its own addresses and echoes to them; a fragment for the SKM port joins its
reassembly, which ends complete, too long or timed out, and is counted. -/
def Obligations.PortsAndAnswers : Prop :=
  (∀ (p : NetPort) (v : Nat) (s : State), s.d.mode ≠ .off → s.d.rf (cfgAddr p) 31 31 = 1 →
    Does (.netLinkUp p v) s fun d => Quiet s.d d ∧ d.link p = true ∧
      (p = .sgmii → d.rf Reg.NET_SG_CFG 29 28 = min v 2) ∧
      (s.d.served = true → portIx p < s.d.net.ports.length → (nth s.d.net.ports (portIx p)).paused = false →
        (nth s.d.net.ports (portIx p)).pfc = 0 → (nth d.net.ports (portIx p)).waitq = [])) ∧
  (∀ (p : NetPort) (s : State), s.d.link p = true →
    Does (.netLinkDown p) s fun d => Quiet s.d d ∧ d.link p = false ∧ d.sess = s.d.sess ∧ d.net.ports = s.d.net.ports ∧
      d.rd (Reg.NET_P_LINK_DOWN_CNT (portIx p)) = min 0xFFFFFFFF (s.d.rd (Reg.NET_P_LINK_DOWN_CNT (portIx p)) + 1)) ∧
  (∀ (f : NetFrame) (s : State),
    (f.len < 64 ∨ s.d.mtu f.port + 22 < f.len ∨ f.fcsOk = false ∨ f.full = true → s.d.accepts f = false) ∧
    (s.d.accepts f = false → Does (.netFrameDrop f) s fun d => d = s.d.bump (Reg.NET_P_RX_DROP_CNT (portIx f.port))) ∧
    (∀ u, s.d.accepts f = true → f.udp = some u → udpServed f.port u = false → Does (.netFrameDrop f) s fun d =>
      d = (s.d.rxFrame f.port).bump (Reg.NET_P_RX_DROP_CNT (portIx f.port)))) ∧
  (∀ (p : NetPort) (q : Nat) (s : State), portIx p < s.d.net.ports.length →
    (s.d.flow p = 1 → q ≠ 0 → Does (.pauseRx p q) s fun d => Quiet s.d d ∧ d.tx = s.d.tx ∧
      (nth d.net.ports (portIx p)).paused = true ∧ (nth d.net.ports (portIx p)).pausedTill = s.d.now + s.d.quanta p q ∧
      d.canSend p 1 = false ∧
      d.rd (Reg.NET_P_PAUSE_RX_CNT (portIx p)) = min 0xFFFFFFFF (s.d.rd (Reg.NET_P_PAUSE_RX_CNT (portIx p)) + 1)) ∧
    (s.d.flow p = 1 → Does (.pauseRx p 0) s fun d => Quiet s.d d ∧ (nth d.net.ports (portIx p)).paused = false) ∧
    (s.d.flow p ≠ 1 → Does (.pauseRx p q) s fun d => d = s.d.bump (Reg.NET_P_RX_DROP_CNT (portIx p))) ∧
    ((nth s.d.net.ports (portIx p)).ends = [] → Does (.pauseExpire p) s fun d => d = s.d) ∧
    (∀ e l, (nth s.d.net.ports (portIx p)).ends = e :: l → Does (.pauseExpire p) s fun d =>
      Quiet (s.d.until_ (l.foldl min e)) d ∧
      (nth d.net.ports (portIx p)).paused =
        ((nth s.d.net.ports (portIx p)).paused && decide (d.now < (nth s.d.net.ports (portIx p)).pausedTill)) ∧
      (nth d.net.ports (portIx p)).pfcTill = (nth s.d.net.ports (portIx p)).pfcTill.filter (fun x => decide (d.now < x.2)) ∧
      ∀ x, x < 8 → bit (nth d.net.ports (portIx p)).pfc x = (bit (nth s.d.net.ports (portIx p)).pfc x &&
        !(nth s.d.net.ports (portIx p)).pfcTill.any (fun y => y.1 == x && decide (y.2 ≤ d.now))))) ∧
  (∀ (p : NetPort) (x q : Nat) (s : State), portIx p < s.d.net.ports.length → s.d.flow p = 2 → p ≠ .sgmii → x < 8 →
    (bit (s.d.rf (Reg.NET_P_PFC (portIx p)) 7 0) x = true →
      Does (.pfcRx p [(x, q)]) s fun d => Quiet s.d d ∧
        bit (nth d.net.ports (portIx p)).pfc x = decide (q ≠ 0) ∧
        (q ≠ 0 → (x, s.d.now + s.d.quanta p q) ∈ (nth d.net.ports (portIx p)).pfcTill) ∧
        (nth d.net.ports (portIx p)).paused = (nth s.d.net.ports (portIx p)).paused) ∧
    (s.d.served = true → bit (s.d.rf (Reg.NET_P_PFC (portIx p)) 15 8) x = true → 0x80000 ≤ q →
      bit (nth s.d.net.ports (portIx p)).xoff x = false →
      Does (.pfcXoffTx p x q) s fun d => Quiet s.d d ∧ d.tx = .pfc p x true :: s.d.tx ∧
        bit (nth d.net.ports (portIx p)).xoff x = true ∧
        d.rd (Reg.NET_P_PFC_TX_CNT (portIx p)) = min 0xFFFFFFFF (s.d.rd (Reg.NET_P_PFC_TX_CNT (portIx p)) + 1)) ∧
    (s.d.served = true → q < 0x40000 → bit (nth s.d.net.ports (portIx p)).xoff x = true →
      Does (.pfcXoffTx p x q) s fun d => Quiet s.d d ∧ d.tx = .pfc p x false :: s.d.tx ∧
        bit (nth d.net.ports (portIx p)).xoff x = false)) ∧
  (∀ (p : NetPort) (e : Endpoint) (s : State), s.d.served = true → s.d.canSend p 1 = true →
    (s.d.rd (Reg.NET_P_IP4 (portIx p)) ≠ 0 →
      Does (.arpRequest p e (s.d.rd (Reg.NET_P_IP4 (portIx p)))) s fun d => Quiet s.d d ∧
        d.tx = .arpReply p e (s.d.rd (Reg.NET_P_IP4 (portIx p))) :: s.d.tx) ∧
    (∀ t, t ≠ s.d.rd (Reg.NET_P_IP4 (portIx p)) → Does (.arpRequest p e t) s fun d => Quiet s.d d ∧ d.tx = s.d.tx) ∧
    Does (.ndSolicit p e (linkLocal p)) s (fun d => Quiet s.d d ∧ d.tx = .ndAdvert p e (linkLocal p) :: s.d.tx) ∧
    (s.d.ip6 p ≠ 0 →
      Does (.ndSolicit p e (s.d.ip6 p)) s fun d => Quiet s.d d ∧ d.tx = .ndAdvert p e (s.d.ip6 p) :: s.d.tx) ∧
    (∀ t, t ≠ linkLocal p → t ≠ s.d.ip6 p → Does (.ndSolicit p e t) s fun d => Quiet s.d d ∧ d.tx = s.d.tx) ∧
    (∀ x t, s.d.ownAddr p t = true → x.length ≤ 1472 →
      Does (.icmpEcho p ⟨e, t⟩ x) s fun d => Quiet s.d d ∧ d.tx = .echoReply p e x :: s.d.resolved p (.echoReply p e x)) ∧
    (∀ x t, s.d.ownAddr p t = false ∨ 1472 < x.length →
      Does (.icmpEcho p ⟨e, t⟩ x) s fun d => Quiet s.d d ∧ d.tx = s.d.tx)) ∧
  (∀ (p : NetPort) (k o : Nat) (x : List Byte) (s : State), s.d.served = true →
    (∀ r ∈ s.d.net.reasm, r.key ≠ k) → o + x.length ≤ 8220 →
    (s.d.net.reasm.length < 32 →
      Does (.ipFragment p k 49430 o false x) s (fun d => d.net.reasm = s.d.net.reasm ++ [⟨k, [(o, x)], none⟩] ∧
        Quiet { s.d with net := { s.d.net with reasm := d.net.reasm } } d) ∧
      Does (.ipFragment p k 49430 0 true x) s (fun d => d.net.reasm = s.d.net.reasm ∧
        d.rd Reg.NET_REASM_CNT = min 0xFFFFFFFF (s.d.rd Reg.NET_REASM_CNT + 1) ∧ Quiet s.d d)) ∧
    (32 ≤ s.d.net.reasm.length →
      Does (.ipFragment p k 49430 o false x) s fun d => d.net.reasm = s.d.net.reasm ∧
        d.rd Reg.NET_REASM_DROP_CNT = min 0xFFFFFFFF (s.d.rd Reg.NET_REASM_DROP_CNT + 1) ∧ Quiet s.d d)) ∧
  (∀ (k : Nat) (s : State), s.d.net.reasm.any (fun r => r.key == k) = true →
    Does (.reasmTimeout k) s fun d => d.net.reasm = s.d.net.reasm.filter (fun r => r.key != k) ∧
      d.rd Reg.NET_REASM_DROP_CNT = min 0xFFFFFFFF (s.d.rd Reg.NET_REASM_DROP_CNT + 1) ∧
      Quiet { s.d with net := { s.d.net with reasm := d.net.reasm } } d)

/-- Queue pairs (R370, R372 to R374): a granted WRITE stores its bytes and no others, and is acknowledged; a granted READ
sends the bytes, in packets of the path MTU, and changes none; both take their PSNs; what is not granted is answered by a
NAK and puts the queue pair in ERROR, and changes no byte; a resend begins with the oldest packet not acknowledged, and
the packets resent are counted, up to the limit of resends without progress; the send rate halves on a CNP and recovers.
The packets acknowledged at a timeout are a free value (log 204). -/
def Obligations.QueuePairs : Prop :=
  (∀ (n : Nat) (ce : Bool) (k : Word) (a : Nat) (x : List Byte) (s : State), 1 ≤ n → n ≤ 64 → s.d.qpReady n = true →
    (s.d.grants n 29 k a x.length = true →
      ∃ t, exec (.roceWriteRx n ce k a x) s = .next t ∧ t.pending = s.pending ∧
        (∀ i, i < x.length → mget t.mem (a + i) = x.getD i 0) ∧
        (∀ b, b < a ∨ a + x.length ≤ b → mget t.mem b = mget s.mem b) ∧
        (t.d.qp n).epsn = ((s.d.qp n).epsn + s.d.packets n x.length) % 2 ^ 24 ∧
        (s.d.canSend (s.d.qpPort n) 3 = true →
          t.d.tx.head? = some (.roceAck n (((s.d.qp n).epsn + s.d.packets n x.length - 1) % 2 ^ 24))) ∧
        (∀ b, b ≠ Reg.DMA_ECC_CORR_CNT → b ≠ Reg.DMA_STALL_CNT → b / 65536 ≠ 12 → t.d.rd b = s.d.rd b) ∧
        Quiet { s.d with
          dma := { s.d.dma with poison := t.d.dma.poison }, net := { s.d.net with qps := t.d.net.qps }
          regs := t.d.regs, frees := t.d.frees } t.d) ∧
    (s.d.grants n 29 k a x.length = false →
      Does (.roceWriteRx n ce k a x) s fun d => (d.qp n).st = 2 ∧ (d.qp n).cause = 2 ∧ Logged d 0x10 2 n ∧
        d.mode = s.d.mode ∧ d.hold = s.d.hold ∧ d.pages.list = s.d.pages.list)) ∧
  (∀ (n : Nat) (ce : Bool) (k : Word) (a l : Nat) (s : State), 1 ≤ n → n ≤ 64 → s.d.qpReady n = true →
    (s.d.grants n 30 k a l = true → s.d.poisonAt a l = none → s.d.readsWaiting n < 16 →
      Does (.roceReadRx n ce k a l) s fun d => (d.qp n).epsn = ((s.d.qp n).epsn + s.d.packets n l) % 2 ^ 24 ∧
        (ce = false → s.d.canSend (s.d.qpPort n) 3 = true →
          d.tx = (readPackets n (s.d.qp n).epsn (s.d.pmtu n) (mread s.mem a l)).reverse ++
            s.d.resolved (s.d.qpPort n) (.roceNak n 0 0)) ∧
        (∀ b, b ≠ Reg.DMA_ECC_CORR_CNT → b ≠ Reg.DMA_STALL_CNT → b / 65536 ≠ 12 → d.rd b = s.d.rd b) ∧
        Quiet { s.d with net := { s.d.net with qps := d.net.qps }, regs := d.regs, frees := d.frees } d) ∧
    (s.d.grants n 30 k a l = false →
      Does (.roceReadRx n ce k a l) s fun d => (d.qp n).st = 2 ∧ (d.qp n).cause = 2 ∧ Logged d 0x10 2 n)) ∧
  (∀ (n : Nat) (k : BadRequest) (s : State), 1 ≤ n → n ≤ 64 → s.d.qpReady n = true →
    Does (.roceBadRequest n k) s fun d => (d.qp n).st = 2 ∧ (d.qp n).cause = (if k.badAccess then 2 else 3) ∧
      Logged d 0x10 2 n ∧ d.mode = s.d.mode ∧ d.hold = s.d.hold ∧ d.pages.list = s.d.pages.list) ∧
  (∀ (n : Nat) (k : NakIn) (s : State), 1 ≤ n → n ≤ 64 → s.d.qpReady n = true → s.d.writeOut n = true →
    (k.seqErr = true → (s.d.qp n).resends < s.d.rd Reg.NET_ROCE_RETRY →
      Does (.roceNakRx n k) s fun d => (d.qp n).st = 1 ∧ d.pages.deliv = s.d.pages.deliv ∧
        (s.d.qp n).acked ≤ (d.qp n).acked ∧
        (∀ w, s.d.outWrite = some w →
          (s.d.qp n).acked ≤ (k.psn + 2 ^ 24 - (s.d.qp n).base) % 2 ^ 24 →
          (k.psn + 2 ^ 24 - (s.d.qp n).base) % 2 ^ 24 < s.d.packets n w.2.length →
          (d.qp n).acked = (k.psn + 2 ^ 24 - (s.d.qp n).base) % 2 ^ 24 ∧
          d.rd (Reg.NET_S_RETX_CNT (n - 1)) = min 0xFFFFFFFF (s.d.rd (Reg.NET_S_RETX_CNT (n - 1)) +
            (s.d.packets n w.2.length - (k.psn + 2 ^ 24 - (s.d.qp n).base) % 2 ^ 24)))) ∧
    (k.seqErr = false → Does (.roceNakRx n k) s fun d => (d.qp n).st = 2 ∧ (d.qp n).cause = 4 ∧ d.pages.deliv = none ∧
      Logged d 0x10 2 n)) ∧
  (∀ (n : Nat) (s : State), 1 ≤ n → n ≤ 64 → s.d.writeOut n = true →
    ((s.d.qp n).resends < s.d.rd Reg.NET_ROCE_RETRY →
      Does (.roceAckTimeout n) s fun d => (d.qp n).st = 1 ∧ (s.d.qp n).acked ≤ (d.qp n).acked ∧
        (d.qp n).resends = (if (s.d.qp n).acked < (d.qp n).acked then 1 else (s.d.qp n).resends + 1) ∧
        (∀ w, s.d.outWrite = some w → (s.d.qp n).acked < s.d.packets n w.2.length →
          (d.qp n).acked < s.d.packets n w.2.length ∧ d.rd (Reg.NET_S_RETX_CNT (n - 1)) =
            min 0xFFFFFFFF (s.d.rd (Reg.NET_S_RETX_CNT (n - 1)) + (s.d.packets n w.2.length - (d.qp n).acked))) ∧
        Quiet { s.d with net := { s.d.net with qps := d.net.qps }, frees := d.frees } d) ∧
    (s.d.rd Reg.NET_ROCE_RETRY ≤ (s.d.qp n).resends → s.d.outPackets n ≤ (s.d.qp n).acked + 1 →
      Does (.roceAckTimeout n) s fun d => (d.qp n).st = 2 ∧ (d.qp n).cause = 1 ∧ d.pages.deliv = none)) ∧
  (∀ (n : Nat) (s : State), 1 ≤ n → n ≤ 64 → s.d.qpReady n = true →
    ((∀ t, (s.d.qp n).cnpRx = some t → t + usCyc 50 ≤ s.d.now) →
      Does (.cnpRx n) s fun d =>
        (d.qp n).rate = max 1000 ((if (s.d.qp n).rate = 0 then s.d.lineRate n else (s.d.qp n).rate) / 2) ∧
        d.rd (Reg.NET_S_CNP_RX_CNT (n - 1)) = min 0xFFFFFFFF (s.d.rd (Reg.NET_S_CNP_RX_CNT (n - 1)) + 1) ∧
        Quiet { s.d with net := { s.d.net with qps := d.net.qps } } d) ∧
    (∀ t, (s.d.qp n).cnpRx = some t → s.d.now < t + usCyc 50 →
      Does (.cnpRx n) s fun d => d.net.qps = s.d.net.qps ∧ Quiet s.d d ∧
        d.rd (Reg.NET_S_CNP_RX_CNT (n - 1)) = min 0xFFFFFFFF (s.d.rd (Reg.NET_S_CNP_RX_CNT (n - 1)) + 1)) ∧
    ((s.d.qp n).rate ≠ 0 →
      Does (.cnpRateRecover n) s fun d =>
        (d.qp n).rate = (if s.d.lineRate n ≤ (s.d.qp n).rate + 5000 then 0 else (s.d.qp n).rate + 5000) ∧
        d = { s.d with net := { s.d.net with qps := d.net.qps } }))

/-- Time (R376, R377): TIME_SET sets the counter and clears the slew remainder; TIME_ADJUST sets TIM_INCR and adds its
offset to the slew remainder, or steps the counter where the remainder exceeds TIM_STEP_THR and no job is held; both are
refused in the states their rules name; the slew's end leaves no remainder. PTP (R379 to R381): a Sync waits with its time
for its Follow_Up, which feeds the servo, as a one-step Sync does at once; a master answers a Delay_Req, and every port a
Pdelay_Req; a sent Sync is followed up, and a sent Delay_Req or Pdelay_Req remembered with its time; a response gives the
mean path delay; a timer sends its message; a message read out too late is dropped and counted, and one of another domain or transport is not
used; a lost master changes the
state and keeps TIM_INCR; a slave-only device takes an announced master. -/
def Obligations.TimeAndPtp : Prop :=
  (∀ (h : Req) (ns frac : Nat) (s : State), Ready h s.d →
    (s.d.jobHeld = false → s.d.ptpRules = false →
      Does (.timeSet h ns frac) s fun d => d.tim = { s.d.tim with
          cnt := ns % 2 ^ 64 * 2 ^ 32 + frac % 2 ^ 32, slew := 0, src := 1 } ∧ Replied d h 0x90 stOk [] ∧
        d.rd Reg.TIM_SET_CNT = min 0xFFFFFFFF (s.d.rd Reg.TIM_SET_CNT + 1) ∧
        Quiet { s.d.bump Reg.TIM_SET_CNT with tim := d.tim } d) ∧
    (s.d.jobHeld = true ∨ s.d.ptpRules = true →
      Does (.timeSet h ns frac) s fun d => Quiet s.d d ∧ Replied d h 0x90 stBadState [])) ∧
  (∀ (h : Req) (o : Int) (i : Nat) (s : State), Ready h s.d →
    (s.d.ptpRules = false → i = 0 ∨ 21968242323 ≤ i ∧ i ≤ 22012222789 →
      Does (.timeAdjust h o i) s fun d => Replied d h 0x91 stOk [] ∧
        d.tim = { s.d.tim with cnt := d.tim.cnt, slew := d.tim.slew, incr := if i = 0 then s.d.tim.incr else i } ∧
        OffsetTaken s.d d (o * 2 ^ 32) ∧ d.rd Reg.TIM_ADJ_CNT = min 0xFFFFFFFF (s.d.rd Reg.TIM_ADJ_CNT + 1) ∧
        (∀ a, a / 65536 ≠ 12 → a ≠ Reg.TIM_ADJ_CNT → a ≠ Reg.TIM_STEP_CNT → d.rd a = s.d.rd a) ∧
        Quiet { s.d with tim := d.tim, regs := d.regs } d) ∧
    (s.d.ptpRules = true → Does (.timeAdjust h o i) s fun d => Quiet s.d d ∧ Replied d h 0x91 stBadState []) ∧
    (s.d.ptpRules = false → i ≠ 0 → (i < 21968242323 ∨ 22012222789 < i) →
      Does (.timeAdjust h o i) s fun d => Quiet s.d d ∧ Replied d h 0x91 stBadParam [])) ∧
  (∀ s : State, 0 < s.d.slewStep →
    Does .timeSlewEnd s fun d => d.tim.slew = 0 ∧
      d.tim.cnt = ((s.d.tim.cnt + ceilDiv s.d.tim.slew.natAbs s.d.slewStep * s.d.tim.incr : Nat) + s.d.tim.slew).toNat % 2 ^ 96 ∧
      d.now = s.d.now + 4 * ceilDiv s.d.tim.slew.natAbs s.d.slewStep ∧ d = { s.d with now := d.now, tim := d.tim }) ∧
  (∀ s : State, s.d.ptpOn = true →
    (∀ c l, lateL l = true →
      (∀ m o, Does (.ptpEventRx m c l o) s (fun d => d.tim = (s.d.until_ c).tim ∧ d.tx = s.d.tx ∧
        d.rd Reg.TIM_PTP_LAT_DROP_CNT = min 0xFFFFFFFF (s.d.rd Reg.TIM_PTP_LAT_DROP_CNT + 1) ∧
        Quiet { (s.d.until_ c) with regs := d.regs } d)) ∧
      (∀ m, Does (.ptpTxTimestamp m c l) s (fun d => d.tx = s.d.tx ∧
        d.tim = { (s.d.until_ c).tim with dreq := match m with
          | .delayReq q | .pdelayReq q => s.d.tim.dreq.filter (fun x => x.1 != q)
          | _ => s.d.tim.dreq } ∧
        d.rd Reg.TIM_PTP_LAT_DROP_CNT = min 0xFFFFFFFF (s.d.rd Reg.TIM_PTP_LAT_DROP_CNT + 1) ∧
        Quiet { (s.d.until_ c) with tim := d.tim, regs := d.regs } d))) ∧
    (∀ m c l o, lateL l = false → (m.domain ≠ s.d.rf Reg.TIM_PTP_CTRL 15 8 ∨
        m.ip6 ≠ (s.d.rf Reg.TIM_PTP_CTRL 28 28 == 1)) →
      Does (.ptpEventRx m c l o) s fun d => PtpRx (s.d.until_ c) d ∧ d.tim = (s.d.until_ c).tim ∧ d.tx = s.d.tx) ∧
    (∀ c l o, lateL l = false →
      (∀ q, Does (.ptpEventRx (s.d.ptpEv (.sync q)) c l o) s fun d => PtpRx (s.d.until_ c) d ∧
        d.tim = (if s.d.ptpRules then { (s.d.until_ c).tim with sync := some (q, ((s.d.until_ c).tRx (s.d.until_ c).tim.cnt l o)) } else (s.d.until_ c).tim)) ∧
      (∀ r, s.d.ptpRules = true → Does (.ptpEventRx (s.d.ptpEv (.syncOneStep r)) c l o) s fun d => PtpRx (s.d.until_ c) d ∧
        ServoTook (s.d.until_ c) d ((s.d.until_ c).tRx (s.d.until_ c).tim.cnt l o) r) ∧
      (∀ r, s.d.ptpRules = false → Does (.ptpEventRx (s.d.ptpEv (.syncOneStep r)) c l o) s fun d => PtpRx (s.d.until_ c) d ∧
        d.tim = (s.d.until_ c).tim) ∧
      (∀ q, s.d.tim.ptp = 6 → Does (.ptpEventRx (s.d.ptpEv (.delayReq q)) c l o) s fun d => PtpRx (s.d.until_ c) d ∧
        d.tim = (s.d.until_ c).tim ∧ PtpSent (s.d.until_ c) d 9 q ((s.d.until_ c).tRx (s.d.until_ c).tim.cnt l o)) ∧
      (∀ q, s.d.tim.ptp ≠ 6 → Does (.ptpEventRx (s.d.ptpEv (.delayReq q)) c l o) s fun d => PtpRx (s.d.until_ c) d ∧
        d.tim = (s.d.until_ c).tim ∧ d.tx = s.d.tx) ∧
      (∀ q, Does (.ptpEventRx (s.d.ptpEv (.pdelayReq q)) c l o) s fun d => PtpRx (s.d.until_ c) d ∧ d.tim = (s.d.until_ c).tim ∧
        PtpSent (s.d.until_ c) d 3 q ((s.d.until_ c).tRx (s.d.until_ c).tim.cnt l o)) ∧
      (∀ q turn t1, s.d.tim.dreq = some (q, t1) → s.d.rf Reg.TIM_PTP_CTRL 30 30 = 1 →
        Does (.ptpEventRx (s.d.ptpEv (.pdelayResp q turn)) c l o) s fun d => PtpRx (s.d.until_ c) d ∧
          d.tim = { (s.d.until_ c).tim with dreq := none } ∧ d.rd Reg.TIM_PTP_MPD = satNs ((((s.d.until_ c).tRx (s.d.until_ c).tim.cnt l o) - t1 - turn) / 2))) ∧
    (∀ c l, lateL l = false →
      (∀ q, Does (.ptpTxTimestamp (.sync q) c l) s fun d => PtpTx (s.d.until_ c) d ∧ d.tim = (s.d.until_ c).tim ∧
        PtpSent (s.d.until_ c) d 8 q ((s.d.until_ c).tTx (s.d.until_ c).tim.cnt l)) ∧
      (∀ q, Does (.ptpTxTimestamp (.delayReq q) c l) s fun d => PtpTx (s.d.until_ c) d ∧ d.tx = s.d.tx ∧
        d.tim = { (s.d.until_ c).tim with dreq := some (q, ((s.d.until_ c).tTx (s.d.until_ c).tim.cnt l)) }) ∧
      (∀ q, Does (.ptpTxTimestamp (.pdelayReq q) c l) s fun d => PtpTx (s.d.until_ c) d ∧ d.tx = s.d.tx ∧
        d.tim = { (s.d.until_ c).tim with dreq := some (q, ((s.d.until_ c).tTx (s.d.until_ c).tim.cnt l)) }) ∧
      (∀ q turn, Does (.ptpTxTimestamp (.pdelayResp q turn) c l) s fun d => PtpTx (s.d.until_ c) d ∧ d.tim = (s.d.until_ c).tim ∧
        PtpSent (s.d.until_ c) d 0xA q ((s.d.until_ c).tTx (s.d.until_ c).tim.cnt l)) ∧
      ∀ r, Does (.ptpTxTimestamp (.syncOneStep r) c l) s fun d => PtpTx (s.d.until_ c) d ∧ d.tim = (s.d.until_ c).tim ∧ d.tx = s.d.tx) ∧
    (s.d.tim.ptp = 6 →
      Does (.ptpMsgTimer .sync) s (fun d => d.tim = { s.d.tim with seqs := modNth s.d.tim.seqs 0 (· + 1) } ∧
        PtpSent s.d d 0 (nth s.d.tim.seqs 0 % 65536) 0 ∧ Quiet { s.d with tim := d.tim } d) ∧
      Does (.ptpMsgTimer .announce) s fun d => d.tim = { s.d.tim with seqs := modNth s.d.tim.seqs 1 (· + 1) } ∧
        PtpSent s.d d 0xB (nth s.d.tim.seqs 1 % 65536) 0 ∧ Quiet { s.d with tim := d.tim } d) ∧
    (s.d.tim.ptp ≠ 6 → Does (.ptpMsgTimer .sync) s (fun d => d = s.d) ∧ Does (.ptpMsgTimer .announce) s fun d => d = s.d) ∧
    (s.d.rf Reg.TIM_PTP_CTRL 30 30 = 1 ∨ s.d.ptpRules = true →
      Does (.ptpMsgTimer .delayReq) s fun d => d.tim = { s.d.tim with seqs := modNth s.d.tim.seqs 2 (· + 1) } ∧
        PtpSent s.d d (if s.d.rf Reg.TIM_PTP_CTRL 30 30 = 1 then 2 else 1) (nth s.d.tim.seqs 2 % 65536) 0 ∧
        Quiet { s.d with tim := d.tim } d) ∧
    (s.d.rf Reg.TIM_PTP_CTRL 30 30 ≠ 1 → s.d.ptpRules = false → Does (.ptpMsgTimer .delayReq) s fun d => d = s.d) ∧
    (s.d.tim.ptp ≠ 6 →
      Does .ptpAnnounceTimeout s fun d => d.tim = { s.d.tim with
          ptp := if s.d.rf Reg.TIM_PTP_CTRL 29 29 = 1 then 4 else 6, master := none, sync := none, dreq := none } ∧
        d = { s.d with tim := d.tim }) ∧
    (∀ q t2 o, s.d.tim.sync = some (q, t2) → s.d.ptpRules = true →
      Does (.ptpGeneralRx (s.d.ptpGen (.followUp q o))) s fun d => ServoTook s.d d t2 o ∧
        Quiet { s.d with tim := d.tim, regs := d.regs, frees := d.frees } d) ∧
    (∀ q t3 r, s.d.tim.dreq = some (q, t3) → s.d.rf Reg.TIM_PTP_CTRL 30 30 = 0 →
      Does (.ptpGeneralRx (s.d.ptpGen (.delayResp q r))) s fun d => d.tim = { s.d.tim with dreq := none } ∧
        d.rd Reg.TIM_PTP_MPD = satNs ((s.d.tim.t21 + (r - t3)) / 2) ∧ Quiet { s.d with tim := d.tim, regs := d.regs } d) ∧
    (∀ a b c f e i k u v, s.d.rf Reg.TIM_PTP_CTRL 29 29 = 1 → s.d.tim.master = none →
      Does (.ptpGeneralRx (s.d.ptpGen (.announce a b c f e i k u v))) s fun d =>
        d.tim = { s.d.tim with master := some [a, b, c, f, e, i, k], ptp := if s.d.tim.ptp = 9 then 9 else 8 } ∧
        d.rd Reg.TIM_PTP_UTC = b2n v * 65536 + u % 65536 ∧ Quiet { s.d with tim := d.tim, regs := d.regs } d))

/-! Faults, recoveries, power and the field bus. -/

/-- FAULT_CLEAR (R401): outside SAFE it is refused; where the state checks pass the clear actions start, with two proof
pulses on a chain that has a finding where LAMP is a cause; once every cause
has cleared the device goes to IDLE, or with a job held to HOLD; a cause that stays keeps it in SAFE: cause MOTION until
every axis with an encoder follows it again, NO_SPARE until every quadrant has a ready core, LAMP until every chain with a
finding is confirmed or disabled. SCOPE 1 marks every entry CLEARED. -/
def Obligations.FaultClearing : Prop :=
  (∀ (h : Req) (s : State), Ready h s.d →
    (s.d.mode ≠ .safe → Does (.faultClearSafe h) s fun d => Quiet s.d d ∧ Replied d h 0xF1 stBadState []) ∧
    (s.d.mode = .safe → s.d.clearOk = false →
      Does (.faultClearSafe h) s fun d => Quiet s.d d ∧ Replied d h 0xF1 stFault []) ∧
    (s.d.mode = .safe → s.d.clearOk = true →
      Does (.faultClearSafe h) s fun d => Replied d h 0xF1 stAccepted [] ∧ d.flt.clearing = true ∧
        (⟨.faultClear, h.session, h.seq⟩ : LongOp) ∈ d.ops ∧ d.mode = .safe ∧ d.hold = s.d.hold ∧ d.seq = s.d.seq ∧
        (bit (s.d.rd Reg.FLT_SAFE_CAUSE) scLamp = false → d.lamp = s.d.lamp) ∧
        (∀ n, n < 16 → bit (s.d.rd Reg.FLT_SAFE_CAUSE) scLamp = true → s.d.lampFound = [n] → s.d.flt.l2run = false →
          TestPulses s.d d n 38900000) ∧
        (bit (s.d.rd Reg.FLT_SAFE_CAUSE) scLamp = true → d.flt.lampClr = s.d.lampFound) ∧
        (∀ b, b < 9 → (b ∈ d.flt.acts ↔ bit (s.d.rd Reg.FLT_SAFE_CAUSE) b = true)) ∧
        d.cal = s.d.cal ∧ d.tim = s.d.tim ∧ d.fsram = s.d.fsram ∧ d.flt.log = s.d.flt.log ∧
        d.rd Reg.FLT_SAFE_CAUSE = s.d.rd Reg.FLT_SAFE_CAUSE) ∧
    Does (.faultClearLog h) s fun d => Replied d h 0xF1 stOk [] ∧ d.uncleared = 0 ∧
      Quiet { s.d with flt := { s.d.flt with
        log := s.d.flt.log.map (fun e => { e with cleared := true })
        flash := s.d.flt.flash.map (fun e => { e with cleared := true }) } } d) ∧
  (∀ (c : BitVec 9) (s : State), s.d.flt.clearing = true → s.d.mode = .safe → s.d.afe.blkStep = [] →
    (∀ b, b < 9 → bit (s.d.rd Reg.FLT_SAFE_CAUSE) b = true → s.d.causeClear c b = true) →
    (s.d.jobHeld = false → s.d.regs.com = none → s.d.regs.held = [] → s.d.cal.held = [] → s.d.cal.due = [] →
      Does (.safeClearDone c) s fun d => d.mode = .idle ∧ d.prev = .safe ∧ d.flt.clearing = false ∧
        bit d.hold hcFault = false ∧ d.rd Reg.FLT_SAFE_CAUSE = 0 ∧ d.seq.en = false ∧ d.tim = s.d.tim ∧
        d.fsram = s.d.fsram) ∧
    (s.d.jobHeld = true →
      Does (.safeClearDone c) s fun d => d.mode = .hold ∧ d.prev = .safe ∧ d.flt.clearing = false ∧ d.cox.st = 4 ∧
        bit d.hold hcFault = false ∧ d.rd Reg.FLT_SAFE_CAUSE = 0 ∧ d.tim = s.d.tim ∧ d.fsram = s.d.fsram)) ∧
  (∀ (c : BitVec 9) (b : Nat) (s : State), s.d.flt.clearing = true → s.d.mode = .safe → s.d.afe.blkStep = [] → b < 9 →
    bit (s.d.rd Reg.FLT_SAFE_CAUSE) b = true → s.d.causeClear c b = false →
    Does (.safeClearDone c) s fun d => d.mode = .safe ∧ d.flt.clearing = false ∧ d.hold = s.d.hold ∧
      bit (d.rd Reg.FLT_SAFE_CAUSE) b = true ∧ ∀ o ∈ d.ops, o.op ≠ .faultClear)

/-- Scrubbing, flash maintenance and the log's flash copy (R402 to R406, R410, R446): passes are counted where they are
enabled and their target is powered, what they corrected being a free value (log 196); a failing record leaves the store
with an entry, reclaiming keeps every record, the log is copied, and ROC follows its side. -/
def Obligations.BackgroundWork : Prop :=
  (∀ s : State, s.d.flt.l3run = false →
    (bit (s.d.rd Reg.FLT_SCRUB_CTRL) 0 = true → s.d.pwr.fieldOk = true →
      Does (.scrubPassDone .fsram) s fun d => Scrubbed s.d d ∧
        d.rd Reg.FLT_FSRAM_PASS_CNT = min 0xFFFFFFFF (s.d.rd Reg.FLT_FSRAM_PASS_CNT + 1) ∧
        ∀ a, a ≠ Reg.FLT_FSRAM_PASS_CNT → a ≠ Reg.FLT_SCRUB_CORR_CNT → d.rd a = s.d.rd a) ∧
    (bit (s.d.rd Reg.FLT_SCRUB_CTRL) 0 = true → s.d.pwr.fieldOk = false →
      Does (.scrubPassDone .fsram) s fun d => d = s.d) ∧
    (bit (s.d.rd Reg.FLT_SCRUB_CTRL) 1 = true → s.d.mode ≠ .off →
      Does (.scrubPassDone .hsram) s fun d => Scrubbed s.d d ∧
        d.rd Reg.FLT_HSRAM_PASS_CNT = min 0xFFFFFFFF (s.d.rd Reg.FLT_HSRAM_PASS_CNT + 1) ∧
        ∀ a, a ≠ Reg.FLT_HSRAM_PASS_CNT → a ≠ Reg.FLT_SCRUB_CORR_CNT → d.rd a = s.d.rd a) ∧
    (bit (s.d.rd Reg.FLT_SCRUB_CTRL) 2 = true → s.d.mode ≠ .off →
      Does (.scrubPassDone .dram) s fun d => Scrubbed s.d d ∧
        d.rd Reg.FLT_DRAM_PASS_CNT = min 0xFFFFFFFF (s.d.rd Reg.FLT_DRAM_PASS_CNT + 1) ∧
        (d.rd Reg.FLT_SCRUB_CORR_CNT < 0xFFFFFFFF → d.rd Reg.DMA_ECC_CORR_CNT < 0xFFFFFFFF →
          d.rd Reg.DMA_ECC_CORR_CNT + s.d.rd Reg.FLT_SCRUB_CORR_CNT =
            s.d.rd Reg.DMA_ECC_CORR_CNT + d.rd Reg.FLT_SCRUB_CORR_CNT)) ∧
    (s.d.rd Reg.FLT_SCRUB_CTRL = 0 → ∀ t, Does (.scrubPassDone t) s fun d => d = s.d)) ∧
  (∀ s : State, bit (s.d.rd Reg.FLT_SCRUB_CTRL) 3 = true →
    Does (.flashVerify []) s (fun d => d = s.d.bump Reg.FLT_FLASH_VERIFY_CNT) ∧
    ∀ (i : Nat) (r : CalRec), s.d.cal.store[i]? = some r →
      Does (.flashVerify [i]) s fun d => Logged d 0xC 4 0 ∧ r ∉ d.cal.store ∧
        (∀ x ∈ s.d.cal.store, x ≠ r → x ∈ d.cal.store) ∧
        d.rd Reg.FLT_FLASH_BAD_CNT = min 0xFFFFFFFF (s.d.rd Reg.FLT_FLASH_BAD_CNT + 1) ∧
        d.rd Reg.FLT_FLASH_VERIFY_CNT = min 0xFFFFFFFF (s.d.rd Reg.FLT_FLASH_VERIFY_CNT + 1) ∧
        d.mode = s.d.mode ∧ d.hold = s.d.hold ∧ d.fsram = s.d.fsram) ∧
  (∀ s : State,
    Does .flashReclaim s (fun d => d.cal = { s.d.cal with flash := d.cal.flash } ∧
      d.cal.flash.place.length = s.d.cal.flash.place.length ∧ (∀ a, a ≠ Reg.CAL_FLASH_STAT → d.rd a = s.d.rd a) ∧
      Quiet { s.d with cal := d.cal, regs := d.regs } d) ∧
    Does .faultLogFlush s (fun d => d = { s.d with flt := { s.d.flt with
      flash := s.d.flt.log, flushed := s.d.flt.next - 1, savedAt := s.d.ns } }) ∧
    ∀ out : Bool,
      Does (.rocChange .field out) s (fun d => bit d.flt.roc 0 = out ∧ (∀ b, b ≠ 0 → bit d.flt.roc b = bit s.d.flt.roc b) ∧
        d = { s.d with flt := { s.d.flt with roc := d.flt.roc } }) ∧
      Does (.rocChange .host out) s fun d => bit d.flt.roc 1 = out ∧ (∀ b, b ≠ 1 → bit d.flt.roc b = bit s.d.flt.roc b) ∧
        d = { s.d with flt := { s.d.flt with roc := d.flt.roc } })

/-- Core pairs and double errors (R390, R391): a pair that mismatches for the first time is rolled back; the second time
it is retired and a standby pair takes its place; a double error acts on the region that holds it. -/
def Obligations.CoresAndDoubleErrors : Prop :=
  (∀ (p : Nat) (s : State), p < 4 → bit (s.d.rd Reg.FLT_CORE_STAT) p = true →
    (aget s.d.flt.lock p = none →
      Does (.lockstepMismatch p) s fun d => Logged d 0xD 1 p ∧ aget d.flt.lock p = some s.d.ns ∧
        d.rd Reg.FLT_LOCKSTEP_CNT = min 0xFFFFFFFF (s.d.rd Reg.FLT_LOCKSTEP_CNT + 1) ∧
        d.rd Reg.FLT_CORE_STAT = s.d.rd Reg.FLT_CORE_STAT ∧ d.mode = s.d.mode ∧ d.hold = s.d.hold ∧
        d.jobs = s.d.jobs ∧ d.fsram = s.d.fsram) ∧
    (∀ t, aget s.d.flt.lock p = some t → s.d.ns ≤ t + s.d.rd Reg.FLT_ESC_WIN * 1000000000 → s.d.regs.com = none →
      bit (s.d.rd Reg.FLT_CORE_STAT) (4 + p) = false →
      Does (.lockstepMismatch p) s fun d => Logged d 0xD 3 p ∧ bit (d.rd Reg.FLT_CORE_STAT) p = false ∧
        bit (d.rd Reg.FLT_CORE_STAT) (8 + p) = true ∧ aget d.flt.lock p = none)) ∧
  (∀ s : State, s.d.fieldRuns = true → s.d.recurs 0xD 2 4 = none →
    Does (.lockstepMismatch 4) s fun d => Logged d 0xD 2 4 ∧ d.mode = s.d.mode ∧ d.hold = s.d.hold ∧
      d.rd Reg.FLT_LOCKSTEP_CNT = min 0xFFFFFFFF (s.d.rd Reg.FLT_LOCKSTEP_CNT + 1)) ∧
  (∀ s : State, Does .coreCheckpoint s fun d => d = { s.d with flt := { s.d.flt with ckpt := s.d.flt.ckpt + 1 } }) ∧
  (∀ (a : Nat) (k : Bool) (s : State),
    Does (.eccDoubleError ⟨.shared, k⟩ a) s (fun d => d.dma.poison.contains (a / 8 * 8) = true ∧ Logged d 0xC 1 0 ∧
      d.rd Reg.DMA_ECC_DBL_CNT = min 0xFFFFFFFF (s.d.rd Reg.DMA_ECC_DBL_CNT + 1) ∧
      d.rd Reg.FLT_SCRUB_DBL_CNT = min 0xFFFFFFFF (s.d.rd Reg.FLT_SCRUB_DBL_CNT + b2n k) ∧ d.mode = s.d.mode ∧
      d.hold = s.d.hold ∧ d.pages = s.d.pages ∧ d.cls = s.d.cls ∧ d.fsram = s.d.fsram) ∧
    (∀ (p : Page) (n o : Nat), s.d.pages.list.find? (fun x => x.id == p.id) = some p → p.container = none →
      Does (.eccDoubleError ⟨.page p.id n o, k⟩ a) s fun d =>
        d.pages.list = s.d.pages.list.map (fun x => if x == p then { p with poison := (n, o / 8 * 8) :: p.poison } else x) ∧
        Logged d 0xC 1 0 ∧ (∃ e, d.flt.log.head? = some e ∧ e.a = a ∧ e.b = p.id.toNat ∧ e.job = p.job) ∧
        d.mode = s.d.mode ∧ d.hold = s.d.hold ∧ d.dma = s.d.dma) ∧
    Does (.eccDoubleError ⟨.reference, k⟩ a) s (fun d => d.cls = { s.d.cls with poisoned := true } ∧ Logged d 0xC 1 0 ∧
      d.mode = s.d.mode ∧ d.hold = s.d.hold ∧ d.dma = s.d.dma) ∧
    (∀ x, s.d.cls.staging.getLast? = some x →
      Does (.eccDoubleError ⟨.staging, k⟩ a) s fun d => d.cls.staging = s.d.cls.staging.dropLast ∧ d.mode = s.d.mode ∧
        bit d.hold hcFault = true ∧ d.pages.discard = true ∧ d.dma = s.d.dma ∧ Logged d 9 3 0 ∧
        (∃ e ∈ d.flt.log, e.cls = 0xC ∧ e.code = 1)) ∧
    (s.d.fieldRuns = true → Does (.eccDoubleError ⟨.strokeBuf, k⟩ a) s fun d => d.seq.flight = [] ∧
      d.rd Reg.SEQ_WITHHELD_CNT = min 0xFFFFFFFF (s.d.rd Reg.SEQ_WITHHELD_CNT + s.d.seq.flight.length) ∧
      (∃ e ∈ d.flt.log, e.cls = 0xC ∧ e.code = 2)) ∧
    (∀ m, m < 8 → s.d.mode = .scan →
      Does (.eccDoubleError ⟨.mapSlot m, k⟩ a) s fun d => (m, a % 2 ^ 24 / 8 * 8) ∈ d.flt.poison ∧ Logged d 0xC 2 0 ∧
        d.mode = .scan ∧ (m ∈ d.poisonUsed → bit d.hold hcFault = true)) ∧
    (∀ n b, n < 32 → s.d.mode = .scan →
      Does (.eccDoubleError ⟨.defectBank n b, k⟩ a) s fun d => (2 * n + 8 + b2n b, a % 2 ^ 24 / 8 * 8) ∈ d.flt.poison ∧
        Logged d 0xC 2 0 ∧ d.mode = .scan ∧ (2 * n + 8 + b2n b ∈ d.poisonUsed → bit d.hold hcFault = true)) ∧
    (s.d.recurs 0xC 1 0 = none → a < 0x1000000000 →
      Does (.eccDoubleError ⟨.runtime false, k⟩ a) s fun d => Logged d 0xC 1 0 ∧ d.mode = s.d.mode ∧
        d.flt.recs = s.d.flt.recs ++ [⟨1, 0xC, 1, 0, false, s.d.flt.next, s.d.now⟩]) ∧
    (s.d.mode ≠ .off → Does (.eccDoubleError ⟨.runtime true, k⟩ a) s fun d => d.mode = .reset ∧ d.flt.l3run = true))

/-- Watchdogs and recoveries (R393 to R397): a level 1 recovery is recorded with its entry and sets no hold cause; the same
fault within FLT_ESC_WIN goes one level up; the field die's warm restart waits for the feed, and its end leaves no level 2
recovery; of the recoveries under way the one whose bound ends first misses it, and goes one level up; a level 3 restart takes the device to RESET. -/
def Obligations.Recoveries : Prop :=
  (∀ s : State, s.d.regs.com = none →
    (s.d.recurs 0xE 1 0 = none →
      Does .hostWdogExpire s fun d => Logged d 0xE 1 0 ∧ d.mode = s.d.mode ∧ d.hold = s.d.hold ∧
        d.flt.recs = s.d.flt.recs ++ [⟨1, 0xE, 1, 0, false, s.d.flt.next, s.d.now⟩] ∧ d.seq = s.d.seq ∧ d.jobs = s.d.jobs ∧
        d.rd Reg.FLT_WDOG_CNT = min 0xFFFFFFFF (s.d.rd Reg.FLT_WDOG_CNT + 1) ∧
        d.rd (Reg.FLT_RECOV_CNT 1) = min 0xFFFFFFFF (s.d.rd (Reg.FLT_RECOV_CNT 1) + 1)) ∧
    (∀ e was, s.d.recurs 0xE 1 0 = some (e, was) → was ≤ 1 →
      Does .hostWdogExpire s fun d => Logged d 0xE 1 0 ∧ d.flt.l2due = true ∧ bit d.hold hcFault = true ∧
        d.mode = s.d.mode ∧ d.rd Reg.FLT_ESC_CNT = min 0xFFFFFFFF (s.d.rd Reg.FLT_ESC_CNT + 1) ∧
        d.rd (Reg.FLT_RECOV_CNT 2) = min 0xFFFFFFFF (s.d.rd (Reg.FLT_RECOV_CNT 2) + 1)) ∧
    (s.d.fieldRuns = true → s.d.recurs 0xE 2 0 = none →
      Does .fieldWdogExpire s fun d => Logged d 0xE 2 0 ∧ d.flt.l2due = true ∧ d.mode = s.d.mode ∧ d.seq = s.d.seq ∧
        d.rd Reg.FLT_WDOG_CNT = min 0xFFFFFFFF (s.d.rd Reg.FLT_WDOG_CNT + 1) ∧
        d.rd (Reg.FLT_RECOV_CNT 2) = min 0xFFFFFFFF (s.d.rd (Reg.FLT_RECOV_CNT 2) + 1) ∧ bit d.hold hcFault = true) ∧
    (s.d.mode ≠ .off → s.d.mode ≠ .reset →
      Does .level3Restart s fun d => d.mode = .reset ∧ d.prev = s.d.mode ∧ d.seq.en = false ∧ d.flt.l3run = true ∧
        d.flt.recs = [] ∧ Logged d 0x12 2 0 ∧ d.pages.list = s.d.pages.list ∧ d.hold = s.d.hold ∧ d.tim = s.d.tim ∧
        d.fsram = s.d.fsram ∧ d.rd (Reg.FLT_RECOV_CNT 3) = min 0xFFFFFFFF (s.d.rd (Reg.FLT_RECOV_CNT 3) + 1))) ∧
  (∀ s : State,
    (∀ i t, s.d.flt.recs = [⟨1, 0xE, 1, 0, false, i, t⟩] → bit s.d.flt.why whyL1 = false →
      Does (.recoveryL1Done .runtime) s fun d => d.flt.recs = [] ∧
        d.flt.hist.head? = some (0xE, 1, 0, i, s.d.ns, 1) ∧ d = { s.d with flt := d.flt }) ∧
    (∀ e, Does (.recoveryL1Done (.engine e)) s fun d => bit d.pages.engRestart e = false ∧ d.mode = s.d.mode ∧
      d.pages.list = s.d.pages.list ∧ ∀ x ∈ d.flt.recs, ¬ (x.level = 1 ∧ x.cls = 0xF ∧ x.unit = e)) ∧
    Does (.recoveryL1Done .rootPll) s fun d => d.bzl = { s.d.bzl with rootLock := true } ∧ d.mode = s.d.mode) ∧
  (∀ s : State,
    (s.d.flt.l2due = true → s.d.fieldRuns = true → s.d.feedStill = true →
      Does .fieldWarmRestart s fun d => d.flt.l2due = false ∧ d.flt.l2run = true ∧ d.seq.en = false ∧
        d.seq.flight = [] ∧ d.seq.pend = [] ∧ d.mode = s.d.mode ∧ d.hold = s.d.hold ∧
        (∀ c ∈ d.lamp.chains, c.gate = []) ∧ (∀ a ∈ d.mot.axes, a.rate = 0 ∧ a.home = none) ∧
        d.jobs.map Job.base = s.d.jobs.map Job.base ∧ d.fsram = s.d.fsram) ∧
    (s.d.flt.l2due = false → Does .fieldWarmRestart s fun d => d = s.d) ∧
    (s.d.flt.l2run = true → s.d.cal.valid = 0 →
      Does .fieldWarmRestartDone s fun d => d.flt.l2run = false ∧ (∀ x ∈ d.flt.recs, x.level ≠ 2) ∧
        (s.d.flt.why = 2 ^ whyL2 → bit d.hold hcFault = false) ∧ d.mode = s.d.mode ∧ d.fsram = s.d.fsram)) ∧
  (∀ (x : Recov) (s : State), s.d.regs.com = none → s.d.lateRecov = some x → s.d.mode ≠ .off →
    (x ∈ s.d.flt.recs ∧ ∀ y ∈ s.d.flt.recs, y.level ≤ 1 ∨ y.level = 2 ∧ s.d.flt.l2run = true → x.deadline ≤ y.deadline) ∧
    (x.level = 1 → Does .recoveryTimeout s fun d => Logged d 0x12 1 0 ∧ d.flt.l2due = true ∧ d.mode = s.d.mode ∧
      d.flt.recs = s.d.flt.recs.filter (fun y => !(y == x)) ++ [⟨2, x.cls, x.code, x.unit, true, s.d.flt.next, s.d.now⟩] ∧
      d.rd Reg.FLT_ESC_CNT = min 0xFFFFFFFF (s.d.rd Reg.FLT_ESC_CNT + 1)) ∧
    (x.level = 2 → Does .recoveryTimeout s fun d => d.mode = .reset ∧ d.flt.l3run = true ∧
      d.flt.recs = [⟨3, x.cls, x.code, x.unit, false, s.d.flt.next, s.d.now⟩] ∧
      d.rd Reg.FLT_ESC_CNT = min 0xFFFFFFFF (s.d.rd Reg.FLT_ESC_CNT + 1)))

/-- The host side's supply and reset input (R37, R416, R420): a host that becomes valid starts cold in RESET, with every
parameter at its reset value unless the network record holds it; loss takes the device to OFF and empties the DRAM; a
reset input that falls takes it to RESET, and the DRAM keeps its bytes where it is said to. -/
def Obligations.HostSupply : Prop :=
  (∀ s : State, s.d.pwr.hostOk = false → s.d.pwr.nrstH = true → s.d.pwr.tripH = false →
    Does .hostPowerValid s fun d => d.mode = .reset ∧ d.prev = .off ∧ d.trans = 0 ∧ d.hold = 0 ∧ d.sess = [] ∧
      d.jobs = [] ∧ d.ops = [] ∧ d.pages.list = [] ∧ d.pages.key = s.d.pages.key ∧ d.cal.store = s.d.cal.store ∧
      d.fsram = s.d.fsram ∧ d.pwr.hostOk = true ∧ d.tim.cnt = 0 ∧ Logged d 1 1 0 ∧
      (s.d.net.record = none → ∀ a, d.rd a = resetWord a)) ∧
  (∀ s : State, s.d.pwr.hostOk = true → Does .hostPowerValid s fun d => d = s.d) ∧
  (∀ s : State, ∃ t, exec .hostPowerLost s = .next t ∧ t.pending = s.pending ∧ t.mem = [] ∧ t.d.mode = .off ∧
    t.d.prev = s.d.mode ∧ t.d.sess = [] ∧ t.d.jobs = [] ∧ t.d.ops = [] ∧ t.d.hold = 0 ∧ t.d.pages.list = [] ∧
    t.d.pages.key = s.d.pages.key ∧ t.d.cal.store = s.d.cal.store ∧ t.d.flt.flash = s.d.flt.flash ∧
    t.d.fsram = s.d.fsram ∧ t.d.pwr.hostOk = false ∧ t.d.pwr.pgH = false ∧ ∀ a, t.d.rd a = resetWord a) ∧
  (∀ s : State, s.d.pwr.nrstH = true →
    Does .nrstHFall s fun d => d.pwr.nrstH = false ∧ d.pwr.pgH = false ∧ d.pwr.selfRefresh = true ∧
      (s.d.mode ≠ .off → d.mode = .reset) ∧ (s.d.mode = .off → d.mode = .off) ∧ d.hold = s.d.hold ∧
      d.pages.list = s.d.pages.list ∧ d.tim = s.d.tim ∧ d.fsram = s.d.fsram) ∧
  (∀ s : State, s.d.pwr.nrstH = false → s.d.pwr.hostOk = true → s.d.pwr.tripH = false → s.d.mode ≠ .off →
    Does (.nrstHRise true) s (fun d => d.pwr.nrstH = true ∧ d.mode = s.d.mode ∧ d.jobs = s.d.jobs ∧
      d.pages = s.d.pages ∧ d.regs = s.d.regs ∧ d.fsram = s.d.fsram) ∧
    ∃ t, exec (.nrstHRise false) s = .next t ∧ t.pending = s.pending ∧ t.mem = [] ∧ t.d.mode = .reset ∧
      t.d.pwr.nrstH = true ∧ t.d.sess = [] ∧ t.d.jobs = [] ∧ t.d.pages.list = [] ∧ t.d.fsram = s.d.fsram)

/-- The field side's supply and reset input, thermal trips and the power-good outputs (R416, R419, R422, R456, R460): a
loss leaves the modes in which the field side runs for STANDBY; a held job keeps its pages and waits with GRID_LOST; a
rise wakes the device where the field is present. -/
def Obligations.FieldSupply : Prop :=
  (∀ s : State, s.d.pwr.fieldOk = false →
    Does .fieldPowerValid s fun d => d.pwr.fieldOk = true ∧ d.fsram = [] ∧ d.cal.valid = 0 ∧
      d.mot.enc = List.replicate 6 0 ∧ d.pwr.posFresh = true ∧ d.mode = s.d.mode ∧ d.hold = s.d.hold ∧
      d.regs = s.d.regs ∧ d.jobs = s.d.jobs ∧ d.pages = s.d.pages ∧ d.cal.store = s.d.cal.store) ∧
  (∀ s : State, s.d.regs.com = none →
    (s.d.fieldRuns = true →
      (∀ r, r < 32 → Does (.fieldPowerLost r) s fun d => d.mode = .standby ∧ d.prev = s.d.mode ∧ d.pwr.fieldOk = false ∧
        d.pwr.pgF = false ∧ d.seq.en = false ∧ d.mot.enc = List.replicate 6 0 ∧ bit (d.rd Reg.PWR_RAIL_F) r = false ∧
        d.pages.list = s.d.pages.list ∧ d.tim = s.d.tim ∧ d.flt = s.d.flt) ∧
      (s.d.pwr.nrstF = true → Does .nrstFFall s fun d => d.mode = .standby ∧ d.prev = s.d.mode ∧ d.pwr.nrstF = false ∧
        d.pwr.pgF = false ∧ d.seq.en = false ∧ d.pages.list = s.d.pages.list ∧ d.tim = s.d.tim ∧ d.flt = s.d.flt) ∧
      Does (.thermalTrip .field) s (fun d => d.mode = .standby ∧ d.pwr.tripF = true ∧ d.pwr.pgF = false ∧
        d.seq.en = false)) ∧
    (s.d.jobHeld = true → s.d.pwr.gridLost = false → s.d.mode ≠ .off → s.d.pwr.nrstF = true →
      Does .nrstFFall s fun d => d.pwr.gridLost = true ∧ bit d.hold hcHost = true ∧
        d.rd Reg.PWR_FIELD_LOSS_CNT = min 0xFFFFFFFF (s.d.rd Reg.PWR_FIELD_LOSS_CNT + 1))) ∧
  (∀ s : State, s.d.pwr.nrstF = false →
    (s.d.mode = .standby → 3 ≤ s.d.bzl.goodStatus → s.d.rf Reg.DEV_CTRL 0 0 = 0 →
      Does .nrstFRise s fun d => d.pwr.nrstF = true ∧ d.mode = .wake ∧ d.prev = .standby) ∧
    (s.d.mode ≠ .standby → Does .nrstFRise s fun d => d = { s.d with pwr := d.pwr } ∧ d.pwr.nrstF = true)) ∧
  (∀ s : State,
    Does (.thermalTrip .host) s (fun d => d.pwr.tripH = true ∧ d.pwr.pgH = false ∧ d.pwr.selfRefresh = true ∧
      (s.d.mode ≠ .off → d.mode = .reset) ∧ d.fsram = s.d.fsram) ∧
    (s.d.mode ≠ .off → Does (.thermalRelease .host) s fun d => d = { s.d with pwr := { s.d.pwr with tripH := false } }) ∧
    Does (.thermalRelease .field) s (fun d => d = { s.d with pwr := { s.d.pwr with tripF := false } }) ∧
    (s.d.pwr.hostOk = true → s.d.pwr.nrstH = true → s.d.pwr.tripH = false →
      Does (.pgHigh .host) s fun d => d = { s.d with pwr := { s.d.pwr with pgH := true } }) ∧
    (s.d.pwr.fieldOk = true → s.d.pwr.nrstF = true → s.d.pwr.tripF = false →
      Does (.pgHigh .field) s fun d => d = { s.d with pwr := { s.d.pwr with pgF := true } }) ∧
    (s.d.pwr.fieldOk = false → Does (.pgHigh .field) s fun d => d = s.d))

/-- Boot and WAKE (R37, R434 to R436): the boot ends in STANDBY, or in WAKE where the field is present, and PWR_BOOT says
what it found, an image below the minimum security version giving way to the other slot's; refused images wait for a retry; WAKE ends in IDLE, or in HOLD with a job held, or in SAFE after a restart
that failed, with both directions of the link up on the lanes that trained and its latency measured, and with the
entry of a crystal failure written from what the field side kept of it (log 211); a failing step is retried once. -/
def Obligations.BootAndWake : Prop :=
  (∀ (full back : Bool) (s : State), s.d.mode = .reset → s.d.pwr.hostOk = true → s.d.pwr.nrstH = true →
    s.d.pwr.tripH = false → s.d.pwr.refused = false → s.d.pwr.slot < 2 →
    Does (.bootComplete full back) s fun d => d.mode = (if s.d.presence then .wake else .standby) ∧
      bit (d.rd Reg.PWR_BOOT) 2 = full ∧ bit (d.rd Reg.PWR_BOOT) 1 = (back || s.d.imageOld) ∧
      (s.d.imageOld = true → bit (d.rd Reg.PWR_BOOT) 0 = decide (s.d.pwr.slot = 0)) ∧
      (back = false → s.d.imageOld = false → bit (d.rd Reg.PWR_BOOT) 0 = decide (s.d.pwr.slot = 1)) ∧
      d.pwr.minVer = max s.d.pwr.minVer ((s.d.imageVer (d.rf Reg.PWR_BOOT 0 0)).getD 0) ∧ d.pwr.selfRefresh = false ∧
      d.hold = s.d.hold ∧ d.pages.list = s.d.pages.list ∧ d.tim = s.d.tim ∧ d.fsram = s.d.fsram) ∧
  (∀ s : State, s.d.mode = .reset →
    Does .bootRefused s (fun d => d.mode = .reset ∧ d.pwr.refused = true ∧
      d.rd Reg.PWR_BOOT_FAIL_CNT = min 0xFFFFFFFF (s.d.rd Reg.PWR_BOOT_FAIL_CNT + 1)) ∧
    Does .bootRetry s (fun d => d = { s.d with pwr := { s.d.pwr with refused := false } })) ∧
  (∀ (t : Training) (s : State), t.f2h % 2 ^ 24 = 0 ∨ t.h2f % 16 = 0 → Does (.wakeComplete t) s fun d => d = s.d) ∧
  (∀ (t : Training) (s : State), s.d.mode = .wake → t.f2h % 2 ^ 24 ≠ 0 → t.h2f % 16 ≠ 0 →
    Does (.wakeComplete t) s fun d => d.bzl.lat = t.lat ∧
      (t.f2h % 2 ^ 24 = 0xFFFFFF → d.bzl.f2h.map = 0x3FFFFF ∧ d.bzl.f2h.spares = 0xC00000) ∧
      (t.h2f % 16 = 15 → d.bzl.h2f.map = 7 ∧ d.bzl.h2f.spares = 8) ∧ bit (d.rd Reg.PWR_BOOT) 3 = t.full ∧ d.prev = .wake ∧ d.bzl.f2h.up = true ∧ d.bzl.h2f.up = true ∧
      d.flt.l3run = false ∧
      (∀ x, s.d.flt.fieldRec = some x → d.flt.fieldRec = none ∧ ∃ e ∈ d.flt.log, e.cls = 3 ∧ e.code = 2 ∧ e.action = 5 ∧
        e.time = x.time ∧ e.mode1 = x.mode) ∧
      (s.d.flt.l3fail = true → d.mode = .safe) ∧
      (s.d.flt.l3fail = false → s.d.jobHeld = true → d.mode = .hold ∧ d.cox.st = 4) ∧
      (s.d.flt.l3fail = false → s.d.jobHeld = false → d.mode = .idle ∧ d.seq.en = false)) ∧
  (∀ s : State, s.d.mode = .wake → s.d.regs.com = none →
    (s.d.pwr.wakeRetry = 0 → Does .wakeStepFail s fun d => d = { s.d with pwr := { s.d.pwr with wakeRetry := 1 } }) ∧
    (s.d.pwr.wakeRetry ≠ 0 → Does .wakeStepFail s fun d => d.mode = .safe ∧ d.prev = .wake ∧ Logged d 0x12 3 0 ∧
      bit (d.rd Reg.FLT_SAFE_CAUSE) scWake = true ∧ d.flt.l3run = false))

/-- The field bus and the mains (R426 to R430): a dip sets the hold cause SUPPLY and is counted, its end writes an entry with what
was seen at its detection (log 211), SUPPLY clears once the bus has been valid, and a surge is counted; a code that does not reach its threshold is only a
sample. A dip under a job ramps every group in motion but the
feed to HALTED at its current move's DEC (R255). -/
def Obligations.FieldBus : Prop :=
  (∀ (v : Nat) (s : State), s.d.rd Reg.PWR_FBUS_LOW ≤ v → Does (.fbusDip v) s fun d =>
    d.pwr.fbus = v ∧ d = { s.d with pwr := { s.d.pwr with
      fbus := v, fbusMin := d.pwr.fbusMin, fbusValid := d.pwr.fbusValid } }) ∧
  (∀ (v : Nat) (s : State), s.d.mode ≠ .homing → v < s.d.rd Reg.PWR_FBUS_LOW →
    Does (.fbusDip v) s fun d => d.pwr.dip = true ∧ d.pwr.dipCode = v ∧ d.pwr.fbus = v ∧ bit d.hold hcSupply = true ∧
      d.mode = s.d.mode ∧ d.rd Reg.PWR_DIP_CNT = min 0xFFFFFFFF (s.d.rd Reg.PWR_DIP_CNT + 1) ∧ d.flt = s.d.flt ∧
      d.seq = s.d.seq ∧ d.mot.axes = s.d.mot.axes) ∧
  (∀ (v u : Nat) (s : State),
    (s.d.rd Reg.PWR_FBUS_LOW + s.d.rd Reg.PWR_FBUS_HYST ≤ v →
      (s.d.pwr.dip = true → Does (.fbusRecover v u) s fun d => d.pwr.dip = false ∧ d.pwr.fbusValid = true ∧
        Logged d 4 1 0 ∧ (∃ e, d.flt.log.head? = some e ∧ e.a = s.d.pwr.dipCode ∧ e.b = u ∧
          ∀ x, s.d.pwr.dipSeen = some x → e.time = x.time ∧ e.mode1 = x.mode ∧
            e.action = if x.mode = Mode.scan.code ∨ x.mode = Mode.splice.code then 6 else 0) ∧
        d.hold = s.d.hold ∧ d.mode = s.d.mode ∧ ∀ a, a / 65536 ≠ 12 → d.rd a = s.d.rd a) ∧
      (s.d.pwr.dip = false → Does (.fbusRecover v u) s fun d => d.flt = s.d.flt ∧ d.hold = s.d.hold ∧
        d.pwr.fbusValid = true ∧
        d.rd Reg.PWR_SHORT_DIP_CNT = min 0xFFFFFFFF (s.d.rd Reg.PWR_SHORT_DIP_CNT + 1))) ∧
    (v < s.d.rd Reg.PWR_FBUS_LOW + s.d.rd Reg.PWR_FBUS_HYST → Does (.fbusRecover v u) s fun d =>
      d.pwr.fbusValid = false ∧ d = { s.d with pwr := { s.d.pwr with
        fbus := v, fbusMin := d.pwr.fbusMin, fbusValid := false } }) ∧
    (s.d.rd Reg.PWR_FBUS_HIGH ≤ v → Does (.fbusSurge v) s fun d => bit (d.rd Reg.PWR_STAT) 4 = true ∧
      d.hold = s.d.hold ∧ d.mode = s.d.mode ∧
      d.rd Reg.PWR_SURGE_CNT = min 0xFFFFFFFF (s.d.rd Reg.PWR_SURGE_CNT + 1)) ∧
    (v < s.d.rd Reg.PWR_FBUS_HIGH → Does (.fbusSurge v) s fun d => d.regs = s.d.regs ∧ d.flt = s.d.flt ∧
      d.hold = s.d.hold)) ∧
  (∀ s : State,
    (s.d.pwr.dip = false → s.d.pwr.fbusValid = true → (s.d.pwr.acDip = false ∨ s.d.lamp.acLock = true) →
      Does .supplyClear s fun d => d.hold = clrBit s.d.hold hcSupply ∧
        d = { s.d with hold := d.hold, pwr := { s.d.pwr with acDip := false } }) ∧
    (s.d.pwr.dip = true → Does .supplyClear s fun d => d = s.d) ∧
    (s.d.rf Reg.PWR_CTRL 0 0 = 1 → s.d.lamp.acLock = true → s.d.mode ≠ .homing →
      Does .acDip s fun d => d.pwr.acDip = true ∧ bit d.hold hcSupply = true ∧ Logged d 4 1 0 ∧ d.mode = s.d.mode ∧
        d.rd Reg.PWR_AC_DIP_CNT = min 0xFFFFFFFF (s.d.rd Reg.PWR_AC_DIP_CNT + 1)) ∧
    (s.d.rf Reg.PWR_CTRL 0 0 = 0 → Does .acDip s fun d => d = s.d)) ∧
  (∀ (v g : Nat) (m : Move) (s : State), s.d.jobMode = true → g < 4 → s.d.feed ≠ some g → (s.d.grp g).st = .run →
    (s.d.grp g).cur = some m → v < s.d.rd Reg.PWR_FBUS_LOW →
    Does (.fbusDip v) s fun d => d.grp g = { s.d.grp g with st := .halting, haltDec := m.dec })

/-! Rules of the whole machine. -/

/-- Only the commands of `storesToDram` change the DRAM (R333, R334, R347, R370); no command but KEY_PROVISION changes the
manifest key (R64), and none but FW_COMMIT_DONE changes the image slot that boots next (R65, R434). -/
def Obligations.WritersOfDramKeyAndImage : Prop :=
  ∀ (c : Instr) (s t : State), exec c s = .next t →
    (storesToDram c = false → t.mem = s.mem) ∧
    ((∀ h k x, c ≠ .keyProvision h k x) → t.d.pages.key = s.d.pages.key) ∧
    (c ≠ .fwCommitDone → t.d.pwr.imgs = s.d.pwr.imgs ∧ t.d.pwr.slot = s.d.pwr.slot)

/-- DISCARD (R14): no shadow differs from its active value afterwards, and the reply is OK; a COMMIT accepted before it stays
as it is; and no read shows a shadow: with any other shadow set PARAM_READ does the same, and a word of access ST reads its
active value. -/
def Obligations.DiscardAndShadowReads : Prop :=
  (∀ (h : Req) (s : State), Ready h s.d →
    Does (.discard h) s fun d => d.staged? = [] ∧ d.regs.com = s.d.regs.com ∧ Replied d h 0x14 stOk [] ∧
      Quiet { s.d with regs := { s.d.regs with shd := [] } } d) ∧
  (∀ (h : Req) (addr count : Nat) (l : List (Nat × Word)) (s : State), ∃ d,
    exec (.paramRead h addr count) s = .next { s with d := d } ∧
    exec (.paramRead h addr count) { s with d := { s.d with regs := { s.d.regs with shd := l } } } =
      .next { s with d := { d with regs := { d.regs with shd := l } } }) ∧
  (∀ (h : Req) (addr : Nat) (r : Row) (s : State), Ready h s.d → addr < 2 ^ 24 → rowOf addr = some r → r.acc = .st →
    Does (.paramRead h addr 1) s fun d => Quiet s.d d ∧ Replied d h 0x10 stOk (be 4 addr ++ be 4 (s.d.rd addr)))

/-- R286: while a job is held, a COMMIT that would change SEQ_DIV_INT, SEQ_DIV_FRAC, any SEQ_Hn_OFS_c, COX_FEED_RATIO or any
CLS word is answered BAD_STATE and applies nothing; the shadow set stays. -/
def Obligations.HeldJobCommits : Prop :=
  ∀ (h : Req) (a : Nat) (v : Word) (s : State), Ready h s.d → s.d.jobHeld = true → s.d.regs.com = none →
    (a = Reg.SEQ_DIV_INT ∨ a = Reg.SEQ_DIV_FRAC ∨ (∃ n c, n < 32 ∧ c < 3 ∧ a = Reg.SEQ_H_OFS n c) ∨
      a = Reg.COX_FEED_RATIO ∨ a / 65536 = 9) →
    aget s.d.regs.shd a = some v → v.toNat ≠ s.d.rd a →
    Does (.commit h) s fun d => Quiet s.d d ∧ ∃ w, Replied d h 0x13 stBadState (be 4 w)

/-- R279: a stroke whose Catch falls while COX_STATE.STATE is PACING carries PACED, and COX_PACED_CNT increments: a Catch at
its grid point, one deferred, and one of the timer; its lamp phase is its grid index modulo the phases in use (R88). -/
def Obligations.PacedStrokes : Prop :=
  ∀ (t : Nat) (s : State), s.d.mode = .scan → s.d.cox.st = 2 → s.d.regs.com = none →
    s.d.regs.held = [] → s.d.cal.due = [] → s.d.cal.held = [] → s.d.seq.withhold = false →
    (∀ k r l, s.d.seq.pend = (k, r) :: l → s.d.earliest ≤ r →
      Does (.catchStroke t) s fun d =>
        d.rd Reg.COX_PACED_CNT = min 0xFFFFFFFF (s.d.rd Reg.COX_PACED_CNT + 1) ∧
        ∃ x, d.seq.flight.getLast? = some x ∧ x.at_ = r ∧ x.k = k ∧ x.paced = true ∧ x.phase = k % nphOf s.d.regs.act) ∧
    (∀ k r l, s.d.seq.pend = (k, r) :: l → r < s.d.earliest →
      Does (.catchDeferred t) s fun d =>
        d.rd Reg.COX_PACED_CNT = min 0xFFFFFFFF (s.d.rd Reg.COX_PACED_CNT + 1) ∧
        ∃ x, d.seq.flight.getLast? = some x ∧ x.at_ = s.d.earliest ∧ x.k = k ∧ x.paced = true ∧
          x.phase = k % nphOf s.d.regs.act) ∧
    (s.d.seq.en = true → s.d.rf Reg.SEQ_CTRL 0 0 = 1 → s.d.owBusy = false →
      Does (.timerStroke t) s fun d =>
        d.rd Reg.COX_PACED_CNT = min 0xFFFFFFFF (s.d.rd Reg.COX_PACED_CNT + 1) ∧
        ∃ x, d.seq.flight.getLast? = some x ∧ x.at_ = t ∧ x.k = s.d.seq.timerN + 1 ∧ x.paced = true ∧
          x.phase = (s.d.seq.timerN + 1) % nphOf s.d.regs.act)

/-- The machine right after reset (R10, R37, R45): every parameter word at its reset value, DEV_MODE reading STANDBY's word,
no session, job, page or event, nothing in the queue and nothing in the DRAM (the first mode is log 11's). -/
def Obligations.ResetState : Prop :=
  State.reset.d.modeWord = 0x00010012 ∧ (∀ a, State.reset.d.rd a = resetWord a) ∧ State.reset.d.hold = 0 ∧
  State.reset.d.sess = [] ∧ State.reset.d.jobs = [] ∧ State.reset.d.ops = [] ∧ State.reset.d.pages.list = [] ∧
  State.reset.d.flt.log = [] ∧ State.reset.d.regs.shd = [] ∧ State.reset.d.regs.com = none ∧
  State.reset.pending = [] ∧ State.reset.mem = [] ∧ State.reset.d.fsram = [] ∧
  resetWord Reg.FLT_ESC_WIN = 60 ∧ resetWord Reg.TIM_STEP_THR = 1000000
end

