-- ==== Sys2Proof/Laws/State.lean ====
section
/-! SUPPORT. The small lemmas of keyed lists and parameter words, and one lemma per shared operation that sends, answers
or queues events: it is quiet. -/

namespace Sys2Proof.Machine

open Sys2Proof

/-! Keyed lists. -/

section Keyed
variable {α : Type}

@[simp] theorem aget_nil (a : Nat) : aget ([] : List (Nat × α)) a = none := rfl

theorem aget_aset (l : List (Nat × α)) (a b : Nat) (v : α) :
    aget (aset l a v) b = if b = a then some v else aget l b := by
  induction l with
  | nil => simp [aset, aget]
  | cons p l ih =>
    obtain ⟨k, w⟩ := p
    simp only [aset]
    split
    · next h => subst h; simp only [aget]; split <;> simp_all
    · split
      · simp only [aget]
      · simp only [aget, ih]; split <;> split <;> simp_all

@[simp] theorem aget_aset_self (l : List (Nat × α)) (a : Nat) (v : α) : aget (aset l a v) a = some v := by
  simp [aget_aset]

theorem aget_adel (l : List (Nat × α)) (a b : Nat) : aget (adel l a) b = if b = a then none else aget l b := by
  induction l with
  | nil => simp [adel]
  | cons p l ih =>
    obtain ⟨k, w⟩ := p
    simp only [adel]
    split
    · next h => subst h; rw [ih]; simp only [aget]; split <;> simp_all
    · simp only [aget, ih]; split <;> split <;> simp_all

@[simp] theorem aget_adel_self (l : List (Nat × α)) (a : Nat) : aget (adel l a) a = none := by simp [aget_adel]

theorem aget_amod (l : List (Nat × α)) (a b : Nat) (f : α → α) :
    aget (amod l a f) b = if b = a then (aget l a).map f else aget l b := by
  induction l with
  | nil => simp [amod]
  | cons p l ih =>
    obtain ⟨k, w⟩ := p
    simp only [amod, List.map_cons] at ih ⊢
    by_cases hk : k = a <;> by_cases hb : b = k <;> simp_all [aget]; split <;> simp_all

@[simp] theorem aget_amod_self (l : List (Nat × α)) (a : Nat) (f : α → α) :
    aget (amod l a f) a = (aget l a).map f := by simp [aget_amod]

/-- Changing a value keeps what `g` makes of the entries where `f` keeps it. -/
theorem amod_map {β : Type} (g : Nat × α → β) (l : List (Nat × α)) (a : Nat) (f : α → α)
    (hf : ∀ x, g (a, f x) = g (a, x)) : (amod l a f).map g = l.map g := by
  simp only [amod, List.map_map]
  apply List.map_congr_left
  intro p _
  obtain ⟨k, w⟩ := p
  by_cases hk : k = a <;> simp_all

end Keyed

/-! Parameter words (R68). -/

theorem rdA_putA (c : List (Nat × Word)) (a b v : Nat) :
    rdA (putA c a v) b = if b = a then v % 2 ^ 32 else rdA c b := by
  unfold putA
  split
  · next h =>
    simp only [rdA, aget_adel]
    by_cases hb : b = a
    · subst hb; simpa using h.symm
    · simp [hb]
  · simp only [rdA, aget_aset]; by_cases hb : b = a <;> simp [hb]

theorem Dev.rd_put (d : Dev) (a b v : Nat) : (d.put a v).rd b = if b = a then v % 2 ^ 32 else d.rd b := by
  unfold Dev.rd Dev.put Regs.put
  by_cases ha : a / 65536 = 12 <;> by_cases hb : b / 65536 = 12 <;> simp only [ha, hb, if_true, if_false, rdA_putA]
  all_goals split <;> simp_all

@[simp] theorem Dev.rd_put_self (d : Dev) (a v : Nat) : (d.put a v).rd a = v % 2 ^ 32 := by simp [Dev.rd_put]

theorem Dev.rd_put_ne (d : Dev) (a b v : Nat) (h : b ≠ a) : (d.put a v).rd b = d.rd b := by simp [Dev.rd_put, h]

/-! Quiet changes. -/

theorem Quiet.refl (d : Dev) : Quiet d d := by constructor <;> rfl

theorem Quiet.chain {a b c : Dev} (h : Quiet a b) (g : Quiet b c) : Quiet a c := by
  constructor
  all_goals first
    | exact g.act.trans h.act
    | exact g.now.trans h.now | exact g.frees.trans h.frees | exact g.mode.trans h.mode | exact g.prev.trans h.prev
    | exact g.trans.trans h.trans | exact g.hold.trans h.hold | exact g.shd.trans h.shd | exact g.held.trans h.held
    | exact g.heldBy.trans h.heldBy | exact g.com.trans h.com | exact g.sn.trans h.sn | exact g.sess.trans h.sess
    | exact g.opens.trans h.opens | exact g.jobs.trans h.jobs | exact g.ops.trans h.ops | exact g.bzl.trans h.bzl
    | exact g.seq.trans h.seq | exact g.afe.trans h.afe | exact g.monA.trans h.monA | exact g.monB.trans h.monB
    | exact g.clamp.trans h.clamp | exact g.pages.trans h.pages | exact g.lamp.trans h.lamp | exact g.mot.trans h.mot
    | exact g.cox.trans h.cox | exact g.cls.trans h.cls | exact g.cal.trans h.cal | exact g.dma.trans h.dma
    | exact g.qps.trans h.qps | exact g.reasm.trans h.reasm | exact g.record.trans h.record | exact g.keys.trans h.keys
    | exact g.tim.trans h.tim | exact g.flt.trans h.flt | exact g.pwr.trans h.pwr | exact g.fsram.trans h.fsram

/-- A word outside the NET page reads as before. -/
theorem Quiet.words {d d' : Dev} (h : Quiet d d') (a : Nat) (ha : a / 65536 ≠ 12) : d'.rd a = d.rd a := by
  unfold Dev.rd
  rw [if_neg ha, if_neg ha, h.act]

/-- A list of quiet changes is quiet. -/
theorem Quiet.foldl {α : Type} (f : Dev → α → Dev) (hf : ∀ d x, Quiet d (f d x)) :
    ∀ (l : List α) (d : Dev), Quiet d (l.foldl f d)
  | [], d => Quiet.refl d
  | x :: l, d => (hf d x).chain (Quiet.foldl f hf l (f d x))

/-- A word of the NET page changes. -/
theorem quiet_put (d : Dev) (a v : Nat) (h : a / 65536 = 12) : Quiet d (d.put a v) := by
  unfold Dev.put Regs.put
  rw [if_pos h]
  exact { Quiet.refl d with }

theorem quiet_bump (d : Dev) (a : Nat) (h : a / 65536 = 12) : Quiet d (d.bump a) := quiet_put d a _ h

theorem quiet_bumpIf (d : Dev) (b : Bool) (a : Nat) (h : a / 65536 = 12) : Quiet d (d.bumpIf b a) := by
  cases b
  · exact Quiet.refl d
  · exact quiet_bump d a h

theorem quiet_emit (d : Dev) (o : Out) : Quiet d (d.emit o) := { Quiet.refl d with }

theorem netTx_page (p : NetPort) : Reg.NET_P_TX_FRAME_CNT (portIx p) / 65536 = 12 := by cases p <;> rfl
theorem netRx_page (p : NetPort) : Reg.NET_P_RX_FRAME_CNT (portIx p) / 65536 = 12 := by cases p <;> rfl

theorem quiet_sendNow (d : Dev) (p : NetPort) (c : Nat) (o : Out) : Quiet d (d.sendNow p c o) :=
  ((quiet_emit d o).chain (quiet_bump _ _ (netTx_page p))).chain { Quiet.refl _ with }

theorem quiet_modPort (d : Dev) (p : NetPort) (f : Port → Port) : Quiet d (d.modPort p f) := { Quiet.refl d with }

theorem quiet_resolve (d : Dev) (p : NetPort) (hop : Option Nat) : Quiet d (d.resolve p hop) := by
  unfold Dev.resolve
  split
  · exact Quiet.refl d
  · split
    · exact Quiet.refl d
    · exact (quiet_sendNow _ _ _ _).chain (quiet_modPort _ _ _)

theorem quiet_send (d : Dev) (p : NetPort) (c : Nat) (o : Out) : Quiet d (d.send p c o) := by
  unfold Dev.send
  split
  · exact ((quiet_resolve _ _ _).chain (quiet_modPort _ _ _)).chain (quiet_sendNow _ _ _ _)
  · exact { Quiet.refl d with }

theorem quiet_drain (d : Dev) (p : NetPort) : Quiet d (d.drain p) := by
  unfold Dev.drain
  dsimp only
  refine Quiet.chain ?_ (Quiet.foldl (fun d (m : Nat × Out) => d.send p m.1 m.2) (fun d m => quiet_send d p m.1 m.2) _ _)
  exact { Quiet.refl d with }

theorem quiet_sendReply (d : Dev) (dst : Endpoint) (port : NetPort) (n : Nat) (q : Word) (op st : Nat) (b : List Byte) :
    Quiet d (d.sendReply dst port n q op st b) := by
  unfold Dev.sendReply
  exact Quiet.foldl _ (fun d x => quiet_send d port 1 _) _ _

theorem quiet_modSes (d : Dev) (n : Nat) (f : Session → Session) (hf : ∀ x, (f x).base = x.base) :
    Quiet d (d.modSes n f) := by
  refine { Quiet.refl d with sess := ?_ }
  exact amod_map _ _ _ _ (fun x => by simp [hf])

theorem quiet_pump (d : Dev) (n : Nat) : Quiet d (d.pump n) := by
  unfold Dev.pump
  split
  · split
    · exact Quiet.refl d
    · refine Quiet.chain (quiet_modSes d n _ ?_) (Quiet.foldl _ (fun d e => quiet_send d _ _ _) _ _)
      intro x; rfl
  · exact Quiet.refl d

theorem quiet_pushEv (d : Dev) (n : Nat) (e : Ev) : Quiet d (d.pushEv n e) := by
  unfold Dev.pushEv
  split
  · exact Quiet.refl d
  · split
    · refine Quiet.chain (quiet_modSes d n _ ?_) (quiet_bump _ _ (by decide)); intro x; rfl
    · refine Quiet.chain (quiet_modSes d n _ ?_) (quiet_pump _ _); intro x; rfl

theorem quiet_queueEv (d : Dev) (n code op : Nat) (q : Word) (st stroke : Nat) (b : List Byte) :
    Quiet d (d.queueEv n code op q st stroke b) := quiet_pushEv _ _ _

theorem quiet_ev (d : Dev) (n code : Nat) (b : List Byte) : Quiet d (d.ev n code b) := quiet_queueEv _ _ _ _ _ _ _ _

theorem quiet_evAll (d : Dev) (code : Nat) (b : List Byte) : Quiet d (d.evAll code b) := by
  unfold Dev.evAll
  exact Quiet.foldl (fun d n => d.ev n code b) (fun d n => quiet_ev d n code b) _ _

theorem quiet_jobEv (d : Dev) (job code : Nat) (b : List Byte) : Quiet d (d.jobEv job code b) := by
  unfold Dev.jobEv
  split
  · exact Quiet.refl d
  · split
    · exact quiet_ev _ _ _ _
    · refine { Quiet.refl d with jobs := ?_ }
      simp only [List.map_map]
      apply List.map_congr_left
      intro j _
      simp only [Function.comp]
      split <;> simp [Job.base]

theorem quiet_opDone (d : Dev) (o : LongOp) (w : Option Nat) (st id : Nat) : Quiet d (d.opDone o w st id) := by
  unfold Dev.opDone
  cases w with
  | none => exact quiet_queueEv _ _ _ _ _ _ _ _
  | some s =>
    dsimp only
    split
    · exact (quiet_queueEv _ _ _ _ _ _ _ _).chain (quiet_queueEv _ _ _ _ _ _ _ _)
    · exact quiet_queueEv _ _ _ _ _ _ _ _

/-- Ending long operations takes them off the list and reports them. -/
theorem quiet_endOps (d : Dev) (w : Option Nat) (p : Op → Bool) (st id : Nat) :
    Quiet { d with ops := d.ops.filter (fun o => !p o.op) } (d.endOps w p st id) :=
  Quiet.foldl _ (fun d o => quiet_opDone d o w st id) _ _

theorem quiet_valid (d : Dev) (h : Req) : Quiet d (d.valid h) := quiet_modSes _ _ _ (fun _ => rfl)

theorem quiet_answer (d : Dev) (h : Req) (op st : Nat) (b : List Byte) : Quiet d (d.answer h op st b) := by
  unfold Dev.answer
  have h1 := (quiet_bumpIf d (decide (0x200 ≤ st)) Reg.NET_SKM_ERR_CNT (by decide)).chain
    (quiet_modSes (d.bumpIf (decide (0x200 ≤ st)) Reg.NET_SKM_ERR_CNT) h.session
      (fun x => { x with cache := (⟨h.seq, op, st, b⟩ :: x.cache).take 16 }) (fun _ => rfl))
  dsimp only
  split
  · exact h1.chain (quiet_sendReply _ _ _ _ _ _ _ _)
  · exact h1

theorem quiet_refuse (d : Dev) (h : Req) (op st : Nat) : Quiet d (d.refuse h op st) :=
  (quiet_bumpIf d _ _ (by decide)).chain (quiet_sendReply _ _ _ _ _ _ _ _)

theorem quiet_resend (d : Dev) (h : Req) (c : Cached) : Quiet d (d.resend h c) := by
  unfold Dev.resend
  dsimp only
  split
  · exact (quiet_bump d _ (by decide)).chain (quiet_sendReply _ _ _ _ _ _ _ _)
  · exact quiet_bump d _ (by decide)

/-! Bezel frames (R19 to R21). -/

/-- A new frame of either direction takes a SEQ and a place in the retry buffer. -/
theorem quiet_sendFrame (d : Dev) (r : Dir) (f : Frame) : Quiet d (d.sendFrame r f) := by
  cases r <;> exact { Quiet.refl d with }

/-- A frame of the field side other than STROKE is sent or waits behind what is staged. -/
theorem quiet_fieldFrame (d : Dev) (f : Frame) (h : f.typ ≠ 1) : Quiet d (d.fieldFrame f) := by
  unfold Dev.fieldFrame
  split
  · split
    · exact quiet_sendFrame _ _ _
    · exact { Quiet.refl d with bzl := by simp [Bezel.base, h] }
  · exact Quiet.refl d

theorem quiet_sendWaiting : ∀ (n : Nat) (d : Dev), Quiet d (d.sendWaiting n)
  | 0, d => Quiet.refl d
  | n + 1, d => by
    unfold Dev.sendWaiting
    split
    · exact Quiet.refl d
    · next rest _ =>
      split
      · have h : Quiet d { d with bzl := { d.bzl with wait := rest } } := { Quiet.refl d with }
        exact (h.chain (quiet_sendFrame _ _ _)).chain (quiet_sendWaiting n _)
      · exact Quiet.refl d

/-- A CMD frame is sent or waits. -/
theorem quiet_sendCmd (d : Dev) (c : FieldCmd) : Quiet d (d.sendCmd c) := by
  unfold Dev.sendCmd
  split
  · refine Quiet.chain (b := { d with bzl := { d.bzl with cmdTag := _, cmds := _, wait := _ } }) ?_ (quiet_sendWaiting _ _)
    exact { Quiet.refl d with }
  · exact Quiet.refl d

/-- Beyond the entry itself, writing the fault log only sends frames and sends and queues events. -/
theorem quiet_log (d : Dev) (r : FaultRec) (m n : Mode) : Quiet (d.logAdd r m n) (d.log r m n) := by
  unfold Dev.log Dev.fieldEvent
  split
  · exact (quiet_evAll _ _ _).chain (quiet_fieldFrame _ _ (by simp [newFrame]))
  · exact quiet_evAll _ _ _

end Sys2Proof.Machine
end

