-- ==== Sys2Proof/Laws/Memory.lean ====
section
/-! SUPPORT. The memories (R333, R338): what a write leaves at each address, and that the writes of `Operands.lean` keep
the canonical form of `Memory.wf`. -/

namespace Sys2Proof.Machine

open Sys2Proof

/-! What a byte reads as. -/

theorem mget_mset (m : List Host.Cell) (a b : Nat) (v : Byte) : mget (mset m a v) b = if b = a then v else mget m b := by
  unfold mget mset
  split <;> rename_i hv
  · rw [aget_adel]; split <;> simp_all
  · rw [aget_aset]; split <;> simp_all

@[simp] theorem mget_mset_self (m : List Host.Cell) (a : Nat) (v : Byte) : mget (mset m a v) a = v := by
  simp [mget_mset]

/-- Bytes outside a write read as before. -/
theorem mget_mwrite_out (l : List Byte) (m : List Host.Cell) (a b : Nat) (h : b < a ∨ a + l.length ≤ b) :
    mget (mwrite m a l) b = mget m b := by
  induction l generalizing m a with
  | nil => rfl
  | cons x l ih =>
    simp only [List.length_cons] at h
    simp only [mwrite]
    rw [ih _ _ (by omega), mget_mset, if_neg (by omega)]

/-- Byte `i` of a write reads back. -/
theorem mget_mwrite_in (l : List Byte) (m : List Host.Cell) (a i : Nat) (h : i < l.length) :
    mget (mwrite m a l) (a + i) = l.getD i 0 := by
  induction l generalizing m a i with
  | nil => simp at h
  | cons x l ih =>
    simp only [mwrite]
    cases i with
    | zero => rw [mget_mwrite_out _ _ _ _ (by omega)]; simp
    | succ i =>
      have := ih (mset m a x) (a + 1) i (by simpa using h)
      simpa [Nat.add_assoc, Nat.add_comm 1 i] using this

/-! The canonical form. -/

section Sorted
variable {α : Type}

theorem adel_all (p : Nat × α → Bool) (l : List (Nat × α)) (a : Nat) (h : l.all p = true) : (adel l a).all p = true := by
  induction l with
  | nil => rfl
  | cons x l ih =>
    obtain ⟨k, v⟩ := x
    simp only [List.all_cons, Bool.and_eq_true] at h
    simp only [adel]
    split <;> simp_all

theorem aset_all (p : Nat × α → Bool) (l : List (Nat × α)) (a : Nat) (v : α) (ha : p (a, v) = true) (h : l.all p = true) :
    (aset l a v).all p = true := by
  induction l with
  | nil => simp [aset, ha]
  | cons x l ih =>
    obtain ⟨k, w⟩ := x
    simp only [List.all_cons, Bool.and_eq_true] at h
    simp only [aset]
    split
    · simp_all
    · split <;> simp_all

theorem adel_sorted (l : List (Nat × α)) (a : Nat) (h : asorted l = true) : asorted (adel l a) = true := by
  induction l with
  | nil => rfl
  | cons x l ih =>
    obtain ⟨k, v⟩ := x
    simp only [asorted, Bool.and_eq_true] at h
    simp only [adel]
    split
    · exact ih h.2
    · simp only [asorted, Bool.and_eq_true]; exact ⟨adel_all _ _ _ h.1, ih h.2⟩

theorem aset_sorted (l : List (Nat × α)) (a : Nat) (v : α) (h : asorted l = true) : asorted (aset l a v) = true := by
  induction l with
  | nil => rfl
  | cons x l ih =>
    obtain ⟨k, w⟩ := x
    simp only [asorted, Bool.and_eq_true] at h
    simp only [aset]
    split
    · next e => subst e; simp [asorted, h]
    · split
      · next hk =>
        simp only [asorted, List.all_cons, Bool.and_eq_true, decide_eq_true_eq]
        refine ⟨⟨hk, ?_⟩, h.1, h.2⟩
        simp only [List.all_eq_true, decide_eq_true_eq] at h ⊢
        exact fun x hx => Nat.lt_trans hk (h.1 x hx)
      · next hne hk =>
        simp only [asorted, Bool.and_eq_true]
        exact ⟨aset_all _ _ _ _ (decide_eq_true (show k < a by omega)) h.1, ih h.2⟩

end Sorted

theorem mset_wf (m : List Host.Cell) (a : Nat) (v : Byte) (h : Memory.wf m = true) : Memory.wf (mset m a v) = true := by
  simp only [Memory.wf, Bool.and_eq_true] at h ⊢
  unfold mset
  split
  · exact ⟨adel_sorted _ _ h.1, adel_all _ _ _ h.2⟩
  · next hv => exact ⟨aset_sorted _ _ _ h.1, aset_all _ _ _ _ (by simpa using hv) h.2⟩

theorem mwrite_wf (l : List Byte) (m : List Host.Cell) (a : Nat) (h : Memory.wf m = true) :
    Memory.wf (mwrite m a l) = true := by
  induction l generalizing m a with
  | nil => exact h
  | cons x l ih => exact ih _ _ (mset_wf _ _ _ h)

/-- Writes one after another keep the form. -/
theorem foldl_mset_wf {β : Type} (f : β → Nat) (g : β → Byte) (l : List β) (m : List Host.Cell) (h : Memory.wf m = true) :
    Memory.wf (l.foldl (fun m x => mset m (f x) (g x)) m) = true := by
  induction l generalizing m with
  | nil => exact h
  | cons x l ih => exact ih _ (mset_wf _ _ _ h)

/-- The bytes lost beyond a new end of the shared region keep the form (R334). -/
theorem loseBeyond_wf (s : State) (fin : Nat) (h : Memory.wf s.mem = true) :
    Memory.wf (s.loseBeyond fin).mem = true := by
  unfold State.loseBeyond
  generalize s.mem.filter (fun c => decide (fin ≤ c.1)) = l
  induction l generalizing s with
  | nil => exact h
  | cons x l ih => exact ih _ (mset_wf _ _ _ h)

/-- A command that works on the device alone leaves the queue and the DRAM as they are. -/
theorem onDev_next (s : State) (f : Dev → Dev) : s.onDev f = .next { s with d := f s.d } := rfl

end Sys2Proof.Machine
end

