-- ==== Sys2Proof/Laws/Serve.lean ====
section
/-! SUPPORT. What a request that reaches its opcode's own checks comes to (R51, R56): the shared steps before them are
quiet, and the reply enters the session's replay cache. -/

namespace Sys2Proof.Machine

open Sys2Proof

@[simp] theorem sendNow_sess (d : Dev) (p : NetPort) (c : Nat) (o : Out) : (d.sendNow p c o).sess = d.sess := rfl
@[simp] theorem modPort_sess (d : Dev) (p : NetPort) (f : Port → Port) : (d.modPort p f).sess = d.sess := rfl

@[simp] theorem resolve_sess (d : Dev) (p : NetPort) (hop : Option Nat) : (d.resolve p hop).sess = d.sess := by
  unfold Dev.resolve; split
  · rfl
  · split
    · rfl
    · rw [modPort_sess, sendNow_sess]

@[simp] theorem send_sess (d : Dev) (p : NetPort) (c : Nat) (o : Out) : (d.send p c o).sess = d.sess := by
  unfold Dev.send; split
  · rw [sendNow_sess, modPort_sess, resolve_sess]
  · rfl

theorem foldl_sess {α : Type} (f : Dev → α → Dev) (hf : ∀ d x, (f d x).sess = d.sess) :
    ∀ (l : List α) (d : Dev), (l.foldl f d).sess = d.sess
  | [], _ => rfl
  | x :: l, d => (foldl_sess f hf l (f d x)).trans (hf d x)

@[simp] theorem sendReply_sess (d : Dev) (dst : Endpoint) (port : NetPort) (n : Nat) (q : Word) (op st : Nat)
    (b : List Byte) : (d.sendReply dst port n q op st b).sess = d.sess := by
  unfold Dev.sendReply
  exact foldl_sess _ (fun d x => send_sess d port 1 _) _ _

@[simp] theorem bumpIf_sess (d : Dev) (b : Bool) (a : Nat) : (d.bumpIf b a).sess = d.sess := by cases b <;> rfl

theorem answer_sess (d : Dev) (h : Req) (op st : Nat) (b : List Byte) :
    (d.answer h op st b).sess =
      amod d.sess h.session (fun x => { x with cache := (⟨h.seq, op, st, b⟩ :: x.cache).take 16 }) := by
  unfold Dev.answer
  dsimp only
  split <;> simp [Dev.modSes]

/-- An answer on an open session is its newest cached reply. -/
theorem answer_replied (d : Dev) (h : Req) (op st : Nat) (b : List Byte) (x : Session)
    (hx : d.ses? h.session = some x) : Replied (d.answer h op st b) h op st b := by
  unfold Replied Dev.ses?
  rw [answer_sess, aget_amod_self]
  simp only [Dev.ses?] at hx
  simp [hx]

/-- No runtime restart is under way: nothing waits for one. -/
theorem runtimeBack_none (d : Dev) (h : d.flt.recs.all (fun x => !ofRuntime x) = true) : d.runtimeBack = d := by
  have e : d.flt.recs.filter ofRuntime = [] := by
    rw [List.filter_eq_nil_iff]
    intro x hx
    simpa using List.all_eq_true.mp h x hx
  simp [Dev.runtimeBack, e]

theorem quiet_arrived (d : Dev) (h : Req) :
    Quiet d (((d.bump (Reg.NET_P_RX_FRAME_CNT (portIx h.port))).valid h).bump Reg.NET_SKM_RX_CNT) :=
  ((quiet_bump d _ (netRx_page h.port)).chain (quiet_valid _ _)).chain (quiet_bump _ _ (by decide))

/-- A request that reaches its opcode's own checks is answered by them, on a device that differs from the present one
in its sessions and in counters of the NET page only. -/
theorem serveThen_ready (d : Dev) (h : Req) (hr : Ready h d) :
    ∃ da x, Quiet d da ∧ da.ses? h.session = some x ∧ da.jobs = d.jobs ∧ da.net = d.net ∧ da.tx = d.tx ∧
      ∀ op k post, d.serveThen h op k post =
        post (k da).1 (if (k da).1 = stLater then (k da).2.2 else (k da).2.2.answer h op (k da).1 (k da).2.1) := by
  obtain ⟨hs, hw, h0, h2, hb, hv, x, hx, he, hc⟩ := hr
  have hw := runtimeBack_none d hw
  refine ⟨((d.bump (Reg.NET_P_RX_FRAME_CNT (portIx h.port))).valid h).bump Reg.NET_SKM_RX_CNT,
    { x with port := h.port, openLive := false }, quiet_arrived d h, ?_, rfl, rfl, rfl, ?_⟩
  · simp only [Dev.ses?] at hx ⊢
    have e : (((d.bump (Reg.NET_P_RX_FRAME_CNT (portIx h.port))).valid h).bump Reg.NET_SKM_RX_CNT).sess =
        amod d.sess h.session (fun x => { x with port := h.port, openLive := false }) := rfl
    rw [e, aget_amod_self, hx]; rfl
  · intro op k post
    have hx' : (d.bump (Reg.NET_P_RX_FRAME_CNT (portIx h.port))).ses? h.session = some x := hx
    simp only [Dev.serveThen, Dev.notRequest, hs, hw, h0, h2, hx', he, hb, hc, hv]
    simp

/-- The same for a request whose effect is complete when it is answered, given what its checks make of it. -/
theorem serve_ready (d : Dev) (h : Req) (hr : Ready h d) :
    ∃ da x, Quiet d da ∧ da.ses? h.session = some x ∧ da.jobs = d.jobs ∧ da.net = d.net ∧ da.tx = d.tx ∧
      ∀ op k st b d2, k da = (st, b, d2) → st ≠ stLater → (∃ y, d2.ses? h.session = some y) →
        Quiet d2 (d.serve h op k) ∧ Replied (d.serve h op k) h op st b := by
  obtain ⟨da, x, hq, hx, hj, hn, ht, hk⟩ := serveThen_ready d h hr
  refine ⟨da, x, hq, hx, hj, hn, ht, ?_⟩
  intro op k st b d2 e hst hy
  obtain ⟨y, hy⟩ := hy
  have := hk op k (fun _ d => d)
  simp only [Dev.serve, this, e, hst, if_false]
  exact ⟨quiet_answer _ _ _ _ _, answer_replied _ _ _ _ _ y hy⟩

/-- A meaning that acts on the device alone completes. -/
theorem does_onDev (c : Instr) (s : State) (f : Dev → Dev) (P : Dev → Prop) (hc : exec c s = s.onDev f) (hp : P (f s.d)) :
    Does c s P := ⟨f s.d, hc, hp⟩

/-- Two devices that differ quietly still do so after the same words are written. -/
theorem Quiet.put {d d' : Dev} (h : Quiet d d') (a v : Nat) : Quiet (d.put a v) (d'.put a v) := by
  unfold Dev.put Regs.put
  split
  · exact { h with }
  · exact { h with act := by simp only [h.act] }

end Sys2Proof.Machine
end

