-- ==== Sys2Proof/Laws/Modes.lean ====
section
/-! SUPPORT. What taking staged values into force, disabling Catches and changing the mode can touch. -/

namespace Sys2Proof.Machine

open Sys2Proof

/-! Groups and axes (R237, R263). -/

theorem modNth_map {α β : Type} [Inhabited α] (l : List α) (i : Nat) (f : α → α) (g : α → β) (h : ∀ x, g (f x) = g x) :
    (modNth l i f).map g = l.map g := by
  induction l generalizing i with
  | nil => simp [modNth]
  | cons x l ih => cases i <;> simp_all [modNth, List.modify]

/-- The motion block without what a COMMIT and a mode change set: the drive outputs, and the references of an axis that is
enabled. -/
def Motion.undriven (m : Motion) : Motion :=
  { m with
    axes := m.axes.map fun (a : Axis) => { a with pref := 0, cref := 0, resync := false, feN := 0, feOk := 0 }
    groups := m.groups.map fun (g : Group) => { g with drive := none } }

/-- `d'` differs from `d` in the drive outputs, and in what it has sent. -/
def Driven (d d' : Dev) : Prop := d' = { d with mot := d'.mot, tx := d'.tx } ∧ d'.mot.undriven = d.mot.undriven

theorem Driven.refl (d : Dev) : Driven d d := ⟨rfl, rfl⟩

theorem Driven.chain {a b c : Dev} (h : Driven a b) (g : Driven b c) : Driven a c := by
  obtain ⟨h1, h2⟩ := h
  obtain ⟨g1, g2⟩ := g
  refine ⟨?_, g2.trans h2⟩
  rw [g1, h1]

theorem Driven.foldl {α : Type} (f : Dev → α → Dev) (hf : ∀ d x, Driven d (f d x)) :
    ∀ (l : List α) (d : Dev), Driven d (l.foldl f d)
  | [], d => Driven.refl d
  | x :: l, d => (hf d x).chain (Driven.foldl f hf l (f d x))

theorem driven_out (d : Dev) (was : Nat → Bool) : Driven d (d.driveOut was) := by
  unfold Dev.driveOut
  refine Driven.foldl _ (fun d g => ?_) _ _
  dsimp only
  split
  · exact Driven.refl d
  · refine ⟨rfl, ?_⟩
    simp only [Motion.undriven, Dev.emit, Dev.modGrp]
    congr 1
    exact modNth_map _ _ _ _ fun _ => rfl

/-! Staged values (R12, R76, R308). -/

/-- `d'` differs from `d` in parameter words, in the MON sequences, slot pointers and corrections that wait, in the
timer's count, the grid and the timing outputs, in drive outputs and in what it has sent. -/
def Staged (d d' : Dev) : Prop :=
  d' = { d with
    regs := d'.regs, monA := d'.monA, monB := d'.monB, cal := d'.cal, afe := { d.afe with slot0 := d'.afe.slot0 }
    mot := d'.mot, tx := d'.tx
    seq := { d.seq with
      timerN := d'.seq.timerN, ht := d'.seq.ht, clk := d'.seq.clk, p0 := d'.seq.p0, k0 := d'.seq.k0
      pitch := d'.seq.pitch, old := d'.seq.old, high := d'.seq.high, passed := d'.seq.passed, pend := d'.seq.pend
      limit := d'.seq.limit } } ∧
  d'.mot.undriven = d.mot.undriven

theorem Staged.refl (d : Dev) : Staged d d := ⟨rfl, rfl⟩

theorem Staged.chain {a b c : Dev} (h : Staged a b) (g : Staged b c) : Staged a c := by
  obtain ⟨h1, h2⟩ := h
  obtain ⟨g1, g2⟩ := g
  refine ⟨?_, g2.trans h2⟩
  rw [g1, h1]

theorem Staged.foldl {α : Type} (f : Dev → α → Dev) (hf : ∀ d x, Staged d (f d x)) :
    ∀ (l : List α) (d : Dev), Staged d (l.foldl f d)
  | [], d => Staged.refl d
  | x :: l, d => (hf d x).chain (Staged.foldl f hf l (f d x))

theorem Driven.staged {d d' : Dev} (h : Driven d d') : Staged d d' := by
  obtain ⟨h1, h2⟩ := h
  refine ⟨?_, h2⟩
  rw [h1]

theorem staged_put (d : Dev) (a v : Nat) : Staged d (d.put a v) := ⟨rfl, rfl⟩

theorem staged_emit (d : Dev) (o : Out) : Staged d (d.emit o) := ⟨rfl, rfl⟩

theorem staged_clearTrim (d : Dev) (t : Nat) : Staged d (d.clearTrim t) := ⟨rfl, rfl⟩

theorem staged_tapChanged (d : Dev) (a : Nat) : Staged d (d.tapChanged a) := by
  unfold Dev.tapChanged; split <;> exact ⟨rfl, rfl⟩

theorem staged_tableChanged (d : Dev) (a old : Nat) : Staged d (d.tableChanged a old) := by
  unfold Dev.tableChanged; split <;> exact ⟨rfl, rfl⟩

theorem staged_seqChanged (d : Dev) (old : Nat) : Staged d (d.seqChanged old) := by
  unfold Dev.seqChanged
  dsimp only
  repeat' split
  all_goals exact ⟨rfl, rfl⟩

theorem staged_setClock (d : Dev) (n k div : Nat) : Staged d (d.setClock n k div) := by
  unfold Dev.setClock
  dsimp only
  repeat' split
  all_goals exact ⟨rfl, rfl⟩

theorem staged_outChanged (d : Dev) (a : Nat) : Staged d (d.outChanged a) := by
  unfold Dev.outChanged
  split
  · exact Staged.foldl _ (fun d k => staged_setClock d _ k _) _ _
  · exact Staged.refl d

theorem staged_headEnabled (d : Dev) (a old : Nat) : Staged d (d.headEnabled a old) := by
  unfold Dev.headEnabled
  split
  · split <;> exact ⟨rfl, rfl⟩
  · exact Staged.refl d

theorem staged_monChanged (d : Dev) (a : Nat) : Staged d (d.monChanged a) := by
  unfold Dev.monChanged
  repeat' split
  all_goals exact ⟨rfl, rfl⟩

theorem staged_polChanged (d : Dev) (g : Nat) (was : Option Bool) : Staged d (d.polChanged g was) := by
  unfold Dev.polChanged
  split
  · exact staged_emit _ _
  · exact Staged.refl d

theorem staged_motChanged (d : Dev) (a old : Nat) : Staged d (d.motChanged a old) := by
  unfold Dev.motChanged
  split
  · dsimp only
    split
    · exact (driven_out _ _).staged
    · exact (driven_out _ _).staged.chain (staged_polChanged _ _ _)
  · split
    · split
      · refine ⟨rfl, ?_⟩
        simp only [Motion.undriven, Dev.modAx]
        congr 1
        exact modNth_map _ _ _ _ fun _ => rfl
      · exact Staged.refl d
    · exact Staged.refl d

theorem staged_commitWord (d : Dev) (a v m : Nat) : Staged d (d.commitWord a v m) := by
  unfold Dev.commitWord
  dsimp only
  split
  · exact Staged.refl d
  · exact ((((((staged_put d _ _).chain (staged_tapChanged _ _)).chain (staged_tableChanged _ _ _)).chain
      (staged_outChanged _ _)).chain (staged_headEnabled _ _ _)).chain (staged_monChanged _ _)).chain
      (staged_motChanged _ _ _)

theorem staged_commitWords (l : List (Nat × Word)) (m : Nat → Nat) (d : Dev) :
    Staged d (l.foldl (fun d p => d.commitWord p.1 p.2.toNat (m p.1)) d) :=
  Staged.foldl (fun (d : Dev) (p : Nat × Word) => d.commitWord p.1 p.2.toNat (m p.1))
    (fun d _ => staged_commitWord d _ _ _) l d

theorem staged_resetChain (d : Dev) (n : Nat) : Staged d (d.resetChain n) := by
  unfold Dev.resetChain
  exact ((staged_put _ _ _).chain (Staged.foldl (fun (d : Dev) g => d.put (Reg.LMP_C_ROT n g) 0)
    (fun d _ => staged_put d _ _) _ _)).chain (staged_put _ _ _)

theorem staged_waitMoves (d : Dev) (n : Nat) (m : Option Nat) : Staged d (d.waitMoves n m) := ⟨rfl, rfl⟩

theorem staged_takeImage (d : Dev) (n : Nat) (k : Int) (img : List (Nat × Word)) : Staged d (d.takeImage n k img) := by
  unfold Dev.takeImage
  split
  · exact Staged.refl d
  · split
    · exact ⟨rfl, rfl⟩
    · exact staged_commitWords img imageMask d

theorem staged_takeCommit (d : Dev) (closed : Bool) (vals : List (Nat × Word)) :
    Staged d (d.takeCommit closed vals) := by
  unfold Dev.takeCommit
  dsimp only
  have h := (staged_commitWords vals (fun a => 0xFFFFFFFF ^^^ imageMask a) d).chain
    ((Staged.foldl (fun (d : Dev) n => d.resetChain n) staged_resetChain (d.chainsChanged vals) _).chain
      (staged_seqChanged _ (d.rd Reg.SEQ_CTRL)))
  split
  · exact h.chain ⟨rfl, rfl⟩
  · exact h.chain (staged_takeImage _ _ _ _)

/-- Staging in the registers alone. -/
theorem staged_regs (d : Dev) (r : Regs) : Staged d { d with regs := r } := ⟨rfl, rfl⟩

theorem staged_forceCommit (d : Dev) (closed : Bool) : Staged d (d.forceCommit closed) := by
  unfold Dev.forceCommit
  split
  · exact staged_regs _ _
  · exact ((staged_regs d { d.regs with com := none, comDue := false }).chain (staged_takeCommit _ _ _)).chain
      (staged_regs _ _)

theorem staged_applyCorr (d : Dev) (c : HeldCorr) : Staged d (d.applyCorr c) := by
  unfold Dev.applyCorr
  split
  · exact (staged_commitWords c.vals imageMask d).chain (staged_waitMoves _ _ _)
  · have h : Staged d (d.putAll c.vals) :=
      Staged.foldl (fun (d : Dev) (p : Nat × Word) => d.put p.1 p.2.toNat) (fun d _ => staged_put d _ _) _ _
    have h' : Staged d { d.putAll c.vals with cal := { d.cal with
        heads := c.heads.foldl (fun l x => aset l x.1 x.2) d.cal.heads } } := h.chain ⟨rfl, rfl⟩
    dsimp only
    split
    · exact h'
    · exact h'.chain (staged_put _ _ _)

theorem staged_applyCorrs (d : Dev) (l : List HeldCorr) : Staged d (d.applyCorrs l) := by
  unfold Dev.applyCorrs
  dsimp only
  have h := Staged.foldl (fun (d : Dev) c => d.applyCorr c) staged_applyCorr l d
  split
  · exact h
  · exact h.chain (staged_put _ _ _)

/-! Catches and modes (R94, R36). -/

theorem catchDis_en (d : Dev) (hold : Bool) : (d.catchDis hold).seq.en = false := by
  unfold Dev.catchDis; split <;> simp_all

theorem catchDis_eq (d : Dev) (hold : Bool) :
    d.catchDis hold = { d with seq := { d.seq with en := false, flushDue := (d.catchDis hold).seq.flushDue
                                                   pend := (d.catchDis hold).seq.pend } } := by
  unfold Dev.catchDis
  split
  · rfl
  · next h =>
    have h : d.seq.en = false := by simpa using h
    rw [← h]

/-- Settling commits takes them off the list and sends their COMMIT_DONE. -/
theorem quiet_settleCommits (d : Dev) (stroke : Nat) :
    Quiet { d with regs := { d.regs with heldBy := (d.settleCommits stroke).regs.heldBy } } (d.settleCommits stroke) := by
  have h := Quiet.foldl (fun (d : Dev) (x : Nat × Word × Option Nat) => d.commitDone x.1 x.2.1 stroke)
    (fun d x => quiet_queueEv d x.1 2 0x13 x.2.1 stOk stroke []) (d.regs.heldBy.filter (fun x => x.2.2.isNone))
    { d with regs := { d.regs with heldBy := d.regs.heldBy.filter (fun x => x.2.2.isSome) } }
  have e : (d.settleCommits stroke).regs.heldBy = d.regs.heldBy.filter (fun x => x.2.2.isSome) := h.heldBy
  rw [e]
  exact h

/-- A commit that is due comes into force, and its COMMIT_DONE is sent where no job is held. -/
theorem commitDue_staged (d : Dev) : ∃ e h, Staged d e ∧
    Quiet { e with regs := { e.regs with heldBy := h } } d.commitDue := by
  unfold Dev.commitDue
  split
  · dsimp only
    split
    · exact ⟨_, (d.forceCommit true).regs.heldBy, staged_forceCommit _ _, Quiet.refl _⟩
    · exact ⟨_, _, staged_forceCommit _ _, quiet_settleCommits _ _⟩
  · exact ⟨d, d.regs.heldBy, Staged.refl d, Quiet.refl d⟩

/-- What disabling Catches can touch: the sequencer's enable, flush and pending Catches, and what a COMMIT can. -/
theorem catchOff_staged (d : Dev) (hold : Bool) : ∃ e h, Staged (d.catchDis hold) e ∧
    Quiet { e with regs := { e.regs with heldBy := h } } (d.catchOff hold) := by
  obtain ⟨e, h, hs, hq⟩ := commitDue_staged
    { d.catchDis hold with regs := { (d.catchDis hold).regs with comDue := (d.catchDis hold).regs.com.isSome } }
  exact ⟨e, h, (staged_regs _ _).chain hs, hq⟩

theorem catchOff_en (d : Dev) (hold : Bool) : (d.catchOff hold).seq.en = false := by
  obtain ⟨e, h, ⟨hs, -⟩, hq⟩ := catchOff_staged d hold
  rw [hq.seq, hs]
  exact catchDis_en _ _

theorem quiet_settleOps (d : Dev) (m : Mode) (w : Option Nat) :
    Quiet { d with ops := d.ops.filter (fun o => (opAfter m o.op).isNone) } (d.settleOps m w) := by
  unfold Dev.settleOps
  refine Quiet.foldl (fun (d : Dev) (o : LongOp) =>
    match opAfter m o.op with | some st => d.opDone o w st 0 | none => d) (fun d o => ?_) _ _
  split
  · exact quiet_opDone _ _ _ _ _
  · exact Quiet.refl d

/-- The entry into a mode ends a wear rotation, leaves the tests of the mode before, ends the MON passes where no sequence
runs, and sets the drive outputs. -/
theorem entered_eq (d : Dev) (m : Mode) :
    Driven ((({ d.rotAbandon with mode := m, prev := d.mode, trans := (d.trans + 1) % 65536 }).leaveTest d.mode).monStop)
      (d.entered m) := driven_out _ _

theorem cancelStart_eq (d : Dev) (b : Bool) (m : Mode) :
    d.cancelStart b m = { d with jobs := (d.cancelStart b m).jobs
                                 seq := { d.seq with scanWait := (d.cancelStart b m).seq.scanWait } } := by
  unfold Dev.cancelStart; split <;> rfl

theorem forgetStop_eq (d : Dev) (m : Mode) :
    d.forgetStop m = { d with pages := { d.pages with stopPages := (d.forgetStop m).pages.stopPages } } := by
  unfold Dev.forgetStop; split <;> rfl

/-- A mode change is the entry into the mode, then sending, then what it forgets, then the CMD frame to the field side. -/
theorem setMode_eq (d : Dev) (m : Mode) (h : d.mode ≠ m) :
    ∃ e, Quiet { d.entered m with ops := (d.entered m).ops.filter (fun o => (opAfter m o.op).isNone) } e ∧
      Quiet ((e.cancelStart (d.opRuns (fun o => o == .scanStart)) m).forgetStop m) (d.setMode m) := by
  refine ⟨((d.entered m).evAll 1 (be 1 d.mode.code ++ be 1 m.code ++ be 4 d.hold)).settleOps m d.owner, ?_, ?_⟩
  · have hq := quiet_evAll (d.entered m) 1 (be 1 d.mode.code ++ be 1 m.code ++ be 4 d.hold)
    refine Quiet.chain ?_ (quiet_settleOps _ _ _)
    exact { hq with ops := by rw [hq.ops] }
  · have hm : (d.mode == m) = false := by simpa using h
    simp only [Dev.setMode, hm, Bool.false_eq_true, if_false]
    exact quiet_sendCmd _ _

theorem leaveTest_eq (d : Dev) (m : Mode) :
    d.leaveTest m = { d with regs := { d.regs with act := (d.leaveTest m).regs.act } } := by
  unfold Dev.leaveTest; split <;> rfl

theorem leaveTest_rd (d : Dev) (m : Mode) (a : Nat) (h1 : a ≠ Reg.SEQ_CTRL) (h2 : a ≠ Reg.SEQ_TEST) :
    (d.leaveTest m).rd a = d.rd a := by
  unfold Dev.leaveTest
  split <;> simp [Dev.putF, Dev.rd_put, h1, h2]

end Sys2Proof.Machine
end

