-- ==== Sys2Proof/Laws/Updates.lean ====
section
/-! SUPPORT. One lemma per update of the device: every field it does not concern reads as before. -/

namespace Sys2Proof.Machine

open Sys2Proof

@[simp] theorem Dev.put_fields (d : Dev) (a v : Nat) :
    (d.put a v).now = d.now ∧ (d.put a v).frees = d.frees ∧ (d.put a v).mode = d.mode ∧ (d.put a v).prev = d.prev ∧
    (d.put a v).trans = d.trans ∧ (d.put a v).hold = d.hold ∧ (d.put a v).sess = d.sess ∧
    (d.put a v).opens = d.opens ∧ (d.put a v).jobs = d.jobs ∧ (d.put a v).ops = d.ops ∧ (d.put a v).bzl = d.bzl ∧
    (d.put a v).seq = d.seq ∧ (d.put a v).afe = d.afe ∧ (d.put a v).monA = d.monA ∧ (d.put a v).monB = d.monB ∧
    (d.put a v).clamp = d.clamp ∧ (d.put a v).pages = d.pages ∧ (d.put a v).lamp = d.lamp ∧
    (d.put a v).mot = d.mot ∧ (d.put a v).cox = d.cox ∧ (d.put a v).cls = d.cls ∧ (d.put a v).cal = d.cal ∧
    (d.put a v).dma = d.dma ∧ (d.put a v).net = d.net ∧ (d.put a v).tim = d.tim ∧ (d.put a v).flt = d.flt ∧
    (d.put a v).pwr = d.pwr ∧ (d.put a v).fsram = d.fsram ∧ (d.put a v).tx = d.tx ∧ (d.put a v).txHeads = d.txHeads := by
  refine ⟨?_, ?_, ?_, ?_, ?_, ?_, ?_, ?_, ?_, ?_, ?_, ?_, ?_, ?_, ?_, ?_, ?_, ?_, ?_, ?_, ?_, ?_, ?_, ?_, ?_, ?_, ?_, ?_, ?_, ?_⟩ <;> rfl

@[simp] theorem Dev.putF_fields (d : Dev) (a hi lo x : Nat) :
    (d.putF a hi lo x).now = d.now ∧ (d.putF a hi lo x).frees = d.frees ∧ (d.putF a hi lo x).mode = d.mode ∧
    (d.putF a hi lo x).prev = d.prev ∧ (d.putF a hi lo x).trans = d.trans ∧ (d.putF a hi lo x).hold = d.hold ∧
    (d.putF a hi lo x).sess = d.sess ∧ (d.putF a hi lo x).opens = d.opens ∧ (d.putF a hi lo x).jobs = d.jobs ∧
    (d.putF a hi lo x).ops = d.ops ∧ (d.putF a hi lo x).bzl = d.bzl ∧ (d.putF a hi lo x).seq = d.seq ∧
    (d.putF a hi lo x).afe = d.afe ∧ (d.putF a hi lo x).monA = d.monA ∧ (d.putF a hi lo x).monB = d.monB ∧
    (d.putF a hi lo x).clamp = d.clamp ∧ (d.putF a hi lo x).pages = d.pages ∧ (d.putF a hi lo x).lamp = d.lamp ∧
    (d.putF a hi lo x).mot = d.mot ∧ (d.putF a hi lo x).cox = d.cox ∧ (d.putF a hi lo x).cls = d.cls ∧
    (d.putF a hi lo x).cal = d.cal ∧ (d.putF a hi lo x).dma = d.dma ∧ (d.putF a hi lo x).net = d.net ∧
    (d.putF a hi lo x).tim = d.tim ∧ (d.putF a hi lo x).flt = d.flt ∧ (d.putF a hi lo x).pwr = d.pwr ∧
    (d.putF a hi lo x).fsram = d.fsram ∧ (d.putF a hi lo x).tx = d.tx ∧ (d.putF a hi lo x).txHeads = d.txHeads := by
  refine ⟨?_, ?_, ?_, ?_, ?_, ?_, ?_, ?_, ?_, ?_, ?_, ?_, ?_, ?_, ?_, ?_, ?_, ?_, ?_, ?_, ?_, ?_, ?_, ?_, ?_, ?_, ?_, ?_, ?_, ?_⟩ <;> rfl

@[simp] theorem Dev.bumpBy_fields (d : Dev) (a n : Nat) :
    (d.bumpBy a n).now = d.now ∧ (d.bumpBy a n).frees = d.frees ∧ (d.bumpBy a n).mode = d.mode ∧
    (d.bumpBy a n).prev = d.prev ∧ (d.bumpBy a n).trans = d.trans ∧ (d.bumpBy a n).hold = d.hold ∧
    (d.bumpBy a n).sess = d.sess ∧ (d.bumpBy a n).opens = d.opens ∧ (d.bumpBy a n).jobs = d.jobs ∧
    (d.bumpBy a n).ops = d.ops ∧ (d.bumpBy a n).bzl = d.bzl ∧ (d.bumpBy a n).seq = d.seq ∧
    (d.bumpBy a n).afe = d.afe ∧ (d.bumpBy a n).monA = d.monA ∧ (d.bumpBy a n).monB = d.monB ∧
    (d.bumpBy a n).clamp = d.clamp ∧ (d.bumpBy a n).pages = d.pages ∧ (d.bumpBy a n).lamp = d.lamp ∧
    (d.bumpBy a n).mot = d.mot ∧ (d.bumpBy a n).cox = d.cox ∧ (d.bumpBy a n).cls = d.cls ∧
    (d.bumpBy a n).cal = d.cal ∧ (d.bumpBy a n).dma = d.dma ∧ (d.bumpBy a n).net = d.net ∧
    (d.bumpBy a n).tim = d.tim ∧ (d.bumpBy a n).flt = d.flt ∧ (d.bumpBy a n).pwr = d.pwr ∧
    (d.bumpBy a n).fsram = d.fsram ∧ (d.bumpBy a n).tx = d.tx ∧ (d.bumpBy a n).txHeads = d.txHeads := by
  refine ⟨?_, ?_, ?_, ?_, ?_, ?_, ?_, ?_, ?_, ?_, ?_, ?_, ?_, ?_, ?_, ?_, ?_, ?_, ?_, ?_, ?_, ?_, ?_, ?_, ?_, ?_, ?_, ?_, ?_, ?_⟩ <;> rfl

@[simp] theorem Dev.bump_fields (d : Dev) (a : Nat) :
    (d.bump a).now = d.now ∧ (d.bump a).frees = d.frees ∧ (d.bump a).mode = d.mode ∧ (d.bump a).prev = d.prev ∧
    (d.bump a).trans = d.trans ∧ (d.bump a).hold = d.hold ∧ (d.bump a).sess = d.sess ∧ (d.bump a).opens = d.opens ∧
    (d.bump a).jobs = d.jobs ∧ (d.bump a).ops = d.ops ∧ (d.bump a).bzl = d.bzl ∧ (d.bump a).seq = d.seq ∧
    (d.bump a).afe = d.afe ∧ (d.bump a).monA = d.monA ∧ (d.bump a).monB = d.monB ∧ (d.bump a).clamp = d.clamp ∧
    (d.bump a).pages = d.pages ∧ (d.bump a).lamp = d.lamp ∧ (d.bump a).mot = d.mot ∧ (d.bump a).cox = d.cox ∧
    (d.bump a).cls = d.cls ∧ (d.bump a).cal = d.cal ∧ (d.bump a).dma = d.dma ∧ (d.bump a).net = d.net ∧
    (d.bump a).tim = d.tim ∧ (d.bump a).flt = d.flt ∧ (d.bump a).pwr = d.pwr ∧ (d.bump a).fsram = d.fsram ∧
    (d.bump a).tx = d.tx ∧ (d.bump a).txHeads = d.txHeads := by
  refine ⟨?_, ?_, ?_, ?_, ?_, ?_, ?_, ?_, ?_, ?_, ?_, ?_, ?_, ?_, ?_, ?_, ?_, ?_, ?_, ?_, ?_, ?_, ?_, ?_, ?_, ?_, ?_, ?_, ?_, ?_⟩ <;> rfl

@[simp] theorem Dev.emit_fields (d : Dev) (o : Out) :
    (d.emit o).now = d.now ∧ (d.emit o).frees = d.frees ∧ (d.emit o).mode = d.mode ∧ (d.emit o).prev = d.prev ∧
    (d.emit o).trans = d.trans ∧ (d.emit o).hold = d.hold ∧ (d.emit o).regs = d.regs ∧ (d.emit o).sess = d.sess ∧
    (d.emit o).opens = d.opens ∧ (d.emit o).jobs = d.jobs ∧ (d.emit o).ops = d.ops ∧ (d.emit o).bzl = d.bzl ∧
    (d.emit o).seq = d.seq ∧ (d.emit o).afe = d.afe ∧ (d.emit o).monA = d.monA ∧ (d.emit o).monB = d.monB ∧
    (d.emit o).clamp = d.clamp ∧ (d.emit o).pages = d.pages ∧ (d.emit o).lamp = d.lamp ∧ (d.emit o).mot = d.mot ∧
    (d.emit o).cox = d.cox ∧ (d.emit o).cls = d.cls ∧ (d.emit o).cal = d.cal ∧ (d.emit o).dma = d.dma ∧
    (d.emit o).net = d.net ∧ (d.emit o).tim = d.tim ∧ (d.emit o).flt = d.flt ∧ (d.emit o).pwr = d.pwr ∧
    (d.emit o).fsram = d.fsram ∧ (d.emit o).txHeads = d.txHeads ∧ (∀ i, (d.emit o).rd i = d.rd i) := by
  refine ⟨?_, ?_, ?_, ?_, ?_, ?_, ?_, ?_, ?_, ?_, ?_, ?_, ?_, ?_, ?_, ?_, ?_, ?_, ?_, ?_, ?_, ?_, ?_, ?_, ?_, ?_, ?_, ?_, ?_, ?_, fun _ => ?_⟩ <;> rfl

@[simp] theorem Dev.modSes_fields (d : Dev) (n : Nat) (f : Session → Session) :
    (d.modSes n f).now = d.now ∧ (d.modSes n f).frees = d.frees ∧ (d.modSes n f).mode = d.mode ∧
    (d.modSes n f).prev = d.prev ∧ (d.modSes n f).trans = d.trans ∧ (d.modSes n f).hold = d.hold ∧
    (d.modSes n f).regs = d.regs ∧ (d.modSes n f).opens = d.opens ∧ (d.modSes n f).jobs = d.jobs ∧
    (d.modSes n f).ops = d.ops ∧ (d.modSes n f).bzl = d.bzl ∧ (d.modSes n f).seq = d.seq ∧
    (d.modSes n f).afe = d.afe ∧ (d.modSes n f).monA = d.monA ∧ (d.modSes n f).monB = d.monB ∧
    (d.modSes n f).clamp = d.clamp ∧ (d.modSes n f).pages = d.pages ∧ (d.modSes n f).lamp = d.lamp ∧
    (d.modSes n f).mot = d.mot ∧ (d.modSes n f).cox = d.cox ∧ (d.modSes n f).cls = d.cls ∧
    (d.modSes n f).cal = d.cal ∧ (d.modSes n f).dma = d.dma ∧ (d.modSes n f).net = d.net ∧
    (d.modSes n f).tim = d.tim ∧ (d.modSes n f).flt = d.flt ∧ (d.modSes n f).pwr = d.pwr ∧
    (d.modSes n f).fsram = d.fsram ∧ (d.modSes n f).tx = d.tx ∧ (d.modSes n f).txHeads = d.txHeads ∧ (∀ i, (d.modSes n f).rd i = d.rd i) := by
  refine ⟨?_, ?_, ?_, ?_, ?_, ?_, ?_, ?_, ?_, ?_, ?_, ?_, ?_, ?_, ?_, ?_, ?_, ?_, ?_, ?_, ?_, ?_, ?_, ?_, ?_, ?_, ?_, ?_, ?_, ?_, fun _ => ?_⟩ <;> rfl

@[simp] theorem Dev.startOp_fields (d : Dev) (h : Req) (op : Op) :
    (d.startOp h op).now = d.now ∧ (d.startOp h op).frees = d.frees ∧ (d.startOp h op).mode = d.mode ∧
    (d.startOp h op).prev = d.prev ∧ (d.startOp h op).trans = d.trans ∧ (d.startOp h op).hold = d.hold ∧
    (d.startOp h op).regs = d.regs ∧ (d.startOp h op).sess = d.sess ∧ (d.startOp h op).opens = d.opens ∧
    (d.startOp h op).jobs = d.jobs ∧ (d.startOp h op).bzl = d.bzl ∧ (d.startOp h op).seq = d.seq ∧
    (d.startOp h op).afe = d.afe ∧ (d.startOp h op).monA = d.monA ∧ (d.startOp h op).monB = d.monB ∧
    (d.startOp h op).clamp = d.clamp ∧ (d.startOp h op).pages = d.pages ∧ (d.startOp h op).lamp = d.lamp ∧
    (d.startOp h op).mot = d.mot ∧ (d.startOp h op).cox = d.cox ∧ (d.startOp h op).cls = d.cls ∧
    (d.startOp h op).cal = d.cal ∧ (d.startOp h op).dma = d.dma ∧ (d.startOp h op).net = d.net ∧
    (d.startOp h op).tim = d.tim ∧ (d.startOp h op).flt = d.flt ∧ (d.startOp h op).pwr = d.pwr ∧
    (d.startOp h op).fsram = d.fsram ∧ (d.startOp h op).tx = d.tx ∧ (d.startOp h op).txHeads = d.txHeads ∧ (∀ i, (d.startOp h op).rd i = d.rd i) := by
  refine ⟨?_, ?_, ?_, ?_, ?_, ?_, ?_, ?_, ?_, ?_, ?_, ?_, ?_, ?_, ?_, ?_, ?_, ?_, ?_, ?_, ?_, ?_, ?_, ?_, ?_, ?_, ?_, ?_, ?_, ?_, fun _ => ?_⟩ <;> rfl

@[simp] theorem Dev.log_fields (d : Dev) (r : FaultRec) (m n : Mode) :
    (d.log r m n).now = d.now ∧ (d.log r m n).frees = d.frees ∧ (d.log r m n).mode = d.mode ∧
    (d.log r m n).prev = d.prev ∧ (d.log r m n).trans = d.trans ∧ (d.log r m n).hold = d.hold ∧
    (d.log r m n).opens = d.opens ∧ (d.log r m n).ops = d.ops ∧ (d.log r m n).bzl.base = d.bzl.base ∧
    (d.log r m n).seq = d.seq ∧ (d.log r m n).afe = d.afe ∧ (d.log r m n).monA = d.monA ∧
    (d.log r m n).monB = d.monB ∧ (d.log r m n).clamp = d.clamp ∧ (d.log r m n).pages = d.pages ∧
    (d.log r m n).lamp = d.lamp ∧ (d.log r m n).mot = d.mot ∧ (d.log r m n).cox = d.cox ∧
    (d.log r m n).cls = d.cls ∧ (d.log r m n).cal = d.cal ∧ (d.log r m n).dma = d.dma ∧
    (d.log r m n).tim = d.tim ∧ (d.log r m n).pwr = d.pwr ∧ (d.log r m n).fsram = d.fsram ∧
    (d.log r m n).regs.shd = d.regs.shd ∧ (d.log r m n).regs.held = d.regs.held ∧
    (d.log r m n).regs.heldBy = d.regs.heldBy ∧ (d.log r m n).regs.com = d.regs.com ∧
    (d.log r m n).regs.sn = d.regs.sn ∧ (d.log r m n).regs.act = d.regs.act ∧
    (d.log r m n).flt = (d.logAdd r m n).flt ∧ (∀ i, i / 65536 ≠ 12 → (d.log r m n).rd i = d.rd i) := by
  have q := quiet_log d r m n
  exact ⟨q.now, q.frees, q.mode, q.prev, q.trans, q.hold, q.opens, q.ops, q.bzl, q.seq, q.afe, q.monA, q.monB, q.clamp,
    q.pages, q.lamp, q.mot, q.cox, q.cls, q.cal, q.dma, q.tim, q.pwr, q.fsram, q.shd, q.held, q.heldBy, q.com, q.sn,
    q.act, q.flt, fun i hi => q.words i hi⟩

@[simp] theorem Dev.logHere_fields (d : Dev) (r : FaultRec) :
    (d.logHere r).now = d.now ∧ (d.logHere r).frees = d.frees ∧ (d.logHere r).mode = d.mode ∧
    (d.logHere r).prev = d.prev ∧ (d.logHere r).trans = d.trans ∧ (d.logHere r).hold = d.hold ∧
    (d.logHere r).opens = d.opens ∧ (d.logHere r).ops = d.ops ∧ (d.logHere r).bzl.base = d.bzl.base ∧
    (d.logHere r).seq = d.seq ∧ (d.logHere r).afe = d.afe ∧ (d.logHere r).monA = d.monA ∧
    (d.logHere r).monB = d.monB ∧ (d.logHere r).clamp = d.clamp ∧ (d.logHere r).pages = d.pages ∧
    (d.logHere r).lamp = d.lamp ∧ (d.logHere r).mot = d.mot ∧ (d.logHere r).cox = d.cox ∧
    (d.logHere r).cls = d.cls ∧ (d.logHere r).cal = d.cal ∧ (d.logHere r).dma = d.dma ∧
    (d.logHere r).tim = d.tim ∧ (d.logHere r).pwr = d.pwr ∧ (d.logHere r).fsram = d.fsram ∧
    (d.logHere r).regs.shd = d.regs.shd ∧ (d.logHere r).regs.held = d.regs.held ∧
    (d.logHere r).regs.heldBy = d.regs.heldBy ∧ (d.logHere r).regs.com = d.regs.com ∧
    (d.logHere r).regs.sn = d.regs.sn ∧ (d.logHere r).regs.act = d.regs.act ∧
    (d.logHere r).flt = (d.logAdd r d.mode d.mode).flt ∧ (∀ i, i / 65536 ≠ 12 → (d.logHere r).rd i = d.rd i) :=
  Dev.log_fields d r d.mode d.mode

@[simp] theorem Dev.elapse_fields (d : Dev) (n : Nat) :
    (d.elapse n).frees = d.frees ∧ (d.elapse n).mode = d.mode ∧ (d.elapse n).prev = d.prev ∧
    (d.elapse n).trans = d.trans ∧ (d.elapse n).hold = d.hold ∧ (d.elapse n).regs = d.regs ∧
    (d.elapse n).sess = d.sess ∧ (d.elapse n).opens = d.opens ∧ (d.elapse n).jobs = d.jobs ∧
    (d.elapse n).ops = d.ops ∧ (d.elapse n).bzl = d.bzl ∧ (d.elapse n).seq = d.seq ∧ (d.elapse n).afe = d.afe ∧
    (d.elapse n).monA = d.monA ∧ (d.elapse n).monB = d.monB ∧ (d.elapse n).clamp = d.clamp ∧
    (d.elapse n).pages = d.pages ∧ (d.elapse n).lamp = d.lamp ∧ (d.elapse n).mot = d.mot ∧
    (d.elapse n).cox = d.cox ∧ (d.elapse n).cls = d.cls ∧ (d.elapse n).cal = d.cal ∧ (d.elapse n).dma = d.dma ∧
    (d.elapse n).net = d.net ∧ (d.elapse n).flt = d.flt ∧ (d.elapse n).pwr = d.pwr ∧ (d.elapse n).fsram = d.fsram ∧
    (d.elapse n).tx = d.tx ∧ (d.elapse n).txHeads = d.txHeads ∧ (∀ i, (d.elapse n).rd i = d.rd i) := by
  refine ⟨?_, ?_, ?_, ?_, ?_, ?_, ?_, ?_, ?_, ?_, ?_, ?_, ?_, ?_, ?_, ?_, ?_, ?_, ?_, ?_, ?_, ?_, ?_, ?_, ?_, ?_, ?_, ?_, ?_, fun _ => ?_⟩ <;> rfl

@[simp] theorem Dev.until_fields (d : Dev) (t : Nat) :
    (d.until_ t).frees = d.frees ∧ (d.until_ t).mode = d.mode ∧ (d.until_ t).prev = d.prev ∧
    (d.until_ t).trans = d.trans ∧ (d.until_ t).hold = d.hold ∧ (d.until_ t).regs = d.regs ∧
    (d.until_ t).sess = d.sess ∧ (d.until_ t).opens = d.opens ∧ (d.until_ t).jobs = d.jobs ∧
    (d.until_ t).ops = d.ops ∧ (d.until_ t).bzl = d.bzl ∧ (d.until_ t).seq = d.seq ∧ (d.until_ t).afe = d.afe ∧
    (d.until_ t).monA = d.monA ∧ (d.until_ t).monB = d.monB ∧ (d.until_ t).clamp = d.clamp ∧
    (d.until_ t).pages = d.pages ∧ (d.until_ t).lamp = d.lamp ∧ (d.until_ t).mot = d.mot ∧
    (d.until_ t).cox = d.cox ∧ (d.until_ t).cls = d.cls ∧ (d.until_ t).cal = d.cal ∧ (d.until_ t).dma = d.dma ∧
    (d.until_ t).net = d.net ∧ (d.until_ t).flt = d.flt ∧ (d.until_ t).pwr = d.pwr ∧ (d.until_ t).fsram = d.fsram ∧
    (d.until_ t).tx = d.tx ∧ (d.until_ t).txHeads = d.txHeads ∧ (∀ i, (d.until_ t).rd i = d.rd i) := by
  refine ⟨?_, ?_, ?_, ?_, ?_, ?_, ?_, ?_, ?_, ?_, ?_, ?_, ?_, ?_, ?_, ?_, ?_, ?_, ?_, ?_, ?_, ?_, ?_, ?_, ?_, ?_, ?_, ?_, ?_, fun _ => ?_⟩ <;> rfl

@[simp] theorem Dev.clrHold_fields (d : Dev) (c : Nat) :
    (d.clrHold c).now = d.now ∧ (d.clrHold c).frees = d.frees ∧ (d.clrHold c).mode = d.mode ∧
    (d.clrHold c).prev = d.prev ∧ (d.clrHold c).trans = d.trans ∧ (d.clrHold c).regs = d.regs ∧
    (d.clrHold c).sess = d.sess ∧ (d.clrHold c).opens = d.opens ∧ (d.clrHold c).jobs = d.jobs ∧
    (d.clrHold c).ops = d.ops ∧ (d.clrHold c).bzl = d.bzl ∧ (d.clrHold c).seq = d.seq ∧ (d.clrHold c).afe = d.afe ∧
    (d.clrHold c).monA = d.monA ∧ (d.clrHold c).monB = d.monB ∧ (d.clrHold c).clamp = d.clamp ∧
    (d.clrHold c).pages = d.pages ∧ (d.clrHold c).lamp = d.lamp ∧ (d.clrHold c).mot = d.mot ∧
    (d.clrHold c).cox = d.cox ∧ (d.clrHold c).cls = d.cls ∧ (d.clrHold c).cal = d.cal ∧ (d.clrHold c).dma = d.dma ∧
    (d.clrHold c).net = d.net ∧ (d.clrHold c).tim = d.tim ∧ (d.clrHold c).flt = d.flt ∧ (d.clrHold c).pwr = d.pwr ∧
    (d.clrHold c).fsram = d.fsram ∧ (d.clrHold c).tx = d.tx ∧ (d.clrHold c).txHeads = d.txHeads ∧ (∀ i, (d.clrHold c).rd i = d.rd i) := by
  refine ⟨?_, ?_, ?_, ?_, ?_, ?_, ?_, ?_, ?_, ?_, ?_, ?_, ?_, ?_, ?_, ?_, ?_, ?_, ?_, ?_, ?_, ?_, ?_, ?_, ?_, ?_, ?_, ?_, ?_, ?_, fun _ => ?_⟩ <;> rfl

@[simp] theorem Dev.modGrp_fields (d : Dev) (g : Nat) (f : Group → Group) :
    (d.modGrp g f).now = d.now ∧ (d.modGrp g f).frees = d.frees ∧ (d.modGrp g f).mode = d.mode ∧
    (d.modGrp g f).prev = d.prev ∧ (d.modGrp g f).trans = d.trans ∧ (d.modGrp g f).hold = d.hold ∧
    (d.modGrp g f).regs = d.regs ∧ (d.modGrp g f).sess = d.sess ∧ (d.modGrp g f).opens = d.opens ∧
    (d.modGrp g f).jobs = d.jobs ∧ (d.modGrp g f).ops = d.ops ∧ (d.modGrp g f).bzl = d.bzl ∧
    (d.modGrp g f).seq = d.seq ∧ (d.modGrp g f).afe = d.afe ∧ (d.modGrp g f).monA = d.monA ∧
    (d.modGrp g f).monB = d.monB ∧ (d.modGrp g f).clamp = d.clamp ∧ (d.modGrp g f).pages = d.pages ∧
    (d.modGrp g f).lamp = d.lamp ∧ (d.modGrp g f).cox = d.cox ∧ (d.modGrp g f).cls = d.cls ∧
    (d.modGrp g f).cal = d.cal ∧ (d.modGrp g f).dma = d.dma ∧ (d.modGrp g f).net = d.net ∧
    (d.modGrp g f).tim = d.tim ∧ (d.modGrp g f).flt = d.flt ∧ (d.modGrp g f).pwr = d.pwr ∧
    (d.modGrp g f).fsram = d.fsram ∧ (d.modGrp g f).tx = d.tx ∧ (d.modGrp g f).txHeads = d.txHeads ∧ (∀ i, (d.modGrp g f).rd i = d.rd i) := by
  refine ⟨?_, ?_, ?_, ?_, ?_, ?_, ?_, ?_, ?_, ?_, ?_, ?_, ?_, ?_, ?_, ?_, ?_, ?_, ?_, ?_, ?_, ?_, ?_, ?_, ?_, ?_, ?_, ?_, ?_, ?_, fun _ => ?_⟩ <;> rfl

@[simp] theorem Dev.modAx_fields (d : Dev) (a : Nat) (f : Axis → Axis) :
    (d.modAx a f).now = d.now ∧ (d.modAx a f).frees = d.frees ∧ (d.modAx a f).mode = d.mode ∧
    (d.modAx a f).prev = d.prev ∧ (d.modAx a f).trans = d.trans ∧ (d.modAx a f).hold = d.hold ∧
    (d.modAx a f).regs = d.regs ∧ (d.modAx a f).sess = d.sess ∧ (d.modAx a f).opens = d.opens ∧
    (d.modAx a f).jobs = d.jobs ∧ (d.modAx a f).ops = d.ops ∧ (d.modAx a f).bzl = d.bzl ∧
    (d.modAx a f).seq = d.seq ∧ (d.modAx a f).afe = d.afe ∧ (d.modAx a f).monA = d.monA ∧
    (d.modAx a f).monB = d.monB ∧ (d.modAx a f).clamp = d.clamp ∧ (d.modAx a f).pages = d.pages ∧
    (d.modAx a f).lamp = d.lamp ∧ (d.modAx a f).cox = d.cox ∧ (d.modAx a f).cls = d.cls ∧
    (d.modAx a f).cal = d.cal ∧ (d.modAx a f).dma = d.dma ∧ (d.modAx a f).net = d.net ∧ (d.modAx a f).tim = d.tim ∧
    (d.modAx a f).flt = d.flt ∧ (d.modAx a f).pwr = d.pwr ∧ (d.modAx a f).fsram = d.fsram ∧
    (d.modAx a f).tx = d.tx ∧ (d.modAx a f).txHeads = d.txHeads ∧ (∀ i, (d.modAx a f).rd i = d.rd i) := by
  refine ⟨?_, ?_, ?_, ?_, ?_, ?_, ?_, ?_, ?_, ?_, ?_, ?_, ?_, ?_, ?_, ?_, ?_, ?_, ?_, ?_, ?_, ?_, ?_, ?_, ?_, ?_, ?_, ?_, ?_, ?_, fun _ => ?_⟩ <;> rfl

@[simp] theorem Dev.modChain_fields (d : Dev) (n : Nat) (f : Chain → Chain) :
    (d.modChain n f).now = d.now ∧ (d.modChain n f).frees = d.frees ∧ (d.modChain n f).mode = d.mode ∧
    (d.modChain n f).prev = d.prev ∧ (d.modChain n f).trans = d.trans ∧ (d.modChain n f).hold = d.hold ∧
    (d.modChain n f).regs = d.regs ∧ (d.modChain n f).sess = d.sess ∧ (d.modChain n f).opens = d.opens ∧
    (d.modChain n f).jobs = d.jobs ∧ (d.modChain n f).ops = d.ops ∧ (d.modChain n f).bzl = d.bzl ∧
    (d.modChain n f).seq = d.seq ∧ (d.modChain n f).afe = d.afe ∧ (d.modChain n f).monA = d.monA ∧
    (d.modChain n f).monB = d.monB ∧ (d.modChain n f).clamp = d.clamp ∧ (d.modChain n f).pages = d.pages ∧
    (d.modChain n f).mot = d.mot ∧ (d.modChain n f).cox = d.cox ∧ (d.modChain n f).cls = d.cls ∧
    (d.modChain n f).cal = d.cal ∧ (d.modChain n f).dma = d.dma ∧ (d.modChain n f).net = d.net ∧
    (d.modChain n f).tim = d.tim ∧ (d.modChain n f).flt = d.flt ∧ (d.modChain n f).pwr = d.pwr ∧
    (d.modChain n f).fsram = d.fsram ∧ (d.modChain n f).tx = d.tx ∧ (d.modChain n f).txHeads = d.txHeads ∧ (∀ i, (d.modChain n f).rd i = d.rd i) := by
  refine ⟨?_, ?_, ?_, ?_, ?_, ?_, ?_, ?_, ?_, ?_, ?_, ?_, ?_, ?_, ?_, ?_, ?_, ?_, ?_, ?_, ?_, ?_, ?_, ?_, ?_, ?_, ?_, ?_, ?_, ?_, fun _ => ?_⟩ <;> rfl

@[simp] theorem Dev.modQuad_fields (d : Dev) (q : Nat) (f : Quad → Quad) :
    (d.modQuad q f).now = d.now ∧ (d.modQuad q f).frees = d.frees ∧ (d.modQuad q f).mode = d.mode ∧
    (d.modQuad q f).prev = d.prev ∧ (d.modQuad q f).trans = d.trans ∧ (d.modQuad q f).hold = d.hold ∧
    (d.modQuad q f).regs = d.regs ∧ (d.modQuad q f).sess = d.sess ∧ (d.modQuad q f).opens = d.opens ∧
    (d.modQuad q f).jobs = d.jobs ∧ (d.modQuad q f).ops = d.ops ∧ (d.modQuad q f).bzl = d.bzl ∧
    (d.modQuad q f).seq = d.seq ∧ (d.modQuad q f).monA = d.monA ∧ (d.modQuad q f).monB = d.monB ∧
    (d.modQuad q f).clamp = d.clamp ∧ (d.modQuad q f).pages = d.pages ∧ (d.modQuad q f).lamp = d.lamp ∧
    (d.modQuad q f).mot = d.mot ∧ (d.modQuad q f).cox = d.cox ∧ (d.modQuad q f).cls = d.cls ∧
    (d.modQuad q f).cal = d.cal ∧ (d.modQuad q f).dma = d.dma ∧ (d.modQuad q f).net = d.net ∧
    (d.modQuad q f).tim = d.tim ∧ (d.modQuad q f).flt = d.flt ∧ (d.modQuad q f).pwr = d.pwr ∧
    (d.modQuad q f).fsram = d.fsram ∧ (d.modQuad q f).tx = d.tx ∧ (d.modQuad q f).txHeads = d.txHeads ∧ (∀ i, (d.modQuad q f).rd i = d.rd i) := by
  refine ⟨?_, ?_, ?_, ?_, ?_, ?_, ?_, ?_, ?_, ?_, ?_, ?_, ?_, ?_, ?_, ?_, ?_, ?_, ?_, ?_, ?_, ?_, ?_, ?_, ?_, ?_, ?_, ?_, ?_, ?_, fun _ => ?_⟩ <;> rfl

@[simp] theorem Dev.modChan_fields (d : Dev) (n : Nat) (f : Chan → Chan) :
    (d.modChan n f).now = d.now ∧ (d.modChan n f).frees = d.frees ∧ (d.modChan n f).mode = d.mode ∧
    (d.modChan n f).prev = d.prev ∧ (d.modChan n f).trans = d.trans ∧ (d.modChan n f).hold = d.hold ∧
    (d.modChan n f).regs = d.regs ∧ (d.modChan n f).sess = d.sess ∧ (d.modChan n f).opens = d.opens ∧
    (d.modChan n f).jobs = d.jobs ∧ (d.modChan n f).ops = d.ops ∧ (d.modChan n f).bzl = d.bzl ∧
    (d.modChan n f).seq = d.seq ∧ (d.modChan n f).afe = d.afe ∧ (d.modChan n f).monA = d.monA ∧
    (d.modChan n f).monB = d.monB ∧ (d.modChan n f).clamp = d.clamp ∧ (d.modChan n f).pages = d.pages ∧
    (d.modChan n f).lamp = d.lamp ∧ (d.modChan n f).mot = d.mot ∧ (d.modChan n f).cox = d.cox ∧
    (d.modChan n f).cls = d.cls ∧ (d.modChan n f).cal = d.cal ∧ (d.modChan n f).net = d.net ∧
    (d.modChan n f).tim = d.tim ∧ (d.modChan n f).flt = d.flt ∧ (d.modChan n f).pwr = d.pwr ∧
    (d.modChan n f).fsram = d.fsram ∧ (d.modChan n f).tx = d.tx ∧ (d.modChan n f).txHeads = d.txHeads ∧ (∀ i, (d.modChan n f).rd i = d.rd i) := by
  refine ⟨?_, ?_, ?_, ?_, ?_, ?_, ?_, ?_, ?_, ?_, ?_, ?_, ?_, ?_, ?_, ?_, ?_, ?_, ?_, ?_, ?_, ?_, ?_, ?_, ?_, ?_, ?_, ?_, ?_, ?_, fun _ => ?_⟩ <;> rfl

@[simp] theorem Dev.modPort_fields (d : Dev) (p : NetPort) (f : Port → Port) :
    (d.modPort p f).now = d.now ∧ (d.modPort p f).frees = d.frees ∧ (d.modPort p f).mode = d.mode ∧
    (d.modPort p f).prev = d.prev ∧ (d.modPort p f).trans = d.trans ∧ (d.modPort p f).hold = d.hold ∧
    (d.modPort p f).regs = d.regs ∧ (d.modPort p f).sess = d.sess ∧ (d.modPort p f).opens = d.opens ∧
    (d.modPort p f).jobs = d.jobs ∧ (d.modPort p f).ops = d.ops ∧ (d.modPort p f).bzl = d.bzl ∧
    (d.modPort p f).seq = d.seq ∧ (d.modPort p f).afe = d.afe ∧ (d.modPort p f).monA = d.monA ∧
    (d.modPort p f).monB = d.monB ∧ (d.modPort p f).clamp = d.clamp ∧ (d.modPort p f).pages = d.pages ∧
    (d.modPort p f).lamp = d.lamp ∧ (d.modPort p f).mot = d.mot ∧ (d.modPort p f).cox = d.cox ∧
    (d.modPort p f).cls = d.cls ∧ (d.modPort p f).cal = d.cal ∧ (d.modPort p f).dma = d.dma ∧
    (d.modPort p f).tim = d.tim ∧ (d.modPort p f).flt = d.flt ∧ (d.modPort p f).pwr = d.pwr ∧
    (d.modPort p f).fsram = d.fsram ∧ (d.modPort p f).tx = d.tx ∧ (d.modPort p f).txHeads = d.txHeads ∧ (∀ i, (d.modPort p f).rd i = d.rd i) := by
  refine ⟨?_, ?_, ?_, ?_, ?_, ?_, ?_, ?_, ?_, ?_, ?_, ?_, ?_, ?_, ?_, ?_, ?_, ?_, ?_, ?_, ?_, ?_, ?_, ?_, ?_, ?_, ?_, ?_, ?_, ?_, fun _ => ?_⟩ <;> rfl

@[simp] theorem Dev.modQp_fields (d : Dev) (n : Nat) (f : Qp → Qp) :
    (d.modQp n f).now = d.now ∧ (d.modQp n f).frees = d.frees ∧ (d.modQp n f).mode = d.mode ∧
    (d.modQp n f).prev = d.prev ∧ (d.modQp n f).trans = d.trans ∧ (d.modQp n f).hold = d.hold ∧
    (d.modQp n f).regs = d.regs ∧ (d.modQp n f).sess = d.sess ∧ (d.modQp n f).opens = d.opens ∧
    (d.modQp n f).jobs = d.jobs ∧ (d.modQp n f).ops = d.ops ∧ (d.modQp n f).bzl = d.bzl ∧
    (d.modQp n f).seq = d.seq ∧ (d.modQp n f).afe = d.afe ∧ (d.modQp n f).monA = d.monA ∧
    (d.modQp n f).monB = d.monB ∧ (d.modQp n f).clamp = d.clamp ∧ (d.modQp n f).pages = d.pages ∧
    (d.modQp n f).lamp = d.lamp ∧ (d.modQp n f).mot = d.mot ∧ (d.modQp n f).cox = d.cox ∧
    (d.modQp n f).cls = d.cls ∧ (d.modQp n f).cal = d.cal ∧ (d.modQp n f).dma = d.dma ∧ (d.modQp n f).tim = d.tim ∧
    (d.modQp n f).flt = d.flt ∧ (d.modQp n f).pwr = d.pwr ∧ (d.modQp n f).fsram = d.fsram ∧
    (d.modQp n f).tx = d.tx ∧ (d.modQp n f).txHeads = d.txHeads ∧ (∀ i, (d.modQp n f).rd i = d.rd i) := by
  refine ⟨?_, ?_, ?_, ?_, ?_, ?_, ?_, ?_, ?_, ?_, ?_, ?_, ?_, ?_, ?_, ?_, ?_, ?_, ?_, ?_, ?_, ?_, ?_, ?_, ?_, ?_, ?_, ?_, ?_, ?_, fun _ => ?_⟩ <;> rfl

@[simp] theorem Dev.modLink_fields (d : Dev) (r : Dir) (f : Link → Link) :
    (d.modLink r f).now = d.now ∧ (d.modLink r f).frees = d.frees ∧ (d.modLink r f).mode = d.mode ∧
    (d.modLink r f).prev = d.prev ∧ (d.modLink r f).trans = d.trans ∧ (d.modLink r f).hold = d.hold ∧
    (d.modLink r f).regs = d.regs ∧ (d.modLink r f).sess = d.sess ∧ (d.modLink r f).opens = d.opens ∧
    (d.modLink r f).jobs = d.jobs ∧ (d.modLink r f).ops = d.ops ∧ (d.modLink r f).seq = d.seq ∧
    (d.modLink r f).afe = d.afe ∧ (d.modLink r f).monA = d.monA ∧ (d.modLink r f).monB = d.monB ∧
    (d.modLink r f).clamp = d.clamp ∧ (d.modLink r f).pages = d.pages ∧ (d.modLink r f).lamp = d.lamp ∧
    (d.modLink r f).mot = d.mot ∧ (d.modLink r f).cox = d.cox ∧ (d.modLink r f).cls = d.cls ∧
    (d.modLink r f).cal = d.cal ∧ (d.modLink r f).dma = d.dma ∧ (d.modLink r f).net = d.net ∧
    (d.modLink r f).tim = d.tim ∧ (d.modLink r f).flt = d.flt ∧ (d.modLink r f).pwr = d.pwr ∧
    (d.modLink r f).fsram = d.fsram ∧ (d.modLink r f).tx = d.tx ∧ (d.modLink r f).txHeads = d.txHeads ∧ (∀ i, (d.modLink r f).rd i = d.rd i) := by
  cases r <;> refine ⟨?_, ?_, ?_, ?_, ?_, ?_, ?_, ?_, ?_, ?_, ?_, ?_, ?_, ?_, ?_, ?_, ?_, ?_, ?_, ?_, ?_, ?_, ?_, ?_, ?_, ?_, ?_, ?_, ?_, ?_, fun _ => ?_⟩ <;> rfl

@[simp] theorem Dev.modDeliv_fields (d : Dev) (f : Deliv → Deliv) :
    (d.modDeliv f).now = d.now ∧ (d.modDeliv f).frees = d.frees ∧ (d.modDeliv f).mode = d.mode ∧
    (d.modDeliv f).prev = d.prev ∧ (d.modDeliv f).trans = d.trans ∧ (d.modDeliv f).hold = d.hold ∧
    (d.modDeliv f).regs = d.regs ∧ (d.modDeliv f).sess = d.sess ∧ (d.modDeliv f).opens = d.opens ∧
    (d.modDeliv f).jobs = d.jobs ∧ (d.modDeliv f).ops = d.ops ∧ (d.modDeliv f).bzl = d.bzl ∧
    (d.modDeliv f).seq = d.seq ∧ (d.modDeliv f).afe = d.afe ∧ (d.modDeliv f).monA = d.monA ∧
    (d.modDeliv f).monB = d.monB ∧ (d.modDeliv f).clamp = d.clamp ∧ (d.modDeliv f).lamp = d.lamp ∧
    (d.modDeliv f).mot = d.mot ∧ (d.modDeliv f).cox = d.cox ∧ (d.modDeliv f).cls = d.cls ∧
    (d.modDeliv f).cal = d.cal ∧ (d.modDeliv f).dma = d.dma ∧ (d.modDeliv f).net = d.net ∧
    (d.modDeliv f).tim = d.tim ∧ (d.modDeliv f).flt = d.flt ∧ (d.modDeliv f).pwr = d.pwr ∧
    (d.modDeliv f).fsram = d.fsram ∧ (d.modDeliv f).tx = d.tx ∧ (d.modDeliv f).txHeads = d.txHeads ∧ (∀ i, (d.modDeliv f).rd i = d.rd i) := by
  refine ⟨?_, ?_, ?_, ?_, ?_, ?_, ?_, ?_, ?_, ?_, ?_, ?_, ?_, ?_, ?_, ?_, ?_, ?_, ?_, ?_, ?_, ?_, ?_, ?_, ?_, ?_, ?_, ?_, ?_, ?_, fun _ => ?_⟩ <;> rfl

@[simp] theorem Dev.modPage_fields (d : Dev) (id : Word) (f : Page → Page) :
    (d.modPage id f).now = d.now ∧ (d.modPage id f).frees = d.frees ∧ (d.modPage id f).mode = d.mode ∧
    (d.modPage id f).prev = d.prev ∧ (d.modPage id f).trans = d.trans ∧ (d.modPage id f).hold = d.hold ∧
    (d.modPage id f).regs = d.regs ∧ (d.modPage id f).sess = d.sess ∧ (d.modPage id f).opens = d.opens ∧
    (d.modPage id f).jobs = d.jobs ∧ (d.modPage id f).ops = d.ops ∧ (d.modPage id f).bzl = d.bzl ∧
    (d.modPage id f).seq = d.seq ∧ (d.modPage id f).afe = d.afe ∧ (d.modPage id f).monA = d.monA ∧
    (d.modPage id f).monB = d.monB ∧ (d.modPage id f).clamp = d.clamp ∧ (d.modPage id f).lamp = d.lamp ∧
    (d.modPage id f).mot = d.mot ∧ (d.modPage id f).cox = d.cox ∧ (d.modPage id f).cls = d.cls ∧
    (d.modPage id f).cal = d.cal ∧ (d.modPage id f).dma = d.dma ∧ (d.modPage id f).net = d.net ∧
    (d.modPage id f).tim = d.tim ∧ (d.modPage id f).flt = d.flt ∧ (d.modPage id f).pwr = d.pwr ∧
    (d.modPage id f).fsram = d.fsram ∧ (d.modPage id f).tx = d.tx ∧ (d.modPage id f).txHeads = d.txHeads ∧ (∀ i, (d.modPage id f).rd i = d.rd i) := by
  refine ⟨?_, ?_, ?_, ?_, ?_, ?_, ?_, ?_, ?_, ?_, ?_, ?_, ?_, ?_, ?_, ?_, ?_, ?_, ?_, ?_, ?_, ?_, ?_, ?_, ?_, ?_, ?_, ?_, ?_, ?_, fun _ => ?_⟩ <;> rfl

end Sys2Proof.Machine
end

