-- ==== Sys2Proof/WellFormed.lean ====
section
/-! DEFINITION. The commands a sender can form: every field within the width its payload or its wire gives it (R49,
R62, R63, R20), every index within the count of the unit it names (R16, R114). -/

namespace Sys2Proof

/-- `n` fits `w` bits. -/
def fits (w n : Nat) : Bool := decide (n < 2 ^ w)

/-- A source address and port fit IPv6 and UDP. -/
def Endpoint.wf (e : Endpoint) : Bool := fits 128 e.ip && fits 16 e.port

/-- A request header: the session number is 16 bits. -/
def Req.wf (h : Req) : Bool := h.src.wf && fits 16 h.session

/-- A MOVE_QUEUE entry: one target for each set mask bit, each 64 bits signed (R63). -/
def MoveReq.wf (m : MoveReq) : Bool :=
  fits 16 m.group && fits 32 m.vmax && fits 32 m.acc && fits 32 m.dec
    && m.targets.length == ((List.range 12).filter (fun i => m.mask.getLsbD i)).length
    && m.targets.all (fun t => decide (-(2 ^ 63) ≤ t ∧ t < 2 ^ 63))

/-- A Bezel frame's header fields (R20). -/
def Frame.wf (f : Frame) : Bool :=
  fits 4 f.typ && fits 16 f.seq && fits 16 f.ack && fits 16 f.len && fits 32 f.offset && fits 32 f.tag

/-- A lane number of a direction (R19). -/
def laneWf (d : Dir) (n : Nat) : Bool := decide (n < match d with | .f2h => 24 | .h2f => 4)

/-- The commands that can be formed. -/
def Instr.wf : Instr → Bool
  | .ping h data => h.wf && decide (data.length ≤ 64)
  | .sessionOpen h ka tok _ => h.wf && fits 32 ka && fits 64 tok
  | .paramRead h a n => h.wf && fits 32 a && fits 16 n
  | .paramWrite h p tail => h.wf && decide (8 ≤ 4 * p.length + tail ∧ 4 * p.length + tail ≤ 8192) && decide (tail < 4)
  | .scanStart h _ _ g => h.wf && fits 16 g
  | .moveQueue h m => h.wf && m.wf
  | .moveModify h g _ v a dc => h.wf && fits 16 g && fits 32 v && fits 32 a && fits 32 dc
  | .moveResume h g => h.wf && fits 16 g
  | .lampLevel h c _ => h.wf && fits 16 c
  | .lampTest h c => h.wf && fits 16 c
  | .calRunAdcCore h u | .calRunAfeOffset h u | .calRunBezelLane h u | .calRunShading h u | .calRunLampAbs h u
  | .calRunVrefTrace h u => h.wf && fits 16 u
  | .calApply h k u e | .calRestore h k u e => h.wf && fits 16 k && fits 16 u && fits 32 e
  | .calStore h k u => h.wf && fits 16 k && fits 16 u
  | .monConvert h i _ => h.wf && fits 16 i
  | .dmaEnqueue h c a => h.wf && fits 16 c && fits 64 a
  | .timeSet h n f => h.wf && fits 64 n && fits 32 f
  | .timeAdjust h o i => h.wf && decide (-(2 ^ 63) ≤ o ∧ o < 2 ^ 63) && fits 64 i
  | .telemetrySubscribe h p _ => h.wf && fits 32 p
  | .keyProvision h k key => h.wf && fits 16 k && key.length == 32
  | .fwBegin h n => h.wf && fits 32 n
  | .fwBlock h o data => h.wf && fits 32 o && decide (1 ≤ data.length ∧ data.length ≤ 8188)
  | .faultLogRead h i n => h.wf && fits 32 i && fits 16 n
  | .skmDatagramReject e _ _ => e.wf
  | .sessionExpire s | .eventResend s _ | .replyCacheExpire s _ | .telemetryTick s => decide (1 ≤ s ∧ s ≤ 64)
  | .bzlIdleRx _ f | .bzlFrameDiscard _ f | .bzlReplay _ f | .strokeFrameRx f | .bzlStatusRx f _ | .bzlEventRx f
  | .bzlCmdRx f _ | .bzlReplyRx f | .bzlTimeRx f => f.wf
  | .bzlLaneFail d n | .bzlLaneDegraded d n _ | .bzlLaneRetrainDone d n | .bzlLaneTestDone d n _
  | .bzlLaneTempRetrain d n => laneWf d n
  | .encEdge e _ _ _ _ | .encIllegal e _ | .encZEdge e _ _ => decide (e < 6)
  | .lanePhaseAcquired n | .laneTransitionLoss n => decide (n < 256)
  | .laneDeadline l m => (l ++ m).all (fun n => decide (n < 256))
  | .wakeComplete t => fits 24 t.f2h && fits 4 t.h2f
  | .adcCheckFail c => decide (c < 64)
  | .adcFaultTakeover q | .adcRotationStep q | .afeOffsetDone q => decide (q < 4)
  | .adcCoreCalDone c _ | .adcCoreProbationEnd c _ | .coreCalInvalid c => decide (c < 68)
  | .clampWindowEnd t g _ => decide (t < 384) && decide (g < 3)
  | .mapSlotCrcCheck m => decide (m < 8)
  | .switchEdge s _ _ _ => decide (s < 18)
  | .switchChatter a | .homeRetry a | .followingError a | .axisResync a => decide (a < 12)
  | .stepWdog g | .profileRestartDone g => decide (g < 4)
  | .filigreeUnitDone e | .filigreeMismatch e => decide (e < 4)
  | .lampShiftEnd c | .lampLatch c | .lampWindowDiag c _ _ _ | .lampProofResult c _ _ | .lampConfirmDone c _ _ _
  | .lampRotDone c _ _ _ | .lampRecordStore c | .lampTestDone c _ _ _ => decide (c < 16)
  | .dmaChainFetch c | .dmaWriteback c _ | .dmaPaceTimer c | .dmaReqWrite _ c _ | .dmaChannelDisable _ c
  | .dmaChannelEnable _ c | .dmaAbort _ c | .dmaErrClear _ c | .dmaWdog c | .dmaChannelRestartDone c
  | .writesArrived c => decide (c < 16)
  | .lockstepMismatch p => decide (p < 5)
  | .udpAckRx e f | .udpNakRx e f => e.wf && decide (1 ≤ f.session ∧ f.session ≤ 64)
  | .qpEnable h s _ | .qpDisable h s => h.wf && decide (1 ≤ s ∧ s ≤ 64)
  | .roceWriteRx s _ _ _ _ | .roceReadRx s _ _ _ _ | .roceBadRequest s _ | .roceNakRx s _ | .roceAckTimeout s
  | .cnpRx s | .cnpRateRecover s => decide (1 ≤ s ∧ s ≤ 64)
  | .pageSessionWordWrite h s o _ => h.wf && decide (1 ≤ s ∧ s ≤ 64) && decide (o < 64)
  | _ => true

end Sys2Proof
end

