-- ==== Sys2Proof/Tests/Slice0.lean ====
section
/-! SUPPORT. Checks of the model's own: ill-formed commands are refused by WellFormed, a few values of the spec's worked
examples, and for every statement with premises a witness that meets them, clause by clause. -/

namespace Sys2Proof.Tests

set_option maxRecDepth 100000
set_option linter.unusedVariables false
set_option Elab.async false

open Sys2Proof Sys2Proof.Machine

/-! Small states. -/

/-- A client. -/
def cl : Endpoint := ⟨0xC0A80001, 5000⟩
/-- A request of session 1. -/
def rq : Req := ⟨cl, .eth0, 1, 7, 2, 0, false⟩
/-- A request without a session. -/
def rq0 : Req := ⟨cl, .eth0, 0, 7, 2, 0, false⟩
/-- A device in a mode, with session 1 open. -/
def dev (m : Mode) : Dev := { mode := m, sess := [(1, { (default : Session) with ep := cl })] }
/-- A state without commands waiting. -/
def st (d : Dev) : State := { d := d }
/-- A job of session 1. -/
def job : Job := { (default : Job) with id := 9, owner := some 1 }
/-- A device with a job. -/
def jdev (m : Mode) : Dev := { dev m with jobs := [job] }
/-- Words set. -/
def w (d : Dev) (l : List (Nat × Nat)) : Dev := l.foldl (fun d x => d.put x.1 x.2) d
/-- Group 0 set. -/
def grp0 (d : Dev) (g : Group) : Dev := { d with mot := { d.mot with groups := [g, {}, {}, {}] } }
/-- Axis 0 set. -/
def ax0 (d : Dev) (a : Axis) : Dev := { d with mot := { d.mot with axes := a :: List.replicate 11 {} } }
/-- A move of axis 0. -/
def mv : Move :=
  { (default : Move) with
    id := 5, vmax := 1000, acc := 100, dec := 100, target := [(0, 100)], start := [(0, 0)], session := 1 }
/-- Axis 0 enabled in group 0. -/
def en0 : List (Nat × Nat) := [(Reg.MOT_A_CFG 0, 0x80000000), (Reg.MOT_G_CFG 0, 1)]
/-- A frame. -/
def fr0 : Frame := { sealFrame (newFrame 1 0 []) with first := true }

/-! Ill-formed commands are refused. -/

theorem test_wf_good : Instr.wf (.ping rq [1, 2]) = true := by decide
theorem test_wf_source_port : Instr.wf (.sessionClose { rq with src := ⟨0, 65536⟩ }) = true ∧
    Instr.wf (.ping { rq with src := ⟨0, 65536⟩ } []) = false := by decide
theorem test_wf_header_session : Instr.wf (.ping { rq with session := 65536 } []) = false := by decide
theorem test_wf_ping_length : Instr.wf (.ping rq (List.replicate 65 0)) = false := by decide
theorem test_wf_requests : Instr.wf (.sessionOpen rq (2 ^ 32) 0 0) = false ∧ Instr.wf (.sessionOpen rq 0 (2 ^ 64) 0) = false ∧
    Instr.wf (.paramRead rq (2 ^ 32) 1) = false ∧ Instr.wf (.paramRead rq 0 65536) = false ∧
    Instr.wf (.paramWrite rq [] 0) = false ∧ Instr.wf (.paramWrite rq [0, 4, 0] 4) = false ∧
    Instr.wf (.scanStart rq 1 0 65536) = false ∧ Instr.wf (.monConvert rq 65536 0) = false ∧
    Instr.wf (.timeSet rq (2 ^ 64) 0) = false ∧ Instr.wf (.timeAdjust rq (2 ^ 63) 0) = false ∧
    Instr.wf (.telemetrySubscribe rq (2 ^ 32) 0) = false ∧ Instr.wf (.keyProvision rq 0 []) = false ∧
    Instr.wf (.fwBegin rq (2 ^ 32)) = false ∧ Instr.wf (.fwBlock rq 0 []) = false ∧
    Instr.wf (.faultLogRead rq 0 65536) = false ∧ Instr.wf (.dmaEnqueue rq 0 (2 ^ 64)) = false := by decide
theorem test_wf_moves : Instr.wf (.moveQueue rq ⟨0, 0, 1, 1, 1, 1, 1, []⟩) = false ∧
    Instr.wf (.moveQueue rq ⟨0, 0, 1, 1, 1, 1, 1, [2 ^ 63]⟩) = false ∧ Instr.wf (.moveModify rq 65536 0 0 0 0) = false ∧
    Instr.wf (.moveResume rq 65536) = false ∧ Instr.wf (.lampLevel rq 65536 0) = false ∧
    Instr.wf (.lampTest rq 65536) = false := by decide
theorem test_wf_calibration : Instr.wf (.calRunShading rq 65536) = false ∧ Instr.wf (.calApply rq 0 0 (2 ^ 32)) = false ∧
    Instr.wf (.calStore rq 65536 0) = false := by decide
theorem test_wf_sessions : Instr.wf (.sessionExpire 0) = false ∧ Instr.wf (.telemetryTick 65) = false ∧
    Instr.wf (.cnpRx 0) = false ∧ Instr.wf (.udpAckRx cl ⟨65, 0, 0, [], 0⟩) = false ∧ Instr.wf (.qpEnable rq 0 0) = false ∧
    Instr.wf (.pageSessionWordWrite rq 1 64 0) = false := by decide
theorem test_wf_frames : Instr.wf (.strokeFrameRx { fr0 with seq := 65536 }) = false ∧
    Instr.wf (.bzlLaneFail .f2h 24) = false ∧ Instr.wf (.bzlLaneFail .h2f 4) = false := by decide
theorem test_wf_units : Instr.wf (.encEdge 6 true true 0 0) = false ∧ Instr.wf (.lanePhaseAcquired 256) = false ∧
    Instr.wf (.laneDeadline [256] []) = false ∧ Instr.wf (.adcCheckFail 64) = false ∧
    Instr.wf (.adcRotationStep 4) = false ∧ Instr.wf (.adcCoreCalDone 68 true) = false ∧
    Instr.wf (.clampWindowEnd 384 0 0) = false ∧ Instr.wf (.mapSlotCrcCheck 8) = false ∧
    Instr.wf (.switchEdge 18 true 0 0) = false ∧ Instr.wf (.homeRetry 12) = false ∧ Instr.wf (.stepWdog 4) = false ∧
    Instr.wf (.filigreeUnitDone 4) = false ∧ Instr.wf (.lampLatch 16) = false ∧ Instr.wf (.dmaChainFetch 16) = false ∧
    Instr.wf (.lockstepMismatch 5) = false := by decide

/-! Values of the spec. -/

/-- ISO 14495-1's own worked example (Annex H, a 4 by 4 image of one component), byte for byte (R192). -/
theorem test_jpegls_example :
    (Sys2Proof.Machine.jpegLs 8 0 [[[0, 0, 90, 74], [68, 50, 43, 205], [64, 145, 145, 145], [100, 145, 145, 145]]]).map
      BitVec.toNat =
    [255, 216, 255, 247, 0, 11, 8, 0, 4, 0, 4, 1, 1, 17, 0, 255, 218, 0, 8,
     1, 1, 0, 0, 0, 0, 192, 0, 0, 108, 128, 32, 142, 1, 192, 0, 0, 87, 64,
     0, 0, 110, 230, 0, 0, 1, 188, 24, 0, 0, 5, 216, 0, 0, 145, 96, 255, 217] := by decide +kernel

/-- The grid of the trailer example of 05: G(7) = 1,000,118 + 34,953 / 65,536. -/
theorem test_grid_point : gridOn 7 [(0, 1000000 * 65536, 16 * 65536 + 61167)] = 1000118 * 65536 + 34953 := by decide
/-- FLAGS of the trailer example of 05: OVR and SUSPECT. -/
theorem test_trailer_flags : trailerFlags true true false false false false false false = 3 := by decide
/-- F4 and F6 of the pixel example of 05. -/
theorem test_pixel_gains : rsh ((45803 - 1024) * 18432) 14 = 50376 ∧ rsh (50064 * 19600) 14 = 59891 := by decide
/-- t_rx of the Sync of the PTP example of 12: 5,000,000,023.26 ns. -/
theorem test_ptp_receive :
    (w (dev .idle) [(Reg.TIM_PTP_CTRL, 0xA1000000), (Reg.TIM_PTP_LAT, 0x3C)]).tRx (5000000742 * 2 ^ 32) 412 320 * 100
    / 2 ^ 32 = 500000002326 := by decide +kernel
/-- The second Sync of that example, read 627.2 ns late, is discarded; the first is not. -/
theorem test_ptp_late : lateL 980 = true ∧ lateL 412 = false := by decide
/-- DEV_MODE of the example of 02: SCAN after nine mode changes, the previous mode IDLE, without a job. -/
theorem test_mode_word : ({ dev .scan with prev := .idle, trans := 9 } : Dev).modeWord = 0x00090046 := by decide
/-- A block of 2,047 words from 0x0010 reaches offsets not assigned (02): BAD_ADDRESS. -/
theorem test_read_beyond_page : (exec (.paramRead rq 0x10 2047) (st (dev .scan)) |> fun
    | .next t => (t.d.ses? 1).bind (fun x => x.cache.head?)
    | _ => none) = some ⟨7, 0x10, stBadAddress, []⟩ := by decide +kernel
/-- The reset words of R10's tables for three registers. -/
theorem test_reset_words : State.reset.d.rd Reg.SEQ_DIV_INT = 0x10 ∧ State.reset.d.rd Reg.COX_HWM = 0x2000 ∧
    State.reset.d.rd Reg.FLT_ESC_WIN = 60 := by decide +kernel
/-- Commands run first in, first out. -/
theorem test_queue_order : (step { pending := [.catchStroke 5, .lampPreload] } |> fun
    | .next t => t.pending
    | _ => []) = [.lampPreload] := by decide +kernel

/-! Premises met. -/

theorem ready_of {h : Req} {d : Dev}
    (hh : (d.served && d.flt.recs.all (fun x => !ofRuntime x) && !h.flags.getLsbD 0 && !h.flags.getLsbD 2 && !badHeader h && !h.rsv && (match d.ses? h.session with
    | some x => decide (h.src = x.ep) && (x.cache.find? (fun c => c.seq == h.seq)).isNone
    | none => false)) = true) : Ready h d := by
  simp only [Bool.and_eq_true, Bool.not_eq_true'] at hh
  obtain ⟨⟨⟨⟨⟨⟨h1, h0⟩, f0⟩, f2⟩, h2⟩, h3⟩, h4⟩ := hh
  refine ⟨h1, h0, f0, f2, h2, h3, ?_⟩
  cases hx : d.ses? h.session with
  | none => rw [hx] at h4; cases h4
  | some x =>
    rw [hx] at h4
    simp only [Bool.and_eq_true, decide_eq_true_eq, Option.isNone_iff_eq_none] at h4
    exact ⟨x, rfl, h4.1, h4.2⟩

theorem linkLocal_ne (p : NetPort) : 0 ≠ linkLocal p := by
  have h : ∀ a b c e : Nat, 0 < a → 0 ≠ a + b + c + e := fun _ _ _ _ h => by omega
  simp only [linkLocal]
  exact h _ _ _ _ (by norm_num)

theorem nth_all {α : Type} [Inhabited α] {p : α → Prop} {l : List α} (hd : p default) (h : ∀ x ∈ l, p x) (i : Nat) :
    p (nth l i) := by
  unfold nth
  rw [List.getD_eq_getElem?_getD]
  cases hi : l[i]? with
  | none => exact hd
  | some x => exact h x (List.mem_of_getElem? hi)

theorem home_of {d : Dev} (h : ∀ x ∈ d.mot.axes, x.home = none) (a : Nat) : (d.ax a).home = none :=
  nth_all (p := fun (x : Axis) => x.home = none) rfl h a

theorem rest_of {d : Dev} (h : ∀ x ∈ d.mot.axes, x.home = none ∧ x.rate = 0) (a : Nat) :
    (d.ax a).home = none ∧ (d.ax a).rate = 0 :=
  nth_all (p := fun (x : Axis) => x.home = none ∧ x.rate = 0) ⟨rfl, rfl⟩ h a

theorem feed_of {d : Dev} (h : ∀ g ∈ d.feed.toList, ∀ a ∈ d.groupAxes g, (d.ax a).valid = true) (g : Nat)
    (hg : d.feed = some g) : ∀ a ∈ d.groupAxes g, (d.ax a).valid = true := h g (by simp [hg])

theorem moveOk_of {d : Dev} {n : Nat} {m : MoveReq}
    (h : ((d.mode ≠ .standby ∧ d.mode ≠ .wake ∧ d.mode ≠ .reset ∧ d.mode ≠ .safe) ∧
      (m.mflags &&& 0xFFFC#16 = 0 ∧ m.mask &&& 0xF000#16 = 0) ∧ (m.group < 4 ∧ m.group < d.mot.groups.length) ∧
      d.rf (Reg.MOT_G_CFG m.group) 0 0 = 1 ∧ (∀ a ∈ d.groupAxes m.group, (d.ax a).home = none) ∧
      (maskAxes m.mask ≠ [] ∧ ∀ a ∈ maskAxes m.mask, a ∈ d.groupAxes m.group)) ∧
      (m.mflags.getLsbD 0 = true ∨ ∀ a ∈ maskAxes m.mask, (d.ax a).valid = true) ∧
      m.targets.length = (maskAxes m.mask).length ∧
      (0 < m.vmax ∧ m.vmax ≤ 5000000 ∧ m.acc ≠ 0 ∧ m.dec ≠ 0 ∧ d.overVlim (d.entryOf n m) m.vmax = false) ∧
      (∀ t ∈ (d.entryOf n m).target, -(2 ^ 63) ≤ t.2 ∧ t.2 < 2 ^ 63) ∧
      (∀ y ∈ (d.grp m.group).entries, y.id ≠ m.moveId)) : MoveOk d n m :=
  ⟨h.1.1, h.1.2.1, h.1.2.2.1, h.1.2.2.2.1, h.1.2.2.2.2.1, h.1.2.2.2.2.2, h.2.1, h.2.2.1, h.2.2.2.1, h.2.2.2.2.1,
    h.2.2.2.2.2⟩

theorem staged_big (f : Frame) (h : f.payload.length = 800000) :
    3 * 1048576 ≤ 4 * (st { bzl := { stage := [f] } }).d.staged := by
  simp [st, Dev.staged, sumN, h]

namespace W.IdleStepTicks
theorem wit_IdleStepTicks :
    (∃ (s : State), s.pending = [] ∧ s.d.tim.slew = 0) :=
  ⟨(st (dev .off)), by decide +kernel⟩
end W.IdleStepTicks

namespace W.MemoryFormKept
theorem wit_MemoryFormKept :
    (∃ (s : State) (t : State), MemInv s ∧ step s = .next t) :=
  ⟨{}, _, rfl, rfl⟩
end W.MemoryFormKept

namespace W.ReadOnlyRequests
theorem wit_ReadOnlyRequests :
    (∃ (h : Req) (data : List Byte) (s : State), s.d.served = true ∧ h.flags.getLsbD 0 = false ∧ h.flags.getLsbD 2 =
      false ∧ h.session = 0 ∧ badHeader h = false ∧ h.rsv = false) ∧
    (∃ (h : Req) (s : State), Ready h s.d) ∧
    (∃ (h : Req) (s : State), Ready h s.d) ∧
    (∃ (h : Req) (first : Nat) (count : Nat) (s : State), Ready h s.d ∧ 1 ≤ count ∧ count ≤ 127) :=
  ⟨⟨rq0, [], (st (dev .standby)), by decide +kernel⟩,
   ⟨rq, (st (dev .standby)), ready_of (by decide +kernel)⟩,
   ⟨rq, (st (dev .standby)), ready_of (by decide +kernel)⟩,
   ⟨rq, 0, 1, (st (dev .standby)), ready_of (by decide +kernel), by decide +kernel⟩⟩
end W.ReadOnlyRequests

namespace W.SessionOpens
theorem wit_SessionOpens :
    (∃ (h : Req) (ka : Nat) (tag : Word) (n : Nat) (s : State), s.d.served = true ∧ h.flags.getLsbD 0 = false ∧
      h.flags.getLsbD 2 = false ∧ h.session = 0 ∧ badHeader h = false ∧ h.rsv = false ∧ s.d.openRecord h tag = none ∧
      s.d.freeSlot = some n) ∧
    (∃ (h : Req) (ka : Nat) (tag : Word) (n : Nat) (s : State) (token : Nat), s.d.served = true ∧ h.flags.getLsbD 0 =
      false ∧ h.flags.getLsbD 2 = false ∧ h.session = 0 ∧ badHeader h = false ∧ h.rsv = false ∧ s.d.openRecord h tag
      = none ∧ s.d.freeSlot = some n ∧ token ≠ 0 ∧ s.d.tokenJob token = none) ∧
    (∃ (h : Req) (ka : Nat) (tag : Word) (n : Nat) (s : State) (token : Nat) (j : Job), s.d.served = true ∧
      h.flags.getLsbD 0 = false ∧ h.flags.getLsbD 2 = false ∧ h.session = 0 ∧ badHeader h = false ∧ h.rsv = false ∧
      s.d.openRecord h tag = none ∧ s.d.freeSlot = some n ∧ token ≠ 0 ∧ s.d.tokenJob token = some j) :=
  ⟨⟨rq0, 0, 0, 1,
     (st { dev .scan with sess := [], jobs := [{ job with token := 1, owner := none, evq := [⟨5, 0, 0, [1]⟩] }] }),
     by decide +kernel⟩,
   ⟨rq0, 0, 0, 1,
     (st { dev .scan with sess := [], jobs := [{ job with token := 1, owner := none, evq := [⟨5, 0, 0, [1]⟩] }] }),
     2, by decide +kernel⟩,
   ⟨rq0, 0, 0, 1,
     (st { dev .scan with sess := [], jobs := [{ job with token := 1, owner := none, evq := [⟨5, 0, 0, [1]⟩] }] }),
     1, { job with token := 1, owner := none, evq := [⟨5, 0, 0, [1]⟩] }, by decide +kernel⟩⟩
end W.SessionOpens

namespace W.SessionEnds
theorem wit_SessionEnds :
    (∃ (h : Req) (s : State), Ready h s.d) ∧
    (∃ (n : Nat) (s : State), s.d.served = true ∧ (s.d.ses? n).isSome = true) :=
  ⟨⟨rq, (st (dev .standby)), ready_of (by decide +kernel)⟩,
   ⟨1, (st (dev .standby)), by decide +kernel⟩⟩
end W.SessionEnds

namespace W.EventsAndReplies
theorem wit_EventsAndReplies :
    (∃ (h : Req) (x : Session) (s : State), s.d.served = true ∧ s.d.ses? h.session = some x ∧ h.src = x.ep ∧ h.rsv =
      false ∧ x.evLost = 0) ∧
    (∃ (n : Nat) (q : Word) (x : Session) (e : Ev) (s : State), s.d.served = true ∧ s.d.ses? n = some x ∧ (List.find?
      (fun (e : Ev) => e.sent && e.seq == q) x.evq = some e)) :=
  ⟨⟨rq, { (default : Session) with ep := cl, evq := [⟨1, 0, 7, 0, 0, 0, 0, [], true⟩] },
     (st { dev .idle with sess := [(1, { (default : Session) with ep := cl, evq := [⟨1, 0, 7, 0, 0, 0, 0, [], true⟩] })] }),
     by decide +kernel⟩,
   ⟨1, 7, { (default : Session) with ep := cl, evq := [⟨1, 0, 7, 0, 0, 0, 0, [], true⟩] }, ⟨1, 0, 7, 0, 0, 0, 0, [],
     true⟩,
     (st { dev .idle with sess := [(1, { (default : Session) with ep := cl, evq := [⟨1, 0, 7, 0, 0, 0, 0, [], true⟩] })] }),
     by decide +kernel⟩⟩
end W.EventsAndReplies

namespace W.TelemetryAndLateRequests
theorem wit_TelemetryAndLateRequests :
    (∃ (h : Req) (period : Nat) (mask : Word) (s : State), Ready h s.d ∧ (period = 0 ∨ 10 ≤ period ∧ period ≤ 10000 ∧
      mask ≠ 0 ∧ BitVec.toNat mask < 1024)) ∧
    (∃ (h : Req) (period : Nat) (mask : Word) (s : State), Ready h s.d ∧ (1 ≤ period ∧ period ≤ 9 ∨ 10000 < period ∨
      period ≠ 0 ∧ (mask = 0 ∨ 1024 ≤ BitVec.toNat mask))) ∧
    (∃ (n : Nat) (x : Session) (s : State), s.d.served = true ∧ s.d.ses? n = some x ∧ x.telPeriod ≠ 0) ∧
    (∃ (src : Endpoint) (port : NetPort) (bytes : List Byte) (s : State), s.d.served = true ∧ (bytes.length < 20 ∨
      getBe bytes 0 1 ≠ 167 ∨ crc32c (List.take (bytes.length - 4) bytes) ≠ w32 (getBe bytes (bytes.length - 4) 4))) ∧
    (∃ (h : Req) (op : Nat) (s : State), Ready h s.d ∧ opcodes.contains op = true ∧ op ≠ 1 ∧ op ≠ 2 ∧ s.d.dma.fences
      = []) :=
  ⟨⟨rq, 0, 0, (st (dev .idle)), ready_of (by decide +kernel), by decide +kernel⟩,
   ⟨rq, 1, 0, (st (dev .idle)), ready_of (by decide +kernel), by decide +kernel⟩,
   ⟨1, { (default : Session) with ep := cl, telPeriod := 10, telMask := 3 },
     (st { dev .scan with sess := [(1, { (default : Session) with ep := cl, telPeriod := 10, telMask := 3 })] }),
     by decide +kernel⟩,
   ⟨default, default, [], (st (dev .idle)), by decide +kernel⟩,
   ⟨rq, 0x21, (st (dev .idle)), ready_of (by decide +kernel), by decide +kernel⟩⟩
end W.TelemetryAndLateRequests

namespace W.KeyAndFirmware
theorem wit_KeyAndFirmware :
    (∃ (h : Req) (key : List Byte) (s : State), Ready h s.d ∧ (s.d.mode = Mode.standby ∨ s.d.mode = Mode.idle) ∧
      s.d.jobHeld = false ∧ s.d.pages.list = [] ∧ ((key.any fun (x : Byte) => x != 0) = true)) ∧
    (∃ (h : Req) (key : List Byte) (s : State), Ready h s.d ∧ (s.d.mode = Mode.standby ∨ s.d.mode = Mode.idle) ∧
      s.d.jobHeld = false ∧ s.d.pages.list = [] ∧ ((key.all fun (x : Byte) => x == 0) = true)) ∧
    (∃ (h : Req) (len : Nat) (s : State), Ready h s.d ∧ s.d.pwr.fw = none) ∧
    (∃ (h : Req) (len : Nat) (ofs : Nat) (data : List Byte) (s : State), Ready h s.d ∧ s.d.pwr.fw = some (h.session,
      len) ∧ s.d.pwr.fwBusy = false ∧ ofs + data.length ≤ len) ∧
    (∃ (h : Req) (len : Nat) (s : State), Ready h s.d ∧ s.d.pwr.fw = some (h.session, len) ∧ s.d.pwr.fwBusy = false) ∧
    (∃ (n : Nat) (len : Nat) (s : State), s.d.pwr.fw = some (n, len) ∧ s.d.pwr.fwBusy = true) :=
  ⟨⟨rq, (List.replicate 16 1), (st (dev .idle)), ready_of (by decide +kernel), by decide +kernel⟩,
   ⟨rq, (List.replicate 16 0), (st (dev .idle)), ready_of (by decide +kernel), by decide +kernel⟩,
   ⟨rq, 1, (st (dev .idle)), ready_of (by decide +kernel), by decide +kernel⟩,
   ⟨rq, 64, 1, (List.replicate 16 0), (st { dev .idle with pwr := { fw := some (1, 64) } }),
     ready_of (by decide +kernel), by decide +kernel⟩,
   ⟨rq, 64, (st { dev .idle with pwr := { fw := some (1, 64) } }), ready_of (by decide +kernel), by decide +kernel⟩,
   ⟨1, 64, (st { dev .idle with pwr := { fw := some (1, 64), fwBusy := true }, ops := [⟨.fwCommit, 1, 3⟩] }),
     by decide +kernel⟩⟩
end W.KeyAndFirmware

namespace W.ModeSetRequests
theorem wit_ModeSetRequests :
    (∃ (h : Req) (s : State), Ready h s.d ∧ (s.d.mode = Mode.idle ∨ s.d.mode = Mode.safe ∨ s.d.mode = Mode.wake)) ∧
    (∃ (h : Req) (s : State), Ready h s.d ∧ s.d.mode = Mode.standby ∧ 3 ≤ s.d.bzl.goodStatus) ∧
    (∃ (h : Req) (s : State), Ready h s.d ∧ (s.d.mode = Mode.calibrate ∨ s.d.mode = Mode.service)) ∧
    (∃ (h : Req) (s : State), Ready h s.d ∧ s.d.mode = Mode.idle) ∧
    (∃ (h : Req) (s : State), Ready h s.d ∧ s.d.mode = Mode.idle) ∧
    (∃ (h : Req) (s : State), Ready h s.d) :=
  ⟨⟨rq, (st (dev .idle)), ready_of (by decide +kernel), by decide +kernel⟩,
   ⟨rq, (st { dev .standby with bzl := { goodStatus := 3 } }), ready_of (by decide +kernel), by decide +kernel⟩,
   ⟨rq, (st (dev .service)), ready_of (by decide +kernel), by decide +kernel⟩,
   ⟨rq, (st (dev .idle)), ready_of (by decide +kernel), by decide +kernel⟩,
   ⟨rq, (st (dev .idle)), ready_of (by decide +kernel), by decide +kernel⟩,
   ⟨rq, (st (dev .idle)), ready_of (by decide +kernel)⟩⟩
end W.ModeSetRequests

namespace W.JobRequests
def scn : Dev := grp0 (ax0 (w { dev .idle with pages := { key := some [1] } } (en0 ++
  [(Reg.PAGE_S_DELIV 0, 2), (Reg.SEQ_H_CTRL 0, 1), (Reg.SEQ_H_RAW 0, 64)])) { valid := true }) { drive := some true }
theorem wit_JobRequests :
    (∃ (h : Req) (job : Word) (page : Word) (g : Nat) (s : State), Ready h s.d ∧ s.d.scanCheck h.session job g = stOk) ∧
    (∃ (h : Req) (s : State), Ready h s.d ∧ s.d.mode = Mode.scan ∧ s.d.openList ≠ [] ∧ s.d.pages.stopPages = none) ∧
    (∃ (h : Req) (s : State), Ready h s.d ∧ (s.d.mode = Mode.scan ∨ s.d.mode = Mode.splice)) ∧
    (∃ (h : Req) (s : State), Ready h s.d ∧ s.d.mode = Mode.hold) ∧
    (∃ (h : Req) (s : State), Ready h s.d ∧ (∀ (g : Nat), s.d.feed = some g → ∀ a ∈ s.d.groupAxes g, (s.d.ax a).valid
      = true) ∧ s.d.mode = Mode.hold ∧ s.d.pwr.gridLost = false) ∧
    (∃ (h : Req) (s : State), Ready h s.d ∧ s.d.mode = Mode.hold ∧ s.d.pwr.gridLost = true) ∧
    (∃ (h : Req) (j : Job) (s : State), Ready h s.d ∧ s.d.jobMode = true ∧ s.d.job? = some j) :=
  ⟨⟨rq, 9, 9, 0, (st scn), ready_of (by decide +kernel), by decide +kernel⟩,
   ⟨rq, (st { jdev .scan with pages := { list := [{ (default : Page) with job := 9 }] } }),
     ready_of (by decide +kernel), by decide +kernel⟩,
   ⟨rq, (st (jdev .scan)), ready_of (by decide +kernel), by decide +kernel⟩,
   ⟨rq, (st (jdev .hold)), ready_of (by decide +kernel), by decide +kernel⟩,
   ⟨rq, (st (jdev .hold)), ready_of (by decide +kernel), feed_of (by decide +kernel), by decide +kernel⟩,
   ⟨rq, (st { jdev .hold with pwr := { gridLost := true } }), ready_of (by decide +kernel), by decide +kernel⟩,
   ⟨rq, job, (st (jdev .scan)), ready_of (by decide +kernel), by decide +kernel⟩⟩
end W.JobRequests

namespace W.ParamReadAndSnapshots
theorem wit_ParamReadAndSnapshots :
    (∃ (h : Req) (addr : Nat) (count : Nat) (s : State), Ready h s.d ∧ addr < 2 ^ 24 ∧ 1 ≤ count ∧ count ≤ 2047 ∧
      blockOk addr count = true) ∧
    (∃ (h : Req) (s : State), Ready h s.d) ∧
    (∃ (h : Req) (s : State), Ready h s.d) ∧
    (∃ (h : Req) (s : State), Ready h s.d) ∧
    (∃ (h : Req) (v : Word) (s : State), Ready h s.d ∧ aget s.d.regs.sn (h.session * 2 ^ 24 + Reg.TIM_NS_HI) = some v) :=
  ⟨⟨rq, 0, 1, (st (dev .idle)), ready_of (by decide +kernel), by decide +kernel⟩,
   ⟨rq, (st (dev .idle)), ready_of (by decide +kernel)⟩,
   ⟨rq, (st (dev .idle)), ready_of (by decide +kernel)⟩,
   ⟨rq, (st (dev .idle)), ready_of (by decide +kernel)⟩,
   ⟨rq, 9, (st { dev .scan with regs := { sn := [(1 * 2 ^ 24 + Reg.TIM_NS_HI, 9)] } }), ready_of (by decide +kernel),
     by decide +kernel⟩⟩
end W.ParamReadAndSnapshots

namespace W.ParamWrite
theorem wit_ParamWrite :
    (∃ (h : Req) (payload : List Word) (tail : Nat) (s : State), Ready h s.d ∧ (s.d.packetCheck h.session (wrecs tail
      payload.length 0 payload)).1 ≠ stOk) ∧
    (∃ (h : Req) (payload : List Word) (tail : Nat) (s : State), Ready h s.d ∧ (s.d.packetCheck h.session (wrecs tail
      payload.length 0 payload)).1 = stOk) ∧
    (∃ (h : Req) (payload : List Word) (tail : Nat) (s : State), Ready h s.d ∧ (s.d.packetCheck h.session (wrecs tail
      payload.length 0 payload)).1 = stOk ∧ (∀ w ∈ wrecs tail payload.length 0 payload, hasEffect w.addr = false)) ∧
    (∃ (h : Req) (v : Word) (s : State), Ready h s.d ∧ 1 ≤ BitVec.toNat v ∧ BitVec.toNat v ≤ 3600) ∧
    (∃ (h : Req) (v : Word) (s : State), Ready h s.d ∧ (BitVec.toNat v = 0 ∨ 3600 < BitVec.toNat v)) ∧
    (∃ (h : Req) (v : Word) (s : State), Ready h s.d ∧ 64 ≤ BitVec.toNat v ∧ BitVec.toNat v ≤ 51200) ∧
    (∃ (h : Req) (v : Word) (s : State), Ready h s.d) :=
  ⟨⟨rq, [], 1, (st (dev .standby)), ready_of (by decide +kernel), by decide +kernel⟩,
   ⟨rq, [], 0, (st (dev .standby)), ready_of (by decide +kernel), by decide +kernel⟩,
   ⟨rq, [], 0, (st (dev .standby)), ready_of (by decide +kernel), by decide +kernel⟩,
   ⟨rq, 5, (st (dev .standby)), ready_of (by decide +kernel), by decide +kernel⟩,
   ⟨rq, 0, (st (dev .standby)), ready_of (by decide +kernel), by decide +kernel⟩,
   ⟨rq, 100, (st (dev .standby)), ready_of (by decide +kernel), by decide +kernel⟩,
   ⟨rq, 0, (st (dev .standby)), ready_of (by decide +kernel)⟩⟩
end W.ParamWrite

namespace W.CommitAndDiscard
theorem wit_CommitAndDiscard :
    (∃ (h : Req) (s : State), Ready h s.d) ∧
    (∃ (h : Req) (s : State), Ready h s.d ∧ s.d.regs.com = none ∧ s.d.regs.shd = []) ∧
    (∃ (h : Req) (s : State), Ready h s.d ∧ s.d.regs.com = none ∧ s.d.staged? ≠ [] ∧ (s.d.commitCheck (s.d.comOf
      s.d.staged?)).1 = stOk ∧ (s.d.mode = Mode.scan ∨ s.d.mode = Mode.splice)) ∧
    (∃ (h : Req) (s : State), Ready h s.d ∧ s.d.regs.com ≠ none) ∧
    (∃ (h : Req) (s : State), Ready h s.d ∧ s.d.regs.com = none ∧ s.d.staged? ≠ [] ∧ (s.d.commitCheck (s.d.comOf
      s.d.staged?)).1 ≠ stOk) ∧
    (∃ (h : Req) (v : Word) (s : State), Ready h s.d ∧ s.d.mode = Mode.idle ∧ s.d.regs.com = none ∧ s.d.regs.held =
      [] ∧ s.d.regs.shd = [(Reg.PWR_LAMP_KT 0, v)] ∧ BitVec.toNat v ≤ 1000 ∧ BitVec.toNat v ≠ s.d.rd (Reg.PWR_LAMP_KT
      0) ∧ (∀ c ∈ s.d.dma.ch, c.st = DSt.idle)) :=
  ⟨⟨rq, (st (dev .idle)), ready_of (by decide +kernel)⟩,
   ⟨rq, (st (dev .idle)), ready_of (by decide +kernel), by decide +kernel⟩,
   ⟨rq, (st { dev .scan with regs := { shd := [(Reg.PWR_LAMP_KT 0, 5)] } }), ready_of (by decide +kernel),
     by decide +kernel⟩,
   ⟨rq, (st { dev .splice with regs := { com := some ⟨[], 1, 2⟩ } }), ready_of (by decide +kernel), by decide +kernel⟩,
   ⟨rq, (st { dev .scan with regs := { shd := [(Reg.DEV_COMPAT, 1)] } }), ready_of (by decide +kernel),
     by decide +kernel⟩,
   ⟨rq, 5, (st { dev .idle with regs := { shd := [(Reg.PWR_LAMP_KT 0, 5)] } }), ready_of (by decide +kernel),
     by decide +kernel⟩⟩
end W.CommitAndDiscard

namespace W.ControlWordWrites
theorem wit_ControlWordWrites :
    (∃ (h : Req) (s : State), Ready h s.d) ∧
    (∃ (h : Req) (s : State), Ready h s.d ∧ s.d.mode ≠ Mode.standby) ∧
    (∃ (h : Req) (s : State), Ready h s.d ∧ s.d.mode = Mode.standby ∧ s.d.rf Reg.DEV_CTRL 0 0 = 1 ∧ 3 ≤
      s.d.bzl.goodStatus ∧ s.d.pwr.nrstF = true) ∧
    (∃ (h : Req) (s : State) (v : Word), Ready h s.d ∧ s.d.mode = Mode.idle ∧ BitVec.toNat v ≤ 2) ∧
    (∃ (h : Req) (s : State) (t : Nat), Ready h s.d ∧ s.d.mode = Mode.idle ∧ 5 ≤ t ∧ t ≤ 1000) ∧
    (∃ (h : Req) (s : State) (b : Bool) (v : Word), Ready h s.d ∧ BitVec.toNat v ≤ 2) ∧
    (∃ (h : Req) (s : State), Ready h s.d) :=
  ⟨⟨rq, (st (dev .idle)), ready_of (by decide +kernel)⟩,
   ⟨rq, (st (dev .idle)), ready_of (by decide +kernel), by decide +kernel⟩,
   ⟨rq, (st (w { dev .standby with bzl := { goodStatus := 3 } } [(Reg.DEV_CTRL, 1)])), ready_of (by decide +kernel),
     by decide +kernel⟩,
   ⟨rq, (st (dev .idle)), 0, ready_of (by decide +kernel), by decide +kernel⟩,
   ⟨rq, (st (dev .idle)), 5, ready_of (by decide +kernel), by decide +kernel⟩,
   ⟨rq, (st (dev .idle)), true, 0, ready_of (by decide +kernel), by decide +kernel⟩,
   ⟨rq, (st (dev .idle)), ready_of (by decide +kernel)⟩⟩
end W.ControlWordWrites

namespace W.SessionAndPortWords
theorem wit_SessionAndPortWords :
    (∃ (h : Req) (v : Word) (s : State), Ready h s.d ∧ 1 ≤ h.session ∧ h.session ≤ 64) ∧
    (∃ (h : Req) (v : Word) (s : State), Ready h s.d ∧ 1 ≤ h.session ∧ h.session ≤ 64 ∧ s.d.pages.deliv = none ∧
      BitVec.toNat v % 4096 = 0 ∧ BitVec.toNat v ≠ s.d.rd (331780 + 64 * (h.session - 1))) ∧
    (∃ (h : Req) (m : Nat) (v : Word) (s : State), Ready h s.d ∧ 1 ≤ m ∧ m ≤ 64 ∧ m ≠ h.session) ∧
    (∃ (h : Req) (p : NetPort) (v : Word) (s : State), Ready h s.d ∧ Writable s.d h.session (cfgAddr p) v) ∧
    (∃ (h : Req) (v : Word) (s : State), Ready h s.d ∧ Writable s.d h.session (Reg.NET_S_QP_CTRL (h.session - 1)) (v
      ||| 2147483648) ∧ 1 ≤ h.session ∧ h.session ≤ 64 ∧ bit (s.d.rd (Reg.NET_S_QP_CTRL (h.session - 1))) 31 = false) ∧
    (∃ (h : Req) (s : State), Ready h s.d ∧ Writable s.d h.session (Reg.NET_S_QP_CTRL (h.session - 1)) (w32 (clrBit
      (s.d.rd (Reg.NET_S_QP_CTRL (h.session - 1))) 31)) ∧ 1 ≤ h.session ∧ h.session ≤ 64 ∧ bit (s.d.rd
      (Reg.NET_S_QP_CTRL (h.session - 1))) 31 = true) :=
  ⟨⟨rq, 0, (st (dev .idle)), ready_of (by decide +kernel), by decide +kernel⟩,
   ⟨rq, 0x10000, (st (dev .idle)), ready_of (by decide +kernel), by decide +kernel⟩,
   ⟨rq, 2, 0, (st (dev .idle)), ready_of (by decide +kernel), by decide +kernel⟩,
   ⟨rq, .eth0, 0x800005DC, (st (dev .idle)), ready_of (by decide +kernel), by unfold Writable; decide +kernel⟩,
   ⟨rq, 0, (st (w (dev .idle) [(Reg.NET_S_GID 0 0, 1)])), ready_of (by decide +kernel),
     by unfold Writable; decide +kernel, by decide +kernel⟩,
   ⟨rq,
     (st (w (dev .idle) [(Reg.NET_S_QP_CTRL 0, 0x80000000), (Reg.NET_P_STAT 0, 0x80000000), (Reg.NET_P_STAT 2, 0xE0000000)])),
     ready_of (by decide +kernel), by unfold Writable; decide +kernel, by decide +kernel⟩⟩
end W.SessionAndPortWords

namespace W.DmaControlAndQueue
def ch0 (d : Dev) (c : Chan) : Dev := { d with dma := { d.dma with ch := c :: List.replicate 15 {} } }
theorem wit_DmaControlAndQueue :
    (∃ (h : Req) (ch : Nat) (v : Word) (s : State), Ready h s.d ∧ Writable s.d h.session (Reg.DMA_CH_CTRL ch) v ∧ ch
      < 16 ∧ BitVec.getLsbD v 1 = false) ∧
    (∃ (h : Req) (ch : Nat) (s : State), Ready h s.d ∧ Writable s.d h.session (Reg.DMA_CH_CTRL ch) (w32 (clrBit
      (s.d.rd (Reg.DMA_CH_CTRL ch)) 0)) ∧ ch < 16 ∧ bit (s.d.rd (Reg.DMA_CH_CTRL ch)) 1 = false) ∧
    (∃ (h : Req) (ch : Nat) (s : State), Ready h s.d ∧ Writable s.d h.session (Reg.DMA_CH_CTRL ch) (w32 (setBit
      (s.d.rd (Reg.DMA_CH_CTRL ch)) 0)) ∧ ch < 16 ∧ bit (s.d.rd (Reg.DMA_CH_CTRL ch)) 1 = false) ∧
    (∃ (h : Req) (ch : Nat) (s : State), Ready h s.d ∧ Writable s.d h.session (Reg.DMA_CH_CTRL ch) (w32 (setBit
      (s.d.rd (Reg.DMA_CH_CTRL ch)) 1)) ∧ ch < 16) ∧
    (∃ (h : Req) (ch : Nat) (s : State), Ready h s.d ∧ ch < 16) ∧
    (∃ (h : Req) (ch : Nat) (addr : Nat) (s : State), Ready h s.d ∧ ch < 16 ∧ ch < s.d.dma.ch.length ∧ addr % 64 = 0
      ∧ s.d.inShared (↑addr : Int) (↑addr : Int) = true ∧ (s.d.chan ch).held < 16) ∧
    (∃ (h : Req) (ch : Nat) (addr : Nat) (s : State), Ready h s.d ∧ ch < 16 ∧ addr % 64 = 0 ∧ s.d.inShared (↑addr :
      Int) (↑addr : Int) = true ∧ 16 ≤ (s.d.chan ch).held) ∧
    (∃ (h : Req) (m : BitVec 16) (s : State), Ready h s.d ∧ s.d.dma.fences = [] ∧ s.d.outstanding (if m = 0 then
      65535 else m.toNat) = []) ∧
    (∃ (h : Req) (m : BitVec 16) (s : State), Ready h s.d ∧ s.d.dma.fences = [] ∧ s.d.outstanding (if m = 0 then
      65535 else m.toNat) ≠ []) ∧
    (∃ (ch : Nat) (s : State), ch < 16) :=
  ⟨⟨rq, 0, 0, (st (dev .idle)), ready_of (by decide +kernel), by unfold Writable; decide +kernel, by decide +kernel⟩,
   ⟨rq, 0, (st (dev .idle)), ready_of (by decide +kernel), by unfold Writable; decide +kernel, by decide +kernel⟩,
   ⟨rq, 0, (st (dev .idle)), ready_of (by decide +kernel), by unfold Writable; decide +kernel, by decide +kernel⟩,
   ⟨rq, 0, (st (dev .idle)), ready_of (by decide +kernel), by unfold Writable; decide +kernel, by decide +kernel⟩,
   ⟨rq, 0, (st (dev .idle)), ready_of (by decide +kernel), by decide +kernel⟩,
   ⟨rq, 0, shrBase, (st (dev .idle)), ready_of (by decide +kernel), by decide +kernel⟩,
   ⟨rq, 0, shrBase, (st (ch0 (dev .idle) { st := .idle, q := List.replicate 16 0x100000000 })),
     ready_of (by decide +kernel), by decide +kernel⟩,
   ⟨rq, 0, (st (dev .idle)), ready_of (by decide +kernel), by decide +kernel⟩,
   ⟨rq, 0, (st (ch0 (dev .idle) { st := .idle, flying := true })), ready_of (by decide +kernel), by decide +kernel⟩,
   ⟨0, (st (dev .idle)), by decide +kernel⟩⟩
end W.DmaControlAndQueue

namespace W.DmaChannelsAndCopies
def ch0 (d : Dev) (c : Chan) : Dev := { d with dma := { d.dma with ch := c :: List.replicate 15 {} } }
def dsc (op src dst len : Nat) : List Byte := be 4 (0x80000000 + op * 2 ^ 24) ++ be 4 0 ++ be 8 src ++ be 8 dst ++ be
  4 len ++ be 4 1 ++ List.replicate 32 0
theorem wit_DmaChannelsAndCopies :
    (∃ (ch : Nat) (a : Nat) (r : List Nat) (s : State), ch < 16 ∧ ch < s.d.dma.ch.length ∧ s.d.rf (Reg.DMA_CH_CTRL
      ch) 0 0 = 1 ∧ s.d.served = true ∧ (s.d.chan ch).st = DSt.idle ∧ (s.d.chan ch).busy = false ∧ (s.d.chan ch).q =
      a :: r ∧ s.d.poisonAt a 64 = none ∧ bit (dCtrl (mread s.mem a 64)) 31 = true ∧ s.d.descCheck (mread s.mem a 64)
      = stOk ∧ bit (dCtrl (mread s.mem a 64)) 23 = false) ∧
    (∃ (ch : Nat) (s : State), ch < 16 ∧ ch < s.d.dma.ch.length ∧ s.d.rf (Reg.DMA_CH_CTRL ch) 10 8 = 1) ∧
    (∃ (ch : Nat) (s : State), ch < 16 ∧ (s.d.chan ch).st = DSt.run) ∧
    (∃ (ch : Nat) (s : State), ch < 16 ∧ (s.d.chan ch).st = DSt.restart) ∧
    (∃ (ch : Nat) (s : State) (i : List Byte) (a : Nat) (n : Nat), ch < 16 ∧ (s.d.chan ch).st = DSt.run ∧ (s.d.chan
      ch).img = i ∧ (s.d.chan ch).desc = a ∧ dOp i = 0 ∧ dCnt i = 1 ∧ dLen i = n ∧ 1 ≤ n ∧ dSrc i + n ≤ winBase ∧
      dDst i + n ≤ winBase ∧ (dSrc i + n ≤ dDst i ∨ dDst i + n ≤ dSrc i) ∧ (a + 64 ≤ dDst i ∨ dDst i + n ≤ a) ∧
      s.d.descPoison i = none) :=
  ⟨⟨0, shrBase, [],
     { mem := mwrite [] shrBase (dsc 0 (shrBase + 256) (shrBase + 512) 16), d := w (ch0 (dev .idle) { q := [shrBase] }) [(Reg.DMA_CH_CTRL 0, 1)] },
     by decide +kernel⟩,
   ⟨0, (st (w (ch0 (dev .idle) { st := .waitReq }) [(Reg.DMA_CH_CTRL 0, 0x100)])), by decide +kernel⟩,
   ⟨0, (st (w (ch0 (dev .idle) { st := .run, reqs := 255 }) [(Reg.DMA_CH_CTRL 0, 0x100)])), by decide +kernel⟩,
   ⟨0, (st (ch0 (dev .idle) { st := .restart })), by decide +kernel⟩,
   ⟨0,
     { mem := mwrite [] (shrBase + 256) [1, 2, 3], d := ch0 (dev .idle) { st := .run, desc := shrBase, img := dsc 0 (shrBase + 256) (shrBase + 512) 16 } },
     (dsc 0 (shrBase + 256) (shrBase + 512) 16), shrBase, 16, by decide +kernel⟩⟩
end W.DmaChannelsAndCopies

namespace W.MovesQueue
def mq : MoveReq :=
  { group := 0, mflags := 0, moveId := 9, mask := 1, vmax := 1000, acc := 100, dec := 100, targets := [500] }
def lim (d : Dev) (b : Nat) : Dev := w d
  [(Reg.MOT_SW_STAT, b), (Reg.MOT_A_LIM 0, 0x0100), (Reg.MOT_A_VLIM 0, 5000000)]
theorem wit_MovesQueue :
    (∃ (h : Req) (m : MoveReq) (s : State), Ready h s.d ∧ MoveOk s.d h.session m ∧ (s.d.grp m.group).count < 32 ∧
      (s.d.grp m.group).st ≠ GSt.rest ∧ (s.d.grp m.group).st ≠ GSt.limit) ∧
    (∃ (h : Req) (m : MoveReq) (s : State), Ready h s.d ∧ MoveOk s.d h.session m ∧ (s.d.grp m.group).count < 32) ∧
    (∃ (h : Req) (m : MoveReq) (s : State), Ready h s.d ∧ MoveOk s.d h.session m ∧ (s.d.grp m.group).entries = [] ∧
      ((s.d.grp m.group).st = GSt.rest ∧ (s.d.grp m.group).cur = none ∨ (s.d.grp m.group).st = GSt.limit ∧
      s.d.awayFromAll m.group (s.d.entryOf h.session m) = true) ∧ (s.d.entryOf h.session m).len = 0) ∧
    (∃ (h : Req) (m : MoveReq) (s : State), Ready h s.d ∧ MoveOk s.d h.session m ∧ (s.d.grp m.group).entries = [] ∧
      ((s.d.grp m.group).st = GSt.rest ∧ (s.d.grp m.group).cur = none ∨ (s.d.grp m.group).st = GSt.limit) ∧
      s.d.towardLimit (s.d.entryOf h.session m) = true ∧ (s.d.entryOf h.session m).len ≠ 0) ∧
    (∃ (h : Req) (m : MoveReq) (s : State), Ready h s.d ∧ MoveOk s.d h.session m ∧ (s.d.grp m.group).entries = [] ∧
      (s.d.grp m.group).st = GSt.limit ∧ s.d.towardLimit (s.d.entryOf h.session m) = false ∧ s.d.awayFromAll m.group
      (s.d.entryOf h.session m) = false) ∧
    (∃ (h : Req) (m : MoveReq) (s : State), Ready h s.d ∧ MoveOk s.d h.session m ∧ (s.d.grp m.group).st = GSt.rest ∧
      (s.d.grp m.group).cur = none ∧ (s.d.grp m.group).q = [] ∧ (s.d.grp m.group).heldMove = none ∧ (s.d.entryOf
      h.session m).len ≠ 0 ∧ s.d.towardLimit (s.d.entryOf h.session m) = false ∧ (s.d.grp m.group).intern = 0) ∧
    (∃ (h : Req) (m : MoveReq) (s : State), Ready h s.d ∧ MoveOk s.d h.session m ∧ 32 ≤ (s.d.grp m.group).count) :=
  ⟨⟨rq, mq,
     (st (grp0 (ax0 (w (dev .idle) (en0 ++ [(Reg.MOT_A_VLIM 0, 5000000)])) { valid := true }) { st := .run, cur := some mv })),
     ready_of (by decide +kernel), moveOk_of (by decide +kernel), by decide +kernel⟩,
   ⟨rq, mq, (st (lim (ax0 (w (dev .idle) en0) { valid := true }) 1)), ready_of (by decide +kernel),
     moveOk_of (by decide +kernel), by decide +kernel⟩,
   ⟨rq, { mq with targets := [0] }, (st (lim (ax0 (w (dev .idle) en0) { valid := true }) 1)),
     ready_of (by decide +kernel), moveOk_of (by decide +kernel), by decide +kernel⟩,
   ⟨rq, mq, (st (lim (ax0 (w (dev .idle) en0) { valid := true }) 1)), ready_of (by decide +kernel),
     moveOk_of (by decide +kernel), by decide +kernel⟩,
   ⟨rq, { mq with targets := [0] }, (st (lim (grp0 (ax0 (w (dev .idle) en0) { valid := true }) { st := .limit }) 1)),
     ready_of (by decide +kernel), moveOk_of (by decide +kernel), by decide +kernel⟩,
   ⟨rq, mq, (st (lim (ax0 (w (dev .idle) en0) { valid := true }) 2)), ready_of (by decide +kernel),
     moveOk_of (by decide +kernel), by decide +kernel⟩,
   ⟨rq, mq,
     (st (grp0 (ax0 (w (dev .idle) (en0 ++ [(Reg.MOT_A_VLIM 0, 5000000)])) { valid := true }) { st := .run, cur := some mv, q := List.replicate 31 mv })),
     ready_of (by decide +kernel), moveOk_of (by decide +kernel), by decide +kernel⟩⟩
end W.MovesQueue

namespace W.MovesModifyHaltResume
theorem wit_MovesModifyHaltResume :
    (∃ (h : Req) (g : Nat) (id : Word) (v : Nat) (a : Nat) (e : Nat) (m : Move) (s : State), Ready h s.d ∧ g < 4 ∧ m
      ∈ (s.d.grp g).entries ∧ m.id = id ∧ (∀ x ∈ (s.d.grp g).entries, x.id = id → x = m) ∧ v ≤ 5000000 ∧ s.d.overVlim
      m (if v = 0 then m.vmax else v) = false) ∧
    (∃ (h : Req) (k : BitVec 16) (g : Nat) (m : Move) (s : State), Ready h s.d ∧ k &&& 61440#16 = 0 ∧ s.d.mode =
      Mode.idle ∧ maskAxes k ≠ [] ∧ (∀ a ∈ maskAxes k, s.d.axEn a = true ∧ (s.d.ax a).home = none ∧ s.d.axGroup a =
      g) ∧ (s.d.grp g).st = GSt.run ∧ (s.d.grp g).cur = some m) ∧
    (∃ (h : Req) (k : BitVec 16) (g : Nat) (m : Move) (s : State), Ready h s.d ∧ k &&& 61440#16 = 0 ∧ s.d.mode =
      Mode.idle ∧ maskAxes k ≠ [] ∧ (∀ a ∈ maskAxes k, s.d.axEn a = true ∧ (s.d.ax a).home = none ∧ s.d.axGroup a =
      g) ∧ (s.d.grp g).st = GSt.run ∧ (s.d.grp g).cur = some m) ∧
    (∃ (h : Req) (g : Nat) (m : Move) (s : State), Ready h s.d ∧ g < 4 ∧ (s.d.jobMode = false ∨ s.d.feed ≠ some g) ∧
      (s.d.grp g).st = GSt.halted ∧ (∃ a ∈ s.d.groupAxes g, (s.d.ax a).home ≠ none) ∧ (s.d.grp g).cur = some m) ∧
    (∃ (h : Req) (g : Nat) (m : Move) (s : State), Ready h s.d ∧ g < 4 ∧ (s.d.jobMode = false ∨ s.d.feed ≠ some g) ∧
      (s.d.grp g).st = GSt.halted ∧ (∀ a ∈ s.d.groupAxes g, (s.d.ax a).home = none) ∧ (s.d.grp g).cur = some m) :=
  ⟨⟨rq, 0, 5, 0, 0, 0, mv,
     (st (grp0 (ax0 (w (dev .idle) (en0 ++ [(Reg.MOT_A_VLIM 0, 5000000)])) { valid := true }) { st := .run, cur := some mv, v := 7 })),
     ready_of (by decide +kernel), by decide +kernel⟩,
   ⟨rq, 1, 0, mv,
     (st (grp0 (ax0 (w (dev .idle) (en0 ++ [(Reg.MOT_A_VLIM 0, 5000000)])) { valid := true }) { st := .run, cur := some mv, v := 7 })),
     ready_of (by decide +kernel), by decide +kernel⟩,
   ⟨rq, 1, 0, mv,
     (st (grp0 (ax0 (w (dev .idle) (en0 ++ [(Reg.MOT_A_VLIM 0, 5000000)])) { valid := true }) { st := .run, cur := some mv, v := 7 })),
     ready_of (by decide +kernel), by decide +kernel⟩,
   ⟨rq, 0, mv,
     (st (grp0 (ax0 (w (dev .idle) en0) { home := some ⟨.seek, 0, 100, 0, 0, 0, 0⟩ }) { st := .halted, cur := some mv })),
     ready_of (by decide +kernel), by decide +kernel⟩,
   ⟨rq, 0, mv,
     (st (grp0 (ax0 (w (dev .idle) (en0 ++ [(Reg.MOT_A_VLIM 0, 5000000)])) { valid := true }) { st := .halted, cur := some mv, q := [{ mv with id := 6 }] })),
     ready_of (by decide +kernel), by decide +kernel⟩⟩
end W.MovesModifyHaltResume

namespace W.HomingAndMotionFaults
def hm (s : HSt) (n : Nat) : Machine.Homing := ⟨s, n, 100, 0, 0, 0, 0⟩
theorem wit_HomingAndMotionFaults :
    (∃ (h : Req) (k : BitVec 16) (s : State), Ready h s.d ∧ k &&& 61440#16 = 0 ∧ s.d.mode = Mode.idle ∧ maskAxes k ≠
      [] ∧ (∀ a ∈ maskAxes k, a < s.d.mot.axes.length ∧ s.d.axEn a = true ∧ s.d.homeSw a ≤ 17 ∧ (s.d.grp (s.d.axGroup
      a)).q = [] ∧ (s.d.grp (s.d.axGroup a)).cur = none ∧ (s.d.grp (s.d.axGroup a)).still = true)) ∧
    (∃ (a : Nat) (hm : Homing) (s : State), (s.d.ax a).home = some hm ∧ hm.st = HSt.retryDue ∧ s.d.sw (s.d.rf
      (Reg.MOT_A_LIM a) 4 0) = false ∧ s.d.sw (s.d.rf (Reg.MOT_A_LIM a) 12 8) = false) ∧
    (∃ (a : Nat) (s : State), ((s.d.ax a).attempting = false ∨ (s.d.ax a).raws.length ≤ s.d.rd Reg.MOT_CHATTER_N)) ∧
    (∃ (a : Nat) (hm : Homing) (s : State), (s.d.ax a).home = some hm ∧ hm.tries = 0 ∧ a < 12 ∧ (s.d.ax a).attempting
      = true ∧ s.d.rd Reg.MOT_CHATTER_N < (s.d.ax a).raws.length) ∧
    (∃ (a : Nat) (hm : Homing) (s : State), (s.d.ax a).home = some hm ∧ hm.tries ≠ 0 ∧ s.d.mode = Mode.homing ∧
      (s.d.ax a).attempting = true ∧ s.d.rd Reg.MOT_CHATTER_N < (s.d.ax a).raws.length ∧ a < 12 ∧ s.d.regs.com =
      none) ∧
    (∃ (a : Nat) (s : State), (s.d.ax a).feN < 4) ∧
    (∃ (a : Nat) (s : State), a < 12 ∧ s.d.axEn a = true ∧ s.d.axEnc a ≠ none ∧ (s.d.ax a).home = none ∧ s.d.mode =
      Mode.idle ∧ 4 ≤ (s.d.ax a).feN ∧ s.d.regs.com = none) ∧
    (∃ (a : Nat) (s : State), a < 12 ∧ s.d.axEn a = true ∧ s.d.axEnc a ≠ none ∧ (s.d.ax a).home = none ∧ s.d.jobMode
      = true ∧ 4 ≤ (s.d.ax a).feN ∧ s.d.feed = some (s.d.axGroup a) ∧ s.d.axGroup a < s.d.mot.groups.length ∧
      (s.d.grp (s.d.axGroup a)).feLast = none) ∧
    (∃ (a : Nat) (s : State), (s.d.ax a).resync = true) ∧
    (∃ (g : Nat) (s : State), g < 4 ∧ (s.d.grp g).st = GSt.homing ∧ s.d.jobMode = false ∧ (s.d.grp g).restEnd = false
      ∧ (s.d.grp g).limitBy = none ∧ s.d.recurs 11 4 ((s.d.groupAxes g).headD 0) = none) ∧
    (∃ (g : Nat) (s : State), g < 4 ∧ (s.d.grp g).st = GSt.run ∧ s.d.jobMode = false ∧ (s.d.grp g).restEnd = false ∧
      (s.d.grp g).limitBy = none ∧ s.d.recurs 11 4 ((s.d.groupAxes g).headD 0) = none) :=
  ⟨⟨rq, 1, (st (w (dev .idle) (en0 ++ [(Reg.MOT_A_HOME 0, 3)]))), ready_of (by decide +kernel), by decide +kernel⟩,
   ⟨0, (hm .retryDue 1),
     (st (ax0 (w (dev .homing) (en0 ++ [(Reg.MOT_A_LIM 0, 0x1F1F)])) { home := some (hm .retryDue 1) })),
     by decide +kernel⟩,
   ⟨0, (st (w (dev .idle) (en0 ++ [(Reg.MOT_A_HOME 0, 3)]))), by decide +kernel⟩,
   ⟨0, (hm .seek 0),
     (st (ax0 (w (dev .homing) (en0 ++ [(Reg.MOT_CHATTER_N, 2)])) { home := some (hm .seek 0), rate := 3, raws := [1, 2, 3] })),
     by decide +kernel⟩,
   ⟨0, (hm .seek 1),
     (st (ax0 (w (dev .homing) (en0 ++ [(Reg.MOT_CHATTER_N, 2)])) { home := some (hm .seek 1), rate := 3, raws := [1, 2, 3] })),
     by decide +kernel⟩,
   ⟨0, (st (w (dev .idle) (en0 ++ [(Reg.MOT_A_HOME 0, 3)]))), by decide +kernel⟩,
   ⟨0, (st (ax0 (w (dev .idle) [(Reg.MOT_A_CFG 0, 0x80000010), (Reg.MOT_G_CFG 0, 1)]) { feN := 4 })),
     by decide +kernel⟩,
   ⟨0, (st (ax0 (w (jdev .scan) [(Reg.MOT_A_CFG 0, 0x80000010), (Reg.MOT_G_CFG 0, 1)]) { feN := 4 })),
     by decide +kernel⟩,
   ⟨0, (st (ax0 (w (jdev .hold) en0) { resync := true, pos := 7 })), by decide +kernel⟩,
   ⟨0, (st (grp0 (ax0 (w (dev .homing) en0) { home := some (hm .seek 1), rate := 3 }) { st := .homing, v := 3 })),
     by decide +kernel⟩,
   ⟨0, (st (grp0 (w (dev .idle) en0) { st := .run, cur := some mv, v := 9 })), by decide +kernel⟩⟩
end W.HomingAndMotionFaults

namespace W.LampLevels
def lc : List (Nat × Nat) :=
  [(Reg.LMP_C_CFG 0, 0x80080000), (Reg.LMP_C_CLASS 0 0, 0x22222222), (Reg.LMP_C_LEVEL 0, 5 * 2 ^ 23 + 100), (Reg.LMP_C_ITHR 0, 0x0F000100), (Reg.LMP_C_MTHR 0, 0x200)]
def lmp0 (d : Dev) (c : Chain) : Dev := { d with lamp := { d.lamp with chains := c :: List.replicate 15 {} } }
theorem wit_LampLevels :
    (∃ (h : Req) (n : Nat) (w : Word) (s : State), Ready h s.d ∧ fld w 22 21 = 0 ∧ s.d.mode = Mode.idle ∧ n < 16 ∧ n
      < s.d.lamp.chains.length ∧ chainEn s.d.regs.act n = true ∧ fixedCount s.d.regs.act n ≤ levelLit w ∧ levelLit w
      ≤ populated s.d.regs.act n ∧ (levelOn w = 0 ∨ 8 ≤ levelOn w) ∧ windowFits s.d.regs.act n w = true) ∧
    (∃ (n : Nat) (s : State), (s.d.chain n).shifting = true ∧ s.d.flt.l2run = false) ∧
    (∃ (n : Nat) (w : Word) (s : State), s.d.seq.en = false ∧ (s.d.chain n).shifted = true ∧ (s.d.chain n).want =
      some w ∧ (((s.d.chain n).gate.any fun (g : Nat × Nat) => decide (s.d.now < g.2)) = false)) ∧
    (∃ (s : State), s.d.fieldRuns = true ∧ s.d.bzl.inhibit = false ∧ s.d.flt.l2run = false) :=
  ⟨⟨rq, 0, (4 * 2 ^ 23 + 100), (st (w (dev .idle) lc)), ready_of (by decide +kernel), by decide +kernel⟩,
   ⟨0, (st (lmp0 (w (dev .idle) lc) { shifting := true, want := some 7 })), by decide +kernel⟩,
   ⟨0, 7, (st (lmp0 (dev .idle) { shifted := true, want := some 7 })), by decide +kernel⟩,
   ⟨(st (w (dev .idle) lc)), by decide +kernel⟩⟩
end W.LampLevels

namespace W.LampDiagnosisAndConfirmation
def lc : List (Nat × Nat) :=
  [(Reg.LMP_C_CFG 0, 0x80080000), (Reg.LMP_C_CLASS 0 0, 0x22222222), (Reg.LMP_C_LEVEL 0, 5 * 2 ^ 23 + 100), (Reg.LMP_C_ITHR 0, 0x0F000100), (Reg.LMP_C_MTHR 0, 0x200)]
def lh : List (Nat × Nat) := lc ++ [(Reg.LMP_C_LEVEL 0, 5 * 2 ^ 23 + 1800)]
def lz : List (Nat × Nat) := lc ++ [(Reg.LMP_C_LEVEL 0, 5 * 2 ^ 23 + 3000)]
def lmp0 (d : Dev) (c : Chain) : Dev := { d with lamp := { d.lamp with chains := c :: List.replicate 15 {} } }
theorem wit_LampDiagnosisAndConfirmation :
    (∃ (n : Nat) (i : Nat) (m : Nat) (sec : Option (Nat × Nat)) (s : State), n < 16 ∧ n < s.d.lamp.chains.length ∧
      levelOn (s.d.level n) ≠ 0 ∧ i < 4096 ∧ m < 4096 ∧ (s.d.lampThr n).1 ≤ i ∧ i ≤ (s.d.lampThr n).2.1 ∧ normalDuty
      s.d.regs.act n (s.d.level n) = true ∧ sec.isSome = decide (2344 ≤ s.d.windowLen n) ∧ (Option.all (fun (x : Nat
      × Nat) => decide (x.1 < 4096 ∧ x.2 < 4096 ∧ (s.d.lampThr n).1 ≤ x.1 ∧ x.1 ≤ (s.d.lampThr n).2.1)) sec = true)) ∧
    (∃ (n : Nat) (i : Nat) (m : Nat) (sec : Option (Nat × Nat)) (s : State), n < 16 ∧ n < s.d.lamp.chains.length ∧
      levelOn (s.d.level n) ≠ 0 ∧ i < 4096 ∧ m < 4096 ∧ (s.d.lampThr n).1 ≤ i ∧ i ≤ (s.d.lampThr n).2.1 ∧
      (s.d.lampThr n).2.2 ≤ m) ∧
    (∃ (n : Nat) (i : Nat) (m : Nat) (sec : Option (Nat × Nat)) (s : State), normalDuty s.d.regs.act n (s.d.level n)
      = false) ∧
    (∃ (n : Nat) (i : Nat) (m : Nat) (sec : Option (Nat × Nat)) (s : State), n < 16 ∧ n < s.d.lamp.chains.length ∧
      normalDuty s.d.regs.act n (s.d.level n) = true ∧ sec.isSome = decide (2344 ≤ s.d.windowLen n) ∧ (((i ::
      (Option.map Prod.fst sec).toList).any fun (x : Nat) => decide (x < (s.d.lampThr n).1 ∨ (s.d.lampThr n).2.1 <
      x)) = true) ∧ s.d.mode = Mode.idle ∧ s.d.cal.run = none) ∧
    (∃ (n : Nat) (i : Nat) (m : Nat) (sec : Option (Nat × Nat)) (s : State), n < 16 ∧ n < s.d.lamp.chains.length ∧
      normalDuty s.d.regs.act n (s.d.level n) = true ∧ sec.isSome = decide (2344 ≤ s.d.windowLen n) ∧ (((i ::
      (Option.map Prod.fst sec).toList).any fun (x : Nat) => decide (x < (s.d.lampThr n).1 ∨ (s.d.lampThr n).2.1 <
      x)) = true) ∧ s.d.mode = Mode.scan ∧ s.d.recurs 10 1 n = none) ∧
    (∃ (s : State), ((s.d.lamp.chains.any fun (x : Chain) => x.suspect) = true) ∧ s.d.seq.en = false ∧ s.d.seq.pend =
      [] ∧ s.d.seq.flush = false ∧ s.d.seq.flushDue = false ∧ s.d.mode = Mode.hold ∧ s.d.flt.l2run = false) ∧
    (∃ (n : Nat) (dark : Nat × Nat) (p1 : Nat × Nat) (p2 : Nat × Nat) (s : State), n < 16 ∧ s.d.lamp.confirm = true ∧
      (s.d.chain n).suspect = true ∧ s.d.flt.clearing = false ∧ finding (s.d.lampThr n) dark p1 p2 = 2) ∧
    (∃ (n : Nat) (dark : Nat × Nat) (p1 : Nat × Nat) (p2 : Nat × Nat) (s : State), n < 16 ∧ s.d.lamp.confirm = true ∧
      (s.d.chain n).suspect = true ∧ s.d.flt.clearing = false ∧ finding (s.d.lampThr n) dark p1 p2 ≠ 2 ∧ s.d.mode =
      Mode.hold ∧ s.d.regs.com = none) ∧
    (∃ (n : Nat) (dark : Nat × Nat) (p1 : Nat × Nat) (p2 : Nat × Nat) (s : State), n < 16 ∧ s.d.flt.clearing = true ∧
      n ∈ s.d.flt.lampClr) ∧
    (∃ (h : Req) (n : Nat) (s : State), Ready h s.d ∧ s.d.mode ∈ [Mode.idle, Mode.calibrate, Mode.service] ∧ n < 16 ∧
      chainEn s.d.regs.act n = true) ∧
    (∃ (n : Nat) (dark : Nat × Nat) (p1 : Nat × Nat) (p2 : Nat × Nat) (s : State), n < 16 ∧ ((s.d.opRuns fun (o : Op)
      => o == Op.lampTest n) = true) ∧ p2.1 < 4096 ∧ p2.2 < 4096) :=
  ⟨⟨0, 0x300, 0, none, (st (w (dev .idle) lh)), by decide +kernel⟩,
   ⟨0, 0x300, 0x300, none, (st (w (dev .idle) lc)), by decide +kernel⟩,
   ⟨0, 0, 0, none, (st (w (dev .idle) lc)), by decide +kernel⟩,
   ⟨0, 0, 0, none, (st (w (dev .idle) lh)), by decide +kernel⟩,
   ⟨0, 0, 0, none, (st (w (jdev .scan) lh)), by decide +kernel⟩,
   ⟨(st (lmp0 (w (jdev .hold) lc) { suspect := true })), by decide +kernel⟩,
   ⟨0, (0, 0), (0x300, 0x300), (0x300, 0x300),
     (st (let d := lmp0 (w (jdev .hold) lc) { suspect := true }; { d with lamp := { d.lamp with confirm := true } })),
     by decide +kernel⟩,
   ⟨0, (0, 0), (0, 0), (0, 0),
     (st (let d := lmp0 (w (jdev .hold) lc) { suspect := true }; { d with lamp := { d.lamp with confirm := true } })),
     by decide +kernel⟩,
   ⟨0, (0, 0), (0, 0), (0, 0),
     (st { w (dev .idle) [(Reg.LMP_C_CFG 0, 0x80080000), (Reg.LMP_C_LEVEL 0, 5 * 2 ^ 23 + 9)] with flt := { clearing := true, lampClr := [0] } }),
     by decide +kernel⟩,
   ⟨rq, 0, (st (w (dev .idle) lc)), ready_of (by decide +kernel), by decide +kernel⟩,
   ⟨0, (0, 0), (0, 0), (0, 0), (st { w (dev .idle) lc with ops := [⟨.lampTest 0, 1, 4⟩] }), by decide +kernel⟩⟩
end W.LampDiagnosisAndConfirmation

namespace W.LampWearAndMains
def lc : List (Nat × Nat) :=
  [(Reg.LMP_C_CFG 0, 0x80080000), (Reg.LMP_C_CLASS 0 0, 0x22222222), (Reg.LMP_C_LEVEL 0, 5 * 2 ^ 23 + 100), (Reg.LMP_C_ITHR 0, 0x0F000100), (Reg.LMP_C_MTHR 0, 0x200)]
def lmp0 (d : Dev) (c : Chain) : Dev := { d with lamp := { d.lamp with chains := c :: List.replicate 15 {} } }
theorem wit_LampWearAndMains :
    (∃ (n : Nat) (s : State), s.d.mode = Mode.idle ∧ s.d.seq.scanWait = false ∧ s.d.lamp.rot = none ∧ s.d.flt.l2run =
      false ∧ s.d.rf Reg.LMP_ROT_CTRL 0 0 = 1 ∧ n < 16 ∧ (∀ k ≤ n, decide (k = n) = (chainEn s.d.regs.act k && decide
      (60 * s.d.rf Reg.LMP_ROT_CTRL 31 16 ≤ s.d.rd (Reg.LMP_C_ROT_MIN k)) && !bit (s.d.rd (Reg.LMP_C_DIAG k)) 5)) ∧
      s.d.rotGroups n ≠ []) ∧
    (∃ (n : Nat) (m1 : Nat) (m2 : Nat) (m3 : Nat) (s : State), n < 16 ∧ n < s.d.lamp.chains.length ∧ s.d.lamp.rot =
      some n ∧ s.d.mode = Mode.idle ∧ (2 * (↑m2 : Int) - (↑(m1 + m3) : Int)).natAbs * 10000 ≤ s.d.rf Reg.LMP_ROT_TOL
      15 0 * (m1 + m3)) ∧
    (∃ (n : Nat) (m1 : Nat) (m2 : Nat) (m3 : Nat) (s : State), n < 16 ∧ s.d.lamp.rot = some n ∧ s.d.mode = Mode.idle
      ∧ s.d.rf Reg.LMP_ROT_TOL 15 0 * (m1 + m3) < (2 * (↑m2 : Int) - (↑(m1 + m3) : Int)).natAbs * 10000) ∧
    (∃ (t : Nat) (s : State), t ≤ s.d.now ∧ acEn s.d.regs.act = true) ∧
    (∃ (s : State), s.d.lamp.acLock = true) :=
  ⟨⟨0, (st (w (dev .idle) (lc ++ [(Reg.LMP_ROT_CTRL, 0x00010001), (Reg.LMP_C_ROT_MIN 0, 100)]))), by decide +kernel⟩,
   ⟨0, 0, 0, 0, (st (let d := w (dev .idle) lc; { d with lamp := { d.lamp with rot := some 0 } })), by decide +kernel⟩,
   ⟨0, 0, 0, 1000, (st (let d := w (dev .idle) lc; { d with lamp := { d.lamp with rot := some 0 } })),
     by decide +kernel⟩,
   ⟨0, (st (let d := w (dev .idle) [(Reg.LMP_CTRL, 32)]; { d with now := 20000000 })), by decide +kernel⟩,
   ⟨(st (let d := w (dev .idle) [(Reg.LMP_CTRL, 32)]; { d with lamp := { d.lamp with acLock := true } })),
     by decide +kernel⟩⟩
end W.LampWearAndMains

namespace W.BezelFrames
def fr (t : Nat) : Frame := sealFrame (newFrame t 0 [])
def lk : Link := { map := 7, spares := 8, up := true }
def lkf : Link := { map := 0x3FFFFF, spares := 0xC00000, up := true }
theorem wit_BezelFrames :
    (∃ (r : Dir) (f : Frame) (s : State), FrameIn s.d r f) ∧
    (∃ (r : Dir) (f : Frame) (s : State), (frameGood f = false ∨ frameBad r f = false ∧ f.replay = false ∧ f.seq ≠
      (s.d.bzlLink r).rxNext) ∧ (s.d.bzlLink r).await = true ∧ f.replay = false) ∧
    (∃ (r : Dir) (f : Frame) (s : State), (frameGood f = false ∨ frameBad r f = false ∧ f.replay = false ∧ f.seq ≠
      (s.d.bzlLink r).rxNext) ∧ ((s.d.bzlLink r).await = false ∨ f.replay = true)) ∧
    (∃ (r : Dir) (f : Frame) (s : State), frameBad r f = true) ∧
    (∃ (r : Dir) (f : Frame) (s : State), frameGood
      { typ := f.typ, nak := true, replay := f.replay, first := f.first, last := f.last, seq := f.seq, ack := f.ack, len := f.len, offset := f.offset, tag := f.tag, payload := f.payload, crc := f.crc, blocks := f.blocks }
      = true ∧ frameBad r f = false ∧ f.seq = (s.d.bzlLink r).rxNext) ∧
    (∃ (r : Dir) (s : State), (s.d.bzlLink r).up = true) :=
  ⟨⟨.f2h, (fr 0), (st { dev .idle with bzl := { f2h := lkf, h2f := lk } }), by unfold FrameIn; decide +kernel⟩,
   ⟨.f2h, (sealFrame { fr 0 with seq := 9 }),
     (st { dev .idle with bzl := { f2h := { lkf with await := true, retry := [fr 1] }, h2f := { lk with retry := [{ fr 4 with seq := 3 }, { fr 4 with seq := 4 }, { fr 6 with seq := 5 }], txSeq := 6 } } }),
     by decide +kernel⟩,
   ⟨.f2h, (sealFrame { fr 0 with seq := 9 }), (st { dev .idle with bzl := { f2h := lkf, h2f := lk } }),
     by decide +kernel⟩,
   ⟨.f2h, (fr 9), (st { dev .idle with bzl := { f2h := lkf, h2f := lk } }), by decide +kernel⟩,
   ⟨.f2h, (sealFrame { fr 0 with nak := true }), (st { dev .idle with bzl := { f2h := lkf, h2f := lk } }),
     by decide +kernel⟩,
   ⟨.f2h, (st { dev .idle with bzl := { f2h := lkf, h2f := lk } }), by decide +kernel⟩⟩
end W.BezelFrames

namespace W.BezelTrafficAndStatus
def fr (t : Nat) : Frame := sealFrame (newFrame t 0 [])
def lk : Link := { map := 7, spares := 8, up := true }
def lkf : Link := { map := 0x3FFFFF, spares := 0xC00000, up := true }
theorem wit_BezelTrafficAndStatus :
    (∃ (f : Frame) (s : State), FrameIn s.d Dir.f2h f) ∧
    (∃ (f : Frame) (s : State), FrameIn s.d Dir.f2h f) ∧
    (∃ (f : Frame) (s : State), FrameIn s.d Dir.h2f f ∧ f.typ = 6) ∧
    (∃ (s : State), s.d.bzl.h2f.up = true ∧ s.d.bzl.h2f.retry.length < 64) ∧
    (∃ (f : Frame) (g : Nat) (s : State) (v : Nat), FrameIn s.d Dir.h2f f ∧ f.typ = 4 ∧ f.tag ∉ s.d.bzl.applied ∧
      s.d.feed = some g ∧ g < s.d.mot.groups.length ∧ s.d.jobMode = true) ∧
    (∃ (f : Frame) (g : Nat) (s : State), FrameIn s.d Dir.h2f f ∧ f.typ = 4 ∧ f.tag ∉ s.d.bzl.applied ∧ s.d.feed =
      some g ∧ g < s.d.mot.groups.length) ∧
    (∃ (f : Frame) (g : Nat) (s : State) (p : Int) (m : Move) (x : Nat × Int), FrameIn s.d Dir.h2f f ∧ f.typ = 4 ∧
      f.tag ∉ s.d.bzl.applied ∧ s.d.feed = some g ∧ g < s.d.mot.groups.length ∧ (s.d.grp g).cur = some m ∧
      (List.find? (fun (t : Nat × Int) => some t.1 == m.lead) m.start = some x)) ∧
    (∃ (f : Frame) (c : FieldCmd) (s : State), FrameIn s.d Dir.h2f f ∧ f.typ = 4 ∧ f.tag ∈ s.d.bzl.applied ∧ (∀ (o n
      : Nat), c ≠ FieldCmd.sramRead o n)) ∧
    (∃ (f : Frame) (s : State) (a : Nat) (v : Word), FrameIn s.d Dir.h2f f ∧ f.typ = 4 ∧ f.tag ∉ s.d.bzl.applied) ∧
    (∃ (f : Frame) (s : State) (m : Mode), FrameIn s.d Dir.h2f f ∧ f.typ = 4 ∧ f.tag ∉ s.d.bzl.applied) ∧
    (∃ (f : Frame) (o : Nat) (data : List Byte) (s : State), FrameIn s.d Dir.h2f f ∧ f.typ = 4 ∧ f.tag ∉
      s.d.bzl.applied ∧ data ≠ [] ∧ o + data.length ≤ 9437184 ∧ s.d.fieldInUse o data.length = false) ∧
    (∃ (f : Frame) (o : Nat) (data : List Byte) (s : State), FrameIn s.d Dir.h2f f ∧ f.typ = 4 ∧ f.tag ∉
      s.d.bzl.applied ∧ data ≠ [] ∧ o + data.length ≤ 9437184 ∧ s.d.fieldInUse o data.length = true) ∧
    (∃ (f : Frame) (st : FieldStatus) (s : State), FrameIn s.d Dir.f2h f ∧ f.typ = 2 ∧ s.d.mode = Mode.standby ∧
      st.rails = 31#5 ∧ st.pgF = true ∧ s.d.bzl.goodStatus = 2 ∧ s.d.pwr.nrstF = true ∧ s.d.rf Reg.DEV_CTRL 0 0 = 0) ∧
    (∃ (f : Frame) (st : FieldStatus) (s : State), FrameIn s.d Dir.f2h f ∧ f.typ = 2 ∧ s.d.mode = Mode.idle ∧ st.pgF
      = true) ∧
    (∃ (f : Frame) (st : FieldStatus) (s : State), FrameIn s.d Dir.f2h f ∧ f.typ = 2 ∧ s.d.fieldRuns = true ∧ st.pgF
      = false ∧ s.d.jobHeld = true ∧ s.d.pwr.gridLost = false ∧ s.d.regs.com = none ∧ s.d.cal.run = none) ∧
    (∃ (s : State), (s.d.mode = Mode.standby ∨ s.d.mode = Mode.reset)) :=
  ⟨⟨(fr 3), (st { dev .idle with bzl := { f2h := lkf, h2f := lk, cmds := [0, 1] } }),
     by unfold FrameIn; decide +kernel⟩,
   ⟨(fr 3), (st { dev .idle with bzl := { f2h := lkf, h2f := lk, cmds := [0, 1] } }),
     by unfold FrameIn; decide +kernel⟩,
   ⟨(fr 6), (st { dev .idle with bzl := { f2h := lkf, h2f := lk, cmds := [0, 1] } }),
     by unfold FrameIn; decide +kernel, by decide +kernel⟩,
   ⟨(st { dev .idle with bzl := { f2h := lkf, h2f := lk, cmds := [0, 1] } }), by decide +kernel⟩,
   ⟨(fr 4), 0, (st (grp0 (w { jdev .scan with bzl := { f2h := lkf, h2f := lk } } en0) { cur := some mv })), 0,
     by unfold FrameIn; decide +kernel, by decide +kernel⟩,
   ⟨(fr 4), 0, (st (grp0 (w { jdev .scan with bzl := { f2h := lkf, h2f := lk } } en0) { cur := some mv })),
     by unfold FrameIn; decide +kernel, by decide +kernel⟩,
   ⟨(fr 4), 0, (st (grp0 (w { jdev .scan with bzl := { f2h := lkf, h2f := lk } } en0) { cur := some mv })), default,
     mv, (0, 0), by unfold FrameIn; decide +kernel, by decide +kernel⟩,
   ⟨fr 4, default, st { dev .idle with bzl := { f2h := lkf, h2f := lk, applied := [0, 1] } },
     by unfold FrameIn; decide +kernel, by decide +kernel, by decide +kernel, nofun⟩,
   ⟨(fr 4), (st { dev .idle with bzl := { f2h := lkf, h2f := lk, cmds := [0, 1] } }), 0, 0,
     by unfold FrameIn; decide +kernel, by decide +kernel⟩,
   ⟨(fr 4), (st { dev .idle with bzl := { f2h := lkf, h2f := lk, cmds := [0, 1] } }), default,
     by unfold FrameIn; decide +kernel, by decide +kernel⟩,
   ⟨(fr 4), 0, [1,2], (st { dev .idle with bzl := { f2h := lkf, h2f := lk, cmds := [0, 1] } }),
     by unfold FrameIn; decide +kernel, by decide +kernel⟩,
   ⟨(fr 4), 0, [1,2],
     (st (let d := w (dev .idle) [(Reg.PIX_CTRL, 4), (Reg.PIX_MAPSEL, 1)]; { d with bzl := { f2h := lkf, h2f := lk } })),
     by unfold FrameIn; decide +kernel, by decide +kernel⟩,
   ⟨(fr 2), ⟨31, true, 1, 2, 3, 4, 5, 6, 1200000, 2⟩,
     (st { dev .standby with bzl := { f2h := lkf, h2f := lk, goodStatus := 2 } }), by unfold FrameIn; decide +kernel,
     by decide +kernel⟩,
   ⟨(fr 2), ⟨31, true, 1, 2, 3, 4, 5, 6, 1200000, 2⟩,
     (st { dev .idle with bzl := { f2h := lkf, h2f := lk, cmds := [0, 1] } }), by unfold FrameIn; decide +kernel,
     by decide +kernel⟩,
   ⟨(fr 2), ⟨31, false, 1, 2, 3, 4, 5, 6, 7, 2⟩,
     (st (grp0 (w { jdev .scan with bzl := { f2h := lkf, h2f := lk } } en0) { cur := some mv })),
     by unfold FrameIn; decide +kernel, by decide +kernel⟩,
   ⟨(st { dev .standby with bzl := { f2h := lkf, h2f := lk, goodStatus := 2 } }), by decide +kernel⟩⟩
end W.BezelTrafficAndStatus

namespace W.StrokeFrames
def fr (t : Nat) : Frame := sealFrame (newFrame t 0 [])
def lk : Link := { map := 7, spares := 8, up := true }
def lkf : Link := { map := 0x3FFFFF, spares := 0xC00000, up := true }
def tr0 (n : Nat) : List Byte := be 6 n ++ List.replicate 46 0 ++ beW (crc32c []) ++ List.replicate 4 0
def tr (n : Nat) : List Byte := tr0 n ++ beW (crc32c (tr0 n))
theorem wit_StrokeFrames :
    (∃ (s : State), s.d.bzl.f2h.up = true ∧ s.d.bzl.f2h.retry.length ≤ 64 ∧ s.d.bzl.f2h.txSeq < 65536) ∧
    (∃ (f : Frame) (s : State), FrameIn s.d Dir.f2h f ∧ f.typ = 1 ∧ f.first = true ∧ f.offset = 0 ∧ f.last = false) ∧
    (∃ (f : Frame) (a : Assembly) (s : State), FrameIn s.d Dir.f2h f ∧ f.typ = 1 ∧ s.d.bzl.asm = some a ∧ f.first =
      false ∧ BitVec.toNat a.tag = f.tag ∧ f.offset = a.bytes.length ∧ f.last = false) ∧
    (∃ (f : Frame) (s : State), FrameIn s.d Dir.f2h f ∧ f.typ = 1 ∧ f.first = true ∧ f.offset = 0 ∧ f.last = true ∧
      64 ≤ f.payload.length ∧ tCrcOk (List.drop (f.payload.length - 64) f.payload) = false) ∧
    (∃ (f : Frame) (s : State), FrameIn s.d Dir.f2h f ∧ f.typ = 1 ∧ f.first = true ∧ f.offset = 0 ∧ f.last = true ∧
      64 ≤ f.payload.length ∧ tCrcOk (List.drop (f.payload.length - 64) f.payload) = true ∧ f.payload.length =
      tPayload (List.drop (f.payload.length - 64) f.payload) + 64 ∧ beW (crc32c (List.take (f.payload.length - 64)
      f.payload)) = slice (List.drop (f.payload.length - 64) f.payload) 52 4 ∧ tNo (List.drop (f.payload.length - 64)
      f.payload) ≤ s.d.pages.lastIng) ∧
    (∃ (f : Frame) (s : State), FrameIn s.d Dir.f2h f ∧ f.typ = 1 ∧ f.first = true ∧ f.offset = 0 ∧ f.last = true ∧
      64 ≤ f.payload.length ∧ tCrcOk (List.drop (f.payload.length - 64) f.payload) = true ∧ f.payload.length =
      tPayload (List.drop (f.payload.length - 64) f.payload) + 64 ∧ beW (crc32c (List.take (f.payload.length - 64)
      f.payload)) = slice (List.drop (f.payload.length - 64) f.payload) 52 4 ∧ s.d.pages.lastIng < tNo (List.drop
      (f.payload.length - 64) f.payload) ∧ s.d.jobHeld = false) ∧
    (∃ (s : State), s.d.pages.discard = true) :=
  ⟨⟨(st { dev .idle with bzl := { f2h := lkf, h2f := lk, stage := [fr 1, { fr 1 with last := true, payload := [7] }] } }),
     by decide +kernel⟩,
   ⟨(sealFrame { fr 1 with first := true, tag := 9, payload := [1, 2], len := 2 }),
     (st { dev .idle with bzl := { f2h := lkf, h2f := lk, stage := [fr 1, { fr 1 with last := true, payload := [7] }] } }),
     by unfold FrameIn; decide +kernel, by decide +kernel⟩,
   ⟨(sealFrame { fr 1 with tag := 9, payload := [3], offset := 2, len := 1 }), ⟨9, [1, 2]⟩,
     (st { jdev .scan with bzl := { f2h := lkf, h2f := lk, asm := some ⟨9, [1, 2]⟩ } }),
     by unfold FrameIn; decide +kernel, by decide +kernel⟩,
   ⟨(sealFrame { fr 1 with first := true, last := true, payload := List.replicate 64 1, len := 64 }),
     (st { dev .idle with bzl := { f2h := lkf, h2f := lk, stage := [fr 1, { fr 1 with last := true, payload := [7] }] } }),
     by unfold FrameIn; decide +kernel, by decide +kernel⟩,
   ⟨(sealFrame { fr 1 with first := true, last := true, payload := tr 5, len := 64 }),
     (st { dev .idle with pages := { lastIng := 6, discard := true }, flt := { why := 16 }, hold := 16 }),
     by unfold FrameIn; decide +kernel, by decide +kernel⟩,
   ⟨(sealFrame { fr 1 with first := true, last := true, payload := tr 5, len := 64 }),
     (st { dev .idle with bzl := { f2h := lkf, h2f := lk, stage := [fr 1, { fr 1 with last := true, payload := [7] }] } }),
     by unfold FrameIn; decide +kernel, by decide +kernel⟩,
   ⟨(st { dev .idle with pages := { lastIng := 6, discard := true }, flt := { why := 16 }, hold := 16 }),
     by decide +kernel⟩⟩
end W.StrokeFrames

namespace W.BezelLanes
def fr (t : Nat) : Frame := sealFrame (newFrame t 0 [])
def lk : Link := { map := 7, spares := 8, up := true }
def lkf : Link := { map := 0x3FFFFF, spares := 0xC00000, up := true }
def bz (d : Dev) (a b : Link) : Dev := { d with bzl := { d.bzl with f2h := a, h2f := b } }
theorem wit_BezelLanes :
    (∃ (r : Dir) (n : Nat) (s : State), n < lanesOf r ∧ bit (s.d.bzlLink r).bad n = false ∧ s.d.recurs 2 1 (laneUnit
      r n) = none ∧ bit (s.d.bzlLink r).map n = true) ∧
    (∃ (r : Dir) (n : Nat) (s : State), n < lanesOf r ∧ bit (s.d.bzlLink r).bad n = false ∧ s.d.recurs 2 1 (laneUnit
      r n) = none ∧ bit (s.d.bzlLink r).map n = false ∧ bit (s.d.bzlLink r).spares n = true) ∧
    (∃ (r : Dir) (n : Nat) (s : State) (e : Nat), n < lanesOf r ∧ bit (s.d.bzlLink r).bad n = false ∧ s.d.recurs 2 1
      (laneUnit r n) = none ∧ s.d.rd Reg.PWR_BZL_DEG_N ≤ e ∧ bit (s.d.bzlLink r).map n = true) ∧
    (∃ (r : Dir) (n : Nat) (s : State) (e : Nat), n < lanesOf r ∧ bit (s.d.bzlLink r).bad n = false ∧ s.d.recurs 2 1
      (laneUnit r n) = none ∧ e < s.d.rd Reg.PWR_BZL_DEG_N) ∧
    (∃ (r : Dir) (n : Nat) (k : Nat) (s : State), bitsOf (s.d.bzlLink r).bad (lanesOf r) = [n] ∧ (s.d.bzlLink
      r).spare? = some k ∧ bit (s.d.bzlLink r).map n = true ∧ bit (s.d.bzlLink r).map k = false) ∧
    (∃ (r : Dir) (n : Nat) (s : State), n < lanesOf r ∧ bit (s.d.bzlLink r).retrain n = true) ∧
    (∃ (r : Dir) (n : Nat) (s : State), bit (s.d.bzlLink r).test n = true ∧ (s.d.bzlLink r).todo = [] ∧ s.d.cal.run =
      none ∧ (∀ x ∈ (s.d.bzlLink r).swap, x.1 ≠ n)) ∧
    (∃ (r : Dir) (n : Nat) (s : State), bit (s.d.bzlLink r).test n = true ∧ (s.d.bzlLink r).todo = [] ∧ s.d.cal.run =
      none ∧ (∀ x ∈ (s.d.bzlLink r).swap, x.1 ≠ n)) ∧
    (∃ (r : Dir) (n : Nat) (k : Nat) (s : State), bit (s.d.rd Reg.CAL_CTRL) 2 = true ∧ bit (s.d.bzlLink r).map n =
      true ∧ bit (s.d.bzlLink r).bad n = false ∧ (s.d.bzlLink r).retrain = 0 ∧ (s.d.bzlLink r).test = 0 ∧ s.d.rd
      Reg.CAL_DTEMP < (sext 16 (s.d.laneTemp r) - sext 16 (s.d.rf (laneWord r n) 31 16)).natAbs ∧ (∀ m < n,
      s.d.laneDue r m = false) ∧ (s.d.bzlLink r).spare? = some k) ∧
    (∃ (c : CalRun) (n : Nat) (t : List Nat) (s : State), s.d.cal.run = some c ∧ c.kind = 3 ∧ s.d.bzl.f2h.todo = n ::
      t ∧ bit s.d.bzl.f2h.map n = true ∧ s.d.bzl.f2h.spares = 0 ∧ s.d.bzl.f2h.retrain = 0 ∧ s.d.bzl.f2h.test = 0) :=
  ⟨⟨.f2h, 0, (st (bz (dev .scan) lkf lk)), by decide +kernel⟩,
   ⟨.f2h, 22, (st (bz (dev .scan) lkf lk)), by decide +kernel⟩,
   ⟨.f2h, 0, (st (bz (dev .scan) lkf lk)), 22, by decide +kernel⟩,
   ⟨.f2h, 0, (st (bz (dev .scan) lkf lk)), 0, by decide +kernel⟩,
   ⟨.f2h, 0, 22, (st (bz (dev .scan) { lkf with bad := 1 } lk)), by decide +kernel⟩,
   ⟨.f2h, 0, (st (bz (dev .scan) { lkf with retrain := 1, bad := 2 } { lk with test := 2 })), by decide +kernel⟩,
   ⟨.f2h, 0, (st (bz (dev .idle) { lkf with map := 0x3FFFFE, test := 1 } { lk with map := 5, test := 2 })),
     by decide +kernel⟩,
   ⟨.f2h, 0, (st (bz (dev .idle) { lkf with map := 0x3FFFFE, test := 1 } { lk with map := 5, test := 2 })),
     by decide +kernel⟩,
   ⟨.f2h, 0, 22,
     (st (w (bz (dev .idle) lkf lk) [(Reg.CAL_CTRL, 4), (Reg.CAL_DTEMP, 16), (Reg.CAL_LANE_F2H 0, 0x01000000), (Reg.CAL_LANE_H2F 0, 0x01000000)])),
     by decide +kernel⟩,
   ⟨{ (default : CalRun) with kind := 3 }, 0, [],
     (st { bz (dev .idle) { lkf with spares := 0, todo := [0] } lk with cal := { run := some { (default : CalRun) with kind := 3 } }, ops := [⟨.calRun, 1, 3⟩] }),
     by decide +kernel⟩⟩
end W.BezelLanes

namespace W.BezelLinkAndClocks
def fr (t : Nat) : Frame := sealFrame (newFrame t 0 [])
def lk : Link := { map := 7, spares := 8, up := true }
def lkf : Link := { map := 0x3FFFFF, spares := 0xC00000, up := true }
def bz (d : Dev) (a b : Link) : Dev := { d with bzl := { d.bzl with f2h := a, h2f := b } }
theorem wit_BezelLinkAndClocks :
    (∃ (s : State), 3 * 1048576 ≤ 4 * s.d.staged) ∧
    (∃ (r : Dir) (s : State), (s.d.bzlLink r).up = true ∧ s.d.fieldRuns = true ∧ s.d.regs.com = none ∧ s.d.recurs 2 3
      0 = none) ∧
    (∃ (s : State), s.d.bzl.localOsc = false) ∧
    (∃ (s : State), s.d.bzl.localOsc = false ∧ s.d.bzl.holdover = true ∧ s.d.bzl.h2f.map &&& (15 ^^^ s.d.bzl.h2f.bad)
      ≠ 0) ∧
    (∃ (s : State), s.d.bzl.holdover = true ∧ s.d.bzl.inhibit = false ∧ s.d.fieldRuns = true ∧ s.d.mode ≠
      Mode.calibrate ∧ s.d.regs.com = none ∧ s.d.recurs 2 3 0 = none) ∧
    (∃ (lat : Nat) (s : State), s.d.fieldRuns = true ∧ s.d.mode ≠ Mode.wake ∧ s.d.bzl.rootLock = true) ∧
    (∃ (s : State), s.d.bzl.f2h.up = true ∧ s.d.bzl.h2f.up = true ∧ s.d.bzl.inhibit = false ∧ 4 * s.d.staged <
      1048576) ∧
    (∃ (s : State), s.d.bzl.rootLock = true ∧ s.d.recurs 3 1 0 = none) ∧
    (∃ (s : State), s.d.mode ≠ Mode.calibrate ∧ s.d.regs.com = none) ∧
    (∃ (s : State), s.d.bzl.xtalDead = true ∧ s.d.mode ≠ Mode.off) :=
  ⟨⟨_, staged_big { fr 1 with payload := List.replicate 800000 0 } (List.length_replicate ..)⟩,
   ⟨.f2h, (st (bz (dev .idle) lkf lk)), by decide +kernel⟩,
   ⟨(st (bz (dev .idle) lkf lk)), by decide +kernel⟩,
   ⟨(st (bz { jdev .scan with seq := { en := true }, bzl := { holdover := true } } lkf lk)), by decide +kernel⟩,
   ⟨(st (bz { jdev .scan with seq := { en := true }, bzl := { holdover := true } } lkf lk)), by decide +kernel⟩,
   ⟨0, (st (bz (dev .idle) lkf lk)), by decide +kernel⟩,
   ⟨(st (bz (dev .idle) lkf lk)), by decide +kernel⟩,
   ⟨(st (bz (dev .idle) lkf lk)), by decide +kernel⟩,
   ⟨(st (bz (dev .idle) lkf lk)), by decide +kernel⟩,
   ⟨(st { jdev .scan with bzl := { xtalDead := true, rootLock := false } }), by decide +kernel⟩⟩
end W.BezelLinkAndClocks

namespace W.ProfileAndCox
def pg (a : Nat) : Page := { (default : Page) with alloc := a }
def fill (d : Dev) (a : Nat) : Dev := { d with pages := { d.pages with list := [pg a] } }
def cx (d : Dev) (n : Nat) : Dev := { d with cox := { d.cox with st := n } }
theorem wit_ProfileAndCox :
    (∃ (s : State), (∀ (a : Nat), (s.d.ax a).home = none) ∧ s.d.mode ≠ Mode.homing ∧ (∀ g < 4, (s.d.grp g).st =
      GSt.rest ∧ (s.d.grp g).hard = false ∧ (s.d.grp g).stopDue = false)) ∧
    (∃ (g : Nat) (m : Move) (s : State), g < 4 ∧ (s.d.grp g).st = GSt.run ∧ (s.d.grp g).cur = some m ∧ (s.d.grp
      g).intern = 0 ∧ (s.d.grp g).hard = false ∧ (s.d.grp g).stopDue = false ∧ (s.d.grp g).stopAt = none ∧ (s.d.grp
      g).paceNext = none ∧ (s.d.grp g).v ≤ m.vmax * motHz) ∧
    (∃ (s : State), s.d.mode ≠ Mode.scan ∧ s.d.mode ≠ Mode.splice ∧ bit s.d.hold hcPace = false) ∧
    (∃ (s : State), s.d.mode = Mode.scan ∧ s.d.jobHeld = true ∧ bit s.d.hold hcPace = false ∧ s.d.rd
      Reg.COX_HOLD_MARK * 1048576 ≤ s.d.pageFill) ∧
    (∃ (s : State), s.d.mode = Mode.scan ∧ s.d.jobHeld = true ∧ s.d.cox.st = 1 ∧ s.d.rf Reg.COX_CTRL 0 0 = 1 ∧
      s.d.pageFill < s.d.rd Reg.COX_HOLD_MARK * 1048576 ∧ s.d.rd Reg.COX_HWM * 1048576 ≤ s.d.pageFill ∧ s.d.rd
      Reg.COX_VMIN ≤ s.d.lawSpeed s.d.drainRate ∧ s.d.bzl.wait = [] ∧ s.d.bzl.h2f.room = true) ∧
    (∃ (s : State), s.d.mode = Mode.hold ∧ bit s.d.hold hcPace = true ∧ s.d.pageFill < s.d.rd Reg.COX_LWM * 1048576) :=
  ⟨⟨(st (dev .idle)), home_of (by decide +kernel), by decide +kernel⟩,
   ⟨0, mv, (st (grp0 (w (dev .idle) en0) { st := .run, cur := some mv, v := 9 })), by decide +kernel⟩,
   ⟨(st (dev .idle)), by decide +kernel⟩,
   ⟨(st (fill (w (jdev .scan) [(Reg.COX_HOLD_MARK, 1)]) 2000000)), by decide +kernel⟩,
   ⟨(st { (cx (fill (w (jdev .scan) [(Reg.COX_CTRL, 1), (Reg.COX_HOLD_MARK, 100), (Reg.COX_HWM, 64), (Reg.COX_VMIN, 0)]) 70000000) 1) with bzl := { h2f := { up := true } } }),
     by decide +kernel⟩,
   ⟨(st { jdev .hold with hold := 18 }), by decide +kernel⟩⟩
end W.ProfileAndCox

namespace W.BoundaryEntryAndEdges
def tr0 (n k : Nat) : List Byte := be 6 n ++ be 2 0 ++ be 8 0 ++ be 8 0 ++ be 6 k ++ be 1 16 ++ List.replicate 21 0
  ++ beW (crc32c []) ++ List.replicate 4 0
def tr (n k : Nat) : List Byte := tr0 n k ++ beW (crc32c (tr0 n k))
def ing (n k : Nat) : Ing := ⟨tr n k, [], [], 0, 1048576, false, none⟩
def cat (d : Dev) (p : List (Nat × Nat)) : Dev := { d with seq := { d.seq with en := true, pend := p } }
def enc (d : Dev) (n : Int) : Dev := { d with mot := { d.mot with enc := n :: List.replicate 5 0 } }
def ea (d : Dev) (x : Bool × Bool) : Dev :=
  { d with mot := { d.mot with encAB := x :: List.replicate 5 (false, false) } }
theorem wit_BoundaryEntryAndEdges :
    (∃ (s : State), s.d.mode = Mode.scan ∧ s.d.hold ≠ 0 ∧ s.d.jobHeld = true ∧ s.d.regs.com = none ∧ s.d.flt.poison =
      [] ∧ s.d.pages.stopPages = none) ∧
    (∃ (g : Nat) (r : Ing) (l : List Ing) (s : State), s.d.mode = Mode.hold ∧ s.d.feed = some g ∧ g <
      s.d.mot.groups.length ∧ s.d.hold = 0 ∧ s.d.feedStill = true ∧ (∀ a ∈ s.d.groupAxes g, (s.d.ax a).valid = true)
      ∧ s.d.cls.fixed = true ∧ s.d.cls.refs = r :: l ∧ s.d.cls.staging = []) ∧
    (∃ (g : Nat) (s : State), s.d.mode = Mode.hold ∧ s.d.feed = some g ∧ s.d.hold = 0 ∧ s.d.feedStill = true ∧
      (((s.d.groupAxes g).any fun (a : Nat) => !(s.d.ax a).valid) = true)) ∧
    (∃ (g : Nat) (s : State), s.d.mode = Mode.hold ∧ s.d.feed = some g ∧ s.d.hold = 0 ∧ s.d.feedStill = true ∧ (∀ a ∈
      s.d.groupAxes g, (s.d.ax a).valid = true) ∧ s.d.cls.fixed = true ∧ s.d.cls.refs = [] ∧ (s.d.grp g).cur.isSome =
      true) ∧
    (∃ (e : Nat) (b : Bool) (ab : Bool × Bool) (held : Nat) (t : Nat) (s : State), t ≤ s.d.now ∧ e < 6 ∧ e <
      s.d.mot.enc.length ∧ e < s.d.mot.encAB.length ∧ s.d.mot.encAB.getD e (false, false) = ab ∧ s.d.rf
      (Reg.MOT_ENC_CFG e) 3 0 < held ∧ e ≠ s.d.rf Reg.SEQ_CTRL 15 12) ∧
    (∃ (e : Nat) (b : Bool) (ab : Bool × Bool) (held : Nat) (t : Nat) (s : State) (level : Bool), t ≤ s.d.now ∧ e < 6
      ∧ e < s.d.mot.enc.length ∧ e < s.d.mot.encAB.length ∧ s.d.mot.encAB.getD e (false, false) = ab ∧ held ≤ s.d.rf
      (Reg.MOT_ENC_CFG e) 3 0) ∧
    (∃ (t : Nat) (k : Nat) (held : Nat) (b : Bool) (ab : Bool × Bool) (c : Int) (s : State), t ≤ s.d.now ∧ s.d.rf
      Reg.SEQ_CTRL 15 12 < 6 ∧ s.d.mot.encAB.getD (s.d.rf Reg.SEQ_CTRL 15 12) (false, false) = ab ∧ leads b ab = true
      ∧ s.d.rf (Reg.MOT_ENC_CFG (s.d.rf Reg.SEQ_CTRL 15 12)) 3 0 < held ∧ s.d.rf Reg.SEQ_CTRL 15 12 <
      s.d.mot.enc.length ∧ s.d.rf Reg.SEQ_CTRL 8 8 = 0 ∧ s.d.rf Reg.SEQ_CTRL 0 0 = 0 ∧ s.d.mot.enc.getD (s.d.rf
      Reg.SEQ_CTRL 15 12) 0 = c ∧ -2 ^ 47 ≤ c ∧ c + 1 < 2 ^ 47 ∧ k = (s.d.seq.index ((c + 1) * 65536 + 65535)).toNat
      ∧ s.d.mode ≠ Mode.splice ∧ s.d.seq.en = true ∧ s.d.seq.pend = [] ∧ s.d.seq.limit = false ∧ s.d.owBusy = false ∧
      s.d.seq.passed < k ∧ s.d.seq.high < k) ∧
    (∃ (t : Nat) (held : Nat) (b : Bool) (ab : Bool × Bool) (c : Int) (s : State), t ≤ s.d.now ∧ s.d.rf Reg.SEQ_CTRL
      15 12 < 6 ∧ s.d.mot.encAB.getD (s.d.rf Reg.SEQ_CTRL 15 12) (false, false) = ab ∧ leads b ab = false ∧ s.d.rf
      (Reg.MOT_ENC_CFG (s.d.rf Reg.SEQ_CTRL 15 12)) 3 0 < held ∧ s.d.rf Reg.SEQ_CTRL 15 12 < s.d.mot.enc.length ∧
      s.d.rf Reg.SEQ_CTRL 8 8 = 0 ∧ s.d.mot.enc.getD (s.d.rf Reg.SEQ_CTRL 15 12) 0 = c ∧ -2 ^ 47 < c ∧ c < 2 ^ 47) ∧
    (∃ (e : Nat) (t : Nat) (ab : Bool × Bool) (s : State), t ≤ s.d.now ∧ e < 6 ∧ e < s.d.mot.encAB.length ∧
      s.d.mot.encAB.getD e (false, false) = ab ∧ s.d.seq.en = true ∧ e = s.d.rf Reg.SEQ_CTRL 15 12) ∧
    (∃ (e : Nat) (t : Nat) (ab : Bool × Bool) (s : State), t ≤ s.d.now ∧ e < 6 ∧ e < s.d.mot.encAB.length ∧
      s.d.mot.encAB.getD e (false, false) = ab ∧ (s.d.seq.en = false ∨ e ≠ s.d.rf Reg.SEQ_CTRL 15 12)) ∧
    (∃ (e : Nat) (held : Nat) (s : State), (∀ (a : Nat), (s.d.ax a).home = none) ∧ e < 6 ∧ e < s.d.mot.encZ.length ∧
      s.d.rf (Reg.MOT_ENC_CFG e) 3 0 < held) ∧
    (∃ (e : Nat) (held : Nat) (s : State), (∀ (a : Nat), (s.d.ax a).home = none) ∧ e < 6 ∧ e < s.d.mot.encZ.length) :=
  ⟨⟨(st { jdev .scan with hold := 2 }), by decide +kernel⟩,
   ⟨0, (ing 5 100), [], (st { jdev .hold with cls := { fixed := true, refs := [ing 5 100] } }), by decide +kernel⟩,
   ⟨0, (st (grp0 (w { jdev .hold with cls := { fixed := true } } en0) { cur := some mv })), by decide +kernel⟩,
   ⟨0, (st (grp0 { jdev .hold with cls := { fixed := true } } { cur := some mv })), by decide +kernel⟩,
   ⟨1, true, (false, false), 50, 0, (st { jdev .scan with hold := 2 }), by decide +kernel⟩,
   ⟨0, true, (false, false), 0, 0, (st { jdev .scan with hold := 2 }), true, by decide +kernel⟩,
   ⟨0, 1, 50, true, (true, false), 15, (st (ea (enc { cat (dev .idle) [] with now := 100 } 15) (true, false))),
     by decide +kernel⟩,
   ⟨0, 50, true, (false, false), 15, (st (enc { cat (dev .idle) [] with now := 100 } 15)), by decide +kernel⟩,
   ⟨0, 0, (false, false), (st (enc { cat (dev .idle) [] with now := 100 } 15)), by decide +kernel⟩,
   ⟨0, 0, (false, false), (st { jdev .scan with hold := 2 }), by decide +kernel⟩,
   ⟨0, 50, (st { jdev .scan with hold := 2 }), home_of (by decide +kernel), by decide +kernel⟩,
   ⟨0, 0, (st { jdev .scan with hold := 2 }), home_of (by decide +kernel), by decide +kernel⟩⟩
end W.BoundaryEntryAndEdges

namespace W.CatchesAndWatchdog
def cat (d : Dev) (p : List (Nat × Nat)) (l : Option Nat) : Dev :=
  { d with seq := { d.seq with en := true, pend := p, last := l } }
def stk : Stroke := { (default : Stroke) with k := 3 }
theorem wit_CatchesAndWatchdog :
    (∃ (t : Nat) (s : State) (k : Nat) (r : Nat) (l : List (Nat × Nat)), s.d.regs.com = none ∧ s.d.regs.held = [] ∧
      s.d.cal.due = [] ∧ s.d.cal.held = [] ∧ s.d.seq.withhold = false ∧ s.d.seq.pend = (k, r) :: l ∧ s.d.earliest ≤
      r) ∧
    (∃ (t : Nat) (s : State) (k : Nat) (r : Nat) (l : List (Nat × Nat)), s.d.regs.com = none ∧ s.d.regs.held = [] ∧
      s.d.cal.due = [] ∧ s.d.cal.held = [] ∧ s.d.seq.withhold = false ∧ s.d.seq.pend = (k, r) :: l ∧ r <
      s.d.earliest) ∧
    (∃ (t : Nat) (s : State) (k : Nat) (r : Nat) (l : List (Nat × Nat)), s.d.regs.com = none ∧ s.d.regs.held = [] ∧
      s.d.cal.due = [] ∧ s.d.cal.held = [] ∧ s.d.seq.withhold = false ∧ s.d.seq.pend = (k, r) :: l ∧ r <
      s.d.earliest) ∧
    (∃ (t : Nat) (s : State), s.d.regs.com = none ∧ s.d.regs.held = [] ∧ s.d.cal.due = [] ∧ s.d.cal.held = [] ∧
      s.d.seq.withhold = false ∧ s.d.seq.en = true ∧ s.d.rf Reg.SEQ_CTRL 0 0 = 1 ∧ s.d.owBusy = false) ∧
    (∃ (s : State), s.d.seq.flushDue = true ∧ s.d.seq.en = false ∧ s.d.seq.pend = [] ∧ s.d.regs.com = none) ∧
    (∃ (s : State), s.d.wdogRuns = true) ∧
    (∃ (s : State), s.d.wdogRuns = false) :=
  ⟨⟨500, (st (cat (jdev .scan) [(1, 500)] none)), 1, 500, [], by decide +kernel⟩,
   ⟨500, (st (cat (jdev .scan) [(1, 500)] (some 400))), 1, 500, [], by decide +kernel⟩,
   ⟨500, (st (cat (jdev .scan) [(1, 500)] (some 400))), 1, 500, [], by decide +kernel⟩,
   ⟨500, (st (cat (w (dev .idle) [(Reg.SEQ_CTRL, 1)]) [] none)), by decide +kernel⟩,
   ⟨(st { dev .idle with seq := { flushDue := true, flight := [stk] } }), by decide +kernel⟩,
   ⟨(st (grp0 (jdev .scan) { st := .run, v := 1000 * motHz })), by decide +kernel⟩,
   ⟨(st (cat (jdev .scan) [(1, 500)] none)), by decide +kernel⟩⟩
end W.CatchesAndWatchdog

namespace W.Lanes
def dig0 : List (Nat × Nat) := [(Reg.SEQ_H_CTRL 0, 2), (Reg.SEQ_H_LANES 0, 0x105)]
def stk : Stroke := { (default : Stroke) with k := 3, lagDone := true, cfg := (w (dev .idle) dig0).regs.act }
def dig : List (Nat × Nat) := [(Reg.SEQ_H_CTRL 0, 2), (Reg.SEQ_H_LANES 0, 0x105)]
def wait (d : Dev) : Dev := { d with seq := { d.seq with scanWait := true } }
theorem wit_Lanes :
    (∃ (l : Nat) (s : State), l < 256 ∧ s.d.fieldRuns = true ∧ s.d.seq.scanWait = false ∧ s.d.seq.bandWait = false) ∧
    (∃ (l : Nat) (s : State), l < 256 ∧ s.d.mode = Mode.idle ∧ s.d.seq.scanWait = true ∧ (∀ x ∈ lanesNeeded
      s.d.regs.act, bit (setBit s.d.seq.lanes l) x = true)) ∧
    (∃ (s : State), s.d.lanesMissing ≠ [] ∧ s.d.seq.scanWait = true) ∧
    (∃ (s : State), s.d.lanesMissing = []) ∧
    (∃ (l : Nat) (s : State), l ∈ lanesNeeded s.d.regs.act ∧ s.d.mode = Mode.scan ∧ s.d.recurs 7 1 l = none ∧
      ((s.d.seq.flight.any fun (x : Stroke) => x.expects l) = true)) ∧
    (∃ (l : Nat) (s : State), l ∈ lanesNeeded s.d.regs.act ∧ s.d.mode = Mode.scan ∧ s.d.recurs 7 1 l = none ∧
      ((s.d.seq.flight.any fun (x : Stroke) => x.px.isNone && (lanesNeeded x.cfg).contains l) = true)) ∧
    (∃ (l : Nat) (s : State), l ∈ lanesNeeded s.d.regs.act ∧ s.d.mode = Mode.scan ∧ s.d.recurs 7 1 l = none ∧
      ((s.d.seq.flight.any fun (x : Stroke) => x.expects l) = true)) ∧
    (∃ (l : Nat) (s : State), ((s.d.seq.flight.any fun (x : Stroke) => x.expects l) = false)) ∧
    (∃ (l : Nat) (s : State), l < 256 ∧ ((s.d.seq.flight.any fun (x : Stroke) => x.expects l) = false)) :=
  ⟨⟨5, (st (w (dev .idle) dig)), by decide +kernel⟩,
   ⟨5, (st (wait (w (jdev .idle) dig))), by decide +kernel⟩,
   ⟨(st (wait (w (jdev .idle) dig))), by decide +kernel⟩,
   ⟨(st (dev .idle)), by decide +kernel⟩,
   ⟨5, (st { w (jdev .scan) dig with seq := { en := true, flight := [stk] } }), by decide +kernel⟩,
   ⟨5, (st { w (jdev .scan) dig with seq := { en := true, flight := [stk] } }), by decide +kernel⟩,
   ⟨5, (st { w (jdev .scan) dig with seq := { en := true, flight := [stk] } }), by decide +kernel⟩,
   ⟨5, (st (wait (w (jdev .idle) dig))), by decide +kernel⟩,
   ⟨5, (st (wait (w (jdev .idle) dig))), by decide +kernel⟩⟩
end W.Lanes

namespace W.PipelineAndTrailer
def stk : Stroke := { (default : Stroke) with k := 3 }
def pxo : PxOut := { (default : PxOut) with payload := [1, 2], width := 1 }
theorem wit_PipelineAndTrailer :
    (∃ (x : Stroke) (l : List Stroke) (data : List SourceData) (s : State), s.d.seq.flight = x :: l ∧ x.px = none ∧
      x.lags = false ∧ lanesBad x.cfg data = [] ∧ s.d.regs.com = none) ∧
    (∃ (x : Stroke) (p : PxOut) (l : List Stroke) (s : State), s.d.seq.flight = x :: l ∧ x.px = some p ∧ x.waits = []
      ∧ s.d.cal.run = none ∧ s.d.seq.strokeNo + 1 < 2 ^ 48) ∧
    (∃ (x : Stroke) (p : PxOut) (l : List Stroke) (s : State), s.d.seq.flight = x :: l ∧ x.px = some p ∧ x.waits = []
      ∧ s.d.mode ≠ Mode.calibrate ∧ s.d.recurs 8 3 0 = none) :=
  ⟨⟨stk, [], [], (st { jdev .scan with seq := { flight := [stk] } }), by decide +kernel⟩,
   ⟨{ stk with px := some pxo }, pxo, [stk],
     (st { jdev .scan with seq := { flight := [{ stk with px := some pxo }, stk], strokeNo := 8 } }),
     by decide +kernel⟩,
   ⟨{ stk with px := some pxo }, pxo, [stk],
     (st { jdev .scan with seq := { flight := [{ stk with px := some pxo }, stk], strokeNo := 8 } }),
     by decide +kernel⟩⟩
end W.PipelineAndTrailer

namespace W.ConverterCores
def qd (d : Dev) (q : Quad) : Dev := { d with afe := { d.afe with quads := q :: d.afe.quads.drop 1 } }
def stk : Stroke := { (default : Stroke) with k := 3 }
def q0 : Quad := ⟨none, [16], [], [], 0, []⟩
theorem wit_ConverterCores :
    (∃ (q : Nat) (k : Nat) (s : State), q < 4 ∧ (s.d.quad q).ready = some k ∧ s.d.rf Reg.AFE_ROT_CTRL 0 0 = 1 ∧
      s.d.bzl.fieldLock = true ∧ s.d.fieldRuns = true ∧ (s.d.quad q).failCh = [] ∧ 16 * q + (s.d.quad q).turn <
      s.d.afe.core.length) ∧
    (∃ (ch : Nat) (s : State), ch < 64 ∧ s.d.fieldRuns = true ∧ s.d.mode ≠ Mode.calibrate ∧ (s.d.quad (ch /
      16)).canMask = true ∧ ch / 16 < s.d.afe.quads.length) ∧
    (∃ (ch : Nat) (s : State), ch < 64 ∧ s.d.mode = Mode.scan ∧ ch / 16 < s.d.afe.quads.length ∧ (s.d.quad (ch /
      16)).canMask = false ∧ s.d.regs.com = none) ∧
    (∃ (q : Nat) (ch : Nat) (k : Nat) (cs : List Nat) (s : State), (s.d.quad q).failCh = ch :: cs ∧ s.d.standIn q =
      some k ∧ ch < s.d.afe.core.length) ∧
    (∃ (k : Nat) (s : State), k < 68 ∧ (s.d.quad (k / 17)).cal.contains k = true ∧ s.d.cal.run = none ∧ (s.d.quad (k
      / 17)).retired.contains k = false ∧ s.d.rd (Reg.CAL_TQ (k / 17)) < 65536 ∧ (s.d.quad (k /
      17)).probation.contains k = false) ∧
    (∃ (k : Nat) (s : State), k < 68 ∧ (s.d.quad (k / 17)).cal.contains k = true ∧ s.d.cal.run = none ∧ (s.d.quad (k
      / 17)).retired.contains k = false ∧ s.d.rd (Reg.CAL_TQ (k / 17)) < 65536 ∧ (s.d.quad (k / 17)).failCh = []) ∧
    (∃ (k : Nat) (s : State), k < 68 ∧ (s.d.quad (k / 17)).probation.contains k = true ∧ (s.d.quad (k /
      17)).cal.contains k = false) ∧
    (∃ (k : Nat) (s : State), k < 68 ∧ (s.d.quad (k / 17)).probation.contains k = true ∧ (s.d.quad (k /
      17)).cal.contains k = false ∧ (s.d.quad (k / 17)).failCh = []) ∧
    (∃ (k : Nat) (s : State), k < 68 ∧ (s.d.quad (k / 17)).cal.contains k = true ∧ (s.d.quad (k /
      17)).retired.contains k = true) ∧
    (∃ (k : Nat) (s : State), k < 68 ∧ (s.d.quad (k / 17)).cal.contains k = true ∧ (s.d.quad (k /
      17)).retired.contains k = true ∧ (s.d.quad (k / 17)).ready = none ∧ k / 17 < s.d.afe.quads.length) ∧
    (∃ (k : Nat) (s : State), k < 68) ∧
    (∃ (k : Nat) (s : State), k < 68 ∧ s.d.coreValid k = false) ∧
    (∃ (k : Nat) (s : State), k < 68 ∧ (s.d.coreValid k = true ∨ s.d.rf Reg.AFE_ROT_CTRL 0 0 = 1 ∨
      s.d.afe.core.contains k = false)) ∧
    (∃ (k : Nat) (s : State), k < 68 ∧ s.d.coreValid k = false ∧ s.d.rf Reg.AFE_ROT_CTRL 0 0 = 0 ∧
      s.d.afe.core.contains k = true) :=
  ⟨⟨0, 16, (st { qd (dev .idle) { q0 with ready := some 16, cal := [] } with bzl := { fieldLock := true } }),
     by decide +kernel⟩,
   ⟨0, (st (qd (dev .safe) ⟨none, [16], [], [16], 0, []⟩)), by decide +kernel⟩,
   ⟨0, (st (qd { jdev .scan with seq := { flight := [stk] } } { q0 with cal := [], retired := [16] })),
     by decide +kernel⟩,
   ⟨0, 3, 16, default, (st { qd (dev .scan) ⟨some 16, [], [], [], 0, [3]⟩ with hold := 16, flt := { why := 2 } }),
     by decide +kernel⟩,
   ⟨16, (st (w (qd (dev .idle) q0) [(Reg.AFE_ROT_CTRL, 0)])), by decide +kernel⟩,
   ⟨16, (st (w (qd (dev .idle) q0) [(Reg.AFE_ROT_CTRL, 0)])), by decide +kernel⟩,
   ⟨16, (st (qd (jdev .scan) ⟨none, [], [16], [], 0, []⟩)), by decide +kernel⟩,
   ⟨16, (st (qd (jdev .scan) ⟨none, [], [16], [], 0, []⟩)), by decide +kernel⟩,
   ⟨16, (st (qd (dev .safe) ⟨none, [16], [], [16], 0, []⟩)), by decide +kernel⟩,
   ⟨16, (st (qd (dev .safe) ⟨none, [16], [], [16], 0, []⟩)), by decide +kernel⟩,
   ⟨0, (st (qd (dev .safe) ⟨none, [16], [], [16], 0, []⟩)), by decide +kernel⟩,
   ⟨0, (st (qd (dev .safe) ⟨none, [16], [], [16], 0, []⟩)), by decide +kernel⟩,
   ⟨0, (st (qd (dev .safe) ⟨none, [16], [], [16], 0, []⟩)), by decide +kernel⟩,
   ⟨0, (st (w (qd (dev .idle) q0) [(Reg.AFE_ROT_CTRL, 0)])), by decide +kernel⟩⟩
end W.ConverterCores

namespace W.ConverterMonitorsAndMon
def bk (l : List (Nat × Nat)) : Dev :=
  { w (jdev .scan) [(Reg.AFE_T_CLAMP 0, 4), (Reg.CAL_BREF01 0, 0x01000000), (Reg.AFE_REF_CTRL, 0x300)] with afe := { blk := l } }
theorem wit_ConverterMonitorsAndMon :
    (∃ (t : Nat) (g : Nat) (m : Nat) (b : Nat) (s : State), t < 384 ∧ g < 3 ∧ m < 16384 ∧ 4 ≤ s.d.rf (Reg.AFE_T_CLAMP
      t) 15 0 ∧ s.d.blackWaits t = false ∧ s.d.bref t g = some b ∧ aget s.d.afe.blkStep t = none ∧ ((↑m : Int) - (↑b
      : Int)).natAbs ≤ s.d.rd Reg.AFE_BLK_LIMIT) ∧
    (∃ (t : Nat) (g : Nat) (m : Nat) (b : Nat) (s : State), t < 384 ∧ g < 3 ∧ m < 16384 ∧ 4 ≤ s.d.rf (Reg.AFE_T_CLAMP
      t) 15 0 ∧ s.d.blackWaits t = false ∧ s.d.bref t g = some b ∧ aget s.d.afe.blkStep t = none ∧ s.d.rd
      Reg.AFE_BLK_LIMIT < ((↑m : Int) - (↑b : Int)).natAbs ∧ aget s.d.afe.blk t = none) ∧
    (∃ (t : Nat) (g : Nat) (m : Nat) (b : Nat) (s : State) (no : Nat), t < 384 ∧ g < 3 ∧ m < 16384 ∧ 4 ≤ s.d.rf
      (Reg.AFE_T_CLAMP t) 15 0 ∧ s.d.blackWaits t = false ∧ s.d.bref t g = some b ∧ aget s.d.afe.blkStep t = none ∧
      s.d.rd Reg.AFE_BLK_LIMIT < ((↑m : Int) - (↑b : Int)).natAbs ∧ aget s.d.afe.blk t = some no ∧ s.d.mode ≠
      Mode.calibrate ∧ (s.d.quad (t / 6 / 16)).canMask = true ∧ t / 6 / 16 < s.d.afe.quads.length) ∧
    (∃ (s : State), s.d.rf Reg.AFE_REF_CTRL 8 8 = 1 ∧ s.d.fieldRuns = true ∧ s.d.mode ≠ Mode.calibrate) ∧
    (∃ (s : State), s.d.fieldRuns = true) ∧
    (∃ (ms : List (Nat × Nat × Nat × Nat)) (s : State), s.d.rf Reg.AFE_OW_CTRL 1 1 = 1) ∧
    (∃ (b : Bool) (s : State), s.d.fieldRuns = true ∧ s.d.rf (monCtrl b) 6 0 ≠ 0 ∧ (s.d.mon b).entry = none) ∧
    (∃ (b : Bool) (e : Nat) (x : BitVec 14) (y : BitVec 14) (s : State), (s.d.mon b).entry = some e ∧ (s.d.mon
      b).changed = none ∧ s.d.fieldRuns = true) ∧
    (∃ (b : Bool) (s : State), s.d.fieldRuns = true) ∧
    (∃ (h : Req) (i : Nat) (x : BitVec 14) (s : State), Ready h s.d ∧ i < 96 ∧ s.d.mode ≠ Mode.standby ∧ (s.d.mon
      (decide (48 ≤ i))).entry = none) ∧
    (∃ (h : Req) (i : Nat) (x : BitVec 14) (s : State), Ready h s.d ∧ i < 96 ∧ s.d.mode ≠ Mode.standby ∧ (s.d.mon
      (decide (48 ≤ i))).entry ≠ none) :=
  ⟨⟨0, 0, 0, 256, (st (bk [])), by decide +kernel⟩,
   ⟨0, 0, 1000, 256, (st (bk [])), by decide +kernel⟩,
   ⟨0, 0, 1000, 256, (st (bk [(0, 300)])), 300, by decide +kernel⟩,
   ⟨(st (bk [])), by decide +kernel⟩,
   ⟨(st (bk [])), by decide +kernel⟩,
   ⟨[(0, 100, 9000, 100)],
     (st (w (dev .idle) [(Reg.AFE_OW_CTRL, 2), (Reg.AFE_T_CFG 0, 1), (Reg.AFE_OW_THR, 0x800)])), by decide +kernel⟩,
   ⟨true, (st (w (dev .idle) [(Reg.MON_A_CTRL, 2), (Reg.MON_B_CTRL, 1)])), by decide +kernel⟩,
   ⟨true, 0, 77, 77,
     (st { w (dev .idle) [(Reg.MON_A_CTRL, 2), (Reg.MON_B_CTRL, 1)] with monA := { entry := some 0 }, monB := { entry := some 0 } }),
     by decide +kernel⟩,
   ⟨true, (st (bk [])), by decide +kernel⟩,
   ⟨rq, 0, 77, (st (bk [])), ready_of (by decide +kernel), by decide +kernel⟩,
   ⟨rq, 0, 77,
     (st { w (dev .idle) [(Reg.MON_A_CTRL, 2), (Reg.MON_B_CTRL, 1)] with monA := { entry := some 0 }, monB := { entry := some 0 } }),
     ready_of (by decide +kernel), by decide +kernel⟩⟩
end W.ConverterMonitorsAndMon

namespace W.CalibrationRuns
def hd : List (Nat × Nat) :=
  [(Reg.SEQ_H_CTRL 0, 2), (Reg.SEQ_H_LANES 0, 0x105), (Reg.LMP_C_CFG 0, 0x80080000), (Reg.PIX_MAPSEL, 0x01010101), (Reg.CAL_VREFX_UV, 1200000)]
def dv : Dev :=
  { w (dev .idle) hd with cal := { monRec := [(1, List.replicate 16 1000)] }, bzl := { f2h := { map := 0x3FFFFF, spares := 0xC00000, up := true }, h2f := { map := 7, spares := 8, up := true }, vrefx := 1200000 } }
theorem wit_CalibrationRuns :
    (∃ (h : Req) (u : Nat) (s : State), Ready h s.d ∧ s.d.mode ∈ [Mode.idle, Mode.calibrate, Mode.service] ∧ (u < 68
      ∨ u = 65535) ∧ s.d.cal.run = none ∧ s.d.coresNamed u ≠ []) ∧
    (∃ (h : Req) (u : Nat) (s : State), Ready h s.d ∧ s.d.mode ∈ [Mode.idle, Mode.calibrate, Mode.service] ∧ (u < 68
      ∨ u = 65535) ∧ s.d.cal.run = none ∧ s.d.coresNamed u = []) ∧
    (∃ (h : Req) (u : Nat) (s : State), Ready h s.d ∧ s.d.mode ∈ [Mode.idle, Mode.calibrate, Mode.service] ∧ (u < 68
      ∨ u = 65535) ∧ s.d.cal.run ≠ none) ∧
    (∃ (h : Req) (u : Nat) (s : State), Ready h s.d ∧ s.d.mode ∈ [Mode.idle, Mode.scan, Mode.calibrate] ∧ (u < 4 ∨ u
      = 65535) ∧ s.d.cal.run = none) ∧
    (∃ (h : Req) (u : Nat) (s : State), Ready h s.d ∧ s.d.mode ∈ [Mode.idle, Mode.scan, Mode.calibrate] ∧ (u < 4 ∨ u
      = 65535) ∧ s.d.cal.run ≠ none) ∧
    (∃ (h : Req) (u : Nat) (s : State), Ready h s.d ∧ s.d.mode ∈
      [Mode.idle, Mode.homing, Mode.scan, Mode.hold, Mode.splice, Mode.calibrate, Mode.service, Mode.safe] ∧ (u < 24
      ∨ 32 ≤ u ∧ u < 36 ∨ u = 65535) ∧ (∀ r ∈ [Dir.f2h, Dir.h2f], (s.d.bzlLink r).spares = 0 → ∀ n ∈ laneNames u r,
      bit (s.d.bzlLink r).map n = false) ∧ s.d.cal.run = none) ∧
    (∃ (h : Req) (u : Nat) (s : State), Ready h s.d ∧ s.d.mode ∈
      [Mode.idle, Mode.homing, Mode.scan, Mode.hold, Mode.splice, Mode.calibrate, Mode.service, Mode.safe] ∧ (u < 24
      ∨ 32 ≤ u ∧ u < 36 ∨ u = 65535) ∧ (∀ r ∈ [Dir.f2h, Dir.h2f], (s.d.bzlLink r).spares = 0 → ∀ n ∈ laneNames u r,
      bit (s.d.bzlLink r).map n = false) ∧ s.d.cal.run ≠ none) ∧
    (∃ (h : Req) (u : Nat) (s : State), Ready h s.d ∧ s.d.mode ∈ [Mode.idle, Mode.calibrate] ∧ u < 64 ∧ u / 8 % 2 = 0
      ∧ u / 16 < nphOf s.d.regs.act ∧ phaseChains s.d.regs.act (u / 16) ≠ [] ∧ s.d.slotUsed (u % 8) = false ∧ headsOf
      s.d.regs.act ≠ [] ∧ s.d.cal.run = none) ∧
    (∃ (h : Req) (u : Nat) (s : State), Ready h s.d ∧ s.d.mode ∈ [Mode.idle, Mode.calibrate] ∧ u < 64 ∧ u / 8 % 2 = 0
      ∧ u / 16 < nphOf s.d.regs.act ∧ phaseChains s.d.regs.act (u / 16) ≠ [] ∧ s.d.slotUsed (u % 8) = false ∧ headsOf
      s.d.regs.act ≠ [] ∧ s.d.cal.run ≠ none) ∧
    (∃ (h : Req) (u : Nat) (s : State), Ready h s.d ∧ s.d.mode ∈ [Mode.idle, Mode.calibrate] ∧ u < 4 ∧ u < nphOf
      s.d.regs.act ∧ phaseChains s.d.regs.act u ≠ [] ∧ headsOf s.d.regs.act ≠ [] ∧ (aget s.d.cal.monRec (s.d.slotOf
      u)).isSome = true ∧ s.d.cal.run = none) ∧
    (∃ (h : Req) (u : Nat) (s : State), Ready h s.d ∧ s.d.mode ∈ [Mode.idle, Mode.calibrate] ∧ u < 4 ∧ u < nphOf
      s.d.regs.act ∧ phaseChains s.d.regs.act u ≠ [] ∧ headsOf s.d.regs.act ≠ [] ∧ (aget s.d.cal.monRec (s.d.slotOf
      u)).isSome = true ∧ s.d.cal.run ≠ none) ∧
    (∃ (h : Req) (s : State), Ready h s.d ∧ s.d.mode ∈ [Mode.idle, Mode.calibrate] ∧ s.d.rd Reg.CAL_VREFX_UV ≠ 0 ∧
      1140000 ≤ s.d.bzl.vrefx ∧ s.d.bzl.vrefx ≤ 1260000 ∧ s.d.cal.run = none) ∧
    (∃ (h : Req) (s : State), Ready h s.d ∧ s.d.mode ∈ [Mode.idle, Mode.calibrate] ∧ s.d.rd Reg.CAL_VREFX_UV ≠ 0 ∧
      1140000 ≤ s.d.bzl.vrefx ∧ s.d.bzl.vrefx ≤ 1260000 ∧ s.d.cal.run ≠ none) :=
  ⟨⟨rq, 0, (st { dv with mode := .calibrate }), ready_of (by decide +kernel), by decide +kernel⟩,
   ⟨rq, 0, (st { dv with afe := { dv.afe with quads := [{ (default : Quad) with retired := List.range 68 }] } }),
     ready_of (by decide +kernel), by decide +kernel⟩,
   ⟨rq, 0, (st { dv with cal := { monRec := dv.cal.monRec, run := some default } }), ready_of (by decide +kernel),
     by decide +kernel⟩,
   ⟨rq, 0, (st { dv with afe := { dv.afe with quads := [{ (default : Quad) with retired := List.range 68 }] } }),
     ready_of (by decide +kernel), by decide +kernel⟩,
   ⟨rq, 0, (st { dv with cal := { monRec := dv.cal.monRec, run := some default } }), ready_of (by decide +kernel),
     by decide +kernel⟩,
   ⟨rq, 0, (st { dv with afe := { dv.afe with quads := [{ (default : Quad) with retired := List.range 68 }] } }),
     ready_of (by decide +kernel), by decide +kernel⟩,
   ⟨rq, 0, (st { dv with cal := { monRec := dv.cal.monRec, run := some default } }), ready_of (by decide +kernel),
     by decide +kernel⟩,
   ⟨rq, 0, (st { dv with afe := { dv.afe with quads := [{ (default : Quad) with retired := List.range 68 }] } }),
     ready_of (by decide +kernel), by decide +kernel⟩,
   ⟨rq, 0, (st { dv with cal := { monRec := dv.cal.monRec, run := some default } }), ready_of (by decide +kernel),
     by decide +kernel⟩,
   ⟨rq, 0, (st { dv with afe := { dv.afe with quads := [{ (default : Quad) with retired := List.range 68 }] } }),
     ready_of (by decide +kernel), by decide +kernel⟩,
   ⟨rq, 0, (st { dv with cal := { monRec := dv.cal.monRec, run := some default } }), ready_of (by decide +kernel),
     by decide +kernel⟩,
   ⟨rq, (st { dv with afe := { dv.afe with quads := [{ (default : Quad) with retired := List.range 68 }] } }),
     ready_of (by decide +kernel), by decide +kernel⟩,
   ⟨rq, (st { dv with cal := { monRec := dv.cal.monRec, run := some default } }), ready_of (by decide +kernel),
     by decide +kernel⟩⟩
end W.CalibrationRuns

namespace W.CalibrationResults
def cr (k g : Nat) : CalRun :=
  { (default : CalRun) with kind := k, unit := 0, stage := g, strokes := 300, fromIdle := true }
def rn (r : CalRun) : Dev :=
  { w (dev .calibrate) [(Reg.CAL_SHADE_N, 0x00100010), (Reg.CAL_WHITE_TARGET, 60000)] with cal := { run := some r, monRec := [(0, List.replicate 16 1000)] }, seq := { en := true }, ops := [⟨.calRun, 1, 5⟩] }
def dk : CalRun := { cr 6 0 with buf := [⟨[0, 1, 0, 2], 2, 0, 0, 0, [], [], [], 0⟩] }
def dkd : Dev := w (rn dk) [(Reg.CLS_WIN, 2)]
theorem wit_CalibrationResults :
    (∃ (q : Nat) (s : State), (List.find? (fun (x : AfeRun) => x.quad == q && decide (64 ≤ x.strokes)) s.d.cal.afeRun
      = none)) ∧
    (∃ (q : Nat) (r : AfeRun) (s : State), q < 4 ∧ (List.find? (fun (x : AfeRun) => x.quad == q && decide (64 ≤
      x.strokes)) s.d.cal.afeRun = some r)) ∧
    (∃ (q : Nat) (t : Nat) (sum : Nat) (n : Nat) (r : AfeRun) (s : State), t < 384 ∧ t / 96 = q ∧ (List.find? (fun (x
      : AfeRun) => x.quad == q && decide (64 ≤ x.strokes)) s.d.cal.afeRun = some r) ∧ r.sums = [(t, 0, sum, n)] ∧
      s.d.cal.run = none ∧ s.d.bref t 0 = none ∧ 0 < n ∧ sum ≤ 16383 * n) ∧
    (∃ (r : CalRun) (s : State), s.d.cal.run = some r ∧ r.kind = 5 ∧ r.stage = 1) ∧
    (∃ (r : CalRun) (s : State), s.d.cal.run = some r ∧ (r.kind ≠ 5 ∨ r.stage ≠ 1)) ∧
    (∃ (r : CalRun) (s : State), s.d.cal.run = some r ∧ r.kind = 5 ∧ r.stage = 2 ∧ s.d.rf Reg.CAL_SHADE_N 31 16 ≤
      r.strokes) ∧
    (∃ (r : CalRun) (s : State) (y : List Nat), s.d.cal.run = some r ∧ r.kind = 6 ∧ s.d.rf Reg.CAL_SHADE_N 31 16 ≤
      r.strokes ∧ s.d.whitePixels r = y ∧ s.d.rf Reg.CAL_WHITE_TARGET 15 0 * y.length ≤ 4 * sumN y) ∧
    (∃ (r : CalRun) (s : State) (y : List Nat), s.d.cal.run = some r ∧ r.kind = 6 ∧ s.d.rf Reg.CAL_SHADE_N 31 16 ≤
      r.strokes ∧ s.d.whitePixels r = y ∧ 4 * sumN y < s.d.rf Reg.CAL_WHITE_TARGET 15 0 * y.length) ∧
    (∃ (r : CalRun) (s : State) (ratio : Nat), s.d.cal.run = some r ∧ r.kind = 7) ∧
    (∃ (r : CalRun) (s : State), s.d.cal.run = some r ∧ (r.kind = 2 ∨ r.kind = 5 ∨ r.kind = 6) ∧ s.d.mode ≠ Mode.hold
      ∧ s.d.mode ≠ Mode.splice) :=
  ⟨⟨0, (st (rn (cr 5 1))), by decide +kernel⟩,
   ⟨0, ⟨0, 64, [(5, 0, 70000, 70)]⟩,
     (st { jdev .scan with cal := { afeRun := [⟨0, 64, [(5, 0, 70000, 70)]⟩, ⟨1, 3, []⟩] } }), by decide +kernel⟩,
   ⟨0, 5, 70000, 70, ⟨0, 64, [(5, 0, 70000, 70)]⟩,
     (st { jdev .scan with cal := { afeRun := [⟨0, 64, [(5, 0, 70000, 70)]⟩, ⟨1, 3, []⟩] } }), by decide +kernel⟩,
   ⟨(cr 5 1), (st (rn (cr 5 1))), by decide +kernel⟩,
   ⟨(cr 5 2), (st (rn (cr 5 2))), by decide +kernel⟩,
   ⟨(cr 5 2), (st (rn (cr 5 2))), by decide +kernel⟩,
   ⟨(cr 6 0), (st (rn (cr 6 0))), [], by decide +kernel⟩,
   ⟨dk, (st dkd), (dkd.whitePixels dk), by decide +kernel⟩,
   ⟨(cr 7 0), (st (rn (cr 7 0))), 0, by decide +kernel⟩,
   ⟨(cr 5 1), (st (rn (cr 5 1))), by decide +kernel⟩⟩
end W.CalibrationResults

namespace W.CorrectionsApplied
def rc (k u : Nat) (b : List Nat) : CalRec :=
  { (default : CalRec) with kind := k, unit := u, epoch := 7, body := b, cells := [⟨0xF0000, 1⟩] }
def pe (r : CalRec) : Dev := { dev .idle with cal := { pend := [r] } }
def lmpd (c : Chain) : Dev :=
  { w (dev .idle) [(Reg.LMP_C_CFG 0, 0x80080000), (Reg.LMP_C_LEVEL 0, 100), (Reg.LMP_C_MONREF 0, 1000), (Reg.LMP_C_RATIO 0, 16000)] with lamp := { chains := c :: List.replicate 15 {} } }
theorem wit_CorrectionsApplied :
    (∃ (m : Nat) (s : State), bit s.d.cal.chk m = true) ∧
    (∃ (m : Nat) (s : State), bit s.d.cal.chk m = false) ∧
    (∃ (h : Req) (k : Nat) (u : Nat) (e : Nat) (s : State), Ready h s.d ∧ s.d.mode ≠ Mode.hold ∧ s.d.mode ≠
      Mode.splice ∧ s.d.pendNamed k u e ≠ [] ∧ k ≠ 1 ∧ k ≠ 3 ∧ (k ≠ 5 ∨ s.d.slotUsed (u % 8) = false)) ∧
    (∃ (h : Req) (k : Nat) (u : Nat) (e : Nat) (s : State), Ready h s.d ∧ (s.d.mode = Mode.hold ∨ s.d.mode =
      Mode.splice)) ∧
    (∃ (h : Req) (k : Nat) (u : Nat) (e : Nat) (s : State), Ready h s.d ∧ s.d.mode ≠ Mode.hold ∧ s.d.mode ≠
      Mode.splice ∧ (s.d.pendNamed k u e = [] ∨ k = 1 ∨ k = 3)) ∧
    (∃ (h : Req) (k : Nat) (u : Nat) (e : Nat) (s : State), Ready h s.d ∧ s.d.mode ≠ Mode.hold ∧ s.d.mode ≠
      Mode.splice ∧ s.d.pendNamed 5 u e ≠ [] ∧ s.d.slotUsed (u % 8) = true) ∧
    (∃ (s : State), s.d.mode = Mode.wake) ∧
    (∃ (s : State), s.d.mode ≠ Mode.wake) :=
  ⟨⟨0, (st { dev .idle with cal := { chk := 1 } }), by decide +kernel⟩,
   ⟨0, (st (pe (rc 7 0 [1200000]))), by decide +kernel⟩,
   ⟨rq, 2, 0, 0, (st (pe (rc 2 0 [1]))), ready_of (by decide +kernel), by decide +kernel⟩,
   ⟨rq, 0, 0, 0, (st (dev .hold)), ready_of (by decide +kernel), by decide +kernel⟩,
   ⟨rq, 0, 0, 0, (st { dev .idle with cal := { chk := 1 } }), ready_of (by decide +kernel), by decide +kernel⟩,
   ⟨rq, 0, 3, 0, (st { w (pe (rc 5 3 [2])) [(Reg.PIX_CTRL, 4), (Reg.PIX_MAPSEL, 0x03030303)] with mode := .idle }),
     ready_of (by decide +kernel), by decide +kernel⟩,
   ⟨(st (dev .wake)), by decide +kernel⟩,
   ⟨(st { dev .idle with cal := { chk := 1 } }), by decide +kernel⟩⟩
end W.CorrectionsApplied

namespace W.CalibrationStore
def rc : CalRec := { (default : CalRec) with kind := 7, body := [1200000] }
def bg : Dev := w (dev .idle) [(Reg.CAL_BG_UV, 1200000)]
theorem wit_CalibrationStore :
    (∃ (h : Req) (k : Nat) (u : Nat) (s : State), Ready h s.d ∧ 1 ≤ k ∧ (k ≤ 8 ∨ k = 65535) ∧ (u = 65535 ∨ ∃ j ∈
      kindsNamed k, u ∈ kindUnits j)) ∧
    (∃ (s : State), s.d.fieldRuns = true) ∧
    (∃ (s : State), s.d.fieldRuns = false) ∧
    (∃ (r : CalRec) (l : List CalRec) (s : State), s.d.cal.writes = r :: l) ∧
    (∃ (r : CalRec) (l : List CalRec) (s : State), s.d.cal.writes = r :: l ∧ s.d.cal.retry = false) ∧
    (∃ (r : CalRec) (l : List CalRec) (s : State), s.d.cal.writes = r :: l ∧ s.d.cal.retry = true) ∧
    (∃ (h : Req) (k : Nat) (u : Nat) (e : Nat) (s : State), Ready h s.d ∧ s.d.mode ≠ Mode.wake ∧ s.d.storeNamed k u e
      ≠ []) ∧
    (∃ (h : Req) (k : Nat) (u : Nat) (e : Nat) (s : State), Ready h s.d ∧ s.d.mode ≠ Mode.wake ∧ s.d.storeNamed k u e
      = []) ∧
    (∃ (h : Req) (k : Nat) (u : Nat) (e : Nat) (s : State), Ready h s.d ∧ s.d.mode = Mode.wake) ∧
    (∃ (n : Nat) (q : Word) (rs : List CalRec) (l : List (Nat × Word × List CalRec)) (s : State), s.d.cal.restore =
      (n, q, rs) :: l) :=
  ⟨⟨rq, 7, 0, (st { bg with mode := .standby }), ready_of (by decide +kernel), by decide +kernel⟩,
   ⟨(st bg), by decide +kernel⟩,
   ⟨(st { bg with mode := .standby }), by decide +kernel⟩,
   ⟨rc, [], (st { bg with cal := { writes := [rc] }, ops := [⟨.calStore, 1, 5⟩] }), by decide +kernel⟩,
   ⟨rc, [], (st { bg with cal := { writes := [rc] }, ops := [⟨.calStore, 1, 5⟩] }), by decide +kernel⟩,
   ⟨rc, [rc], (st { bg with cal := { writes := [rc, rc], retry := true } }), by decide +kernel⟩,
   ⟨rq, 7, 0, 0, (st { bg with cal := { store := [rc] } }), ready_of (by decide +kernel), by decide +kernel⟩,
   ⟨rq, 7, 7, 7, (st { bg with mode := .standby }), ready_of (by decide +kernel), by decide +kernel⟩,
   ⟨rq, 7, 7, 7, (st { bg with mode := .wake }), ready_of (by decide +kernel), by decide +kernel⟩,
   ⟨1, 5, [rc], [], (st { bg with cal := { restore := [(1, 5, [rc])] }, ops := [⟨.calRestore, 1, 5⟩] }),
     by decide +kernel⟩⟩
end W.CalibrationStore

namespace W.SplicesAndPages
def tr0 (n k : Nat) : List Byte := be 6 n ++ be 2 0 ++ be 8 0 ++ be 8 0 ++ be 6 k ++ be 1 16 ++ List.replicate 21 0
  ++ beW (crc32c []) ++ List.replicate 4 0
def tr (n k : Nat) : List Byte := tr0 n k ++ beW (crc32c (tr0 n k))
def ing (n k : Nat) : Ing := ⟨tr n k, [], [], 0, 1048576, false, none⟩
def u0 : FUnit := ⟨.digest, 0, 0⟩
def pgc (u : List FUnit) : Page := { (default : Page) with id := 5, closed := true, units := u }
def sw : Dev := ax0 (w (dev .idle) (en0 ++ [(Reg.MOT_A_LIM 0, 0x11F05), (Reg.MOT_SW_CFG 5, 3)])) { rate := 3 }
theorem wit_SplicesAndPages :
    (∃ (s : State), s.d.mode = Mode.hold ∧ s.d.jobHeld = true ∧ s.d.cls.fixed = false ∧ s.d.beforeHold = false) ∧
    (∃ (s : State), (s.d.mode = Mode.hold → s.d.jobHeld = true → s.d.cls.fixed = true ∨ s.d.beforeHold = true)) ∧
    (∃ (s : State), s.d.mode = Mode.splice ∧ s.d.hold = 0 ∧ s.d.pages.stopPages = none ∧ ((s.d.cls.staging.any fun (x
      : Ing) => decide (s.d.cls.kb + (↑(s.d.rd Reg.CLS_OVL) : Int) ≤ (↑x.k : Int) + 1)) = true)) ∧
    (∃ (w : Nat) (n : Nat) (t : Nat) (on : Bool) (s : State), (∀ (a : Nat), (s.d.ax a).home = none ∧ (s.d.ax a).rate
      = 0) ∧ t ≤ s.d.now ∧ w < 18 ∧ (s.d.rf Reg.PAGE_CTRL 9 8 ≠ 1 ∨ w ≠ s.d.rf Reg.PAGE_SENSOR 4 0 ∨ s.d.jobHeld =
      false)) ∧
    (∃ (w : Nat) (a : Nat) (n : Nat) (t : Nat) (s : State), t ≤ s.d.now ∧ w < 18 ∧ s.d.sw w = false ∧ s.d.rf
      (Reg.MOT_SW_CFG w) 15 0 ≤ n ∧ s.d.rf Reg.PAGE_CTRL 9 8 ≠ 1 ∧ s.d.mode = Mode.idle ∧ a < 12 ∧ s.d.axEn a = true
      ∧ (∀ b < 12, b ≠ a → s.d.axEn b = false) ∧ (s.d.ax a).home = none ∧ s.d.runsToward a w = true ∧ s.d.rf
      (Reg.MOT_A_LIM a) 16 16 = 1 ∧ s.d.axGroup a < s.d.mot.groups.length) ∧
    (∃ (e : Nat) (s : State), s.d.engineUnit e = none) ∧
    (∃ (e : Nat) (s : State), e < 4 ∧ s.d.engineUnit e ≠ none ∧ bit s.d.pages.engines e = true ∧ bit
      s.d.pages.engRestart e = false ∧ s.d.freeEngines = [] ∧ (s.d.engineFree e).nextUnit = none) ∧
    (∃ (e : Nat) (s : State) (p : Page) (u : FUnit), e < 4 ∧ s.d.engineUnit e ≠ none ∧ bit s.d.pages.engines e = true
      ∧ bit s.d.pages.engRestart e = false ∧ s.d.freeEngines = [] ∧ (s.d.engineFree e).nextUnit = some (p, u)) ∧
    (∃ (e : Nat) (s : State), bit s.d.pages.engines e = true ∧ e < 4 ∧ aget s.d.pages.engFault e = none ∧ s.d.recurs
      15 1 e = none) ∧
    (∃ (e : Nat) (s : State) (t : Nat), bit s.d.pages.engines e = true ∧ e < 4 ∧ aget s.d.pages.engFault e = some t ∧
      s.d.ns ≤ t + 3600000000000) ∧
    (∃ (e : Nat) (s : State) (j : Nat) (id : Word) (u : FUnit) (p : Page), bit s.d.pages.engines e = true ∧ e < 4 ∧
      s.d.engineUnit e = some (j, id, u) ∧ p ∈ s.d.pages.list ∧ p.serial = j ∧ p.id = id) ∧
    (∃ (id : Word) (q : Page) (s : State), (List.find? (fun (p : Page) => p.id == id && p.closed && p.units.isEmpty
      && (s.d.busyUnits p).isEmpty && p.container.isNone) s.d.pages.list = some q)) :=
  ⟨⟨(st { jdev .hold with cls := { holdNo := 6, ring := [ing 4 99, ing 5 100, ing 6 101, ing 7 102] } }),
     by decide +kernel⟩,
   ⟨(st { jdev .splice with cls := { staging := [ing 5 100], refs := [ing 5 90] } }), by decide +kernel⟩,
   ⟨(st { jdev .splice with cls := { staging := [ing 5 100], refs := [ing 5 90] } }), by decide +kernel⟩,
   ⟨5, 5, 0, true,
     (st { jdev .hold with cls := { holdNo := 6, ring := [ing 4 99, ing 5 100, ing 6 101, ing 7 102] } }),
     rest_of (by decide +kernel), by decide +kernel⟩,
   ⟨5, 0, 5, 0, (st sw), by decide +kernel⟩,
   ⟨5, (st { jdev .hold with cls := { holdNo := 6, ring := [ing 4 99, ing 5 100, ing 6 101, ing 7 102] } }),
     by decide +kernel⟩,
   ⟨0, (st { dev .idle with pages := { list := [pgc []], busy := [0, 1, 2, 3].map fun e => (e, 0, 5, u0) } }),
     by decide +kernel⟩,
   ⟨0, (st { dev .idle with pages := { list := [pgc [u0]], busy := [0, 1, 2, 3].map fun e => (e, 7, 5, u0) } }),
     (pgc [u0]), u0, by decide +kernel⟩,
   ⟨0, (st { jdev .hold with cls := { holdNo := 6, ring := [ing 4 99, ing 5 100, ing 6 101, ing 7 102] } }),
     by decide +kernel⟩,
   ⟨0, (st { dev .idle with pages := { list := [pgc []], busy := [(0, 0, 5, u0)], engFault := [(0, 10)] } }), 10,
     by decide +kernel⟩,
   ⟨0, (st { dev .idle with pages := { list := [pgc []], busy := [0, 1, 2, 3].map fun e => (e, 0, 5, u0) } }), 0, 5,
     u0, (pgc []), by decide +kernel⟩,
   ⟨5, (pgc []), (st { dev .idle with pages := { list := [pgc []] } }), by decide +kernel⟩⟩
end W.SplicesAndPages

namespace W.Delivery
def ses : Session := { (default : Session) with ep := cl }
def pgd : Page := { (default : Page) with id := 5, job := 9, closed := true, container := some [1, 2, 3] }
def dl (r c : Bool) : Deliv := ⟨5, 0, 1, r, 0, c, 3, 0, 1000, []⟩
def cd (k o : Nat) (l : List (Nat × Nat)) : ClientData := let f : ClientData := ⟨1, 5, o, l, 0⟩;
  { f with crc := BitVec.ofNat 32 (getBe ((clientBytes f k).drop ((clientBytes f k).length - 4)) 0 4) }
def ring : List (Nat × Nat) := [(Reg.PAGE_S_DELIV 0, 1), (Reg.PAGE_S_CRING_N 0, 16), (Reg.PAGE_S_DRING_LEN 0, 16)]
def dd (x : Option Deliv) : State := st
  { w (jdev .idle) ring with pages := { list := [pgd], deliv := x }, net := { qps := [(1, { st := 1 })] } }
theorem wit_Delivery :
    (∃ (p : Page) (b : List Byte) (n : Nat) (s : State), 1 ≤ n ∧ n ≤ 64 ∧ s.d.served = true ∧ s.d.pages.deliv = none
      ∧ s.d.nextDelivery = some (p, b, n) ∧ s.d.delivMode n = 1 ∧ (s.d.qp n).st = 1 ∧ s.d.rd (Reg.PAGE_S_CRING_N (n -
      1)) ≠ 0 ∧ s.d.rd (Reg.PAGE_S_DPROD (n - 1)) = s.d.rd (Reg.PAGE_S_DCONS (n - 1)) ∧ b.length + 4096 ≤ s.d.rd
      (Reg.PAGE_S_DRING_LEN (n - 1)) * 4096) ∧
    (∃ (x : Deliv) (p : Page) (b : List Byte) (s : State), s.d.pages.deliv = some x ∧ x.rdma = true ∧ s.d.delivPage x
      = some (p, b) ∧ x.record = true) ∧
    (∃ (x : Deliv) (p : Page) (b : List Byte) (s : State), s.d.pages.deliv = some x ∧ x.rdma = true ∧ s.d.delivPage x
      = some (p, b) ∧ x.record = false ∧ 1 ≤ x.session ∧ x.session ≤ 64 ∧ 2 ≤ s.d.rd (Reg.PAGE_S_CRING_N (x.session -
      1)) ∧ s.d.rd (Reg.PAGE_S_CPROD (x.session - 1)) = s.d.rd (Reg.PAGE_S_CCONS (x.session - 1)) ∧ s.d.rd
      (Reg.PAGE_S_CPROD (x.session - 1)) < s.d.rd (Reg.PAGE_S_CRING_N (x.session - 1))) ∧
    (∃ (e : Endpoint) (f : ClientData) (s : State), s.d.fromClient e f 2 = none) ∧
    (∃ (e : Endpoint) (f : ClientData) (s : State), s.d.fromClient e f 3 = none) ∧
    (∃ (x : Deliv) (p : Page) (b : List Byte) (y : Session) (e : Endpoint) (f : ClientData) (s : State),
      s.d.pages.deliv = some x ∧ x.rdma = false ∧ s.d.delivPage x = some (p, b) ∧ s.d.ses? x.session = some y ∧
      s.d.fromClient e f 2 = some x ∧ x.acked < f.offset ∧ f.offset ≤ x.sent ∧ f.offset = b.length) ∧
    (∃ (x : Deliv) (p : Page) (b : List Byte) (y : Session) (e : Endpoint) (f : ClientData) (s : State),
      s.d.pages.deliv = some x ∧ x.rdma = false ∧ s.d.delivPage x = some (p, b) ∧ s.d.ses? x.session = some y ∧
      s.d.fromClient e f 2 = some x ∧ x.acked < f.offset ∧ f.offset ≤ x.sent ∧ f.offset ≠ b.length) ∧
    (∃ (x : Deliv) (p : Page) (b : List Byte) (y : Session) (e : Endpoint) (f : ClientData) (s : State),
      s.d.pages.deliv = some x ∧ x.rdma = false ∧ s.d.delivPage x = some (p, b) ∧ s.d.ses? x.session = some y ∧
      s.d.fromClient e f 3 = some x) ∧
    (∃ (x : Deliv) (p : Page) (b : List Byte) (y : Session) (e : Endpoint) (f : ClientData) (s : State),
      s.d.pages.deliv = some x ∧ x.rdma = false ∧ s.d.delivPage x = some (p, b) ∧ s.d.ses? x.session = some y ∧
      x.acked < x.sent) :=
  ⟨⟨pgd, [1, 2, 3], 1, (dd none), by decide +kernel⟩,
   ⟨(dl true true), pgd, [1, 2, 3], (dd (some (dl true true))), by decide +kernel⟩,
   ⟨(dl true false), pgd, [1, 2, 3], (dd (some (dl true false))), by decide +kernel⟩,
   ⟨cl, (cd 2 3 []), (dd none), by decide +kernel⟩,
   ⟨cl, (cd 2 3 []), (dd none), by decide +kernel⟩,
   ⟨(dl false false), pgd, [1, 2, 3], ses, cl, (cd 2 3 []), (dd (some (dl false false))), by decide +kernel⟩,
   ⟨(dl false false), pgd, [1, 2, 3], ses, cl, (cd 2 2 []), (dd (some (dl false false))), by decide +kernel⟩,
   ⟨(dl false false), pgd, [1, 2, 3], ses, cl, (cd 3 0 [(0, 2)]), (dd (some (dl false false))), by decide +kernel⟩,
   ⟨(dl false false), pgd, [1, 2, 3], ses, cl, (cd 2 3 []), (dd (some (dl false false))), by decide +kernel⟩⟩
end W.Delivery

namespace W.PortsAndAnswers
def up : List (Nat × Nat) := [(Reg.NET_P_STAT 0, 0xE0000000), (Reg.NET_P_IP4 0, 0xC0A80002), (Reg.NET_P_IP6 0 3, 5)]
def big : List Byte := List.replicate 1473 0
def nf (l : Nat) (u : Option Nat) : NetFrame := ⟨.eth0, macOf .eth0, l, none, true, false, u⟩
def c0 : List (Nat × Nat) := [(Reg.NET_P_CFG 0, 0x800105DC)]
theorem wit_PortsAndAnswers :
    (∃ (p : NetPort) (v : Nat) (s : State), s.d.mode ≠ Mode.off ∧ s.d.rf (cfgAddr p) 31 31 = 1) ∧
    (∃ (p : NetPort) (s : State), s.d.link p = true) ∧
    (∃ (f : NetFrame) (s : State), (f.len < 64 ∨ s.d.mtu f.port + 22 < f.len ∨ f.fcsOk = false ∨ f.full = true)) ∧
    (∃ (f : NetFrame) (s : State), s.d.accepts f = false) ∧
    (∃ (f : NetFrame) (s : State) (u : Nat), s.d.accepts f = true ∧ f.udp = some u ∧ udpServed f.port u = false) ∧
    (∃ (p : NetPort) (q : Nat) (s : State), portIx p < s.d.net.ports.length ∧ s.d.flow p = 1 ∧ q ≠ 0) ∧
    (∃ (p : NetPort) (q : Nat) (s : State), portIx p < s.d.net.ports.length ∧ s.d.flow p = 1) ∧
    (∃ (p : NetPort) (q : Nat) (s : State), portIx p < s.d.net.ports.length ∧ s.d.flow p ≠ 1) ∧
    (∃ (p : NetPort) (q : Nat) (s : State), portIx p < s.d.net.ports.length ∧ (nth s.d.net.ports (portIx p)).ends =
      []) ∧
    (∃ (p : NetPort) (q : Nat) (s : State) (e : Nat) (l : List Nat), portIx p < s.d.net.ports.length ∧ (nth
      s.d.net.ports (portIx p)).ends = e :: l) ∧
    (∃ (p : NetPort) (x : Nat) (q : Nat) (s : State), portIx p < s.d.net.ports.length ∧ s.d.flow p = 2 ∧ p ≠
      NetPort.sgmii ∧ x < 8 ∧ bit (s.d.rf (Reg.NET_P_PFC (portIx p)) 7 0) x = true) ∧
    (∃ (p : NetPort) (x : Nat) (q : Nat) (s : State), portIx p < s.d.net.ports.length ∧ s.d.flow p = 2 ∧ p ≠
      NetPort.sgmii ∧ x < 8 ∧ s.d.served = true ∧ bit (s.d.rf (Reg.NET_P_PFC (portIx p)) 15 8) x = true ∧ 524288 ≤ q
      ∧ bit (nth s.d.net.ports (portIx p)).xoff x = false) ∧
    (∃ (p : NetPort) (x : Nat) (q : Nat) (s : State), portIx p < s.d.net.ports.length ∧ s.d.flow p = 2 ∧ p ≠
      NetPort.sgmii ∧ x < 8 ∧ s.d.served = true ∧ q < 262144 ∧ bit (nth s.d.net.ports (portIx p)).xoff x = true) ∧
    (∃ (p : NetPort) (e : Endpoint) (s : State), s.d.served = true ∧ s.d.canSend p 1 = true ∧ s.d.rd (Reg.NET_P_IP4
      (portIx p)) ≠ 0) ∧
    (∃ (p : NetPort) (e : Endpoint) (s : State) (t : Nat), s.d.served = true ∧ s.d.canSend p 1 = true ∧ t ≠ s.d.rd
      (Reg.NET_P_IP4 (portIx p))) ∧
    (∃ (p : NetPort) (e : Endpoint) (s : State), s.d.served = true ∧ s.d.canSend p 1 = true) ∧
    (∃ (p : NetPort) (e : Endpoint) (s : State), s.d.served = true ∧ s.d.canSend p 1 = true ∧ s.d.ip6 p ≠ 0) ∧
    (∃ (p : NetPort) (e : Endpoint) (s : State) (t : Nat), s.d.served = true ∧ s.d.canSend p 1 = true ∧ t ≠ linkLocal
      p ∧ t ≠ s.d.ip6 p) ∧
    (∃ (p : NetPort) (e : Endpoint) (s : State) (x : List Byte) (t : Nat), s.d.served = true ∧ s.d.canSend p 1 = true
      ∧ s.d.ownAddr p t = true ∧ x.length ≤ 1472) ∧
    (∃ (p : NetPort) (e : Endpoint) (s : State) (x : List Byte) (t : Nat), s.d.served = true ∧ s.d.canSend p 1 = true
      ∧ (s.d.ownAddr p t = false ∨ 1472 < x.length)) ∧
    (∃ (p : NetPort) (k : Nat) (o : Nat) (x : List Byte) (s : State), s.d.served = true ∧ (∀ r ∈ s.d.net.reasm, r.key
      ≠ k) ∧ o + x.length ≤ 8220 ∧ s.d.net.reasm.length < 32) ∧
    (∃ (p : NetPort) (k : Nat) (o : Nat) (x : List Byte) (s : State), s.d.served = true ∧ (∀ r ∈ s.d.net.reasm, r.key
      ≠ k) ∧ o + x.length ≤ 8220 ∧ s.d.net.reasm.length < 32) ∧
    (∃ (p : NetPort) (k : Nat) (o : Nat) (x : List Byte) (s : State), s.d.served = true ∧ (∀ r ∈ s.d.net.reasm, r.key
      ≠ k) ∧ o + x.length ≤ 8220 ∧ 32 ≤ s.d.net.reasm.length) ∧
    (∃ (k : Nat) (s : State), ((s.d.net.reasm.any fun (r : Reasm) => r.key == k) = true)) :=
  ⟨⟨.eth0, 0, (st (w (dev .idle) up)), by decide +kernel⟩,
   ⟨.eth0, (st (w (dev .idle) up)), by decide +kernel⟩,
   ⟨(nf 60 none), (st (w (dev .idle) up)), by decide +kernel⟩,
   ⟨(nf 60 none), (st (w (dev .idle) up)), by decide +kernel⟩,
   ⟨nf 100 (some 9), st (w (dev .idle) up), 9, by simp [Dev.accepts, nf]; decide +kernel, rfl, by decide +kernel⟩,
   ⟨.eth0, 9, (st (w (dev .idle) (up ++ c0))), by decide +kernel⟩,
   ⟨.eth0, 0, (st (w (dev .idle) (up ++ c0))), by decide +kernel⟩,
   ⟨.eth0, 0, (st (w (dev .idle) up)), by decide +kernel⟩,
   ⟨.eth0, 0, (st (w (dev .idle) up)), by decide +kernel⟩,
   ⟨.eth0, 0, (st { w (dev .idle) c0 with net := { ports := [{ paused := true, pausedTill := 9 }, {}, {}] } }), 9,
     [], by decide +kernel⟩,
   ⟨.eth0, 3, 0, (st (w (dev .idle) (up ++ [(Reg.NET_P_CFG 0, 0x800205DC)]))), by decide +kernel⟩,
   ⟨.eth0, 3, 0xC0A80002, (st (w (dev .idle) (up ++ [(Reg.NET_P_CFG 0, 0x800205DC)]))), by decide +kernel⟩,
   ⟨.eth0, 3, 0,
     (st { w (dev .idle) [(Reg.NET_P_CFG 0, 0x800205DC)] with net := { ports := [{ xoff := 8 }, {}, {}] } }),
     by decide +kernel⟩,
   ⟨.eth0, cl, (st (w (dev .idle) up)), by decide +kernel⟩,
   ⟨.eth0, cl, (st (w (dev .idle) up)), 0, by decide +kernel⟩,
   ⟨.eth0, cl, (st (w (dev .idle) up)), by decide +kernel⟩,
   ⟨.eth0, cl, (st (w (dev .idle) up)), by decide +kernel⟩,
   ⟨.eth0, cl, st (w (dev .idle) up), 0, by decide +kernel, by decide +kernel, linkLocal_ne .eth0, by decide +kernel⟩,
   ⟨.eth0, cl, (st (w (dev .idle) up)), [1, 2], 0xC0A80002, by decide +kernel⟩,
   ⟨.eth0, cl, st (w (dev .idle) up), big, 0, by decide +kernel, by decide +kernel, Or.inr (by decide +kernel)⟩,
   ⟨.eth0, 0, 0, [1, 2], (st (w (dev .idle) up)), by decide +kernel⟩,
   ⟨.eth0, 0, 0, [1, 2], (st (w (dev .idle) up)), by decide +kernel⟩,
   ⟨.eth0, 0, 0, [1, 2], (st { dev .idle with net := { reasm := List.replicate 32 ⟨7, [], none⟩ } }),
     by decide +kernel⟩,
   ⟨7, (st { dev .idle with net := { reasm := List.replicate 32 ⟨7, [], none⟩ } }), by decide +kernel⟩⟩
end W.PortsAndAnswers

namespace W.QueuePairs
def qd (q : Qp) : Dev :=
  { w (jdev .idle) [(Reg.NET_P_STAT 0, 0xE0000000), (Reg.NET_S_QP_CTRL 0, 0xE0000000), (Reg.NET_ROCE_RETRY, 7), (Reg.PAGE_BUF_SIZE, 51200)] with
  pages :=
    { list := [{ (default : Page) with id := 5, job := 9, closed := true, container := some [1, 2, 3] }], deliv := some ⟨5, 9, 1, true, 0, false, 3, 0, 1000, []⟩ },
    net := { qps := [(1, q)] } }
theorem wit_QueuePairs :
    (∃ (n : Nat) (ce : Bool) (k : Word) (a : Nat) (x : List Byte) (s : State), 1 ≤ n ∧ n ≤ 64 ∧ s.d.qpReady n = true
      ∧ s.d.grants n 29 k a x.length = true) ∧
    (∃ (n : Nat) (ce : Bool) (k : Word) (a : Nat) (x : List Byte) (s : State), 1 ≤ n ∧ n ≤ 64 ∧ s.d.qpReady n = true
      ∧ s.d.grants n 29 k a x.length = false) ∧
    (∃ (n : Nat) (ce : Bool) (k : Word) (a : Nat) (l : Nat) (s : State), 1 ≤ n ∧ n ≤ 64 ∧ s.d.qpReady n = true ∧
      s.d.grants n 30 k a l = true ∧ s.d.poisonAt a l = none ∧ s.d.readsWaiting n < 16) ∧
    (∃ (n : Nat) (ce : Bool) (k : Word) (a : Nat) (l : Nat) (s : State), 1 ≤ n ∧ n ≤ 64 ∧ s.d.qpReady n = true ∧
      s.d.grants n 30 k a l = false) ∧
    (∃ (n : Nat) (k : BadRequest) (s : State), 1 ≤ n ∧ n ≤ 64 ∧ s.d.qpReady n = true) ∧
    (∃ (n : Nat) (k : NakIn) (s : State), 1 ≤ n ∧ n ≤ 64 ∧ s.d.qpReady n = true ∧ s.d.writeOut n = true ∧ k.seqErr =
      true ∧ (s.d.qp n).resends < s.d.rd Reg.NET_ROCE_RETRY) ∧
    (∃ (n : Nat) (k : NakIn) (s : State), 1 ≤ n ∧ n ≤ 64 ∧ s.d.qpReady n = true ∧ s.d.writeOut n = true ∧ k.seqErr =
      false) ∧
    (∃ (n : Nat) (s : State), 1 ≤ n ∧ n ≤ 64 ∧ s.d.writeOut n = true ∧ (s.d.qp n).resends < s.d.rd Reg.NET_ROCE_RETRY) ∧
    (∃ (n : Nat) (s : State), 1 ≤ n ∧ n ≤ 64 ∧ s.d.writeOut n = true ∧ s.d.rd Reg.NET_ROCE_RETRY ≤ (s.d.qp n).resends
      ∧ s.d.outPackets n ≤ (s.d.qp n).acked + 1) ∧
    (∃ (n : Nat) (s : State), 1 ≤ n ∧ n ≤ 64 ∧ s.d.qpReady n = true ∧ (∀ (t : Nat), (s.d.qp n).cnpRx = some t → t +
      usCyc 50 ≤ s.d.now)) ∧
    (∃ (n : Nat) (s : State) (t : Nat), 1 ≤ n ∧ n ≤ 64 ∧ s.d.qpReady n = true ∧ (s.d.qp n).cnpRx = some t ∧ s.d.now <
      t + usCyc 50) ∧
    (∃ (n : Nat) (s : State), 1 ≤ n ∧ n ≤ 64 ∧ s.d.qpReady n = true ∧ (s.d.qp n).rate ≠ 0) :=
  ⟨⟨1, true, 9, (shrBase + 8), [1, 2], (st (qd { st := 1, rkey := 9, cnpRx := some 1 })), by decide +kernel⟩,
   ⟨1, true, 9, 1, [1, 2], (st (qd { st := 1, rkey := 9, cnpRx := some 1 })), by decide +kernel⟩,
   ⟨1, true, 9, (shrBase + 8), 1, (st (qd { st := 1, rkey := 9, cnpRx := some 1 })), by decide +kernel⟩,
   ⟨1, true, 9, 1, 1, (st (qd { st := 1, rkey := 9, cnpRx := some 1 })), by decide +kernel⟩,
   ⟨1, ⟨true, false⟩, (st (qd { st := 1, rkey := 9, cnpRx := some 1 })), by decide +kernel⟩,
   ⟨1, ⟨true, 0, false⟩, (st (qd { st := 1, rkey := 9, cnpRx := some 1 })), by decide +kernel⟩,
   ⟨1, ⟨false, 0, true⟩, (st (qd { st := 1, rkey := 9, cnpRx := some 1 })), by decide +kernel⟩,
   ⟨1, (st (qd { st := 1, rkey := 9, cnpRx := some 1 })), by decide +kernel⟩,
   ⟨1, (st (qd { st := 1, rkey := 9, resends := 7, rate := 20000 })), by decide +kernel⟩,
   ⟨1, (st (qd { st := 1, rkey := 9 })), by decide +kernel⟩,
   ⟨1, (st (qd { st := 1, rkey := 9, cnpRx := some 1 })), 1, by decide +kernel⟩,
   ⟨1, (st (qd { st := 1, rkey := 9, resends := 7, rate := 20000 })), by decide +kernel⟩⟩
end W.QueuePairs

namespace W.TimeAndPtp
def pt (t : Tim) : Dev :=
  { w (dev .idle) [(Reg.NET_P_STAT 0, 0xE0000000), (Reg.TIM_PTP_CTRL, 0xA0000000)] with tim := t }
theorem wit_TimeAndPtp :
    (∃ (h : Req) (ns : Nat) (frac : Nat) (s : State), Ready h s.d ∧ s.d.jobHeld = false ∧ s.d.ptpRules = false) ∧
    (∃ (h : Req) (ns : Nat) (frac : Nat) (s : State), Ready h s.d ∧ (s.d.jobHeld = true ∨ s.d.ptpRules = true)) ∧
    (∃ (h : Req) (o : Int) (i : Nat) (s : State), Ready h s.d ∧ s.d.ptpRules = false ∧ (i = 0 ∨ 21968242323 ≤ i ∧ i ≤
      22012222789)) ∧
    (∃ (h : Req) (o : Int) (i : Nat) (s : State), Ready h s.d ∧ s.d.ptpRules = true) ∧
    (∃ (h : Req) (o : Int) (i : Nat) (s : State), Ready h s.d ∧ s.d.ptpRules = false ∧ i ≠ 0 ∧ (i < 21968242323 ∨
      22012222789 < i)) ∧
    (∃ (s : State), 0 < s.d.slewStep) ∧
    (∃ (s : State) (c : Nat) (l : Nat) (m : PtpEvent) (o : Nat), s.d.ptpOn = true ∧ lateL l = true) ∧
    (∃ (s : State) (c : Nat) (l : Nat) (m : PtpMsg), s.d.ptpOn = true ∧ lateL l = true) ∧
    (∃ (s : State) (m : PtpEvent) (c : Nat) (l : Nat) (o : Nat), s.d.ptpOn = true ∧ lateL l = false ∧ (m.domain ≠
      s.d.rf Reg.TIM_PTP_CTRL 15 8 ∨ m.ip6 ≠ (s.d.rf Reg.TIM_PTP_CTRL 28 28 == 1))) ∧
    (∃ (s : State) (c : Nat) (l : Nat) (o : Nat) (q : Nat), s.d.ptpOn = true ∧ lateL l = false) ∧
    (∃ (s : State) (c : Nat) (l : Nat) (o : Nat) (r : Int), s.d.ptpOn = true ∧ lateL l = false ∧ s.d.ptpRules = true) ∧
    (∃ (s : State) (c : Nat) (l : Nat) (o : Nat) (r : Int), s.d.ptpOn = true ∧ lateL l = false ∧ s.d.ptpRules = false) ∧
    (∃ (s : State) (c : Nat) (l : Nat) (o : Nat) (q : Nat), s.d.ptpOn = true ∧ lateL l = false ∧ s.d.tim.ptp = 6) ∧
    (∃ (s : State) (c : Nat) (l : Nat) (o : Nat) (q : Nat), s.d.ptpOn = true ∧ lateL l = false ∧ s.d.tim.ptp ≠ 6) ∧
    (∃ (s : State) (c : Nat) (l : Nat) (o : Nat) (q : Nat), s.d.ptpOn = true ∧ lateL l = false) ∧
    (∃ (s : State) (c : Nat) (l : Nat) (o : Nat) (q : Nat) (turn : Int) (t1 : Int), s.d.ptpOn = true ∧ lateL l =
      false ∧ s.d.tim.dreq = some (q, t1) ∧ s.d.rf Reg.TIM_PTP_CTRL 30 30 = 1) ∧
    (∃ (s : State) (c : Nat) (l : Nat) (q : Nat), s.d.ptpOn = true ∧ lateL l = false) ∧
    (∃ (s : State) (c : Nat) (l : Nat) (q : Nat), s.d.ptpOn = true ∧ lateL l = false) ∧
    (∃ (s : State) (c : Nat) (l : Nat) (q : Nat), s.d.ptpOn = true ∧ lateL l = false) ∧
    (∃ (s : State) (c : Nat) (l : Nat) (q : Nat) (turn : Int), s.d.ptpOn = true ∧ lateL l = false) ∧
    (∃ (s : State) (c : Nat) (l : Nat) (r : Int), s.d.ptpOn = true ∧ lateL l = false) ∧
    (∃ (s : State), s.d.ptpOn = true ∧ s.d.tim.ptp = 6) ∧
    (∃ (s : State), s.d.ptpOn = true ∧ s.d.tim.ptp = 6) ∧
    (∃ (s : State), s.d.ptpOn = true ∧ s.d.tim.ptp ≠ 6) ∧
    (∃ (s : State), s.d.ptpOn = true ∧ s.d.tim.ptp ≠ 6) ∧
    (∃ (s : State), s.d.ptpOn = true ∧ (s.d.rf Reg.TIM_PTP_CTRL 30 30 = 1 ∨ s.d.ptpRules = true)) ∧
    (∃ (s : State), s.d.ptpOn = true ∧ s.d.rf Reg.TIM_PTP_CTRL 30 30 ≠ 1 ∧ s.d.ptpRules = false) ∧
    (∃ (s : State), s.d.ptpOn = true ∧ s.d.tim.ptp ≠ 6) ∧
    (∃ (s : State) (q : Nat) (t2 : Int) (o : Int), s.d.ptpOn = true ∧ s.d.tim.sync = some (q, t2) ∧ s.d.ptpRules =
      true) ∧
    (∃ (s : State) (q : Nat) (t3 : Int) (r : Int), s.d.ptpOn = true ∧ s.d.tim.dreq = some (q, t3) ∧ s.d.rf
      Reg.TIM_PTP_CTRL 30 30 = 0) ∧
    (∃ (s : State) (a : Nat) (b : Nat) (c : Nat) (f : Nat) (e : Nat) (i : Nat) (k : Nat) (u : Nat) (v : Bool),
      s.d.ptpOn = true ∧ s.d.rf Reg.TIM_PTP_CTRL 29 29 = 1 ∧ s.d.tim.master = none) :=
  ⟨⟨rq, 0, 0, (st (dev .idle)), ready_of (by decide +kernel), by decide +kernel⟩,
   ⟨rq, 0, 0, (st (jdev .scan)), ready_of (by decide +kernel), by decide +kernel⟩,
   ⟨rq, 1000, 0, (st (dev .idle)), ready_of (by decide +kernel), by decide +kernel⟩,
   ⟨rq, 1000, 0, (st (pt { ptp := 8, sync := some (5, 1000) })), ready_of (by decide +kernel), by decide +kernel⟩,
   ⟨rq, 1000, 5, (st (dev .idle)), ready_of (by decide +kernel), by decide +kernel⟩,
   ⟨(st (dev .idle)), by decide +kernel⟩,
   ⟨(st (pt { ptp := 8, sync := some (5, 1000) })), 0, 22000000000, ⟨0, false, .sync 5⟩, 0, by decide +kernel⟩,
   ⟨(st (pt { ptp := 8, sync := some (5, 1000) })), 0, 22000000000, (.sync 5), by decide +kernel⟩,
   ⟨(st (pt { ptp := 8, sync := some (5, 1000) })), ⟨1, false, .delayReq 5⟩, 0, 0, 0, by decide +kernel⟩,
   ⟨(st (pt { ptp := 8, sync := some (5, 1000) })), 0, 0, 0, 0, by decide +kernel⟩,
   ⟨(st (pt { ptp := 8, sync := some (5, 1000) })), 0, 0, 0, 1000, by decide +kernel⟩,
   ⟨(st (pt { ptp := 6 })), 0, 0, 0, 1000, by decide +kernel⟩,
   ⟨(st (pt { ptp := 6 })), 0, 0, 0, 0, by decide +kernel⟩,
   ⟨(st (pt { ptp := 8, sync := some (5, 1000) })), 0, 0, 0, 0, by decide +kernel⟩,
   ⟨(st (pt { ptp := 8, sync := some (5, 1000) })), 0, 0, 0, 0, by decide +kernel⟩,
   ⟨(st (w (pt { ptp := 8, dreq := some (5, 1000) }) [(Reg.TIM_PTP_CTRL, 0xE0000000)])), 0, 0, 0, 5, 1000, 1000,
     by decide +kernel⟩,
   ⟨(st (pt { ptp := 8, sync := some (5, 1000) })), 0, 0, 0, by decide +kernel⟩,
   ⟨(st (pt { ptp := 8, sync := some (5, 1000) })), 0, 0, 0, by decide +kernel⟩,
   ⟨(st (pt { ptp := 8, sync := some (5, 1000) })), 0, 0, 0, by decide +kernel⟩,
   ⟨(st (pt { ptp := 8, sync := some (5, 1000) })), 0, 0, 0, 1000, by decide +kernel⟩,
   ⟨(st (pt { ptp := 8, sync := some (5, 1000) })), 0, 0, 1000, by decide +kernel⟩,
   ⟨(st (pt { ptp := 6 })), by decide +kernel⟩,
   ⟨(st (pt { ptp := 6 })), by decide +kernel⟩,
   ⟨(st (pt { ptp := 8, sync := some (5, 1000) })), by decide +kernel⟩,
   ⟨(st (pt { ptp := 8, sync := some (5, 1000) })), by decide +kernel⟩,
   ⟨(st (pt { ptp := 8, sync := some (5, 1000) })), by decide +kernel⟩,
   ⟨(st (pt { ptp := 6 })), by decide +kernel⟩,
   ⟨(st (pt { ptp := 8, sync := some (5, 1000) })), by decide +kernel⟩,
   ⟨(st (pt { ptp := 8, sync := some (5, 1000) })), 5, 1000, 1000, by decide +kernel⟩,
   ⟨(st (pt { ptp := 8, dreq := some (5, 1000) })), 5, 1000, 1000, by decide +kernel⟩,
   ⟨(st (pt { ptp := 8, sync := some (5, 1000) })), 0, 0, 0, 0, 0, 0, 0, 0, true, by decide +kernel⟩⟩
end W.TimeAndPtp

namespace W.FaultClearing
def sf (c : Nat) (d : Dev) : Dev := { w d [(Reg.FLT_SAFE_CAUSE, c)] with hold := 16, flt := { why := 8192 } }
def lf (c : Nat) (d : Dev) : Dev :=
  { w d [(Reg.FLT_SAFE_CAUSE, c), (Reg.LMP_C_CFG 0, 0x80000000), (Reg.LMP_C_DIAG 0, 1)] with hold := 16, flt := { why := 8192 } }
def clr (d : Dev) : Dev := { d with flt := { d.flt with clearing := true } }
theorem wit_FaultClearing :
    (∃ (h : Req) (s : State), Ready h s.d ∧ s.d.mode ≠ Mode.safe) ∧
    (∃ (h : Req) (s : State), Ready h s.d ∧ s.d.mode = Mode.safe ∧ s.d.clearOk = false) ∧
    (∃ (h : Req) (s : State), Ready h s.d ∧ s.d.mode = Mode.safe ∧ s.d.clearOk = true) ∧
    (∃ (h : Req) (s : State), Ready h s.d) ∧
    (∃ (c : BitVec 9) (s : State), s.d.flt.clearing = true ∧ s.d.mode = Mode.safe ∧ s.d.afe.blkStep = [] ∧ (∀ b < 9,
      bit (s.d.rd Reg.FLT_SAFE_CAUSE) b = true → s.d.causeClear c b = true) ∧ s.d.jobHeld = false ∧ s.d.regs.com =
      none ∧ s.d.regs.held = [] ∧ s.d.cal.held = [] ∧ s.d.cal.due = []) ∧
    (∃ (c : BitVec 9) (s : State), s.d.flt.clearing = true ∧ s.d.mode = Mode.safe ∧ s.d.afe.blkStep = [] ∧ (∀ b < 9,
      bit (s.d.rd Reg.FLT_SAFE_CAUSE) b = true → s.d.causeClear c b = true) ∧ s.d.jobHeld = true) ∧
    (∃ (c : BitVec 9) (b : Nat) (s : State), s.d.flt.clearing = true ∧ s.d.mode = Mode.safe ∧ s.d.afe.blkStep = [] ∧
      b < 9 ∧ bit (s.d.rd Reg.FLT_SAFE_CAUSE) b = true ∧ s.d.causeClear c b = false) :=
  ⟨⟨rq, (st (dev .idle)), ready_of (by decide +kernel), by decide +kernel⟩,
   ⟨rq, (st (w (sf 256 (dev .safe)) [(Reg.FLT_SAFE_CAUSE, 256), (Reg.FLT_CORE_STAT, 1)])),
     ready_of (by decide +kernel), by decide +kernel⟩,
   ⟨rq, (st (sf 1 (dev .safe))), ready_of (by decide +kernel), by decide +kernel⟩,
   ⟨rq, (st (dev .idle)), ready_of (by decide +kernel)⟩,
   ⟨1, (st (clr (sf 2 (dev .safe)))), by decide +kernel⟩,
   ⟨1, (st (clr (sf 2 (jdev .safe)))), by decide +kernel⟩,
   ⟨1, 0, (st (clr (sf 1 (dev .safe)))), by decide +kernel⟩⟩
end W.FaultClearing

namespace W.BackgroundWork
def rc : CalRec := { (default : CalRec) with kind := 7 }
theorem wit_BackgroundWork :
    (∃ (s : State), s.d.flt.l3run = false ∧ bit (s.d.rd Reg.FLT_SCRUB_CTRL) 0 = true ∧ s.d.pwr.fieldOk = true) ∧
    (∃ (s : State), s.d.flt.l3run = false ∧ bit (s.d.rd Reg.FLT_SCRUB_CTRL) 0 = true ∧ s.d.pwr.fieldOk = false) ∧
    (∃ (s : State), s.d.flt.l3run = false ∧ bit (s.d.rd Reg.FLT_SCRUB_CTRL) 1 = true ∧ s.d.mode ≠ Mode.off) ∧
    (∃ (s : State), s.d.flt.l3run = false ∧ bit (s.d.rd Reg.FLT_SCRUB_CTRL) 2 = true ∧ s.d.mode ≠ Mode.off) ∧
    (∃ (s : State) (t : ScrubTarget), s.d.flt.l3run = false ∧ s.d.rd Reg.FLT_SCRUB_CTRL = 0) ∧
    (∃ (s : State), bit (s.d.rd Reg.FLT_SCRUB_CTRL) 3 = true) ∧
    (∃ (s : State) (i : Nat) (r : CalRec), bit (s.d.rd Reg.FLT_SCRUB_CTRL) 3 = true ∧ s.d.cal.store[i]? = some r) :=
  ⟨⟨(st { w (dev .idle) [(Reg.FLT_SCRUB_CTRL, 15)] with pwr := { (dev .idle).pwr with fieldOk := true } }),
     by decide +kernel⟩,
   ⟨(st { w (dev .idle) [(Reg.FLT_SCRUB_CTRL, 15)] with pwr := { (dev .idle).pwr with fieldOk := false } }),
     by decide +kernel⟩,
   ⟨(st { w (dev .idle) [(Reg.FLT_SCRUB_CTRL, 15)] with pwr := { (dev .idle).pwr with fieldOk := true } }),
     by decide +kernel⟩,
   ⟨(st { w (dev .idle) [(Reg.FLT_SCRUB_CTRL, 15)] with pwr := { (dev .idle).pwr with fieldOk := true } }),
     by decide +kernel⟩,
   ⟨(st (w (dev .idle) [(Reg.FLT_SCRUB_CTRL, 0)])), ScrubTarget.fsram, by decide +kernel⟩,
   ⟨(st { w (dev .idle) [(Reg.FLT_SCRUB_CTRL, 15)] with pwr := { (dev .idle).pwr with fieldOk := true } }),
     by decide +kernel⟩,
   ⟨(st { dev .idle with cal := { store := [rc, rc] } }), 0, rc, by decide +kernel⟩⟩
end W.BackgroundWork

namespace W.CoresAndDoubleErrors
def pgc : Page := { (default : Page) with id := 5, closed := true }
def cst : Dev :=
  { w (jdev .splice) [(Reg.FLT_CORE_STAT, 15)] with cls := { staging := [⟨[], [], [], 0, 0, false, none⟩] } }
theorem wit_CoresAndDoubleErrors :
    (∃ (p : Nat) (s : State), p < 4 ∧ bit (s.d.rd Reg.FLT_CORE_STAT) p = true ∧ aget s.d.flt.lock p = none) ∧
    (∃ (p : Nat) (s : State) (t : Nat), p < 4 ∧ bit (s.d.rd Reg.FLT_CORE_STAT) p = true ∧ aget s.d.flt.lock p = some
      t ∧ s.d.ns ≤ t + s.d.rd Reg.FLT_ESC_WIN * 1000000000 ∧ s.d.regs.com = none ∧ bit (s.d.rd Reg.FLT_CORE_STAT) (4
      + p) = false) ∧
    (∃ (s : State), s.d.fieldRuns = true ∧ s.d.recurs 13 2 4 = none) ∧
    (∃ (a : Nat) (k : Bool) (s : State) (p : Page) (n : Nat) (o : Nat), (List.find? (fun (x : Page) => x.id == p.id)
      s.d.pages.list = some p) ∧ p.container = none) ∧
    (∃ (a : Nat) (k : Bool) (s : State) (x : Ing), s.d.cls.staging.getLast? = some x) ∧
    (∃ (a : Nat) (k : Bool) (s : State), s.d.fieldRuns = true) ∧
    (∃ (a : Nat) (k : Bool) (s : State) (m : Nat), m < 8 ∧ s.d.mode = Mode.scan) ∧
    (∃ (a : Nat) (k : Bool) (s : State) (n : Nat) (b : Bool), n < 32 ∧ s.d.mode = Mode.scan) ∧
    (∃ (a : Nat) (k : Bool) (s : State), s.d.recurs 12 1 0 = none ∧ a < 68719476736) ∧
    (∃ (a : Nat) (k : Bool) (s : State), s.d.mode ≠ Mode.off) :=
  ⟨⟨0, (st cst), by decide +kernel⟩,
   ⟨0,
     (st { w (jdev .scan) [(Reg.FLT_CORE_STAT, 15)] with flt := { lock := [(0, 0)] }, pages := { list := [pgc] } }),
     0, by decide +kernel⟩,
   ⟨(st cst), by decide +kernel⟩,
   ⟨0, true,
     (st { w (jdev .scan) [(Reg.FLT_CORE_STAT, 15)] with flt := { lock := [(0, 0)] }, pages := { list := [pgc] } }),
     pgc, 0, 0, by decide +kernel⟩,
   ⟨0, true, (st cst), default, by decide +kernel⟩,
   ⟨0, true, (st cst), by decide +kernel⟩,
   ⟨0, true,
     (st { w (jdev .scan) [(Reg.FLT_CORE_STAT, 15)] with flt := { lock := [(0, 0)] }, pages := { list := [pgc] } }),
     0, by decide +kernel⟩,
   ⟨0, true,
     (st { w (jdev .scan) [(Reg.FLT_CORE_STAT, 15)] with flt := { lock := [(0, 0)] }, pages := { list := [pgc] } }),
     0, true, by decide +kernel⟩,
   ⟨0, true, (st cst), by decide +kernel⟩,
   ⟨0, true, (st cst), by decide +kernel⟩⟩
end W.CoresAndDoubleErrors

namespace W.Recoveries
def rv (n : Nat) : Recov := ⟨n, 0xE, 1, 0, false, 3, 0⟩
theorem wit_Recoveries :
    (∃ (s : State), s.d.regs.com = none ∧ s.d.recurs 14 1 0 = none) ∧
    (∃ (s : State) (e : Nat) (was : Nat), s.d.regs.com = none ∧ s.d.recurs 14 1 0 = some (e, was) ∧ was ≤ 1) ∧
    (∃ (s : State), s.d.regs.com = none ∧ s.d.fieldRuns = true ∧ s.d.recurs 14 2 0 = none) ∧
    (∃ (s : State), s.d.regs.com = none ∧ s.d.mode ≠ Mode.off ∧ s.d.mode ≠ Mode.reset) ∧
    (∃ (s : State) (i : Nat) (t : Nat), s.d.flt.recs =
      [{ level := 1, cls := 14, code := 1, unit := 0, hold := false, entry := i, since := t }] ∧ bit s.d.flt.why
      whyL1 = false) ∧
    (∃ (s : State), s.d.flt.l2due = true ∧ s.d.fieldRuns = true ∧ s.d.feedStill = true) ∧
    (∃ (s : State), s.d.flt.l2due = false) ∧
    (∃ (s : State), s.d.flt.l2run = true ∧ s.d.cal.valid = 0) ∧
    (∃ (x : Recov) (s : State), s.d.regs.com = none ∧ s.d.lateRecov = some x ∧ s.d.mode ≠ Mode.off) ∧
    (∃ (x : Recov) (s : State) (y : Recov), s.d.regs.com = none ∧ s.d.lateRecov = some x ∧ s.d.mode ≠ Mode.off ∧ y ∈
      s.d.flt.recs ∧ (y.level ≤ 1 ∨ y.level = 2 ∧ s.d.flt.l2run = true)) ∧
    (∃ (x : Recov) (s : State), s.d.regs.com = none ∧ s.d.lateRecov = some x ∧ s.d.mode ≠ Mode.off ∧ x.level = 1) ∧
    (∃ (x : Recov) (s : State), s.d.regs.com = none ∧ s.d.lateRecov = some x ∧ s.d.mode ≠ Mode.off ∧ x.level = 2) :=
  ⟨⟨(st (dev .idle)), by decide +kernel⟩,
   ⟨(st { jdev .scan with flt := { hist := [(0xE, 1, 0, 3, 0, 1)] } }), 3, 1, by decide +kernel⟩,
   ⟨(st (dev .idle)), by decide +kernel⟩,
   ⟨(st (dev .idle)), by decide +kernel⟩,
   ⟨(st { jdev .scan with flt := { recs := [rv 1] } }), 3, 0, by decide +kernel⟩,
   ⟨(st { jdev .hold with flt := { recs := [rv 2], l2due := true, l2run := true } }), by decide +kernel⟩,
   ⟨(st (dev .idle)), by decide +kernel⟩,
   ⟨(st { jdev .hold with flt := { recs := [rv 2], l2due := true, l2run := true } }), by decide +kernel⟩,
   ⟨(rv 1), (st { jdev .scan with flt := { recs := [rv 1] } }), by decide +kernel⟩,
   ⟨(rv 1), (st { jdev .scan with flt := { recs := [rv 1] } }), (rv 1), by decide +kernel⟩,
   ⟨(rv 1), (st { jdev .scan with flt := { recs := [rv 1] } }), by decide +kernel⟩,
   ⟨(rv 2), (st { jdev .hold with flt := { recs := [rv 2], l2due := true, l2run := true } }), by decide +kernel⟩⟩
end W.Recoveries

namespace W.HostSupply
theorem wit_HostSupply :
    (∃ (s : State), s.d.pwr.hostOk = false ∧ s.d.pwr.nrstH = true ∧ s.d.pwr.tripH = false) ∧
    (∃ (s : State), s.d.pwr.hostOk = true) ∧
    (∃ (s : State), s.d.pwr.nrstH = true) ∧
    (∃ (s : State), s.d.pwr.nrstH = false ∧ s.d.pwr.hostOk = true ∧ s.d.pwr.tripH = false ∧ s.d.mode ≠ Mode.off) ∧
    (∃ (s : State), s.d.pwr.nrstH = false ∧ s.d.pwr.hostOk = true ∧ s.d.pwr.tripH = false ∧ s.d.mode ≠ Mode.off) :=
  ⟨⟨(st { dev .off with pwr := { hostOk := false } }), by decide +kernel⟩,
   ⟨(st (jdev .idle)), by decide +kernel⟩,
   ⟨(st (jdev .idle)), by decide +kernel⟩,
   ⟨(st { dev .reset with pwr := { nrstH := false } }), by decide +kernel⟩,
   ⟨(st { dev .reset with pwr := { nrstH := false } }), by decide +kernel⟩⟩
end W.HostSupply

namespace W.FieldSupply
theorem wit_FieldSupply :
    (∃ (s : State), s.d.pwr.fieldOk = false) ∧
    (∃ (s : State) (r : Nat), s.d.regs.com = none ∧ s.d.fieldRuns = true ∧ r < 32) ∧
    (∃ (s : State), s.d.regs.com = none ∧ s.d.fieldRuns = true ∧ s.d.pwr.nrstF = true) ∧
    (∃ (s : State), s.d.regs.com = none ∧ s.d.fieldRuns = true) ∧
    (∃ (s : State), s.d.regs.com = none ∧ s.d.jobHeld = true ∧ s.d.pwr.gridLost = false ∧ s.d.mode ≠ Mode.off ∧
      s.d.pwr.nrstF = true) ∧
    (∃ (s : State), s.d.pwr.nrstF = false ∧ s.d.mode = Mode.standby ∧ 3 ≤ s.d.bzl.goodStatus ∧ s.d.rf Reg.DEV_CTRL 0
      0 = 0) ∧
    (∃ (s : State), s.d.pwr.nrstF = false ∧ s.d.mode ≠ Mode.standby) ∧
    (∃ (s : State), s.d.mode ≠ Mode.off) ∧
    (∃ (s : State), s.d.pwr.hostOk = true ∧ s.d.pwr.nrstH = true ∧ s.d.pwr.tripH = false) ∧
    (∃ (s : State), s.d.pwr.fieldOk = true ∧ s.d.pwr.nrstF = true ∧ s.d.pwr.tripF = false) ∧
    (∃ (s : State), s.d.pwr.fieldOk = false) :=
  ⟨⟨(st (jdev .scan)), by decide +kernel⟩,
   ⟨(st (jdev .scan)), 0, by decide +kernel⟩,
   ⟨(st (jdev .scan)), by decide +kernel⟩,
   ⟨(st (jdev .scan)), by decide +kernel⟩,
   ⟨(st (jdev .scan)), by decide +kernel⟩,
   ⟨(st { dev .standby with pwr := { nrstF := false }, bzl := { goodStatus := 3 } }), by decide +kernel⟩,
   ⟨(st { dev .reset with pwr := { nrstF := false } }), by decide +kernel⟩,
   ⟨(st (jdev .scan)), by decide +kernel⟩,
   ⟨(st (jdev .scan)), by decide +kernel⟩,
   ⟨(st { dev .idle with pwr := { fieldOk := true } }), by decide +kernel⟩,
   ⟨(st (jdev .scan)), by decide +kernel⟩⟩
end W.FieldSupply

namespace W.BootAndWake
theorem wit_BootAndWake :
    (∃ (full : Bool) (back : Bool) (s : State), s.d.mode = Mode.reset ∧ s.d.pwr.hostOk = true ∧ s.d.pwr.nrstH = true
      ∧ s.d.pwr.tripH = false ∧ s.d.pwr.refused = false ∧ s.d.pwr.slot < 2) ∧
    (∃ (s : State), s.d.mode = Mode.reset) ∧
    (∃ (s : State), s.d.mode = Mode.reset) ∧
    (∃ (t : Training) (s : State), (t.f2h % 2 ^ 24 = 0 ∨ t.h2f % 16 = 0)) ∧
    (∃ (t : Training) (s : State), s.d.mode = Mode.wake ∧ t.f2h % 2 ^ 24 ≠ 0 ∧ t.h2f % 16 ≠ 0) ∧
    (∃ (s : State), s.d.mode = Mode.wake ∧ s.d.regs.com = none ∧ s.d.pwr.wakeRetry = 0) ∧
    (∃ (s : State), s.d.mode = Mode.wake ∧ s.d.regs.com = none ∧ s.d.pwr.wakeRetry ≠ 0) :=
  ⟨⟨true, true, (st (dev .reset)), by decide +kernel⟩,
   ⟨(st (dev .reset)), by decide +kernel⟩,
   ⟨(st (dev .reset)), by decide +kernel⟩,
   ⟨⟨true, 0, 15, 1, []⟩, (st (dev .reset)), by decide +kernel⟩,
   ⟨⟨true, 0xFFFFFF, 15, 90, []⟩, (st (dev .wake)), by decide +kernel⟩,
   ⟨(st (dev .wake)), by decide +kernel⟩,
   ⟨(st { dev .wake with pwr := { wakeRetry := 1 } }), by decide +kernel⟩⟩
end W.BootAndWake

namespace W.FieldBus
theorem wit_FieldBus :
    (∃ (v : Nat) (s : State), s.d.rd Reg.PWR_FBUS_LOW ≤ v) ∧
    (∃ (v : Nat) (s : State), s.d.mode ≠ Mode.homing ∧ v < s.d.rd Reg.PWR_FBUS_LOW) ∧
    (∃ (v : Nat) (u : Nat) (s : State), s.d.rd Reg.PWR_FBUS_LOW + s.d.rd Reg.PWR_FBUS_HYST ≤ v ∧ s.d.pwr.dip = true) ∧
    (∃ (v : Nat) (u : Nat) (s : State), s.d.rd Reg.PWR_FBUS_LOW + s.d.rd Reg.PWR_FBUS_HYST ≤ v ∧ s.d.pwr.dip = false) ∧
    (∃ (v : Nat) (u : Nat) (s : State), v < s.d.rd Reg.PWR_FBUS_LOW + s.d.rd Reg.PWR_FBUS_HYST) ∧
    (∃ (v : Nat) (u : Nat) (s : State), s.d.rd Reg.PWR_FBUS_HIGH ≤ v) ∧
    (∃ (v : Nat) (u : Nat) (s : State), v < s.d.rd Reg.PWR_FBUS_HIGH) ∧
    (∃ (s : State), s.d.pwr.dip = false ∧ s.d.pwr.fbusValid = true ∧ (s.d.pwr.acDip = false ∨ s.d.lamp.acLock = true)) ∧
    (∃ (s : State), s.d.pwr.dip = true) ∧
    (∃ (s : State), s.d.rf Reg.PWR_CTRL 0 0 = 1 ∧ s.d.lamp.acLock = true ∧ s.d.mode ≠ Mode.homing) ∧
    (∃ (s : State), s.d.rf Reg.PWR_CTRL 0 0 = 0) ∧
    (∃ (v : Nat) (g : Nat) (m : Move) (s : State), s.d.jobMode = true ∧ g < 4 ∧ s.d.feed ≠ some g ∧ (s.d.grp g).st =
      GSt.run ∧ (s.d.grp g).cur = some m ∧ v < s.d.rd Reg.PWR_FBUS_LOW) :=
  ⟨⟨70000, (st (dev .idle)), by decide +kernel⟩,
   ⟨0, (st (dev .idle)), by decide +kernel⟩,
   ⟨70000, 0, (st { jdev .hold with hold := 4, pwr := { dip := true } }), by decide +kernel⟩,
   ⟨70000, 0, (st (dev .idle)), by decide +kernel⟩,
   ⟨0, 0, (st (dev .idle)), by decide +kernel⟩,
   ⟨70000, 0, (st (dev .idle)), by decide +kernel⟩,
   ⟨0, 0, (st (dev .idle)), by decide +kernel⟩,
   ⟨(st { jdev .hold with hold := 4, pwr := { fbusValid := true } }), by decide +kernel⟩,
   ⟨(st { jdev .hold with hold := 4, pwr := { dip := true } }), by decide +kernel⟩,
   ⟨(st { w (jdev .scan) [(Reg.PWR_CTRL, 1)] with lamp := { acLock := true } }), by decide +kernel⟩,
   ⟨(st (dev .idle)), by decide +kernel⟩,
   ⟨0, 1, mv, (st { jdev .scan with mot := { groups := [{}, { st := .run, cur := some mv }, {}, {}] } }),
     by decide +kernel⟩⟩
end W.FieldBus

namespace W.WritersOfDramKeyAndImage
theorem wit_WritersOfDramKeyAndImage :
    (∃ (c : Instr) (s : State) (t : State), exec c s = .next t ∧ storesToDram c = false) ∧
    (∃ (c : Instr) (s : State) (t : State), exec c s = .next t ∧ (∀ (h : Req) (k : Nat) (x : List Byte), c ≠
      Instr.keyProvision h k x)) ∧
    (∃ (c : Instr) (s : State) (t : State), exec c s = .next t ∧ c ≠ Instr.fwCommitDone) ∧
    (∃ (c : Instr) (s : State) (t : State), exec c s = .next t ∧ c ≠ Instr.fwCommitDone) :=
  ⟨⟨.lampPreload, {}, _, rfl, rfl⟩,
   ⟨.lampPreload, {}, _, rfl, nofun⟩,
   ⟨.lampPreload, {}, _, rfl, nofun⟩,
   ⟨.lampPreload, {}, _, rfl, nofun⟩⟩
end W.WritersOfDramKeyAndImage

namespace W.DiscardAndShadowReads
theorem wit_DiscardAndShadowReads :
    (∃ (h : Req) (s : State), Ready h s.d) ∧
    (∃ (h : Req) (addr : Nat) (r : Row) (s : State), Ready h s.d ∧ addr < 2 ^ 24 ∧ rowOf addr = some r ∧ r.acc =
      Acc.st) :=
  ⟨⟨rq, (st (dev .idle)), ready_of (by decide +kernel)⟩,
   ⟨rq, 0x10000, (rowOf 0x10000).get (by decide +kernel), st (dev .idle), ready_of (by decide +kernel),
     by decide +kernel⟩⟩
end W.DiscardAndShadowReads

namespace W.HeldJobCommits
def sh (a : Nat) : Dev := { jdev .hold with regs := { shd := [(a, 17)] } }
theorem wit_HeldJobCommits :
    (∃ (h : Req) (a : Nat) (v : Word) (s : State), Ready h s.d ∧ s.d.jobHeld = true ∧ s.d.regs.com = none ∧ (a =
      Reg.SEQ_DIV_INT ∨ a = Reg.SEQ_DIV_FRAC ∨ (∃ (n : Nat) (c : Nat), n < 32 ∧ c < 3 ∧ a = Reg.SEQ_H_OFS n c) ∨ a =
      Reg.COX_FEED_RATIO ∨ a / 65536 = 9) ∧ aget s.d.regs.shd a = some v ∧ BitVec.toNat v ≠ s.d.rd a) :=
  ⟨rq, Reg.SEQ_DIV_INT, 17, st (sh Reg.SEQ_DIV_INT), ready_of (by decide +kernel), by decide +kernel,
    by decide +kernel, Or.inl rfl, by decide +kernel⟩
end W.HeldJobCommits

namespace W.PacedStrokes
def cat (p : List (Nat × Nat)) (l : Option Nat) : Dev :=
  { jdev .scan with cox := { st := 2 }, seq := { en := true, pend := p, last := l } }
theorem wit_PacedStrokes :
    (∃ (t : Nat) (s : State) (k : Nat) (r : Nat) (l : List (Nat × Nat)), s.d.mode = Mode.scan ∧ s.d.cox.st = 2 ∧
      s.d.regs.com = none ∧ s.d.regs.held = [] ∧ s.d.cal.due = [] ∧ s.d.cal.held = [] ∧ s.d.seq.withhold = false ∧
      s.d.seq.pend = (k, r) :: l ∧ s.d.earliest ≤ r) ∧
    (∃ (t : Nat) (s : State) (k : Nat) (r : Nat) (l : List (Nat × Nat)), s.d.mode = Mode.scan ∧ s.d.cox.st = 2 ∧
      s.d.regs.com = none ∧ s.d.regs.held = [] ∧ s.d.cal.due = [] ∧ s.d.cal.held = [] ∧ s.d.seq.withhold = false ∧
      s.d.seq.pend = (k, r) :: l ∧ r < s.d.earliest) ∧
    (∃ (t : Nat) (s : State), s.d.mode = Mode.scan ∧ s.d.cox.st = 2 ∧ s.d.regs.com = none ∧ s.d.regs.held = [] ∧
      s.d.cal.due = [] ∧ s.d.cal.held = [] ∧ s.d.seq.withhold = false ∧ s.d.seq.en = true ∧ s.d.rf Reg.SEQ_CTRL 0 0 =
      1 ∧ s.d.owBusy = false) :=
  ⟨⟨500, (st (cat [(1, 500)] none)), 1, 500, [], by decide +kernel⟩,
   ⟨500, (st (cat [(1, 500)] (some 400))), 1, 500, [], by decide +kernel⟩,
   ⟨500, (st (w (cat [] none) [(Reg.SEQ_CTRL, 1)])), by decide +kernel⟩⟩
end W.PacedStrokes

/-- The other words of R286's list meet the premises of HeldJobCommits as well. -/
theorem wit_HeldJobCommits_words :
    ∀ a ∈ [Reg.SEQ_DIV_FRAC, Reg.SEQ_H_OFS 0 0, Reg.SEQ_H_OFS 31 2, Reg.COX_FEED_RATIO, Reg.CLS_CTRL, Reg.CLS_WIN],
      (a = Reg.SEQ_DIV_FRAC ∨ a = Reg.SEQ_H_OFS 0 0 ∨ a = Reg.SEQ_H_OFS 31 2 ∨ a = Reg.COX_FEED_RATIO ∨ a / 65536 = 9) ∧
      (W.HeldJobCommits.sh a).jobHeld = true ∧ aget (W.HeldJobCommits.sh a).regs.shd a = some 17 ∧
      17 ≠ (W.HeldJobCommits.sh a).rd a := by decide +kernel

end Sys2Proof.Tests
end

section
/-! PROOFS. The machine right after reset (R10, R37, R45). -/

namespace Sys2Proof.Machine

open Sys2Proof

/-- Settles O60: the words read their reset value because the set of changed words is empty; the rest is the empty
state. -/
theorem resetState : Obligations.ResetState := by
  have hrd : ∀ a, State.reset.d.rd a = resetWord a := fun a => by
    unfold Dev.rd
    split <;> rfl
  refine ⟨by decide, hrd, rfl, rfl, rfl, rfl, rfl, rfl, rfl, rfl, rfl, rfl, rfl, ?_, ?_⟩
  · decide +kernel
  · decide +kernel

end Sys2Proof.Machine
end

section
/-! PROOFS. DISCARD, and reads that never show a shadow (R11, R14). -/

namespace Sys2Proof.Machine

open Sys2Proof

/-! The shadow set is invisible to everything a request passes (R11, R14). -/

/-- The device with another shadow set. -/
def Dev.withShd (d : Dev) (l : List (Nat × Word)) : Dev := { d with regs := { d.regs with shd := l } }

section WithShd
variable (d : Dev) (l : List (Nat × Word))

@[simp] theorem withShd_fields :
    (d.withShd l).frees = d.frees ∧ (d.withShd l).sess = d.sess ∧ (d.withShd l).net = d.net ∧
    (d.withShd l).flt = d.flt ∧ (d.withShd l).seq = d.seq ∧ (d.withShd l).pwr = d.pwr ∧
    (d.withShd l).regs.sn = d.regs.sn ∧ (∀ a, (d.withShd l).rd a = d.rd a) ∧ (d.withShd l).served = d.served ∧
    (∀ n, (d.withShd l).ses? n = d.ses? n) ∧ (d.withShd l).ns = d.ns := by
  refine ⟨?_, ?_, ?_, ?_, ?_, ?_, ?_, fun _ => ?_, ?_, fun _ => ?_, ?_⟩ <;> rfl

@[simp] theorem withShd_put (a v : Nat) : (d.withShd l).put a v = (d.put a v).withShd l := by
  unfold Dev.put Regs.put
  split <;> rfl

@[simp] theorem withShd_bump (a : Nat) : (d.withShd l).bump a = (d.bump a).withShd l := withShd_put d l a _

@[simp] theorem withShd_bumpIf (b : Bool) (a : Nat) : (d.withShd l).bumpIf b a = (d.bumpIf b a).withShd l := by
  cases b
  · rfl
  · exact withShd_bump d l a

@[simp] theorem withShd_modSes (n : Nat) (f : Session → Session) :
    (d.withShd l).modSes n f = (d.modSes n f).withShd l := rfl

@[simp] theorem withShd_modPort (p : NetPort) (f : Port → Port) :
    (d.withShd l).modPort p f = (d.modPort p f).withShd l := rfl

/-! Sending (R48, R362, R367). -/

@[simp] theorem withShd_sendNow (p : NetPort) (c : Nat) (o : Out) :
    (d.withShd l).sendNow p c o = (d.sendNow p c o).withShd l := by
  have h : ((d.withShd l).emit o).bump (Reg.NET_P_TX_FRAME_CNT (portIx p)) =
      ((d.emit o).bump (Reg.NET_P_TX_FRAME_CNT (portIx p))).withShd l := withShd_bump (d.emit o) l _
  unfold Dev.sendNow
  rw [h]
  rfl

@[simp] theorem withShd_resolve (p : NetPort) (hop : Option Nat) :
    (d.withShd l).resolve p hop = (d.resolve p hop).withShd l := by
  cases hop with
  | none => rfl
  | some ip =>
    simp only [Dev.resolve, withShd_sendNow, withShd_modPort, withShd_fields]
    split <;> rfl

@[simp] theorem withShd_send (p : NetPort) (c : Nat) (o : Out) :
    (d.withShd l).send p c o = (d.send p c o).withShd l := by
  have hc : (d.withShd l).canSend p c = d.canSend p c := rfl
  have hh : ((d.withShd l).ipDst o).map ((d.withShd l).nextHop p) = (d.ipDst o).map (d.nextHop p) := rfl
  simp only [Dev.send, hc, hh, withShd_resolve, withShd_modPort, withShd_sendNow]
  split <;> rfl

/-- A fold of operations that do not see the shadow set does not see it. -/
theorem withShd_foldl {α : Type} (f : Dev → α → Dev) (hf : ∀ (d : Dev) x, f (d.withShd l) x = (f d x).withShd l)
    (xs : List α) : xs.foldl f (d.withShd l) = (xs.foldl f d).withShd l :=
  List.foldl_hom (fun d : Dev => d.withShd l) fun d x => hf d x

@[simp] theorem withShd_sendReply (dst : Endpoint) (p : NetPort) (n : Nat) (q : Word) (op st : Nat) (b : List Byte) :
    (d.withShd l).sendReply dst p n q op st b = (d.sendReply dst p n q op st b).withShd l :=
  withShd_foldl d l _ (fun d _ => withShd_send d l p 1 _) _

/-! Events (R77 to R80). -/

@[simp] theorem withShd_pump (n : Nat) : (d.withShd l).pump n = (d.pump n).withShd l := by
  simp only [Dev.pump, withShd_fields, withShd_modSes]
  split
  · split
    · rfl
    · exact withShd_foldl _ l _ (fun d _ => withShd_send d l _ 1 _) _
  · rfl

@[simp] theorem withShd_pushEv (n : Nat) (e : Ev) : (d.withShd l).pushEv n e = (d.pushEv n e).withShd l := by
  simp only [Dev.pushEv, withShd_fields, withShd_modSes, withShd_bump, withShd_pump]
  split
  · rfl
  · split <;> rfl

@[simp] theorem withShd_ev (n code : Nat) (b : List Byte) : (d.withShd l).ev n code b = (d.ev n code b).withShd l :=
  withShd_pushEv d l n _

/-! Requests (R50 to R57). -/

@[simp] theorem withShd_valid (h : Req) : (d.withShd l).valid h = (d.valid h).withShd l := rfl

@[simp] theorem withShd_answer (h : Req) (op st : Nat) (b : List Byte) :
    (d.withShd l).answer h op st b = (d.answer h op st b).withShd l := by
  simp only [Dev.answer, withShd_bumpIf, withShd_modSes, withShd_sendReply]
  split <;> rfl

@[simp] theorem withShd_refuse (h : Req) (op st : Nat) :
    (d.withShd l).refuse h op st = (d.refuse h op st).withShd l := by
  simp only [Dev.refuse, withShd_bumpIf, withShd_sendReply]

@[simp] theorem withShd_resend (h : Req) (c : Cached) : (d.withShd l).resend h c = (d.resend h c).withShd l := by
  simp only [Dev.resend, withShd_bump, withShd_sendReply]
  split <;> rfl

@[simp] theorem withShd_reportLost (n : Nat) : (d.withShd l).reportLost n = (d.reportLost n).withShd l := by
  simp only [Dev.reportLost, withShd_fields, withShd_modSes, withShd_ev]
  split
  · rfl
  · split <;> rfl

@[simp] theorem withShd_ackEvent (h : Req) (bare : Bool) :
    (d.withShd l).ackEvent h bare = (d.ackEvent h bare).withShd l := by
  simp only [Dev.ackEvent, withShd_fields, withShd_bump, withShd_valid, withShd_modSes, withShd_reportLost,
    withShd_pump]
  split
  · rfl
  · split
    · rfl
    · split <;> rfl

@[simp] theorem withShd_notRequest (h : Req) (bare : Bool) :
    (d.withShd l).notRequest h bare = (d.notRequest h bare).map (·.withShd l) := by
  simp only [Dev.notRequest, withShd_ackEvent, withShd_bump]
  split <;> rfl

@[simp] theorem withShd_runtimeBack : (d.withShd l).runtimeBack = d.runtimeBack.withShd l :=
  withShd_foldl d l _ (fun _ _ => rfl) _

/-- A request whose own checks do not see the shadow set does not see it. -/
theorem withShd_serve (h : Req) (op : Nat) (k : Dev → Answer)
    (hk : ∀ d : Dev, k (d.withShd l) = ((k d).1, (k d).2.1, (k d).2.2.withShd l)) :
    (d.withShd l).serve h op k = (d.serve h op k).withShd l := by
  simp only [Dev.serve, Dev.serveThen, withShd_fields, withShd_runtimeBack, withShd_bump, withShd_notRequest]
  split
  · rfl
  · cases (d.runtimeBack.bump (Reg.NET_P_RX_FRAME_CNT (portIx h.port))).notRequest h (bareOp op) with
    | some d => rfl
    | none =>
      simp only [Option.map_none, withShd_refuse, withShd_valid, withShd_answer, withShd_resend, withShd_bump, hk]
      split
      · rfl
      · split
        · rfl
        · split
          · rfl
          · split
            · rfl
            · split
              · rfl
              · split <;> rfl

/-! Reading (R69, R70). -/

@[simp] theorem withShd_live (a : Nat) : (d.withShd l).live a = d.live a := rfl
@[simp] theorem withShd_word (a : Nat) : (d.withShd l).word a = d.word a := rfl

@[simp] theorem withShd_setFresh (s a : Nat) (fresh : Bool) :
    (d.withShd l).setFresh s a fresh = (d.setFresh s a fresh).withShd l := by
  unfold Dev.setFresh
  split
  · unfold Dev.modMon
    split <;> rfl
  · rfl

theorem withShd_readWord (s a : Nat) :
    (d.withShd l).readWord s a = ((d.readWord s a).1, (d.readWord s a).2.withShd l) := by
  have hstale : (d.withShd l).staleBit s a = d.staleBit s a := rfl
  simp only [Dev.readWord, withShd_word, withShd_setFresh, withShd_fields, hstale]
  split
  · rfl
  · split
    · rfl
    · split
      · rfl
      · exact congrArg (Prod.mk _) (withShd_setFresh { d with regs := { d.regs with
          sn := (snPartners a).foldl (fun r p => aset r (s * 2 ^ 24 + p) (w32 (d.word p))) d.regs.sn } } l s a true)
    · split
      · rfl
      · split <;> rfl

theorem withShd_readWords (s a n : Nat) :
    (d.withShd l).readWords s a n = ((d.readWords s a n).1, (d.readWords s a n).2.withShd l) := by
  induction n generalizing d a with
  | zero => rfl
  | succ n ih => simp only [Dev.readWords, withShd_readWord, ih]

end WithShd

/-- What PARAM_READ answers by its own checks (R69). -/
def readAnswer (h : Req) (addr count : Nat) (d : Dev) : Answer :=
  if 2 ^ 24 ≤ addr then no stBadParam d
  else if !blockOk addr (max 1 (min count 16384)) then no stBadAddress d
  else if count = 0 ∨ 2047 < count then no stBadParam d
  else (stOk, be 4 addr ++ (d.readWords h.session addr count).1, (d.readWords h.session addr count).2)

theorem exec_paramRead (h : Req) (addr count : Nat) (s : State) :
    exec (.paramRead h addr count) s = .next { s with d := s.d.serve h 0x10 (readAnswer h addr count) } := rfl

theorem withShd_readAnswer (d : Dev) (l : List (Nat × Word)) (h : Req) (addr count : Nat) :
    readAnswer h addr count (d.withShd l) =
      ((readAnswer h addr count d).1, (readAnswer h addr count d).2.1, (readAnswer h addr count d).2.2.withShd l) := by
  simp only [readAnswer, withShd_readWords]
  split
  · rfl
  · split
    · rfl
    · split <;> rfl

/-- PARAM_READ does the same to the device whatever the shadow set holds. -/
theorem withShd_paramRead (h : Req) (addr count : Nat) (l : List (Nat × Word)) (s : State) :
    ∃ d, exec (.paramRead h addr count) s = .next { s with d := d } ∧
      exec (.paramRead h addr count) { s with d := s.d.withShd l } = .next { s with d := d.withShd l } := by
  refine ⟨_, exec_paramRead h addr count s, ?_⟩
  rw [exec_paramRead, withShd_serve _ _ _ _ _ fun d => withShd_readAnswer d l h addr count]

/-! What an ST word reads (R9, R11). -/

/-- The word is none that COMMIT takes into force: it is not assigned, or its access is not ST. -/
def notStaged (a : Nat) : Bool := (rowOf a).all fun r => r.acc != .st

theorem ixOf_spec {base stride n a i o : Nat} (h : ixOf base stride n a = some (i, o)) :
    i < n ∧ a = base + stride * i + o := by
  unfold ixOf at h
  split at h
  · next hr =>
    obtain ⟨rfl, rfl⟩ := Prod.mk.inj (Option.some.inj h)
    have hd := Nat.div_add_mod (a - base) stride
    exact ⟨Nat.div_lt_of_lt_mul (by omega), by omega⟩
  · cases h

/-- A word of an array is not staged where no word of the array at its offset is. -/
theorem notStaged_of_ixOf {base stride n a i o : Nat} (h : ixOf base stride n a = some (i, o))
    (hn : ∀ i < n, notStaged (base + stride * i + o) = true) : notStaged a = true := by
  obtain ⟨hi, rfl⟩ := ixOf_spec h
  exact hn i hi

/-- A word of an array is not staged where no word of the array is. -/
theorem notStaged_of_array {base stride n a : Nat} {x : Nat × Nat} (h : ixOf base stride n a = some x)
    (hn : ∀ k < stride * n, notStaged (base + k) = true) : notStaged a = true := by
  unfold ixOf at h
  split at h
  · next hr =>
    obtain ⟨k, rfl⟩ := Nat.exists_eq_add_of_le hr.1
    exact hn k (by omega)
  · cases h

/-- A page without an ST row. -/
theorem notStaged_of_page {a : Nat} (h : (rowsOf (a / 65536)).all (fun r => r.acc != .st) = true) :
    notStaged a = true := by
  unfold notStaged rowOf
  split
  · cases hr : (rowsOf (a / 65536)).find? fun r => r.has a with
    | none => rfl
    | some r => exact List.all_eq_true.mp h r (List.mem_of_find?_eq_some hr)
  · rfl

section Live
variable {d : Dev} {a : Nat}

theorem liveDev_notStaged (h : (d.liveDev a).isSome = true) : notStaged a = true := by
  unfold Dev.liveDev at h
  split_ifs at h with e e e e e
  case neg => cases h
  all_goals subst e; decide +kernel

theorem liveSeq_notStaged (h : (d.liveSeq a).isSome = true) : notStaged a = true := by
  unfold Dev.liveSeq at h
  split_ifs at h with e e e e e
  case neg =>
    split at h
    · next hx => exact notStaged_of_array hx (by decide +kernel)
    · split at h
      · next hx => exact notStaged_of_ixOf hx (by decide +kernel)
      · cases h
  all_goals subst e; decide +kernel

theorem liveAfe_notStaged (h : (d.liveAfe a).isSome = true) : notStaged a = true := by
  unfold Dev.liveAfe at h
  split_ifs at h with e
  case neg =>
    split at h
    · next hx => exact notStaged_of_array hx (by decide +kernel)
    · cases h
  all_goals subst e; decide +kernel

theorem liveMon_notStaged (h : (d.liveMon a).isSome = true) : notStaged a = true := by
  unfold Dev.liveMon at h
  split at h
  · next hx => exact notStaged_of_array hx (by decide +kernel)
  · cases h

theorem livePix_notStaged (h : (d.livePix a).isSome = true) : notStaged a = true := by
  unfold Dev.livePix at h
  dsimp only at h
  split_ifs at h with e e e
  case neg =>
    split at h
    · next hx => exact notStaged_of_array hx (by decide +kernel)
    · split at h
      · next hx =>
        split_ifs at h with e e
        case neg => cases h
        all_goals subst e; exact notStaged_of_ixOf hx (by decide +kernel)
      · cases h
  all_goals subst e; decide +kernel

theorem livePage_notStaged (h : (d.livePage a).isSome = true) : notStaged a = true := by
  unfold Dev.livePage at h
  split_ifs at h with e e e
  case neg => cases h
  all_goals subst e; decide +kernel

theorem liveLmp_notStaged (h : (d.liveLmp a).isSome = true) : notStaged a = true := by
  by_cases hs : a = Reg.LMP_STAT
  · subst hs; decide +kernel
  by_cases hac : a = Reg.LMP_AC_STAT
  · subst hac; decide +kernel
  simp only [Dev.liveLmp, if_neg hs, if_neg hac] at h
  split at h
  · next hx => exact notStaged_of_ixOf hx (by decide +kernel)
  · next hx => exact notStaged_of_ixOf hx (by decide +kernel)
  · cases h

theorem liveMot_notStaged (h : (d.liveMot a).isSome = true) : notStaged a = true := by
  unfold Dev.liveMot at h
  split at h
  · next hx =>
    unfold Dev.liveAx at h
    split at h
    case h_5 => cases h
    all_goals exact notStaged_of_ixOf hx (by decide +kernel)
  · split at h
    · next hx =>
      unfold Dev.liveGrp at h
      split at h
      case h_7 => cases h
      all_goals exact notStaged_of_ixOf hx (by decide +kernel)
    · split at h
      · next hx =>
        split at h
        case h_5 => cases h
        all_goals exact notStaged_of_ixOf hx (by decide +kernel)
      · cases h

theorem liveCox_notStaged (h : (d.liveCox a).isSome = true) : notStaged a = true := by
  unfold Dev.liveCox at h
  dsimp only at h
  split_ifs at h with e e e e e e
  case neg => cases h
  all_goals subst e; decide +kernel

theorem liveCls_notStaged (h : (d.liveCls a).isSome = true) : notStaged a = true := by
  unfold Dev.liveCls at h
  split_ifs at h with e e e e
  case neg => cases h
  all_goals subst e; decide +kernel

theorem livePwr_notStaged (h : (d.livePwr a).isSome = true) : notStaged a = true := by
  by_cases hb : a = Reg.PWR_BZL_STAT
  · subst hb; decide +kernel
  simp only [Dev.livePwr, if_neg hb] at h
  split_ifs at h with e e e e
  case neg => cases h
  all_goals subst e; decide +kernel

/-- A word that shows live state is none of access ST: an ST word reads its active value (R9, R11). -/
theorem live_notStaged (h : (d.live a).isSome = true) : notStaged a = true := by
  unfold Dev.live at h
  split at h
  case h_11 hp | h_12 hp | h_13 hp | h_14 hp | h_15 hp => exact notStaged_of_page (by rw [hp]; decide +kernel)
  · exact liveDev_notStaged h
  · exact liveSeq_notStaged h
  · exact liveAfe_notStaged h
  · exact liveMon_notStaged h
  · exact livePix_notStaged h
  · exact livePage_notStaged h
  · exact liveLmp_notStaged h
  · exact liveMot_notStaged h
  · exact liveCox_notStaged h
  · exact liveCls_notStaged h
  · exact livePwr_notStaged h
  · cases h

/-- No ST row stands on page `p` where none of its rows is one. -/
theorem staged_page {r : Row} (hr : rowOf a = some r) (hst : r.acc = .st) {p : Nat}
    (hp : (rowsOf p).all (fun r => r.acc != .st) = true) : a / 65536 ≠ p := by
  rintro rfl
  exact Bool.false_ne_true ((by simp [notStaged, hr, hst] : notStaged a = false).symm.trans (notStaged_of_page hp))

/-- An ST word reads its active value: it shows no live state. -/
theorem word_staged {r : Row} (hr : rowOf a = some r) (hst : r.acc = .st) : d.word a = d.rd a := by
  have hl : d.live a = none := by
    by_contra hl
    have hs := live_notStaged (Option.isSome_iff_ne_none.mpr hl)
    simp [notStaged, hr, hst] at hs
  simp only [Dev.word, hl, Option.getD_none]

/-- An ST word is none of those that are not staged. -/
theorem staged_ne {r : Row} (hr : rowOf a = some r) (hst : r.acc = .st) {b : Nat} (hb : notStaged b = true) :
    a ≠ b := by
  rintro rfl
  simp [notStaged, hr, hst] at hb

/-- Reading an ST word answers its active value and changes nothing. -/
theorem readWord_staged {r : Row} (hr : rowOf a = some r) (hst : r.acc = .st) (n : Nat) :
    d.readWord n a = (d.rd a, d) := by
  have h1 : a ≠ Reg.PWR_FBUS := staged_ne hr hst (by decide +kernel)
  have h2 : a ≠ Reg.DMA_INFLIGHT := staged_ne hr hst (by decide +kernel)
  simp only [Dev.readWord, hr, hst, word_staged hr hst, if_neg h1, if_neg h2]

end Live

/-- DISCARD empties the shadow set, and the rest of what it does is quiet (R14). -/
theorem does_discard (h : Req) (s : State) (hr : Ready h s.d) :
    Does (.discard h) s fun d => Quiet (s.d.withShd []) d ∧ Replied d h 0x14 stOk [] := by
  obtain ⟨da, x, hq, hx, -, -, -, hk⟩ := serve_ready s.d h hr
  obtain ⟨hq', hrep⟩ :=
    hk 0x14 (fun d => (stOk, [], d.withShd [])) stOk [] (da.withShd []) rfl (by decide) ⟨x, hx⟩
  have hq0 : Quiet (s.d.withShd []) (da.withShd []) := { hq with shd := rfl }
  exact ⟨_, rfl, hq0.chain hq', hrep⟩

/-- PARAM_READ of one ST word answers its active value and is quiet (R69). -/
theorem does_paramRead_staged (h : Req) (addr : Nat) (r : Row) (s : State) (hr : Ready h s.d) (ha : addr < 2 ^ 24)
    (hrow : rowOf addr = some r) (hst : r.acc = .st) :
    Does (.paramRead h addr 1) s fun d => Quiet s.d d ∧ Replied d h 0x10 stOk (be 4 addr ++ be 4 (s.d.rd addr)) := by
  obtain ⟨da, x, hq, hx, -, -, -, hk⟩ := serve_ready s.d h hr
  have hrd : da.rd addr = s.d.rd addr := hq.words addr (staged_page hrow hst (by decide +kernel))
  have hblk : blockOk addr 1 = true := by simp [blockOk, hrow]
  have hread : readAnswer h addr 1 da = (stOk, be 4 addr ++ be 4 (s.d.rd addr), da) := by
    rw [readAnswer, if_neg (Nat.not_le.mpr ha)]
    simp [hblk, Dev.readWords, readWord_staged hrow hst, hrd]
  obtain ⟨hq', hrep⟩ := hk 0x10 (readAnswer h addr 1) _ _ da hread (by decide) ⟨x, hx⟩
  exact ⟨_, exec_paramRead h addr 1 s, hq.chain hq', hrep⟩

/-- Settles O57: DISCARD empties the shadow set, which no operation of a read consults. -/
theorem discardAndShadowReads : Obligations.DiscardAndShadowReads := by
  refine ⟨fun h s hr => ?_, withShd_paramRead, does_paramRead_staged⟩
  obtain ⟨d, hd, hq, hrep⟩ := does_discard h s hr
  have hshd : d.regs.shd = [] := hq.shd
  exact ⟨d, hd, by simp [Dev.staged?, hshd], hq.com, hrep, hq⟩

end Sys2Proof.Machine
end

section
/-! PROOFS. COMMIT and DISCARD on the shadow set (R12 to R14, R74, R75). -/

namespace Sys2Proof.Machine

open Sys2Proof

/-! COMMIT is checked after the request has been counted (R74, R83). -/

/-- A COMMIT request of session 1. -/
def commitReq : Req := ⟨⟨0, 0⟩, .eth0, 1, 7, 2, 0, false⟩

/-- SCAN with session 1 open; the shadow set holds, besides a word of access ST, one for NET_SKM_RX_CNT, which counts
requests, at the counter's present value. -/
def countedShadow : State :=
  { d := { mode := .scan
           sess := [(1, { (default : Session) with ep := ⟨0, 0⟩ })]
           regs := { shd := [(Reg.NET_SKM_RX_CNT, 0), (Reg.PWR_LAMP_KT 0, 5)] } } }

theorem countedShadow_ready : Ready commitReq countedShadow.d :=
  ⟨by decide +kernel, rfl, by decide, by decide, by decide, rfl, _, rfl, rfl, rfl⟩

/-- Before the request the counter's word does not differ from its active value. -/
theorem countedShadow_staged : countedShadow.d.staged? = [(Reg.PWR_LAMP_KT 0, 5)] := by decide +kernel

theorem countedShadow_check :
    (countedShadow.d.commitCheck (countedShadow.d.comOf countedShadow.d.staged?)).1 = stOk := by decide +kernel

/-- The request has counted itself when COMMIT takes the staged words: the counter's word differs then, and is one. -/
theorem countedShadow_com : (countedShadow.d.commit commitReq).regs.com =
    some ⟨[(Reg.NET_SKM_RX_CNT, 0), (Reg.PWR_LAMP_KT 0, 5)], 1, 7⟩ := by decide +kernel

theorem exec_commit (h : Req) (s : State) (hs : ¬ (s.d.commit h).shrMib < s.d.shrMib) :
    exec (.commit h) s = .next { s with d := s.d.commit h } := if_neg hs

/-- Refutes O16: the third clause holds the accepted COMMIT to the words that differ from their active values before
the request, and COMMIT takes those that differ once the request has counted itself in NET_SKM_RX_CNT. A shadow set that
lists this counter tells the two apart; the statement admits it, though PARAM_WRITE never stages an RO word. -/
theorem not_commitAndDiscard : ¬ Obligations.CommitAndDiscard := by
  unfold Obligations.CommitAndDiscard
  rintro ⟨-, -, hscan, -⟩
  obtain ⟨d, hd, hq, -⟩ := hscan commitReq countedShadow countedShadow_ready rfl (by simp [countedShadow_staged])
    countedShadow_check (Or.inl rfl)
  have hnext := (exec_commit commitReq countedShadow (by decide +kernel)).symm.trans hd
  have hcom : (countedShadow.d.commit commitReq).regs.com = d.regs.com := by
    injection hnext with hstate
    exact congrArg (fun s : State => s.d.regs.com) hstate
  rw [countedShadow_com, hq.com, countedShadow_staged] at hcom
  exact absurd hcom (by decide)

end Sys2Proof.Machine
end

section
/-! PROOFS. What applying a packet of PARAM_WRITE leaves alone: sessions with their replies, and the commands that wait
(R56, R72). -/

namespace Sys2Proof.Machine

open Sys2Proof

/-! Reply caches (R56): what applies a packet's words leaves them as they are. -/

/-- The open sessions with their reply caches. -/
def Dev.caches (d : Dev) : List (Nat × List Cached) := d.sess.map fun p => (p.1, p.2.cache)

theorem aget_map {α β : Type} (l : List (Nat × α)) (f : α → β) (n : Nat) :
    aget (l.map fun p => (p.1, f p.2)) n = (aget l n).map f := by
  induction l with
  | nil => rfl
  | cons p l ih =>
    obtain ⟨k, v⟩ := p
    simp only [List.map_cons, aget, ih]
    split <;> rfl

/-- Equal caches: the same sessions are open, and each has the same replies in its cache. -/
theorem cache_of_caches {d d' : Dev} (h : d'.caches = d.caches) (n : Nat) :
    (d'.ses? n).map Session.cache = (d.ses? n).map Session.cache := by
  simpa only [Dev.caches, Dev.ses?, aget_map] using congrArg (aget · n) h

theorem isOpen_of_caches {d d' : Dev} (h : d'.caches = d.caches) {n : Nat} (ho : ∃ y, d.ses? n = some y) :
    ∃ y, d'.ses? n = some y := by
  obtain ⟨y, hy⟩ := ho
  have hc := cache_of_caches h n
  rw [hy] at hc
  obtain ⟨z, hz, -⟩ := Option.map_eq_some_iff.mp hc
  exact ⟨z, hz⟩

theorem Replied.of_caches {d d' : Dev} {h : Req} {op st : Nat} {b : List Byte} (hc : d'.caches = d.caches)
    (hr : Replied d h op st b) : Replied d' h op st b := by
  have hn := congrArg (·.bind List.head?) (cache_of_caches hc h.session)
  simp only [Option.bind_map] at hn
  exact hn.trans hr

theorem caches_of_sess {d d' : Dev} (h : d'.sess = d.sess) : d'.caches = d.caches := by rw [Dev.caches, h, Dev.caches]

theorem foldl_caches {α : Type} (f : Dev → α → Dev) (hf : ∀ d x, (f d x).caches = d.caches) :
    ∀ (l : List α) (d : Dev), (l.foldl f d).caches = d.caches
  | [], _ => rfl
  | x :: l, d => (foldl_caches f hf l (f d x)).trans (hf d x)

/-! Events (R77 to R80). -/

theorem modSes_caches (d : Dev) (n : Nat) (f : Session → Session) (hf : ∀ x, (f x).cache = x.cache) :
    (d.modSes n f).caches = d.caches :=
  amod_map _ _ _ _ fun x => by simp only [hf]

theorem pump_caches (d : Dev) (n : Nat) : (d.pump n).caches = d.caches := by
  unfold Dev.pump
  split
  · split
    · rfl
    · exact (foldl_caches _ (fun d e => caches_of_sess (send_sess d _ _ _)) _ _).trans
        (modSes_caches d n _ fun _ => rfl)
  · rfl

theorem pushEv_caches (d : Dev) (n : Nat) (e : Ev) : (d.pushEv n e).caches = d.caches := by
  unfold Dev.pushEv
  split
  · rfl
  · split
    · exact (caches_of_sess rfl).trans (modSes_caches d n (fun x => { x with evLost := x.evLost + 1 }) fun _ => rfl)
    · exact (pump_caches _ n).trans (modSes_caches d n _ fun _ => rfl)

theorem evAll_caches (d : Dev) (code : Nat) (b : List Byte) : (d.evAll code b).caches = d.caches :=
  foldl_caches _ (fun d n => pushEv_caches d n _) _ _

theorem opDone_caches (d : Dev) (o : LongOp) (w : Option Nat) (st id : Nat) :
    (d.opDone o w st id).caches = d.caches := by
  unfold Dev.opDone
  cases w with
  | none => exact pushEv_caches d _ _
  | some n =>
    dsimp only
    split
    · exact (pushEv_caches _ n _).trans (pushEv_caches d _ _)
    · exact pushEv_caches d _ _

theorem settleOps_caches (d : Dev) (m : Mode) (w : Option Nat) : (d.settleOps m w).caches = d.caches := by
  unfold Dev.settleOps
  refine foldl_caches _ (fun d o => ?_) _ _
  split
  · exact opDone_caches d o w _ 0
  · rfl

/-! CMD frames (R19, R21). -/

theorem sendFrame_sess (d : Dev) (r : Dir) (f : Frame) : (d.sendFrame r f).sess = d.sess := by cases r <;> rfl

theorem sendWaiting_sess (n : Nat) (d : Dev) : (d.sendWaiting n).sess = d.sess := by
  induction n generalizing d with
  | zero => rfl
  | succ n ih =>
    unfold Dev.sendWaiting
    split
    · rfl
    · split
      · exact (ih _).trans (sendFrame_sess _ _ _)
      · rfl

@[simp] theorem sendCmd_sess (d : Dev) (c : FieldCmd) : (d.sendCmd c).sess = d.sess := by
  unfold Dev.sendCmd
  split
  · exact sendWaiting_sess _ _
  · rfl

@[simp] theorem forward_sess (d : Dev) (ws : List (Nat × Word)) : (d.forward ws).sess = d.sess :=
  foldl_sess _ (fun d _ => sendCmd_sess d _) _ _

/-! Modes (R36). -/

theorem lit_sess (d : Dev) (n cyc : Nat) : (d.lit n cyc).sess = d.sess := by
  unfold Dev.lit
  dsimp only
  split <;> rfl

theorem rotAbandon_sess (d : Dev) : d.rotAbandon.sess = d.sess := by
  unfold Dev.rotAbandon
  split
  · rfl
  · exact lit_sess d _ _

theorem entered_sess (d : Dev) (m : Mode) : (d.entered m).sess = d.sess := by
  rw [(entered_eq d m).1]
  unfold Dev.monStop
  rw [leaveTest_eq]
  split <;> exact rotAbandon_sess d

theorem setMode_caches (d : Dev) (m : Mode) : (d.setMode m).caches = d.caches := by
  unfold Dev.setMode
  split
  · rfl
  · rw [caches_of_sess (sendCmd_sess _ _), forgetStop_eq, cancelStart_eq]
    exact ((settleOps_caches _ m _).trans (evAll_caches _ _ _)).trans (caches_of_sess (entered_sess d m))

theorem wakeIf_caches (d : Dev) (before : Bool) : (d.wakeIf before).caches = d.caches := by
  unfold Dev.wakeIf
  split
  · exact setMode_caches d .wake
  · rfl

/-! What a written word does (R72). -/

theorem storeWord_sess (d : Dev) (a : Nat) (v : Word) : (d.storeWord a v).sess = d.sess := by
  unfold Dev.storeWord
  split
  · rfl
  · split <;> rfl

theorem ringWritten_sess (d0 d : Dev) (n a : Nat) : (Dev.ringWritten d0 d n a).sess = d.sess := by
  unfold Dev.ringWritten
  dsimp only
  split_ifs <;> rfl

theorem linkLost_sess (d : Dev) (p : NetPort) : (d.linkLost p).sess = d.sess := by
  unfold Dev.linkLost
  split <;> rfl

theorem ptpCtrl_sess (d : Dev) (old : Nat) : (d.ptpCtrl old).sess = d.sess := by
  unfold Dev.ptpCtrl
  dsimp only
  split <;> rfl

theorem qpWritten_sess (d : Dev) (n old : Nat) : (d.qpWritten n old).sess = d.sess := by
  unfold Dev.qpWritten
  dsimp only
  split
  · rfl
  · split <;> rfl

theorem monRefWritten_sess (d : Dev) (b : Bool) : (d.monRefWritten b).sess = d.sess := by
  unfold Dev.monRefWritten Dev.monRefTake
  dsimp only
  split
  · rfl
  · split
    · rfl
    · cases b <;> rfl

theorem sendRange_sess (ses : Session) (x : Deliv) (b : List Byte) (retx : Bool) (stop lim n : Nat) (d : Dev)
    (off : Nat) : (d.sendRange ses x b retx stop lim n off).1.sess = d.sess := by
  induction n generalizing d off with
  | zero => rfl
  | succ n ih =>
    unfold Dev.sendRange
    dsimp only
    split
    · rfl
    · exact (ih _ _).trans ((bumpIf_sess _ _ _).trans (send_sess _ _ _ _))

theorem pushUdp_sess (d : Dev) : d.pushUdp.sess = d.sess := by
  unfold Dev.pushUdp
  split
  · rfl
  · split
    · split
      · rfl
      · exact sendRange_sess _ _ _ _ _ _ _ _ _
    · rfl

theorem ite_caches {p : Prop} [Decidable p] {c : List (Nat × List Cached)} {x y : Dev} (hx : x.caches = c)
    (hy : y.caches = c) : (if p then x else y).caches = c := by
  split
  · exact hx
  · exact hy

theorem wordEffect_caches (d0 d : Dev) (a : Nat) (v : Word) : (Dev.wordEffect d0 d a v).caches = d.caches := by
  have hmon := fun b => caches_of_sess (monRefWritten_sess d b)
  unfold Dev.wordEffect
  refine ite_caches (wakeIf_caches d _) (ite_caches rfl (ite_caches (ite_caches rfl rfl) (ite_caches (hmon _)
    (ite_caches (hmon _) (ite_caches (ite_caches rfl rfl) (ite_caches (caches_of_sess (linkLost_sess d _))
    (ite_caches (caches_of_sess (ptpCtrl_sess d _)) ?_)))))))
  cases pageSes a with
  | some x =>
    exact ite_caches (ite_caches (caches_of_sess (pushUdp_sess d)) rfl) (caches_of_sess (ringWritten_sess d0 d _ a))
  | none =>
    cases netSes a with
    | some x => exact ite_caches (caches_of_sess (qpWritten_sess d _ _)) rfl
    | none =>
      dsimp only
      split
      · exact ite_caches rfl rfl
      · rfl

theorem writeWords_caches (d : Dev) (ws : List WWord) : (d.writeWords ws).caches = d.caches := by
  have hstore := caches_of_sess (foldl_sess _ (fun x (w : WWord) => storeWord_sess x w.addr w.val) ws d)
  have heffect := foldl_caches _ (fun x (w : WWord) => wordEffect_caches d x w.addr w.val) ws
  exact (caches_of_sess (forward_sess _ _)).trans ((heffect _).trans hstore)

/-! A DMA channel at work touches no session and no waiting command (R339 to R350). -/

theorem sendWindow_sess (d : Dev) (c : FieldCmd) : (d.sendWindow c).sess = d.sess := by
  unfold Dev.sendWindow
  dsimp only
  split
  · exact sendCmd_sess d c
  · exact sendCmd_sess d c

theorem slotWritten_sess (d : Dev) (o n : Nat) : (d.slotWritten o n).sess = d.sess := by
  refine foldl_sess _ (fun d m => ?_) _ _
  rfl

theorem sramWrite_sess (d : Dev) (o : Nat) (data : List Byte) : (d.sramWrite o data).1.sess = d.sess := by
  unfold Dev.sramWrite
  split
  · rfl
  · exact slotWritten_sess _ _ _

theorem readWindow_sess (d : Dev) (a : Nat) (step : Int) (len cnt n : Nat) :
    (d.readWindow a step len cnt n).sess = d.sess := by
  unfold Dev.readWindow
  split
  · rfl
  · exact foldl_sess _ (fun d _ => foldl_sess _ (fun d _ => sendWindow_sess d _) _ d) _ _

theorem readFrames_sess (d : Dev) (i : List Byte) (n : Nat) : (d.readFrames i n).sess = d.sess := by
  unfold Dev.readFrames
  dsimp only
  split <;> split <;> simp only [readWindow_sess]

theorem latchErr_sess (d : Dev) (n cls st addr : Nat) : (d.latchErr n cls st addr).sess = d.sess := by
  unfold Dev.latchErr
  dsimp only
  split <;> rfl

theorem request1_sess (d : Dev) (n : Nat) : (d.request1 n).sess = d.sess := by
  unfold Dev.request1
  dsimp only
  split
  · rfl
  · split <;> rfl

theorem dmaRequests_sess (d : Dev) (src n : Nat) : (d.dmaRequests src n).sess = d.sess := by
  unfold Dev.dmaRequests
  refine foldl_sess _ (fun d n => ?_) _ _
  dsimp only
  split
  · exact request1_sess d n
  · rfl

theorem afterWriteBack_sess (d : Dev) (n : Nat) (e : DEnd) : (d.afterWriteBack n e).sess = d.sess := by
  unfold Dev.afterWriteBack
  dsimp only
  rw [dmaRequests_sess]
  split <;> split <;> rfl

/-- The part of the state that the DMA channels leave alone: the commands that wait, and the sessions. -/
def State.aside (s : State) : List Instr × List (Nat × Session) := (s.pending, s.d.sess)

theorem aside_of_sess (s : State) {d : Dev} (h : d.sess = s.d.sess) (m : List Host.Cell) :
    State.aside { s with mem := m, d := d } = s.aside := by simp only [State.aside, h]

theorem writePiece_aside (x : State × Nat × Option Nat) (p : Nat × List Byte) :
    (writePiece x p).1.aside = x.1.aside := by
  obtain ⟨s, n, r⟩ := x
  unfold writePiece
  dsimp only
  split
  · rfl
  · split
    · exact aside_of_sess s ((sramWrite_sess _ _ _).trans (sendWindow_sess _ _)) s.mem
    · rfl

theorem writePieces_aside (l : List (Nat × List Byte)) (x : State × Nat × Option Nat) :
    (l.foldl writePiece x).1.aside = x.1.aside := by
  induction l generalizing x with
  | nil => rfl
  | cons p l ih => exact (ih _).trans (writePiece_aside x p)

theorem moveData_aside (s : State) (i : List Byte) (n st cls addr : Nat) :
    (s.moveData i n st cls addr).1.aside = s.aside := by
  unfold State.moveData
  dsimp only
  split <;> exact writePieces_aside _ _

theorem runDesc_aside (s : State) (i : List Byte) (n st cls addr : Nat) :
    (s.runDesc i n st cls addr).1.aside = s.aside := by
  have hs := aside_of_sess s (readFrames_sess s.d i n) s.mem
  unfold State.runDesc
  dsimp only
  split
  · rfl
  · split
    · exact hs
    · split <;> exact (moveData_aside _ _ _ _ _ _).trans hs

theorem writeBack_aside (s : State) (n : Nat) (e : DEnd) : (s.writeBack n e).aside = s.aside := by
  have hput : ∀ (p : Prop) [Decidable p] (d : Dev) (a v : Nat), (if p then d.put a v else d).sess = d.sess :=
    fun p _ d a v => by split <;> rfl
  have hlatch : ∀ (p : Prop) [Decidable p] (d : Dev) (cls st addr : Nat),
      (if p then d else d.latchErr n cls st addr).sess = d.sess :=
    fun p _ d cls st addr => by split <;> simp only [latchErr_sess]
  unfold State.writeBack
  extract_lets
  refine aside_of_sess s ?_ _
  exact (hlatch _ _ _ _ _).trans ((hput _ _ _ _).trans ((hput _ _ _ _).trans
    ((bumpIf_sess _ _ _).trans (bumpIf_sess _ _ _))))

theorem earlyEnd_aside (s : State) (ch st : Nat) : (s.earlyEnd ch st).1.aside = s.aside := by
  unfold State.earlyEnd
  dsimp only
  split <;> rfl

theorem free_aside {s : State} {site : Nat} {v : BitVec 64} {d : Dev} (h : s.d.free site = (v, d)) :
    State.aside { s with d := d } = s.aside := by
  cases h
  rfl

theorem cutShort_aside (s : State) (ch st cls : Nat) : (s.cutShort ch st cls).aside = s.aside := by
  have hfly : ∀ (t : State) (b : Bool),
      State.aside { t with d := if b then t.d.modChan ch Chan.fly else t.d } = t.aside :=
    fun t b => by cases b <;> rfl
  unfold State.cutShort
  extract_lets c
  split
  · exact writeBack_aside s ch _
  · split
    next v d hfree =>
    extract_lets r _ e t
    have ht : t.aside = s.aside :=
      (writeBack_aside _ ch _).trans ((runDesc_aside _ _ _ _ _ _).trans (free_aside hfree))
    exact (hfly t _).trans ht

theorem abort_aside (s : State) (ch : Nat) : (s.abort ch).aside = s.aside := by
  unfold State.abort
  extract_lets c drop
  have hdrop : ∀ t, (drop t).aside = t.aside := fun _ => rfl
  have hend : ∀ (t : State) (f : Chan → Chan),
      State.aside { t with d := (t.d.modChan ch f).dmaRequests 4 ch } = t.aside :=
    fun t f => aside_of_sess t (dmaRequests_sess (t.d.modChan ch f) 4 ch) t.mem
  have hcut : ∀ {v : BitVec 64} {d : Dev} (x : Nat), s.d.free 14 = (v, d) →
      (({ s with d := d } : State).cutShort ch stBadState x).aside = s.aside :=
    fun x h => (cutShort_aside _ ch _ x).trans (free_aside h)
  split
  · split
    next hfree => exact (hdrop _).trans ((hend _ _).trans (hcut _ hfree))
  · split
    next hfree => exact (hdrop _).trans ((hend _ _).trans (hcut _ hfree))
  · extract_lets r t
    have ht : t.aside = s.aside := (writeBack_aside _ ch _).trans (earlyEnd_aside s ch _)
    exact (hdrop _).trans ((aside_of_sess t (afterWriteBack_sess t.d ch _) t.mem).trans ht)
  · exact hdrop s

theorem ctrlWritten_aside (s : State) (ch : Nat) (v : Word) : (s.ctrlWritten ch v).aside = s.aside := by
  unfold State.ctrlWritten
  dsimp only
  split
  · exact abort_aside _ ch
  · rfl

theorem ctrlsWritten_aside (s : State) (ws : List WWord) : (s.ctrlsWritten ws).aside = s.aside := by
  unfold State.ctrlsWritten
  induction ws generalizing s with
  | nil => rfl
  | cons w ws ih =>
    refine (ih _).trans ?_
    dsimp only
    split
    · exact ctrlWritten_aside s _ _
    · rfl

end Sys2Proof.Machine
end

section
/-! PROOFS. PARAM_WRITE applies a packet whole or not at all (R10, R11, R72). -/

namespace Sys2Proof.Machine

open Sys2Proof

/-! The checks of a packet (R52, R72). -/

theorem wordCheck_ne_later (d : Dev) (n : Nat) (ws : List WWord) (w : WWord) : d.wordCheck n ws w ≠ stLater := by
  unfold Dev.wordCheck
  split
  · decide
  split
  · decide
  split
  · decide
  · dsimp only
    split_ifs <;> decide

theorem packetCheck_ne_later (d : Dev) (n : Nat) (ws : List WWord) : (d.packetCheck n ws).1 ≠ stLater := by
  unfold Dev.packetCheck
  split
  · exact wordCheck_ne_later d n ws _
  · decide

/-- A packet that passes names no word. -/
theorem packetCheck_ok {d : Dev} {n : Nat} {ws : List WWord} (h : (d.packetCheck n ws).1 = stOk) :
    d.packetCheck n ws = (stOk, 0xFFFF, 0xFFFF) := by
  unfold Dev.packetCheck at h ⊢
  split
  · next w hw =>
    have hbad := List.find?_some hw
    simp only [hw] at h
    simp [h] at hbad
  · rfl

theorem packetCheck_one (d : Dev) (n : Nat) (w : WWord) (h : d.wordCheck n [w] w ≠ stOk) :
    d.packetCheck n [w] = (d.wordCheck n [w] w, w.ri, w.wi) := by
  simp [Dev.packetCheck, h]

theorem packetCheck_one_ok (d : Dev) (n : Nat) (w : WWord) (h : d.wordCheck n [w] w = stOk) :
    (d.packetCheck n [w]).1 = stOk := by
  simp [Dev.packetCheck, h]

/-! PARAM_WRITE (R72). -/

/-- A request that its own checks answer without a change is quiet. -/
theorem serve_unchanged {d : Dev} {h : Req} (hr : Ready h d) (op : Nat) {st : Nat} (b : List Byte)
    (hst : st ≠ stLater) :
    Quiet d (d.serve h op fun d => (st, b, d)) ∧ Replied (d.serve h op fun d => (st, b, d)) h op st b := by
  obtain ⟨da, x, hq, hx, -, -, -, hk⟩ := serve_ready d h hr
  obtain ⟨hq', hrep⟩ := hk op (fun d => (st, b, d)) st b da rfl hst ⟨x, hx⟩
  exact ⟨hq.chain hq', hrep⟩

/-- A packet with a failing word changes nothing. -/
theorem paramWrite_refused {s : State} {h : Req} {payload : List Word} {tail : Nat}
    (hbad : (s.d.packetCheck h.session (wrecs tail payload.length 0 payload)).1 ≠ stOk) :
    s.paramWrite h payload tail = { s with d := s.d.serve h 0x11 fun d =>
      ((s.d.packetCheck h.session (wrecs tail payload.length 0 payload)).1,
        be 2 (s.d.packetCheck h.session (wrecs tail payload.length 0 payload)).2.1 ++
          be 2 (s.d.packetCheck h.session (wrecs tail payload.length 0 payload)).2.2, d) } := by
  simp [State.paramWrite, hbad]

/-- The device once a packet whose words all pass is applied and answered. -/
def Dev.applied (d : Dev) (h : Req) (ws : List WWord) : Dev :=
  d.serve h 0x11 fun d => (stOk, wroteAll, d.writeWords ws)

/-- A packet whose words all pass is applied whole, and then its writes of the channels' controls take effect. -/
theorem paramWrite_accepted {s : State} {h : Req} {payload : List Word} {tail : Nat}
    (hok : (s.d.packetCheck h.session (wrecs tail payload.length 0 payload)).1 = stOk) :
    s.paramWrite h payload tail =
      if s.d.fresh h then
        State.ctrlsWritten { s with d := s.d.applied h (wrecs tail payload.length 0 payload) }
          (wrecs tail payload.length 0 payload)
      else { s with d := s.d.applied h (wrecs tail payload.length 0 payload) } := by
  simp only [State.paramWrite, packetCheck_ok hok, if_true, beq_self_eq_true, Bool.and_true]
  rfl

theorem applied_ready {d : Dev} {h : Req} (hr : Ready h d) (ws : List WWord) :
    ∃ da, Quiet d da ∧ Quiet (da.writeWords ws) (d.applied h ws) ∧
      Replied (d.applied h ws) h 0x11 stOk wroteAll := by
  obtain ⟨da, x, hq, hx, -, -, -, hk⟩ := serve_ready d h hr
  exact ⟨da, hq, hk 0x11 (fun d => (stOk, wroteAll, d.writeWords ws)) stOk wroteAll _ rfl (by decide)
    (isOpen_of_caches (writeWords_caches da ws) ⟨x, hx⟩)⟩

theorem does_paramWrite_refused (h : Req) (payload : List Word) (tail : Nat) (s : State) (hr : Ready h s.d)
    (hbad : (s.d.packetCheck h.session (wrecs tail payload.length 0 payload)).1 ≠ stOk) :
    Does (.paramWrite h payload tail) s fun d => Quiet s.d d ∧
      Replied d h 0x11 (s.d.packetCheck h.session (wrecs tail payload.length 0 payload)).1
        (be 2 (s.d.packetCheck h.session (wrecs tail payload.length 0 payload)).2.1 ++
          be 2 (s.d.packetCheck h.session (wrecs tail payload.length 0 payload)).2.2) := by
  exact ⟨_, congrArg Host.Outcome.next (paramWrite_refused hbad),
    serve_unchanged hr 0x11 _ (packetCheck_ne_later s.d h.session _)⟩

theorem replied_paramWrite_accepted (h : Req) (payload : List Word) (tail : Nat) (s : State) (hr : Ready h s.d)
    (hok : (s.d.packetCheck h.session (wrecs tail payload.length 0 payload)).1 = stOk) :
    ∃ t, exec (.paramWrite h payload tail) s = .next t ∧ t.pending = s.pending ∧
      Replied t.d h 0x11 stOk wroteAll := by
  obtain ⟨-, -, -, hrep⟩ := applied_ready hr (wrecs tail payload.length 0 payload)
  have haside : (s.paramWrite h payload tail).aside =
      State.aside { s with d := s.d.applied h (wrecs tail payload.length 0 payload) } := by
    rw [paramWrite_accepted hok]
    split
    · exact ctrlsWritten_aside _ _
    · rfl
  obtain ⟨hpend, hsess⟩ := Prod.mk.inj haside
  exact ⟨_, rfl, hpend, hrep.of_caches (caches_of_sess hsess)⟩

/-! Words without an effect of their own (R11, R72). -/

theorem Quiet.storeWord {d d' : Dev} (h : Quiet d d') (a : Nat) (v : Word) :
    Quiet (d.storeWord a v) (d'.storeWord a v) := by
  have hput : ∀ r : Row, Quiet (d.put a (newWord r (d.rd a) v.toNat)) (d'.put a (newWord r (d'.rd a) v.toNat)) := by
    intro r
    by_cases ha : a / 65536 = 12
    · unfold Dev.put Regs.put
      rw [if_pos ha, if_pos ha]
      exact { h with }
    · rw [h.words a ha]
      exact h.put a _
  unfold Dev.storeWord
  split
  · exact h
  · next r _ =>
    split
    · exact { h with shd := by simp only [h.shd] }
    · exact h
    · exact hput r

theorem Quiet.storeWords (ws : List WWord) : ∀ {d d' : Dev}, Quiet d d' →
    Quiet (ws.foldl (fun x w => x.storeWord w.addr w.val) d) (ws.foldl (fun x w => x.storeWord w.addr w.val) d') := by
  induction ws with
  | nil => exact id
  | cons w ws ih => exact fun h => ih (h.storeWord w.addr w.val)

theorem quiet_forward (d : Dev) (ws : List (Nat × Word)) : Quiet d (d.forward ws) :=
  Quiet.foldl _ (fun d _ => quiet_sendCmd d _) _ _

theorem wordEffect_none {a : Nat} (ha : hasEffect a = false) (d0 d : Dev) (v : Word) : Dev.wordEffect d0 d a v = d := by
  simp only [hasEffect, Bool.or_eq_false_iff, beq_eq_false_iff_ne, Option.isSome_eq_false_iff,
    Option.isNone_iff_eq_none] at ha
  simp [Dev.wordEffect, ha]

theorem writeWords_noEffect {ws : List WWord} (hws : ∀ w ∈ ws, hasEffect w.addr = false) (d : Dev) :
    Quiet (ws.foldl (fun x w => x.storeWord w.addr w.val) d) (d.writeWords ws) := by
  have hid : ∀ d1 : Dev, ws.foldl (fun x w => Dev.wordEffect d x w.addr w.val) d1 = d1 := by
    intro d1
    induction ws with
    | nil => rfl
    | cons w ws ih =>
      rw [List.foldl_cons, wordEffect_none (hws w List.mem_cons_self)]
      exact ih fun w' hw' => hws w' (List.mem_cons_of_mem w hw')
  unfold Dev.writeWords
  dsimp only
  rw [hid]
  exact quiet_forward _ _

theorem ctrlsWritten_noEffect {ws : List WWord} (hws : ∀ w ∈ ws, hasEffect w.addr = false) (s : State) :
    s.ctrlsWritten ws = s := by
  unfold State.ctrlsWritten
  induction ws with
  | nil => rfl
  | cons w ws ih =>
    have hw := hws w List.mem_cons_self
    simp only [hasEffect, Bool.or_eq_false_iff, Option.isSome_eq_false_iff, Option.isNone_iff_eq_none] at hw
    obtain ⟨-, hix⟩ := hw
    rw [List.foldl_cons, hix]
    exact ih fun w' hw' => hws w' (List.mem_cons_of_mem w hw')

theorem does_paramWrite_accepted (h : Req) (payload : List Word) (tail : Nat) (s : State) (hr : Ready h s.d)
    (hok : (s.d.packetCheck h.session (wrecs tail payload.length 0 payload)).1 = stOk)
    (hws : ∀ w ∈ wrecs tail payload.length 0 payload, hasEffect w.addr = false) :
    Does (.paramWrite h payload tail) s fun d => Replied d h 0x11 stOk wroteAll ∧
      Quiet ((wrecs tail payload.length 0 payload).foldl (fun x w => x.storeWord w.addr w.val) s.d) d := by
  obtain ⟨da, hq, hq', hrep⟩ := applied_ready hr (wrecs tail payload.length 0 payload)
  refine ⟨_, congrArg Host.Outcome.next ((paramWrite_accepted hok).trans ?_), hrep,
    ((hq.storeWords _).chain (writeWords_noEffect hws da)).chain hq'⟩
  rw [ctrlsWritten_noEffect hws, ite_self]

/-! Packets of one word (R52, R72). -/

/-- The one word of a packet with one record. -/
def oneWord (a : Nat) (v : Word) : WWord := ⟨0, 0, a, a, v, true⟩

theorem wrecs_one {a : Nat} (v : Word) (ha : a < 2 ^ 24) : wrecs 0 2 0 [w32 a, v] = [oneWord a v] := by
  have hlt : a < 2 ^ 32 := by omega
  have hn : (w32 a).toNat = a := by rw [BitVec.toNat_ofNat, Nat.mod_eq_of_lt hlt]
  have hdiv : a / 2 ^ 24 = 0 := Nat.div_eq_of_lt ha
  have hmod : a % 2 ^ 24 = a := Nat.mod_eq_of_lt ha
  simp only [wrecs, hn, hdiv, hmod]
  rfl

/-- A row of one register with one plain field of 32 bits. -/
def wideRow (a : Nat) (acc : Acc) (reset : Nat) (rng : Rng) : Row := ⟨a, [], acc, reset, [⟨31, 0, .plain, rng⟩]⟩

theorem rowMask_wide (a : Nat) (acc : Acc) (reset : Nat) (rng : Rng) :
    rowMask (wideRow a acc reset rng) = 0xFFFFFFFF := by
  simp [rowMask, wideRow, fldMask, sumN]

theorem newWord_wide (a old : Nat) (v : Word) (reset : Nat) (rng : Rng) :
    newWord (wideRow a .rw reset rng) old v.toNat = v.toNat := by
  have hplain : accMask (wideRow a .rw reset rng) (fun f => f.acc == FAcc.plain) = 0xFFFFFFFF := by
    simp [accMask, wideRow, fldMask, sumN]
  have hkeep : accMask (wideRow a .rw reset rng)
      (fun f => f.acc == FAcc.ro || (Acc.rw == Acc.ro && f.acc == FAcc.plain)) = 0 := rfl
  have hw1c : accMask (wideRow a .rw reset rng)
      (fun f => f.acc == FAcc.w1c || (Acc.rw == Acc.w1c && f.acc == FAcc.plain)) = 0 := rfl
  have hrw : (wideRow a .rw reset rng).acc = .rw := rfl
  have hv : v.toNat &&& 0xFFFFFFFF = v.toNat :=
    (Nat.and_two_pow_sub_one_eq_mod _ 32).trans (Nat.mod_eq_of_lt v.isLt)
  simp only [newWord, hrw, hkeep, hw1c]
  simp [hplain, hv]

/-- A word that a mode, the owner of its session, or a rule between words can restrict (R73, R207, R308, R371). -/
def restricted (a : Nat) : Bool :=
  [Reg.AFE_REF_CTRL, Reg.AFE_OW_CTRL, Reg.PAGE_BUF_SIZE, Reg.NET_P_CFG 0, Reg.NET_P_CFG 1, Reg.CAL_APPLY_AT,
    Reg.PWR_FBUS_LOW, Reg.PWR_FBUS_HYST, Reg.PWR_FBUS_HIGH].contains a ||
  (pageSes a).isSome || (netSes a).isSome || (ixOf (Reg.LMP_C_ITHR 0) 0x40 16 a).isSome ||
  (ixOf (Reg.SEQ_H_OUTCFG 0) 0x40 32 a).isSome || (ixOf (Reg.LMP_P_AC 0 0) 0x40 4 a).isSome ||
  (ixOf (Reg.DMA_CH_CTRL 0) 0x20 16 a).isSome

theorem unrestricted {a : Nat} (ha : restricted a = false) (d : Dev) (n v : Nat) (ws : List WWord) :
    d.modeBad a v = false ∧ d.accBad n a = false ∧ d.valueBad ws a v = false := by
  simp only [restricted, Bool.or_eq_false_iff, List.contains_eq_mem, List.mem_cons, List.not_mem_nil, or_false,
    decide_eq_false_iff_not, not_or, Option.isSome_eq_false_iff, Option.isNone_iff_eq_none] at ha
  refine ⟨?_, ?_, ?_⟩
  · simp [Dev.modeBad, ha]
  · simp [Dev.accBad, ha]
  · simp [Dev.valueBad, ha]

/-- A word of such a row that nothing restricts can be written where its access lets it, with a value in its range. -/
theorem wordCheck_wide {a : Nat} {acc : Acc} {reset : Nat} {rng : Rng} (hrow : rowOf a = some (wideRow a acc reset rng))
    (hres : entryReserved a = 0) (ha : restricted a = false) (d : Dev) (n : Nat) (v : Word) :
    d.wordCheck n [oneWord a v] (oneWord a v) =
      if !rowWritable (wideRow a acc reset rng) then stReadOnly
      else if !rngOk ⟨31, 0, .plain, rng⟩ v.toNat then stBadParam else stOk := by
  obtain ⟨hmode, hacc, hval⟩ := unrestricted ha d n v.toNat [oneWord a v]
  have hmask : v.toNat &&& (0xFFFFFFFF ^^^ rowMask (wideRow a acc reset rng)) = 0 := by
    rw [rowMask_wide, Nat.xor_self, Nat.and_zero]
  have hflds : ((wideRow a acc reset rng).flds.filter fun f => f.acc == FAcc.plain).any (fun f => !rngOk f v.toNat) =
      !rngOk ⟨31, 0, .plain, rng⟩ v.toNat := Bool.or_false _
  simp only [Dev.wordCheck, oneWord] at hval ⊢
  simp only [hrow, hmask, hres, hmode, hacc, hval, hflds]
  simp

/-- A packet of one word that passes stores it. -/
theorem does_paramWrite_one {h : Req} {a : Nat} {v : Word} {s : State} (hr : Ready h s.d) (ha : a < 2 ^ 24)
    (hok : s.d.wordCheck h.session [oneWord a v] (oneWord a v) = stOk) (he : hasEffect a = false) :
    Does (.paramWrite h [w32 a, v] 0) s fun d => Quiet (s.d.storeWord a v) d ∧ Replied d h 0x11 stOk wroteAll := by
  have hws : wrecs 0 [w32 a, v].length 0 [w32 a, v] = [oneWord a v] := wrecs_one v ha
  obtain ⟨d, hd, hrep, hq⟩ := does_paramWrite_accepted h [w32 a, v] 0 s hr
    (by rw [hws]; exact packetCheck_one_ok _ _ _ hok) (by rw [hws]; simpa [oneWord] using he)
  rw [hws] at hq
  exact ⟨d, hd, hq, hrep⟩

/-- A packet of one word that fails is refused, with the word's place. -/
theorem does_paramWrite_one_refused {h : Req} {a : Nat} {v : Word} {s : State} {st : Nat} (hr : Ready h s.d)
    (ha : a < 2 ^ 24) (hst : s.d.wordCheck h.session [oneWord a v] (oneWord a v) = st) (hne : st ≠ stOk) :
    Does (.paramWrite h [w32 a, v] 0) s fun d => Quiet s.d d ∧ Replied d h 0x11 st [0, 0, 0, 0] := by
  have hws : wrecs 0 [w32 a, v].length 0 [w32 a, v] = [oneWord a v] := wrecs_one v ha
  have hchk := packetCheck_one s.d h.session (oneWord a v) (by rw [hst]; exact hne)
  have hdoes := does_paramWrite_refused h [w32 a, v] 0 s hr (by rw [hws, hchk, hst]; exact hne)
  have hplace : be 2 0 ++ be 2 0 = [0, 0, 0, 0] := by decide +kernel
  rw [hws, hchk, hst] at hdoes
  simpa only [oneWord, hplace] using hdoes

theorem rowOf_escWin : rowOf Reg.FLT_ESC_WIN = some (wideRow Reg.FLT_ESC_WIN .rw 60 (.rng 1 3600)) := by decide +kernel
theorem rowOf_coxLwm : rowOf Reg.COX_LWM = some (wideRow Reg.COX_LWM .st 0x1000 (.rng 64 51200)) := by decide +kernel
theorem rowOf_escCnt : rowOf Reg.FLT_ESC_CNT = some (wideRow Reg.FLT_ESC_CNT .ro 0 .any) := by decide +kernel

/-- The check of FLT_ESC_WIN, an RW word: its range (R11, R395). -/
theorem wordCheck_escWin (d : Dev) (n : Nat) (v : Word) :
    d.wordCheck n [oneWord Reg.FLT_ESC_WIN v] (oneWord Reg.FLT_ESC_WIN v) =
      if v.toNat = 0 ∨ 3600 < v.toNat then stBadParam else stOk := by
  rw [wordCheck_wide rowOf_escWin (by decide) (by decide) d n v]
  simp [rowWritable, wideRow, rngOk, Nat.mod_eq_of_lt v.isLt]

/-- The check of COX_LWM, an ST word: its range (R11, R302). -/
theorem wordCheck_coxLwm (d : Dev) (n : Nat) (v : Word) :
    d.wordCheck n [oneWord Reg.COX_LWM v] (oneWord Reg.COX_LWM v) =
      if v.toNat < 64 ∨ 51200 < v.toNat then stBadParam else stOk := by
  rw [wordCheck_wide rowOf_coxLwm (by decide) (by decide) d n v]
  simp [rowWritable, wideRow, rngOk, Nat.mod_eq_of_lt v.isLt]

/-- FLT_ESC_CNT is read-only. -/
theorem wordCheck_escCnt (d : Dev) (n : Nat) (v : Word) :
    d.wordCheck n [oneWord Reg.FLT_ESC_CNT v] (oneWord Reg.FLT_ESC_CNT v) = stReadOnly :=
  wordCheck_wide rowOf_escCnt (by decide) (by decide) d n v

/-- An RW word holds the written value at once. -/
theorem storeWord_escWin (d : Dev) (v : Word) : d.storeWord Reg.FLT_ESC_WIN v = d.put Reg.FLT_ESC_WIN v.toNat := by
  simp only [Dev.storeWord, rowOf_escWin, newWord_wide]
  rfl

/-- An ST word goes to the shadow set. -/
theorem storeWord_coxLwm (d : Dev) (v : Word) :
    d.storeWord Reg.COX_LWM v = { d with regs := { d.regs with shd := aset d.regs.shd Reg.COX_LWM v } } := by
  simp only [Dev.storeWord, rowOf_coxLwm]
  rfl

/-- Settles O15: the packet's check decides between the refusal, which changes nothing, and the fold of `storeWord`;
what a written word does beyond that leaves every session and its newest reply in place. -/
theorem paramWrite : Obligations.ParamWrite := by
  refine ⟨does_paramWrite_refused,
    fun h payload tail s hr hok => ⟨replied_paramWrite_accepted h payload tail s hr hok,
      does_paramWrite_accepted h payload tail s hr hok⟩,
    fun h v s hr h1 h2 => ?_, fun h v s hr hv => ?_, fun h v s hr h1 h2 => ?_, fun h v s hr => ?_⟩
  · obtain ⟨d, hd, hq, hrep⟩ := does_paramWrite_one hr (by decide)
      ((wordCheck_escWin s.d h.session v).trans (if_neg (by omega))) (by decide)
    rw [storeWord_escWin] at hq
    have hrd := hq.words Reg.FLT_ESC_WIN (by decide)
    rw [Dev.rd_put_self, Nat.mod_eq_of_lt v.isLt] at hrd
    exact ⟨d, hd, hq, hrd, hrep⟩
  · exact does_paramWrite_one_refused hr (by decide)
      ((wordCheck_escWin s.d h.session v).trans (if_pos hv)) (by decide)
  · obtain ⟨d, hd, hq, hrep⟩ := does_paramWrite_one hr (by decide)
      ((wordCheck_coxLwm s.d h.session v).trans (if_neg (by omega))) (by decide)
    rw [storeWord_coxLwm] at hq
    exact ⟨d, hd, hq, hq.words Reg.COX_LWM (by decide), hrep⟩
  · exact does_paramWrite_one_refused hr (by decide) (wordCheck_escCnt s.d h.session v) (by decide)

end Sys2Proof.Machine
end

section
/-! PROOFS. Bezel frames at a receiver (R19 to R22). -/

namespace Sys2Proof.Machine

open Sys2Proof

/-! Links and frames (R19, R20). -/

section Links
variable (d : Dev) (r : Dir) (f : Link → Link)

@[simp] theorem bzlLink_modLink_self : (d.modLink r f).bzlLink r = f (d.bzlLink r) := by cases r <;> rfl

@[simp] theorem bzlLink_modLink_other : (d.modLink r f).bzlLink (otherDir r) = d.bzlLink (otherDir r) := by cases r <;> rfl

end Links

/-- A frame with the CRC of its own header and payload is good (R20). -/
@[simp] theorem frameGood_sealFrame (f : Frame) : frameGood (sealFrame f) = true := by
  have hcrc : frameCrc (sealFrame f) = frameCrc f := rfl
  rw [frameGood, hcrc]
  simp [sealFrame]

/-! Frames that go out (R20, R21). -/

/-- What of a frame its transmission leaves as it is. -/
def frameBody (f : Frame) : Nat × Nat × List Byte := (f.typ, f.tag, f.payload)

/-- `d'` is `d` once the frames `fs` of a direction have gone out, numbered and sealed as `sent`. -/
structure WentOut (d d' : Dev) (r : Dir) (fs sent : List Frame) : Prop where
  dev : d' = ({ d with tx := (sent.map (Out.bezel r)).reverse ++ d.tx }).modLink r fun l =>
    { l with txSeq := (d'.bzlLink r).txSeq, retry := l.retry ++ sent }
  body : sent.map frameBody = fs.map frameBody
  good : ∀ x ∈ sent, frameGood x = true
  seq : (d.bzlLink r).txSeq < 65536 → (d'.bzlLink r).txSeq = ((d.bzlLink r).txSeq + fs.length) % 65536

theorem WentOut.nil (d : Dev) (r : Dir) : WentOut d d r [] [] where
  dev := by cases r <;> simp [Dev.modLink, Dev.bzlLink]
  body := rfl
  good := nofun
  seq h := (Nat.mod_eq_of_lt h).symm

theorem wentOut_sendFrame (d : Dev) (r : Dir) (f : Frame) : ∃ x, WentOut d (d.sendFrame r f) r [f] [x] := by
  refine ⟨sealFrame { f with seq := (d.bzlLink r).txSeq, ack := (d.bzlLink (otherDir r)).ackSeq }, ?_, rfl, ?_, ?_⟩
  · cases r <;> rfl
  · simp
  · intro _
    cases r <;> rfl

theorem WentOut.chain {a b c : Dev} {r : Dir} {fs gs xs ys : List Frame} (h : WentOut a b r fs xs)
    (g : WentOut b c r gs ys) : WentOut a c r (fs ++ gs) (xs ++ ys) := by
  have hb : (b.bzlLink r).txSeq < 65536 ∨ ¬ (a.bzlLink r).txSeq < 65536 := by
    by_cases ha : (a.bzlLink r).txSeq < 65536
    · rw [h.seq ha]; exact Or.inl (Nat.mod_lt _ (by decide))
    · exact Or.inr ha
  refine ⟨?_, ?_, ?_, ?_⟩
  · have hc := g.dev
    rw [h.dev] at hc
    rw [hc]
    cases r <;> simp [Dev.modLink, Dev.bzlLink]
  · simp [h.body, g.body]
  · intro x hx
    exact (List.mem_append.mp hx).elim (h.good x) (g.good x)
  · intro ha
    have hb' := hb.resolve_right (not_not_intro ha)
    rw [g.seq hb', h.seq ha, List.length_append]
    omega

/-! Staged frames of the field side and CMD frames of the host go out alike (R21). -/

/-- The frames that wait for room in a direction's retry buffer, oldest first. -/
def Dev.queued (d : Dev) : Dir → List Frame
  | .f2h => d.bzl.stage
  | .h2f => d.bzl.wait

/-- The device with other frames waiting. -/
def Dev.setQueued (d : Dev) (r : Dir) (l : List Frame) : Dev :=
  match r with
  | .f2h => { d with bzl := { d.bzl with stage := l } }
  | .h2f => { d with bzl := { d.bzl with wait := l } }

/-- At most `n` waiting frames of a direction go out. -/
def Dev.sendQueued (d : Dev) (r : Dir) : Nat → Dev
  | 0 => d
  | n + 1 =>
    match d.queued r with
    | [] => d
    | f :: rest => if (d.bzlLink r).room then ((d.setQueued r rest).sendFrame r f).sendQueued r n else d

theorem sendStaged_eq (n : Nat) (d : Dev) : d.sendStaged n = d.sendQueued .f2h n := by
  induction n generalizing d with
  | zero => rfl
  | succ n ih => simp only [Dev.sendStaged, Dev.sendQueued, ih]; rfl

theorem sendWaiting_eq (n : Nat) (d : Dev) : d.sendWaiting n = d.sendQueued .h2f n := by
  induction n generalizing d with
  | zero => rfl
  | succ n ih => simp only [Dev.sendWaiting, Dev.sendQueued, ih]; rfl

@[simp] theorem setQueued_queued (d : Dev) (r : Dir) : d.setQueued r (d.queued r) = d := by cases r <;> rfl

/-- How many of `n` waiting frames a direction takes: it is up, and its retry buffer holds at most 64. -/
def Link.takes (l : Link) (n : Nat) : Nat := if l.up then min n (64 - l.retry.length) else 0

theorem takes_of_room {l l' : Link} (h : l.room = true) (hup : l'.up = l.up)
    (hlen : l'.retry.length = l.retry.length + 1) (n : Nat) : l.takes (n + 1) = l'.takes n + 1 := by
  simp only [Link.room, Bool.and_eq_true, decide_eq_true_eq] at h
  obtain ⟨hu, hl⟩ := h
  simp only [Link.takes, hup, hu, hlen, if_true]
  omega

theorem takes_of_full {l : Link} (h : ¬ l.room = true) (n : Nat) : l.takes n = 0 := by
  simp only [Link.room, Bool.and_eq_true, decide_eq_true_eq, not_and, Nat.not_lt] at h
  unfold Link.takes
  split
  · next hu => have := h hu; omega
  · rfl

/-- The oldest waiting frames go out, as many as the retry buffer has room for. -/
theorem wentOut_sendQueued (r : Dir) (n : Nat) (d : Dev) :
    ∃ sent, WentOut (d.setQueued r ((d.queued r).drop ((d.bzlLink r).takes (min n (d.queued r).length))))
      (d.sendQueued r n) r ((d.queued r).take ((d.bzlLink r).takes (min n (d.queued r).length))) sent := by
  induction n generalizing d with
  | zero =>
    have h0 : (d.bzlLink r).takes (min 0 (d.queued r).length) = 0 := by simp [Link.takes]
    rw [h0]
    exact ⟨[], by simpa [Dev.sendQueued] using WentOut.nil d r⟩
  | succ n ih =>
    cases hq : d.queued r with
    | nil =>
      have h0 : (d.bzlLink r).takes (min (n + 1) ([] : List Frame).length) = 0 := by simp [Link.takes]
      rw [h0]
      have hd : d.sendQueued r (n + 1) = d := by simp [Dev.sendQueued, hq]
      have hsame : d.setQueued r [] = d := by rw [← hq, setQueued_queued]
      rw [hd, List.drop_nil, List.take_nil, hsame]
      exact ⟨[], WentOut.nil d r⟩
    | cons f rest =>
      by_cases hroom : (d.bzlLink r).room = true
      · have hd : d.sendQueued r (n + 1) = ((d.setQueued r rest).sendFrame r f).sendQueued r n := by
          simp [Dev.sendQueued, hq, hroom]
        have hk : (d.bzlLink r).takes (min (n + 1) (f :: rest).length) =
            (((d.setQueued r rest).sendFrame r f).bzlLink r).takes (min n rest.length) + 1 := by
          rw [List.length_cons, Nat.add_min_add_right]
          refine takes_of_room hroom ?_ ?_ _
          · cases r <;> rfl
          · cases r <;> exact List.length_append
        have hrest : ((d.setQueued r rest).sendFrame r f).queued r = rest := by cases r <;> rfl
        obtain ⟨sent, hs⟩ := ih ((d.setQueued r rest).sendFrame r f)
        rw [hrest] at hs
        rw [hd, hk]
        generalize (((d.setQueued r rest).sendFrame r f).bzlLink r).takes (min n rest.length) = k at hs
        have hswap : ((d.setQueued r rest).sendFrame r f).setQueued r (rest.drop k) =
            (d.setQueued r (rest.drop k)).sendFrame r f := by cases r <;> rfl
        rw [hswap] at hs
        obtain ⟨x, hx⟩ := wentOut_sendFrame (d.setQueued r (rest.drop k)) r f
        exact ⟨_, hx.chain hs⟩
      · have hd : d.sendQueued r (n + 1) = d := by simp [Dev.sendQueued, hq, hroom]
        have hsame : d.setQueued r (f :: rest) = d := by rw [← hq, setQueued_queued]
        rw [takes_of_full hroom, hd, List.drop_zero, List.take_zero, hsame]
        exact ⟨[], WentOut.nil d r⟩

/-! What an accepted frame says of the other direction (R21, R22). -/

/-- The frames of a retry buffer as a NAK makes their transmitter send them again. -/
def replays (r : Dir) (l : List Frame) : List Out := l.map fun x => Out.bezel r (sealFrame { x with replay := true })

theorem foldl_emit {α : Type} (g : α → Out) (l : List α) (d : Dev) :
    l.foldl (fun d x => d.emit (g x)) d = { d with tx := (l.map g).reverse ++ d.tx } := by
  induction l generalizing d with
  | nil => rfl
  | cons x l ih =>
    rw [List.foldl_cons, ih]
    simp [Dev.emit]

theorem resendFrames_eq (d : Dev) (r : Dir) :
    d.resendFrames r = { d with tx := (replays r (d.bzlLink r).retry).reverse ++ d.tx } :=
  foldl_emit (fun f : Frame => Out.bezel r (sealFrame { f with replay := true })) (d.bzlLink r).retry d

/-- The receiver of direction `r` has taken the frame's number. -/
def Dev.numberTaken (d : Dev) (r : Dir) (f : Frame) : Dev :=
  d.modLink r fun l => { l with await := false, rxNext := if f.typ = 0 then l.rxNext else (l.rxNext + 1) % 65536 }

/-- A good frame in sequence is taken, whatever its receiver waits for. -/
theorem bzlRx_inSeq {d : Dev} {r : Dir} {f : Frame} (hg : frameGood f = true) (hb : frameBad r f = false)
    (hs : f.seq = (d.bzlLink r).rxNext) : d.bzlRx r f = ((d.numberTaken r f).takeAck r f, true) := by
  simp [Dev.bzlRx, hg, hb, hs, Dev.numberTaken]

/-- A frame that shows damage or a frame missing is answered with a NAK, but for those behind one answered so before the
replay has come. -/
theorem bzlRx_bad {d : Dev} {r : Dir} {f : Frame}
    (h : frameGood f = false ∨ (frameBad r f = false ∧ f.replay = false ∧ f.seq ≠ (d.bzlLink r).rxNext)) :
    (d.bzlRx r f).1 = if (d.bzlLink r).await && !f.replay then d else d.sendNak r := by
  have hgo : (frameGood f && f.seq == (d.bzlLink r).rxNext) = false := by
    obtain hg | ⟨-, -, hs⟩ := h
    · rw [hg, Bool.false_and]
    · rw [beq_eq_false_iff_ne.mpr hs, Bool.and_false]
  simp only [Dev.bzlRx, hgo, Bool.not_false, Bool.and_true]
  split
  · rfl
  · obtain hg | ⟨hb, hr, hs⟩ := h
    · simp [hg]
    · cases frameGood f <;> simp [hb, hr, hs]

/-- What the acknowledged direction sends again where the frame carries a NAK. -/
def Dev.nakReplays (d : Dev) (r : Dir) (f : Frame) : List Out :=
  if f.nak then replays (otherDir r) ((d.bzlLink (otherDir r)).acked f.ack).retry else []

/-- The device with the frame's ACK_SEQ and NAK taken, before CMD frames that waited go out. -/
def Dev.heard (d : Dev) (r : Dir) (f : Frame) : Dev :=
  { d.modLink (otherDir r) (fun l => l.acked f.ack) with
    tx := (d.nakReplays r f).reverse ++ d.tx
    regs := (d.bumpIf (f.nak && !((d.bzlLink (otherDir r)).acked f.ack).retry.isEmpty) Reg.PWR_BZL_REPLAY_CNT).regs }

theorem replay_eq (d : Dev) (r : Dir) :
    d.replay r = { d with
      tx := (replays r (d.bzlLink r).retry).reverse ++ d.tx
      regs := (d.bumpIf (!(d.bzlLink r).retry.isEmpty) Reg.PWR_BZL_REPLAY_CNT).regs } := by
  unfold Dev.replay
  rw [resendFrames_eq]
  cases (d.bzlLink r).retry.isEmpty <;> cases r <;> rfl

theorem takeAck_eq (d : Dev) (r : Dir) (f : Frame) :
    d.takeAck r f = match r with
      | .f2h => (d.heard r f).sendQueued .h2f d.bzl.wait.length
      | .h2f => d.heard r f := by
  have hheard : (if f.nak then (d.modLink (otherDir r) (fun l => l.acked f.ack)).replay (otherDir r)
      else d.modLink (otherDir r) (fun l => l.acked f.ack)) = d.heard r f := by
    unfold Dev.heard Dev.nakReplays
    cases f.nak with
    | false => cases r <;> rfl
    | true =>
      rw [if_pos rfl, replay_eq, bzlLink_modLink_self]
      cases ((d.bzlLink (otherDir r)).acked f.ack).retry.isEmpty <;> cases r <;> rfl
  unfold Dev.takeAck
  dsimp only
  rw [hheard]
  cases r
  · exact sendWaiting_eq _ _
  · rfl

/-- Taking an acknowledgement changes the links, the CMD frames that wait, what has been sent, and with a NAK the count of
replays. -/
structure AckFrame (d d' : Dev) (f : Frame) (r : Dir) : Prop where
  dev : d' = { d with bzl := d'.bzl, tx := d'.tx
                      regs := (d.bumpIf (f.nak && !((d.bzlLink (otherDir r)).acked f.ack).retry.isEmpty)
                        Reg.PWR_BZL_REPLAY_CNT).regs }
  bzl : d'.bzl = { d.bzl with f2h := d'.bzl.f2h, h2f := d'.bzl.h2f, wait := d'.bzl.wait }

theorem takes_le (l : Link) (n : Nat) : l.takes n ≤ n := by
  unfold Link.takes
  split <;> omega

/-- A count depends on the parameter words alone. -/
theorem bumpIf_regs {d e : Dev} (h : e.regs = d.regs) (b : Bool) (a : Nat) :
    (e.bumpIf b a).regs = (d.bumpIf b a).regs := by
  cases b
  · exact h
  · simp only [Dev.bumpIf, Dev.bump, Dev.bumpBy, Dev.put, Dev.rd, h, if_true]

theorem numberTaken_regs (d : Dev) (r : Dir) (f : Frame) : (d.numberTaken r f).regs = d.regs := by cases r <;> rfl

theorem heard_regs (d : Dev) (r : Dir) (f : Frame) : ((d.numberTaken r f).heard r f).regs =
    (d.bumpIf (f.nak && !((d.bzlLink (otherDir r)).acked f.ack).retry.isEmpty) Reg.PWR_BZL_REPLAY_CNT).regs := by
  rw [← bumpIf_regs (numberTaken_regs d r f)]
  cases r <;> rfl

theorem heard_dev (d : Dev) (r : Dir) (f : Frame) : (d.numberTaken r f).heard r f =
    { d with bzl := ((d.numberTaken r f).heard r f).bzl, tx := ((d.numberTaken r f).heard r f).tx
             regs := (d.bumpIf (f.nak && !((d.bzlLink (otherDir r)).acked f.ack).retry.isEmpty)
               Reg.PWR_BZL_REPLAY_CNT).regs } := by
  rw [← heard_regs d r f]
  cases r <;> rfl

theorem WentOut.length_eq {d d' : Dev} {r : Dir} {fs sent : List Frame} (h : WentOut d d' r fs sent) :
    sent.length = fs.length := by
  simpa using congrArg List.length h.body

/-- A frame's ACK_SEQ frees the other direction's retry buffer, a NAK has it sent again, and on the host's side CMD frames
that waited follow. -/
theorem frameTaken_takeAck (d : Dev) (r : Dir) (f : Frame) :
    FrameTaken d ((d.numberTaken r f).takeAck r f) r f (d.nakReplays r f) ∧
    AckFrame d ((d.numberTaken r f).takeAck r f) f r := by
  have hdev := heard_dev d r f
  rw [takeAck_eq]
  cases r with
  | h2f => exact ⟨⟨rfl, [], (List.append_nil _).symm, rfl, rfl, rfl, nofun, rfl⟩, hdev, rfl⟩
  | f2h =>
    dsimp only
    have hwait : ((d.numberTaken .f2h f).heard .f2h f).queued .h2f = d.bzl.wait := rfl
    have hlink : ((d.numberTaken .f2h f).heard .f2h f).bzlLink .h2f = d.bzl.h2f.acked f.ack := rfl
    have hnum : (d.numberTaken .f2h f).bzl.wait = d.bzl.wait := rfl
    obtain ⟨sent, hs⟩ := wentOut_sendQueued .h2f d.bzl.wait.length ((d.numberTaken .f2h f).heard .f2h f)
    rw [hwait, hlink, Nat.min_self] at hs
    have hlen : sent.length = (d.bzl.h2f.acked f.ack).takes d.bzl.wait.length := by
      rw [hs.length_eq, List.length_take, Nat.min_eq_left (takes_le _ _)]
    rw [← hlen] at hs
    obtain ⟨hsent, hbody, hgood, -⟩ := hs
    rw [hnum]
    generalize ((((d.numberTaken .f2h f).heard .f2h f).sendQueued .h2f d.bzl.wait.length).bzlLink .h2f).txSeq = q at hsent
    rw [hsent]
    refine ⟨⟨rfl, sent, rfl, hlen, rfl, hbody, hgood, (List.append_assoc _ _ _).symm⟩, ?_, rfl⟩
    generalize (d.numberTaken .f2h f).heard .f2h f = e at hdev ⊢
    generalize (d.bumpIf _ Reg.PWR_BZL_REPLAY_CNT).regs = m at hdev ⊢
    rw [hdev]
    rfl

/-- A frame in sequence is taken. -/
theorem bzlRx_taken {d : Dev} {r : Dir} {f : Frame} (h : FrameIn d r f) :
    (d.bzlRx r f).2 = true ∧ FrameTaken d (d.bzlRx r f).1 r f [] ∧
    (d.bzlRx r f).1 = { d with bzl := (d.bzlRx r f).1.bzl, tx := (d.bzlRx r f).1.tx } ∧
    (d.bzlRx r f).1.bzl = { d.bzl with f2h := (d.bzlRx r f).1.bzl.f2h, h2f := (d.bzlRx r f).1.bzl.h2f
                                       wait := (d.bzlRx r f).1.bzl.wait } := by
  obtain ⟨hgood, hnak, hbad, hseq⟩ := h
  obtain ⟨htaken, hdev, hbzl⟩ := frameTaken_takeAck d r f
  rw [bzlRx_inSeq hgood hbad hseq]
  simp only [Dev.nakReplays, hnak, Bool.false_eq_true, if_false, Bool.false_and] at htaken hdev
  exact ⟨rfl, htaken, hdev, hbzl⟩

/-- What a receiver takes of a frame does not look at its NAK beyond the replay. -/
theorem FrameTaken.of_nak {s d : Dev} {r : Dir} {f : Frame} {l : List Out} {b : Bool}
    (h : FrameTaken s d r { f with nak := b } l) : FrameTaken s d r f l := by
  cases r <;> exact ⟨h.link, h.sent⟩

/-! The clauses. -/

/-- Damage, or a frame missing: a NAK, once until the replay. -/
theorem does_bzlIdleRx_bad {r : Dir} {f : Frame} {s : State}
    (h : frameGood f = false ∨ (frameBad r f = false ∧ f.replay = false ∧ f.seq ≠ (s.d.bzlLink r).rxNext)) :
    ((s.d.bzlLink r).await = true → f.replay = false → Does (.bzlIdleRx r f) s fun d => d = s.d) ∧
    ((s.d.bzlLink r).await = false ∨ f.replay = true →
      Does (.bzlIdleRx r f) s fun d =>
        d.tx = .bezel (otherDir r) (s.d.idleFrame (otherDir r) true) :: s.d.tx ∧
        d = { s.d with bzl := d.bzl, tx := d.tx } ∧ d.bzlLink (otherDir r) = s.d.bzlLink (otherDir r) ∧
        d.bzlLink r = { s.d.bzlLink r with await := true }) := by
  constructor
  · intro hawait hreplay
    refine does_onDev _ s (fun d => (d.bzlRx r f).1) _ rfl ?_
    simp only [bzlRx_bad h, hawait, hreplay, Bool.not_false, Bool.and_true, if_true]
  · intro hanswer
    have hno : ((s.d.bzlLink r).await && !f.replay) = false := by
      obtain ha | hr := hanswer
      · rw [ha, Bool.false_and]
      · rw [hr, Bool.not_true, Bool.and_false]
    refine does_onDev _ s (fun d => (d.bzlRx r f).1) _ rfl ?_
    simp only [bzlRx_bad h, hno, Bool.false_eq_true, if_false]
    cases r <;> exact ⟨rfl, rfl, rfl, rfl⟩

/-- A NAK has the other transmitter send its retry buffer again. -/
theorem does_bzlReplay {r : Dir} {f : Frame} {s : State} (hg : frameGood { f with nak := true } = true)
    (hb : frameBad r f = false) (hs : f.seq = (s.d.bzlLink r).rxNext) :
    Does (.bzlReplay r f) s fun d => FrameTaken s.d d r f (((s.d.bzlLink (otherDir r)).acked f.ack).retry.map
        (fun x => Out.bezel (otherDir r) (sealFrame { x with replay := true }))) ∧
      (((s.d.bzlLink (otherDir r)).acked f.ack).retry ≠ [] →
        d.rd Reg.PWR_BZL_REPLAY_CNT = min 0xFFFFFFFF (s.d.rd Reg.PWR_BZL_REPLAY_CNT + 1)) ∧
      d = { s.d with bzl := d.bzl, tx := d.tx, regs := d.regs } ∧
      ∀ a, a ≠ Reg.PWR_BZL_REPLAY_CNT → d.rd a = s.d.rd a := by
  refine does_onDev _ s (fun d => (d.bzlRx r { f with nak := true }).1) _ rfl ?_
  obtain ⟨htaken, hdev, -⟩ := frameTaken_takeAck s.d r { f with nak := true }
  have htaken' := htaken.of_nak
  have hbad : frameBad r { f with nak := true } = false := hb
  simp only [bzlRx_inSeq hg hbad hs]
  generalize ((s.d.numberTaken r { f with nak := true }).takeAck r { f with nak := true }) = d at *
  have hrd : ∀ a, d.rd a = (s.d.bumpIf (!((s.d.bzlLink (otherDir r)).acked f.ack).retry.isEmpty)
      Reg.PWR_BZL_REPLAY_CNT).rd a := fun a => by
    rw [hdev]
    rfl
  refine ⟨htaken', fun hne => ?_, ?_, fun a ha => ?_⟩
  · have hb : (!((s.d.bzlLink (otherDir r)).acked f.ack).retry.isEmpty) = true := by simpa using hne
    rw [hrd, hb]
    exact (Dev.rd_put_self _ _ _).trans (Nat.mod_eq_of_lt (by omega))
  · rw [hdev]
  · rw [hrd]
    cases !((s.d.bzlLink (otherDir r)).acked f.ack).retry.isEmpty
    · rfl
    · exact Dev.rd_put_ne _ _ _ _ ha

/-- Settles O27: a frame in sequence is taken by `frameTaken_takeAck`, whose NAK part the replay uses; what damage or a gap
leads to is `bzlRx_bad`. -/
theorem bezelFrames : Obligations.BezelFrames := by
  refine ⟨fun r f s h => ?_, fun r f s h => does_bzlIdleRx_bad h, fun r f s h => ?_,
    fun r f s hg hb hs => does_bzlReplay hg hb hs, fun r s h => ?_⟩
  · obtain ⟨-, hrest⟩ := bzlRx_taken h
    exact does_onDev _ s (fun d => (d.bzlRx r f).1) _ rfl hrest
  · exact does_onDev _ s (fun d => if frameBad r f then d.bump Reg.PWR_BZL_DISCARD_CNT else d) _ rfl (if_pos h)
  · exact does_onDev _ s (fun d => if (d.bzlLink r).up then d.emit (.bezel r (d.idleFrame r false)) else d) _ rfl
      (if_pos h)

end Sys2Proof.Machine
end

section
/-! PROOFS. What an instruction leaves of one concrete state. -/

namespace Sys2Proof.Machine

open Sys2Proof

/-- What `f` reads of the device after an instruction that has a next state. -/
def readAfter {α : Type} (c : Instr) (s : State) (f : Dev → α) : Option α :=
  match exec c s with
  | .next t => some (f t.d)
  | _ => none

/-- An instruction's outcome is one: what it does holds of the device it is read to leave. -/
theorem Does.readAfter {α : Type} {c : Instr} {s : State} {P : Dev → Prop} {f : Dev → α} {x : α} (h : Does c s P)
    (hx : readAfter c s f = some x) : ∃ d, P d ∧ f d = x := by
  obtain ⟨d, hd, hp⟩ := h
  refine ⟨d, hp, ?_⟩
  rw [Machine.readAfter, hd] at hx
  exact Option.some.inj hx

end Sys2Proof.Machine
end

section
/-! PROOFS. MODE_SET while a wear rotation runs (R36, R40, R226). -/

namespace Sys2Proof.Machine

open Sys2Proof

/-- A MODE_SET request of session 1. -/
def modeSetReq : Req := ⟨⟨0, 0⟩, .eth0, 1, 7, 2, 0, false⟩

/-- IDLE with session 1 open and a wear rotation of chain 0 in a dwell; its light is one cycle short of a minute. -/
def rotatingIdle : State :=
  { d := { mode := .idle
           now := 10
           sess := [(1, { (default : Session) with ep := ⟨0, 0⟩ })]
           lamp := { rot := some 0, chains := [{ litCyc := 46874999999, gate := [(0, 20)] }] } } }

theorem rotatingIdle_ready : Ready modeSetReq rotatingIdle.d :=
  ⟨by decide +kernel, rfl, by decide, by decide, by decide, rfl, _, rfl, rfl, rfl⟩

/-- Leaving IDLE abandons the rotation, and the minute that its dwell completes is counted. -/
theorem rotatingIdle_counted :
    readAfter (.modeSetCalibrate modeSetReq) rotatingIdle (fun d => d.rd (Reg.LMP_C_LIT_MIN 0)) = some 1 := by
  decide +kernel

/-- Refutes O12: the fourth clause keeps every word outside page 12 over MODE_SET to CALIBRATE. A wear rotation that runs
in IDLE is abandoned there (R226), its light counts, and LMP_C_LIT_MIN of its chain advances where that completes a minute. -/
theorem not_modeSetRequests : ¬ Obligations.ModeSetRequests := by
  intro hall
  obtain ⟨-, -, -, hcalibrate, -⟩ := hall modeSetReq rotatingIdle rotatingIdle_ready
  obtain ⟨d, ⟨-, -, -, -, -, -, -, -, hwords⟩, hlit⟩ := (hcalibrate rfl).readAfter rotatingIdle_counted
  have hsame : d.rd (Reg.LMP_C_LIT_MIN 0) = 0 := hwords _ (by decide)
  omega

end Sys2Proof.Machine
end

section
/-! PROOFS. The loss of the host supplies and a retired pair (R37, R390). -/

namespace Sys2Proof.Machine

open Sys2Proof

/-- IDLE with the pair of core 0 retired: bit 8 of FLT_CORE_STAT is set. -/
def retiredPair : State := { d := ({ mode := .idle } : Dev).put Reg.FLT_CORE_STAT 0x100 }

/-- The loss of the host supplies keeps FLT_CORE_STAT of a retired pair (R390). -/
theorem retiredPair_kept :
    readAfter .hostPowerLost retiredPair (fun d => d.rd Reg.FLT_CORE_STAT) = some 0x100 := by decide +kernel

/-- Refutes O52: the third clause has every word at its reset value once the host supplies are lost. A pair that is
retired stays so until the self-test of the next boot (R390): with one, FLT_CORE_STAT is kept. -/
theorem not_hostSupply : ¬ Obligations.HostSupply := by
  rintro ⟨-, -, hlost, -⟩
  obtain ⟨t, hexec, -, -, -, -, -, -, -, -, -, -, -, -, -, -, -, hwords⟩ := hlost retiredPair
  have hkept := retiredPair_kept
  rw [readAfter, hexec] at hkept
  have hreset : resetWord Reg.FLT_CORE_STAT = 0x100 := (hwords _).symm.trans (Option.some.inj hkept)
  exact absurd hreset (by decide +kernel)

end Sys2Proof.Machine
end

section
/-! PROOFS. A short encoder level and the replica counter (R33, R239). -/

namespace Sys2Proof.Machine

open Sys2Proof

/-- The replica of the time counter has passed 2 ^ 96: a TIME frame sets it to its payload and the link latency, without
a modulus (R33). -/
def replicaPast : State := { d := { tim := { rep := 2 ^ 96 } } }

/-- Letting no time pass reduces the replica. -/
theorem replicaPast_reduced :
    readAfter (.encEdge 0 false true 0 0) replicaPast (fun d => d.tim.rep) = some 0 := by decide +kernel

/-- Refutes O33: the clause on a level held for no more than FILT cycles leaves the whole device as it is. ENC_EDGE first
lets time pass up to its instant, and each passing of time, one of no length too, reduces the replica counter modulo
2 ^ 96; a replica that a TIME frame has set beyond that changes. -/
theorem not_boundaryEntryAndEdges : ¬ Obligations.BoundaryEntryAndEdges := by
  rintro ⟨-, -, -, -, hedge, -⟩
  obtain ⟨-, hshort⟩ := hedge 0 false (false, false) 0 0 replicaPast (Nat.le_refl 0) (by decide) (by decide) (by decide) rfl
  obtain ⟨d, hd, hrep⟩ := (hshort true (Nat.zero_le _)).readAfter replicaPast_reduced
  have hsame : d.tim.rep = 2 ^ 96 := congrArg (fun x : Dev => x.tim.rep) hd
  omega

end Sys2Proof.Machine
end

section
/-! PROOFS. The link comes up while a COMMIT waits for its next Catch (R12, R29, R94). -/

namespace Sys2Proof.Machine

open Sys2Proof

/-- SERVICE with Catches enabled that no head asks for any more, and a COMMIT of PWR_LAMP_KT 0 that waits. -/
def waitingCommit : State :=
  { d := { mode := .service
           seq := { en := true }
           regs := { com := some ⟨[(Reg.PWR_LAMP_KT 0, 5)], 1, 7⟩ } } }

/-- The Catches end when the link comes up, and the COMMIT takes effect with them. -/
theorem waitingCommit_inForce :
    readAfter (.bzlLinkUp 0) waitingCommit (fun d => d.rd (Reg.PWR_LAMP_KT 0)) = some 5 := by decide +kernel

/-- Refutes O31: the clause on the link's return keeps every word but the replay count and the lanes' temperatures. In
SERVICE the link's return ends Catches that no head wants (R94), and a COMMIT that waited for the next Catch takes effect
where they end (R12): its word changes. -/
theorem not_bezelLinkAndClocks : ¬ Obligations.BezelLinkAndClocks := by
  rintro ⟨-, -, -, -, -, hup, -⟩
  obtain ⟨d, ⟨-, -, -, -, -, -, -, -, -, -, -, -, -, -, -, hwords⟩, hlamp⟩ :=
    (hup 0 waitingCommit (by decide) (by decide) (by decide)).readAfter waitingCommit_inForce
  have hsame : d.rd (Reg.PWR_LAMP_KT 0) = waitingCommit.d.rd (Reg.PWR_LAMP_KT 0) :=
    hwords _ (by decide) (by decide +kernel)
  have hbefore : waitingCommit.d.rd (Reg.PWR_LAMP_KT 0) ≠ 5 := by decide +kernel
  exact hbefore (hsame.symm.trans hlamp)

end Sys2Proof.Machine
end

section
/-! PROOFS. DEV_CTRL and a wear rotation in STANDBY (R226, R460). -/

namespace Sys2Proof.Machine

open Sys2Proof

/-- A PARAM_WRITE request of session 1. -/
def devCtrlReq : Req := ⟨⟨0, 0⟩, .eth0, 1, 7, 2, 0, false⟩

/-- STANDBY held by DEV_CTRL with the field present, and a wear rotation of chain 0 that has lit it for a minute. -/
def rotatingStandby : State :=
  { d := ({ mode := .standby
            bzl := { goodStatus := 3 }
            sess := [(1, { (default : Session) with ep := ⟨0, 0⟩ })]
            lamp := { rot := some 0, chains := [{ litCyc := 46875000000 }] } } : Dev).put Reg.DEV_CTRL 1 }

theorem rotatingStandby_ready : Ready devCtrlReq rotatingStandby.d :=
  ⟨by decide +kernel, rfl, by decide, by decide, by decide, rfl, _, rfl, rfl, rfl⟩

/-- Leaving STANDBY abandons the rotation, and its light counts. -/
theorem rotatingStandby_counted :
    readAfter (.devCtrlWrite devCtrlReq 0) rotatingStandby (fun d => d.rd (Reg.LMP_C_LIT_MIN 0)) = some 1 := by
  decide +kernel

/-- Refutes O17: the third clause keeps every word outside page 12 but DEV_CTRL itself over the WAKE that clearing
DEV_CTRL begins. A wear rotation is abandoned with the mode (R226), its light counts, and LMP_C_LIT_MIN of its chain
advances. The statement admits one in STANDBY, though the model starts a rotation in IDLE only. -/
theorem not_controlWordWrites : ¬ Obligations.ControlWordWrites := by
  intro hall
  obtain ⟨-, -, hwake, -⟩ := hall devCtrlReq rotatingStandby rotatingStandby_ready
  obtain ⟨d, ⟨-, -, -, hwords⟩, hlit⟩ := (hwake rfl (by decide +kernel) (by decide) rfl).readAfter rotatingStandby_counted
  have hsame : d.rd (Reg.LMP_C_LIT_MIN 0) = rotatingStandby.d.rd (Reg.LMP_C_LIT_MIN 0) :=
    hwords _ (by decide) (by decide)
  have hbefore : rotatingStandby.d.rd (Reg.LMP_C_LIT_MIN 0) = 0 := by decide +kernel
  omega

end Sys2Proof.Machine
end

section
/-! PROOFS. SCAN_START and a wear rotation of a chain the device does not have (R40, R226). -/

namespace Sys2Proof.Machine

open Sys2Proof

/-- A SCAN_START request of session 1. -/
def scanReq : Req := ⟨⟨0, 0⟩, .eth0, 1, 7, 2, 0, false⟩

/-- IDLE where a job of group 0 may start, and a wear rotation that has lit chain 1008, beyond the sixteen there are. -/
def rotatingBeyond : State :=
  { d := [(Reg.MOT_A_CFG 0, 0x80000000), (Reg.MOT_G_CFG 0, 1), (Reg.PAGE_S_DELIV 0, 2), (Reg.SEQ_H_CTRL 0, 1),
        (Reg.SEQ_H_RAW 0, 64)].foldl (fun (d : Dev) x => d.put x.1 x.2)
      { mode := .idle
        sess := [(1, { (default : Session) with ep := ⟨0, 0⟩ })]
        pages := { key := some [1] }
        mot := { axes := { valid := true } :: List.replicate 11 {}, groups := [{ drive := some true }, {}, {}, {}] }
        lamp := { rot := some 1008, chains := List.replicate 1009 { litCyc := 46875000000 } } } }

theorem rotatingBeyond_ready : Ready scanReq rotatingBeyond.d :=
  ⟨by decide +kernel, rfl, by decide, by decide, by decide, rfl, _, rfl, rfl, rfl⟩

/-- The job abandons the rotation, whose light is counted at the address of chain 1008, in the page after the lamps'. -/
theorem rotatingBeyond_counted :
    readAfter (.scanStart scanReq 9 9 0) rotatingBeyond (fun d => d.rd (Reg.LMP_C_LIT_MIN 1008)) = some 1 := by
  decide +kernel

/-- Refutes O13: the first clause keeps every word outside pages 12 and 8, and 6 where a rotation runs. The light of an
abandoned rotation counts in its chain's own words (R226), and those of a chain 1008 lie in page 7. The statement admits
such a rotation, though the device has sixteen chains. -/
theorem not_jobRequests : ¬ Obligations.JobRequests := by
  rintro ⟨hstart, -⟩
  obtain ⟨d, ⟨-, -, -, -, -, -, -, -, -, -, -, -, hwords⟩, hlit⟩ :=
    (hstart scanReq 9 9 0 rotatingBeyond rotatingBeyond_ready (by decide +kernel)).readAfter rotatingBeyond_counted
  have hsame : d.rd (Reg.LMP_C_LIT_MIN 1008) = rotatingBeyond.d.rd (Reg.LMP_C_LIT_MIN 1008) :=
    hwords _ (by decide) (by decide) (fun h6 => absurd h6 (by decide))
  have hbefore : rotatingBeyond.d.rd (Reg.LMP_C_LIT_MIN 1008) = 0 := by decide +kernel
  omega

end Sys2Proof.Machine
end

section
/-! PROOFS. Field STATUS and a wear rotation of a chain the device does not have (R226, R421). -/

namespace Sys2Proof.Machine

open Sys2Proof

/-- STANDBY after two good reports, and a wear rotation that has lit chain 9200, beyond the sixteen there are. -/
def rotatingFar : State :=
  { d := { mode := .standby
           bzl := { goodStatus := 2 }
           lamp := { rot := some 9200, chains := List.replicate 9201 { litCyc := 46875000000 } } } }

/-- A report with every rail good. -/
def goodReport : FieldStatus := ⟨31, true, 0, 0, 0, 0, 0, 0, 0, 0⟩

/-- The STATUS frame that carries it. -/
def statusFrame : Frame := sealFrame (newFrame 2 0 [])

/-- WAKE abandons the rotation, whose light is counted at the address of chain 9200, which is that of PWR_RAIL_F. -/
theorem rotatingFar_counted :
    readAfter (.bzlStatusRx statusFrame goodReport) rotatingFar (fun d => d.rd Reg.PWR_RAIL_F) = some 32 := by
  decide +kernel

/-- Refutes O28: the clause on the third good STATUS in STANDBY has PWR_RAIL_F hold the reported rails in the WAKE it
begins. A wear rotation is abandoned with the mode and its light counts in its chain's own words (R226); for a chain 9200
the address is that of PWR_RAIL_F. The statement admits such a rotation, though the device has sixteen chains. -/
theorem not_bezelTrafficAndStatus : ¬ Obligations.BezelTrafficAndStatus := by
  rintro ⟨-, -, -, -, -, -, -, hstatus, -⟩
  have hin : FrameIn rotatingFar.d .f2h statusFrame := ⟨by decide +kernel, by decide, by decide, by decide⟩
  obtain ⟨d, ⟨-, -, -, -, -, hrail, -⟩, hcounted⟩ :=
    (hstatus statusFrame goodReport rotatingFar hin rfl rfl rfl rfl rfl rfl (by decide +kernel)).readAfter
      rotatingFar_counted
  omega

end Sys2Proof.Machine
end

section
/-! PROOFS. Strokes across the Bezel (R21, R180, R181). -/

namespace Sys2Proof.Machine

open Sys2Proof

theorem Does.imp {c : Instr} {s : State} {P Q : Dev → Prop} (h : Does c s P) (hpq : ∀ d, P d → Q d) : Does c s Q := by
  obtain ⟨d, hd, hp⟩ := h
  exact ⟨d, hd, hpq d hp⟩

/-! Frames joined to strokes (R180). -/

/-- The stroke under assembly once a frame's bytes have joined it: a FIRST frame, or one of another TAG, begins a new one. -/
def Bezel.joined (b : Bezel) (f : Frame) : Assembly :=
  let a := match b.asm with
    | some a => if f.first || a.tag.toNat != f.tag then (⟨w32 f.tag, []⟩ : Assembly) else a
    | none => (⟨w32 f.tag, []⟩ : Assembly)
  { a with bytes := padTo f.offset (a.bytes.take f.offset) ++ f.payload }

theorem joined_first {b : Bezel} {f : Frame} (hf : f.first = true) (ho : f.offset = 0) :
    b.joined f = ⟨w32 f.tag, f.payload⟩ := by
  cases ha : b.asm <;> simp [Bezel.joined, ha, hf, ho, padTo]

theorem joined_next {b : Bezel} {f : Frame} {a : Assembly} (ha : b.asm = some a) (hf : f.first = false)
    (ht : a.tag.toNat = f.tag) (ho : f.offset = a.bytes.length) : b.joined f = ⟨a.tag, a.bytes ++ f.payload⟩ := by
  simp [Bezel.joined, ha, hf, ht, ho, padTo]

/-- The device with this under assembly. -/
def Dev.assembled (d : Dev) (a : Option Assembly) : Dev := { d with bzl := { d.bzl with asm := a } }

/-- A STROKE frame is taken; with LAST its stroke is checked, and without it waits for more. -/
theorem does_strokeFrameRx {f : Frame} {s : State} (h : FrameIn s.d .f2h f) (ht : f.typ = 1) :
    Does (.strokeFrameRx f) s fun d => ∃ e,
      (FrameTaken s.d e .f2h f [] ∧ e = { s.d with bzl := e.bzl, tx := e.tx } ∧
        e.bzl = { s.d.bzl with f2h := e.bzl.f2h, h2f := e.bzl.h2f, wait := e.bzl.wait }) ∧
      d = if f.last then (e.assembled none).checkStroke (s.d.bzl.joined f) else e.assembled (some (s.d.bzl.joined f)) := by
  obtain ⟨htaken, hframe⟩ := bzlRx_taken h
  refine ⟨_, rfl, (s.d.bzlRx .f2h f).1, hframe, ?_⟩
  have hasm : (s.d.bzlRx .f2h f).1.bzl.asm = s.d.bzl.asm := by
    have hbzl := congrArg Bezel.asm hframe.2.2
    exact hbzl
  simp only [htaken, ht, bne_self_eq_false, Bool.not_true, Bool.or_false, Bool.false_eq_true, if_false, hasm]
  rfl

/-- A frame that is not the last leaves its stroke under assembly. -/
theorem does_strokeFrameRx_more {f : Frame} {a : Assembly} {s : State} (h : FrameIn s.d .f2h f) (ht : f.typ = 1)
    (hl : f.last = false) (ha : s.d.bzl.joined f = a) :
    Does (.strokeFrameRx f) s fun d => FrameTaken s.d d .f2h f [] ∧ d = { s.d with bzl := d.bzl, tx := d.tx } ∧
      d.bzl = { s.d.bzl with f2h := d.bzl.f2h, h2f := d.bzl.h2f, wait := d.bzl.wait, asm := some a } := by
  refine (does_strokeFrameRx h ht).imp ?_
  rintro d ⟨e, ⟨htaken, hdev, hbzl⟩, rfl⟩
  simp only [hl, Bool.false_eq_true, if_false, ha]
  refine ⟨⟨htaken.link, htaken.sent⟩, ?_, ?_⟩
  · rw [hdev]; rfl
  · exact congrArg (fun b : Bezel => { b with asm := some a }) hbzl

/-- A stroke of one frame is checked as it stands. -/
theorem does_strokeFrameRx_whole {f : Frame} {s : State} (h : FrameIn s.d .f2h f) (ht : f.typ = 1)
    (hf : f.first = true) (ho : f.offset = 0) (hl : f.last = true) :
    Does (.strokeFrameRx f) s fun d => ∃ b t, b.asm = none ∧
      d = { s.d with bzl := b, tx := t }.checkStroke ⟨w32 f.tag, f.payload⟩ := by
  refine (does_strokeFrameRx h ht).imp ?_
  rintro d ⟨e, ⟨-, hdev, -⟩, rfl⟩
  rw [if_pos hl, joined_first hf ho]
  refine ⟨(e.assembled none).bzl, e.tx, rfl, ?_⟩
  rw [hdev]
  rfl

/-! The check of a stroke (R180). -/

theorem checkStroke_badTrailer {d : Dev} {a : Assembly} (h : tCrcOk (a.bytes.drop (a.bytes.length - 64)) = false) :
    d.checkStroke a = d.discardStroke a.tag.toNat 1 := by
  simp [Dev.checkStroke, h]

theorem checkStroke_good {d : Dev} {a : Assembly} (h64 : 64 ≤ a.bytes.length)
    (hcrc : tCrcOk (a.bytes.drop (a.bytes.length - 64)) = true)
    (hlen : a.bytes.length = tPayload (a.bytes.drop (a.bytes.length - 64)) + 64)
    (hpay : beW (crc32c (a.bytes.take (a.bytes.length - 64))) = slice (a.bytes.drop (a.bytes.length - 64)) 52 4) :
    d.checkStroke a = if tNo (a.bytes.drop (a.bytes.length - 64)) ≤ d.pages.lastIng then d.bump Reg.PAGE_DUP_CNT
      else d.ingest (a.bytes.drop (a.bytes.length - 64)) (a.bytes.take (a.bytes.length - 64)) := by
  have hn : (a.bytes.take (a.bytes.length - 64)).length = tPayload (a.bytes.drop (a.bytes.length - 64)) := by
    rw [List.length_take]
    omega
  simp only [Dev.checkStroke, hcrc, hn, hpay, Bool.not_true, Bool.false_eq_true, ne_eq, not_true_eq_false, if_false]

/-- A discarded stroke is counted and logged, and FAULT is set (R180, R181). -/
structure Discarded (d d' : Dev) (code : Nat) : Prop where
  asm : d'.bzl.asm = d.bzl.asm
  discard : d'.pages.discard = true
  fault : bit d'.hold hcFault = true
  why : bit d'.flt.why whyDiscard = true
  count : d'.rd Reg.PAGE_CRC_ERR_CNT = min 0xFFFFFFFF (d.rd Reg.PAGE_CRC_ERR_CNT + 1)
  logged : Logged d' 9 code 0
  pages : d'.pages.lastIng = d.pages.lastIng ∧ d'.pages.list = d.pages.list
  rest : d'.mode = d.mode ∧ d'.seq = d.seq ∧ d'.mot = d.mot ∧ d'.dma = d.dma

/-- A set bit reads as set. -/
theorem bit_setBit (n i : Nat) : bit (setBit n i) i = true := by
  unfold setBit
  by_cases h : bit n i = true
  · rw [if_pos h, h]
  · rw [if_neg h]
    have hmod : n / 2 ^ i % 2 = 0 := by
      simp only [bit, beq_iff_eq] at h
      omega
    have hdiv : (n + 2 ^ i) / 2 ^ i = n / 2 ^ i + 1 := Nat.add_div_right n (Nat.two_pow_pos i)
    simp only [bit, beq_iff_eq, hdiv]
    omega

/-- A cleared bit reads as clear. -/
theorem bit_clrBit (n i : Nat) : bit (clrBit n i) i = false := by
  unfold clrBit
  by_cases h : bit n i = true
  · rw [if_pos h]
    simp only [bit, beq_iff_eq] at h
    have hdiv : (n - 2 ^ i) / 2 ^ i = n / 2 ^ i - 1 := by
      simpa using Nat.sub_mul_div n (2 ^ i) 1
    simp only [bit, hdiv, beq_eq_false_iff_ne]
    omega
  · rw [if_neg h]
    exact Bool.not_eq_true _ ▸ h

theorem Discarded.of_quiet {d e d' : Dev} {code : Nat} (h : Quiet e d') (g : Discarded d e code) : Discarded d d' code where
  asm := (congrArg Bezel.asm h.bzl).trans g.asm
  discard := (congrArg Pages.discard h.pages).trans g.discard
  fault := h.hold ▸ g.fault
  why := h.flt ▸ g.why
  count := (h.words _ (by decide)).trans g.count
  logged := by
    have hlog := g.logged
    rwa [Logged, ← h.flt] at hlog
  pages := h.pages ▸ g.pages
  rest := ⟨h.mode.trans g.rest.1, h.seq.trans g.rest.2.1, h.mot.trans g.rest.2.2.1, h.dma.trans g.rest.2.2.2⟩

theorem discarded_discardStroke (d : Dev) (tag code : Nat) : Discarded d (d.discardStroke tag code) code := by
  refine Discarded.of_quiet (quiet_log _ _ _ _) ?_
  exact {
    asm := rfl
    discard := rfl
    fault := bit_setBit _ _
    why := bit_setBit _ _
    count := (Dev.rd_put_self _ _ _).trans (Nat.mod_eq_of_lt (by omega))
    logged := ⟨_, rfl, rfl, rfl, rfl⟩
    pages := ⟨rfl, rfl⟩
    rest := ⟨rfl, rfl, rfl, rfl⟩ }

/-! A stroke ingested with no job held (R180, R185). -/

/-- Requests change the channels and their counter alone. -/
def Requested (d d' : Dev) : Prop := ∃ ch regs, d' = { d with dma := ch, regs := regs }

theorem requested_request1 (d : Dev) (n : Nat) : Requested d (d.request1 n) := by
  unfold Dev.request1
  dsimp only
  split
  · exact ⟨_, _, rfl⟩
  · split <;> exact ⟨_, _, rfl⟩

theorem Requested.chain {a b c : Dev} (h : Requested a b) (g : Requested b c) : Requested a c := by
  obtain ⟨_, _, rfl⟩ := h
  obtain ⟨_, _, rfl⟩ := g
  exact ⟨_, _, rfl⟩

theorem requested_dmaRequests (d : Dev) (src n : Nat) : Requested d (d.dmaRequests src n) := by
  unfold Dev.dmaRequests
  generalize List.range 16 = l
  induction l generalizing d with
  | nil => exact ⟨_, _, rfl⟩
  | cons k l ih =>
    refine Requested.chain ?_ (ih _)
    dsimp only
    split
    · exact requested_request1 d k
    · exact ⟨_, _, rfl⟩

/-- A stroke has its number taken, and with no job held its rows are kept for the Clasp alone. -/
def Ingested (d d' : Dev) (no : Nat) : Prop :=
  ∃ framed gaps cls ch regs, d' = { d with
    bzl := { d.bzl with framed := framed }, cls := cls, dma := ch, regs := regs
    pages := { d.pages with lastIng := no, gapNext := none, gaps := gaps } }

theorem Requested.ingested {d e d' : Dev} {no : Nat} (h : Requested e d') (g : Ingested d e no) : Ingested d d' no := by
  obtain ⟨_, _, rfl⟩ := h
  obtain ⟨_, _, _, _, _, rfl⟩ := g
  exact ⟨_, _, _, _, _, rfl⟩

theorem Requested.jobHeld {d d' : Dev} (h : Requested d d') : d'.jobHeld = d.jobHeld := by
  obtain ⟨_, _, rfl⟩ := h
  rfl

theorem ingested_ingest {d : Dev} (t payload : List Byte) (h : d.jobHeld = false) :
    Ingested d (d.ingest t payload) (tNo t) := by
  unfold Dev.ingest
  dsimp only
  rw [if_pos (by rw [(requested_dmaRequests _ 2 0).jobHeld]; exact congrArg (!·) h)]
  exact (requested_dmaRequests _ 2 0).ingested ⟨_, _, _, _, _, rfl⟩

/-! The clauses. -/

/-- Staged frames go out while fewer than 64 wait for an acknowledgement. -/
theorem does_strokeFrameTx {s : State} (hup : s.d.bzl.f2h.up = true) (htx : s.d.bzl.f2h.txSeq < 65536) :
    Does .strokeFrameTx s fun d =>
      d.bzl.stage = s.d.bzl.stage.drop (64 - s.d.bzl.f2h.retry.length) ∧
      d.bzl.f2h.retry.map (·.payload) = s.d.bzl.f2h.retry.map (·.payload) ++
        (s.d.bzl.stage.take (64 - s.d.bzl.f2h.retry.length)).map (·.payload) ∧
      d.bzl.f2h.txSeq = (s.d.bzl.f2h.txSeq + min s.d.bzl.stage.length (64 - s.d.bzl.f2h.retry.length)) % 65536 ∧
      d = { s.d with bzl := d.bzl, tx := d.tx } := by
  refine does_onDev _ s (fun d => d.sendStaged d.bzl.stage.length) _ rfl ?_
  dsimp only
  rw [sendStaged_eq]
  obtain ⟨sent, hsent⟩ := wentOut_sendQueued .f2h s.d.bzl.stage.length s.d
  have htakes : (s.d.bzlLink .f2h).takes (min s.d.bzl.stage.length (s.d.queued .f2h).length) =
      min (64 - s.d.bzl.f2h.retry.length) s.d.bzl.stage.length := by
    simp only [Link.takes, Dev.bzlLink, Dev.queued, hup, if_true]
    omega
  have hstage : s.d.queued .f2h = s.d.bzl.stage := rfl
  rw [htakes, hstage, ← List.drop_eq_drop_min, ← List.take_eq_take_min] at hsent
  obtain ⟨hdev, hbody, -, hseq⟩ := hsent
  generalize hd : s.d.sendQueued .f2h s.d.bzl.stage.length = d at *
  have hpay : sent.map (·.payload) = (s.d.bzl.stage.take (64 - s.d.bzl.f2h.retry.length)).map (·.payload) := by
    have hlast := congrArg (List.map fun x => x.2.2) hbody
    rw [List.map_map, List.map_map] at hlast
    exact hlast
  refine ⟨?_, ?_, ?_, ?_⟩
  · rw [hdev]; rfl
  · rw [hdev, ← hpay]; exact List.map_append
  · have hcount := hseq htx
    rwa [List.length_take, Nat.min_comm] at hcount
  · rw [hdev]; rfl

/-- With the release of its buffers FAULT has one cause less. -/
theorem does_strokeDiscardRelease {s : State} (hs : s.d.pages.discard = true) :
    Does .strokeDiscardRelease s fun d => d.pages.discard = false ∧ bit d.flt.why whyDiscard = false ∧
      (clrBit s.d.flt.why whyDiscard = 0 → d.hold = clrBit s.d.hold hcFault) ∧
      d = { s.d with pages := { s.d.pages with discard := false }, hold := d.hold
                     flt := { s.d.flt with why := d.flt.why } } := by
  refine does_onDev _ s (fun d => if d.pages.discard then
    ({ d with pages := { d.pages with discard := false } }).clrFault whyDiscard else d) _ rfl ?_
  simp only [hs, if_true, Dev.clrFault]
  split
  · exact ⟨rfl, bit_clrBit _ _, fun _ => rfl, rfl⟩
  · next hwhy => exact ⟨rfl, bit_clrBit _ _, fun h => absurd h hwhy, rfl⟩

end Sys2Proof.Machine

/-! Its name without the namespace of the model, which has a `strokeFrames` of its own. -/

namespace Sys2Proof

open Sys2Proof.Machine

/-- Settles O29: a stroke's frames are joined by `does_strokeFrameRx`, and the whole stroke's check decides between its
discarding, its counting as a duplicate and its ingestion. -/
theorem strokeFrames : Obligations.StrokeFrames := by
  refine ⟨fun s hup _ htx => does_strokeFrameTx hup htx, fun f s h ht hf ho hl => ?_,
    fun f a s h ht ha hf htag ho hl => ?_, fun f s h ht hf ho hl h64 hcrc => ?_,
    fun f s h ht hf ho hl h64 hcrc hlen hpay => ⟨fun hdup => ?_, fun hnew hjob => ?_⟩, fun s hs => ?_⟩
  · exact does_strokeFrameRx_more h ht hl (joined_first hf ho)
  · exact does_strokeFrameRx_more h ht hl (joined_next ha hf htag ho)
  · refine (does_strokeFrameRx_whole h ht hf ho hl).imp ?_
    rintro d ⟨b, t, hasm, rfl⟩
    rw [checkStroke_badTrailer (a := ⟨w32 f.tag, f.payload⟩) hcrc]
    obtain ⟨ha, hdiscard, hfault, hwhy, hcount, hlog, ⟨hlast, hlist⟩, hmode, hseq, hmot, hdma⟩ :=
      discarded_discardStroke { s.d with bzl := b, tx := t } (w32 f.tag).toNat 1
    exact ⟨ha.trans hasm, hdiscard, hfault, hwhy, hcount, hlog, hlast, hlist, hmode, hseq, hmot, hdma⟩
  · refine (does_strokeFrameRx_whole h ht hf ho hl).imp ?_
    rintro d ⟨b, t, hasm, rfl⟩
    rw [checkStroke_good (a := ⟨w32 f.tag, f.payload⟩) h64 hcrc hlen hpay, if_pos hdup]
    exact ⟨hasm, rfl⟩
  · refine (does_strokeFrameRx_whole h ht hf ho hl).imp ?_
    rintro d ⟨b, t, hasm, rfl⟩
    rw [checkStroke_good (a := ⟨w32 f.tag, f.payload⟩) h64 hcrc hlen hpay, if_neg (Nat.not_le.mpr hnew)]
    obtain ⟨_, _, _, _, _, hdev⟩ := ingested_ingest (d := { s.d with bzl := b, tx := t })
      (f.payload.drop (f.payload.length - 64)) (f.payload.take (f.payload.length - 64)) hjob
    rw [hdev]
    exact ⟨hasm, rfl, rfl, rfl, rfl, rfl, rfl⟩
  · exact does_strokeDiscardRelease hs

end Sys2Proof
end

section
/-! PROOFS. Bezel lanes fail, retrain and return (R24 to R26, R314). -/

namespace Sys2Proof.Machine

open Sys2Proof

/-! Events leave the Bezel as it is (R77 to R80): they go by the network. -/

/-- A fold of changes that leave the Bezel as it is leaves it so. -/
theorem foldl_bzl {α : Type} {f : Dev → α → Dev} (hf : ∀ d x, (f d x).bzl = d.bzl) (l : List α) (d : Dev) :
    (l.foldl f d).bzl = d.bzl := by
  induction l generalizing d with
  | nil => rfl
  | cons x l ih => exact (ih (f d x)).trans (hf d x)

theorem resolve_bzl (d : Dev) (p : NetPort) (hop : Option Nat) : (d.resolve p hop).bzl = d.bzl := by
  unfold Dev.resolve
  split
  · rfl
  · split <;> rfl

theorem sendNow_bzl (d : Dev) (p : NetPort) (c : Nat) (o : Out) : (d.sendNow p c o).bzl = d.bzl := rfl

theorem modPort_bzl (d : Dev) (p : NetPort) (f : Port → Port) : (d.modPort p f).bzl = d.bzl := rfl

theorem send_bzl (d : Dev) (p : NetPort) (c : Nat) (o : Out) : (d.send p c o).bzl = d.bzl := by
  unfold Dev.send
  split
  · rw [sendNow_bzl, modPort_bzl, resolve_bzl]
  · rfl

theorem pump_bzl (d : Dev) (n : Nat) : (d.pump n).bzl = d.bzl := by
  unfold Dev.pump
  split
  · split
    · rfl
    · exact foldl_bzl (fun d _ => send_bzl d _ _ _) _ _
  · rfl

theorem queueEv_bzl (d : Dev) (n code op : Nat) (q : Word) (st stroke : Nat) (b : List Byte) :
    (d.queueEv n code op q st stroke b).bzl = d.bzl := by
  unfold Dev.queueEv Dev.pushEv
  split
  · rfl
  · split
    · rfl
    · exact pump_bzl _ n

theorem evAll_bzl (d : Dev) (code : Nat) (b : List Byte) : (d.evAll code b).bzl = d.bzl :=
  foldl_bzl (fun d _ => queueEv_bzl d _ _ _ _ _ _ _) _ _

theorem opDone_bzl (d : Dev) (o : LongOp) (w : Option Nat) (st id : Nat) : (d.opDone o w st id).bzl = d.bzl := by
  unfold Dev.opDone
  cases w with
  | none => exact queueEv_bzl d _ _ _ _ _ _ _
  | some n =>
    dsimp only
    split
    · rw [queueEv_bzl, queueEv_bzl]
    · exact queueEv_bzl d _ _ _ _ _ _ _

theorem endOps_bzl (d : Dev) (w : Option Nat) (p : Op → Bool) (st id : Nat) : (d.endOps w p st id).bzl = d.bzl :=
  foldl_bzl (fun d o => opDone_bzl d o w st id) _ _

/-- An entry of a fault that the host detects leaves the Bezel as it is. -/
theorem log_bzl (d : Dev) (r : FaultRec) (m n : Mode) (h : r.field = false) : (d.log r m n).bzl = d.bzl := by
  unfold Dev.log Dev.fieldEvent
  rw [if_neg (by simp [h])]
  exact evAll_bzl _ _ _

/-! The entry and the recovery of a fault (R394, R410). -/

/-- An entry is the newest of the log. -/
theorem logged_log (d : Dev) (r : FaultRec) (m n : Mode) : Logged (d.log r m n) r.cls r.code r.unit := by
  have hflt := (quiet_log d r m n).flt
  rw [Logged, hflt]
  exact ⟨_, rfl, rfl, rfl, rfl⟩

/-- A fault that does not recur is logged and a recovery of level 0 begins. -/
theorem recover_level0 {d : Dev} {r : FaultRec} (h : d.recurs r.cls r.code r.unit = none) :
    d.recover r 0 false =
      (d.log { r with action := 2 } d.mode d.leadsTo).startLevel 0 r.cls r.code r.unit d.flt.next false := by
  simp only [Dev.recover, h]
  rfl

/-- What a fault that the host detects and a recovery of level 0 answers does. -/
structure Recovers (d d' : Dev) (r : FaultRec) : Prop where
  bzl : d'.bzl = d.bzl
  logged : Logged d' r.cls r.code r.unit
  recs : ∃ x ∈ d'.flt.recs, x.level = 0 ∧ x.cls = r.cls ∧ x.unit = r.unit
  rest : Quiet { d with flt := d'.flt, regs := d'.regs } d'

theorem recovers_recover {d : Dev} {r : FaultRec} (h : d.recurs r.cls r.code r.unit = none) (hf : r.field = false) :
    Recovers d (d.recover r 0 false) r := by
  rw [recover_level0 h]
  have hq := quiet_log d { r with action := 2 } d.mode d.leadsTo
  have hbzl := log_bzl d { r with action := 2 } d.mode d.leadsTo hf
  have hlog := logged_log d { r with action := 2 } d.mode d.leadsTo
  generalize d.log { r with action := 2 } d.mode d.leadsTo = e at hq hbzl hlog ⊢
  exact {
    bzl := hbzl
    logged := hlog
    recs := ⟨_, List.mem_append_right _ (List.mem_singleton.mpr rfl), rfl, rfl, rfl⟩
    rest := { hq with
      shd := rfl, held := rfl, heldBy := rfl, com := rfl, sn := rfl, act := rfl, flt := rfl } }

/-! Lanes (R24 to R26). -/

/-- A fault of a lane leaves the links as the change before it has them. -/
theorem recovers_modLink {d : Dev} {q : Dir} {f : Link → Link} {r : FaultRec} (h : d.recurs r.cls r.code r.unit = none)
    (hf : r.field = false) :
    ((d.modLink q f).recover r 0 false).bzlLink q = f (d.bzlLink q) ∧
    ((d.modLink q f).recover r 0 false).bzlLink (otherDir q) = d.bzlLink (otherDir q) ∧
    Logged ((d.modLink q f).recover r 0 false) r.cls r.code r.unit ∧
    (∃ x ∈ ((d.modLink q f).recover r 0 false).flt.recs, x.level = 0 ∧ x.cls = r.cls ∧ x.unit = r.unit) ∧
    Quiet { d with bzl := ((d.modLink q f).recover r 0 false).bzl, flt := ((d.modLink q f).recover r 0 false).flt
                   regs := ((d.modLink q f).recover r 0 false).regs } ((d.modLink q f).recover r 0 false) := by
  have hrec : (d.modLink q f).recurs r.cls r.code r.unit = none := by cases q <;> exact h
  obtain ⟨hbzl, hlog, hrecs, hquiet⟩ := recovers_recover hrec hf
  have hlink : ∀ p, ((d.modLink q f).recover r 0 false).bzlLink p = (d.modLink q f).bzlLink p := fun p => by
    cases p
    · exact congrArg Bezel.f2h hbzl
    · exact congrArg Bezel.h2f hbzl
  refine ⟨(hlink q).trans (bzlLink_modLink_self d q f), (hlink _).trans (bzlLink_modLink_other d q f), hlog, hrecs, ?_⟩
  generalize (d.modLink q f).recover r 0 false = e at hquiet
  cases q <;> exact { hquiet with bzl := rfl }

/-- A lane of the stripe is declared bad, and a spare that fails is retrained (R24). -/
theorem laneBad_eq {d : Dev} {r : Dir} {n : Nat} (hn : n < lanesOf r) (hb : bit (d.bzlLink r).bad n = false) (e : Nat) :
    d.laneBad r n e =
      if bit (d.bzlLink r).map n then
        (d.modLink r (fun l => { l with bad := setBit l.bad n })).recover
          { cls := 2, code := 1, unit := laneUnit r n, a := e } 0 false
      else if bit (d.bzlLink r).spares n then
        (d.modLink r (fun l => { l with spares := clrBit l.spares n, retrain := setBit l.retrain n })).recover
          { cls := 2, code := 1, unit := laneUnit r n, a := e } 0 false
      else d := by
  simp only [Dev.laneBad, hb, Nat.not_le.mpr hn, Bool.false_eq_true, or_false, if_false]

/-- A change of a link is one of that link as it stands. -/
theorem modLink_congr {d : Dev} {r : Dir} {f g : Link → Link} (h : f (d.bzlLink r) = g (d.bzlLink r)) :
    d.modLink r f = d.modLink r g := by
  cases r
  · exact congrArg (fun l => { d with bzl := { d.bzl with f2h := l } }) h
  · exact congrArg (fun l => { d with bzl := { d.bzl with h2f := l } }) h

/-- The link once the spare `k` has taken the place of the bad lane `n`. -/
def Link.spared (l : Link) (n k : Nat) : Link :=
  { l with map := setBit (clrBit l.map n) k, spares := clrBit l.spares k, bad := clrBit l.bad n
           retrain := setBit l.retrain n, sub := setBit (clrBit l.sub n) k, swap := l.swap.filter (fun x => x.2 != n) }

theorem spareLane_eq {d : Dev} {r : Dir} {n k : Nat} (hk : (d.bzlLink r).spare? = some k) :
    d.spareLane r n = (d.bump Reg.PWR_BZL_SPARE_CNT).modLink r (fun l => l.spared n k) := by
  unfold Dev.spareLane
  refine modLink_congr ?_
  have hbump : (d.bump Reg.PWR_BZL_SPARE_CNT).bzlLink r = d.bzlLink r := by cases r <;> rfl
  simp only [Link.spare?] at hk ⊢
  simp only [hbump, hk]
  rfl

/-- The lowest ready spare takes the place of the one bad lane (R25). -/
theorem does_bzlLaneSpare {r : Dir} {n k : Nat} {s : State} (hbad : bitsOf (s.d.bzlLink r).bad (lanesOf r) = [n])
    (hk : (s.d.bzlLink r).spare? = some k) :
    Does (.bzlLaneSpare r) s fun d => (d.bzlLink r).map = setBit (clrBit (s.d.bzlLink r).map n) k ∧
      (d.bzlLink r).spares = clrBit (s.d.bzlLink r).spares k ∧ (d.bzlLink r).bad = clrBit (s.d.bzlLink r).bad n ∧
      bit (d.bzlLink r).retrain n = true ∧ d.bzlLink (otherDir r) = s.d.bzlLink (otherDir r) ∧
      d = { s.d.bump Reg.PWR_BZL_SPARE_CNT with bzl := d.bzl } := by
  refine does_onDev _ s (fun d => (bitsOf (d.bzlLink r).bad (lanesOf r)).foldl (fun d n => d.spareLane r n) d) _ rfl ?_
  simp only [hbad, List.foldl_cons, List.foldl_nil, spareLane_eq hk]
  cases r <;> exact ⟨rfl, rfl, rfl, bit_setBit _ _, rfl, rfl⟩

/-- The end of a recovery takes it off the list and notes it. -/
theorem recEnd_eq (d : Dev) (cls code : Nat) (unit : Option Nat) :
    ∃ recs hist, d.recEnd cls code unit = { d with flt := { d.flt with recs := recs, hist := hist } } := by
  unfold Dev.recEnd
  generalize d.flt.recs.filter _ = l
  induction l generalizing d with
  | nil => exact ⟨_, _, rfl⟩
  | cons x l ih =>
    obtain ⟨recs, hist, h⟩ := ih (d.recovered x)
    exact ⟨recs, hist, h⟩

/-- A lane's link with its retraining done and its test begun. -/
def Link.retrained (l : Link) (n : Nat) : Link := { l with retrain := clrBit l.retrain n, test := setBit l.test n }

/-- The device with a lane retrained, before the recovery of its fault ends; a planned retraining is counted. -/
def Dev.retrained (d : Dev) (r : Dir) (n : Nat) (planned : Bool) : Dev :=
  ((d.modLink r (fun l => l.retrained n)).laneTrained r n).bumpIf planned Reg.CAL_BZL_RETRAIN_CNT

theorem retrained_eq (d : Dev) (r : Dir) (n : Nat) (planned : Bool) :
    d.retrained r n planned = { d with
      bzl := (d.modLink r (fun l => l.retrained n)).bzl, regs := (d.retrained r n planned).regs
      cal := { d.cal with heads := (d.retrained r n planned).cal.heads } } := by
  cases planned <;> cases r <;> rfl

/-- The lane's word holds the temperature of its training. -/
theorem retrained_rd {d : Dev} {r : Dir} {n : Nat} (hn : n < lanesOf r) (planned : Bool) :
    (d.retrained r n planned).rd (laneWord r n) = d.laneTemp r * 65536 % 2 ^ 32 := by
  have hput : ((d.modLink r (fun l => l.retrained n)).laneTrained r n).rd (laneWord r n) =
      d.laneTemp r * 65536 % 2 ^ 32 := by
    cases r <;> exact Dev.rd_put_self _ _ _
  have hne : laneWord r n ≠ Reg.CAL_BZL_RETRAIN_CNT := by
    simp only [Reg.CAL_BZL_RETRAIN_CNT]
    cases r
    · simp only [lanesOf] at hn
      simp only [laneWord, Reg.CAL_LANE_F2H]
      omega
    · simp only [lanesOf] at hn
      simp only [laneWord, Reg.CAL_LANE_H2F]
      omega
  cases planned
  · exact hput
  · exact (Dev.rd_put_ne _ _ _ _ hne).trans hput

/-- A lane's retraining is done: its temperature is kept, and its test begins (R26). -/
theorem does_bzlLaneRetrainDone {r : Dir} {n : Nat} {s : State} (hn : n < lanesOf r)
    (hr : bit (s.d.bzlLink r).retrain n = true) :
    Does (.bzlLaneRetrainDone r n) s fun d =>
      d.bzlLink r = { s.d.bzlLink r with
        retrain := clrBit (s.d.bzlLink r).retrain n, test := setBit (s.d.bzlLink r).test n } ∧
      d.bzlLink (otherDir r) = s.d.bzlLink (otherDir r) ∧ d.mode = s.d.mode ∧ d.hold = s.d.hold ∧
      d.rf (laneWord r n) 31 16 = s.d.laneTemp r % 65536 ∧ d.flt.log = s.d.flt.log ∧
      d = { s.d with bzl := d.bzl, flt := d.flt, regs := d.regs, cal := { s.d.cal with heads := d.cal.heads } } := by
  have hexec : ∃ planned, exec (.bzlLaneRetrainDone r n) s =
      .next { s with d := (s.d.retrained r n planned).recEnd 2 1 (some (laneUnit r n)) } := by
    have hinstr : exec (.bzlLaneRetrainDone r n) s = execBzlLaneRetrainDone r n s := rfl
    rw [hinstr]
    simp only [execBzlLaneRetrainDone, State.onDev, hr, Bool.not_true, Bool.false_eq_true, if_false]
    exact ⟨_, rfl⟩
  obtain ⟨planned, hexec⟩ := hexec
  refine ⟨_, hexec, ?_⟩
  obtain ⟨recs, hist, hend⟩ := recEnd_eq (s.d.retrained r n planned) 2 1 (some (laneUnit r n))
  have hrd := retrained_rd (d := s.d) hn planned
  have hdev := retrained_eq s.d r n planned
  rw [hend]
  generalize s.d.retrained r n planned = e at hrd hdev ⊢
  have htemp : e.rf (laneWord r n) 31 16 = s.d.laneTemp r % 65536 := by
    rw [Dev.rf, hrd]
    omega
  refine ⟨?_, ?_, ?_, ?_, htemp, ?_, ?_⟩ <;> rw [hdev] <;> cases r <;> rfl

/-- Without a lane named by a commanded run nothing more is retrained. -/
theorem nextLane_done {d : Dev} {r : Dir} (h : (d.bzlLink r).todo = []) : d.nextLane r = d := by
  simp only [Dev.nextLane, h, ite_self]

theorem bezelRunCheck_none {d : Dev} (h : d.cal.run = none) : d.bezelRunCheck = d := by
  simp only [Dev.bezelRunCheck, h]

/-- A lane's link with its test done. -/
def Link.tested (l : Link) (n : Nat) (pass : Bool) : Link :=
  { l with test := clrBit l.test n, spares := if pass then setBit l.spares n else l.spares }

/-- The device with a lane tested: a lane that fails is logged. -/
def Dev.tested (d : Dev) (r : Dir) (n : Nat) : Bool → Dev
  | true => d.modLink r (fun l => l.tested n true)
  | false => (d.modLink r (fun l => l.tested n false)).logHere { cls := 2, code := 2, unit := laneUnit r n }

theorem tested_fail (d : Dev) (r : Dir) (n : Nat) : d.tested r n false =
    (d.modLink r (fun l => l.tested n false)).log { cls := 2, code := 2, unit := laneUnit r n } d.mode d.mode := by
  cases r <;> rfl

theorem tested_bzl (d : Dev) (r : Dir) (n : Nat) (pass : Bool) :
    (d.tested r n pass).bzl = (d.modLink r (fun l => l.tested n pass)).bzl := by
  cases pass
  · rw [tested_fail, log_bzl _ _ _ _ rfl]
  · rfl

theorem tested_link (d : Dev) (r : Dir) (n : Nat) (pass : Bool) :
    (d.tested r n pass).bzlLink r = (d.bzlLink r).tested n pass := by
  have hbzl := tested_bzl d r n pass
  cases r
  · exact congrArg Bezel.f2h hbzl
  · exact congrArg Bezel.h2f hbzl

theorem tested_cal (d : Dev) (r : Dir) (n : Nat) (pass : Bool) : (d.tested r n pass).cal = d.cal := by
  cases pass
  · rw [tested_fail, (quiet_log _ _ _ _).cal]
    cases r <;> rfl
  · cases r <;> rfl

/-- The test of a lane that neither a planned swap nor a commanded run waits for. -/
theorem exec_bzlLaneTestDone {r : Dir} {n : Nat} {s : State} (ht : bit (s.d.bzlLink r).test n = true)
    (htodo : (s.d.bzlLink r).todo = []) (hrun : s.d.cal.run = none) (hswap : ∀ x ∈ (s.d.bzlLink r).swap, x.1 ≠ n)
    (pass : Bool) : exec (.bzlLaneTestDone r n pass) s = .next { s with d := s.d.tested r n pass } := by
  have hnone : (s.d.bzlLink r).swap.find? (fun x => x.1 == n) = none := by
    simpa [List.find?_eq_none] using hswap
  have hkept : (s.d.bzlLink r).swap.filter (fun x => x.1 != n) = (s.d.bzlLink r).swap := by
    simpa [List.filter_eq_self] using hswap
  have htodo' : ((s.d.tested r n pass).bzlLink r).todo = [] := (congrArg Link.todo (tested_link s.d r n pass)).trans htodo
  have hrun' : (s.d.tested r n pass).cal.run = none := (congrArg Cal.run (tested_cal s.d r n pass)).trans hrun
  have hend : ((s.d.tested r n pass).nextLane r).bezelRunCheck = s.d.tested r n pass := by
    rw [nextLane_done htodo', bezelRunCheck_none hrun']
  have hinstr : exec (.bzlLaneTestDone r n pass) s = execBzlLaneTestDone r n pass s := rfl
  rw [hinstr]
  unfold execBzlLaneTestDone State.onDev
  simp only [ht, hnone, Option.map_none, Bool.not_true, Bool.false_eq_true, if_false]
  rw [modLink_congr (g := fun l => l.tested n pass)]
  · have htested : (if pass = true then s.d.modLink r fun l => l.tested n pass
        else (s.d.modLink r fun l => l.tested n pass).logHere { cls := 2, code := 2, unit := laneUnit r n }) =
        s.d.tested r n pass := by cases pass <;> rfl
    have hnamed : ((none : Option Nat) == some n) = false := rfl
    simp only [htested, htodo', List.head?_nil, hnamed, Bool.false_and, Bool.false_eq_true, if_false, hend]
  · cases pass <;> simp only [hkept] <;> rfl

/-- A lane that passes its test is a spare again, and one that fails stays out, with an entry (R26). -/
theorem does_bzlLaneTestDone {r : Dir} {n : Nat} {s : State} (ht : bit (s.d.bzlLink r).test n = true)
    (htodo : (s.d.bzlLink r).todo = []) (hrun : s.d.cal.run = none) (hswap : ∀ x ∈ (s.d.bzlLink r).swap, x.1 ≠ n) :
    Does (.bzlLaneTestDone r n true) s (fun d => d.bzlLink r = { s.d.bzlLink r with
        test := clrBit (s.d.bzlLink r).test n, spares := setBit (s.d.bzlLink r).spares n } ∧
      d = { s.d with bzl := d.bzl }) ∧
    Does (.bzlLaneTestDone r n false) s (fun d =>
      d.bzlLink r = { s.d.bzlLink r with test := clrBit (s.d.bzlLink r).test n } ∧ Logged d 2 2 (laneUnit r n) ∧
      Quiet { s.d with bzl := d.bzl, flt := d.flt } d) := by
  constructor
  · refine ⟨_, exec_bzlLaneTestDone ht htodo hrun hswap true, ?_⟩
    cases r <;> exact ⟨rfl, rfl⟩
  · refine ⟨_, exec_bzlLaneTestDone ht htodo hrun hswap false, ?_⟩
    have hlog : Logged (s.d.tested r n false) 2 2 (laneUnit r n) := by
      rw [tested_fail]
      exact logged_log _ _ _ _
    have hq : Quiet ((s.d.modLink r (fun l => l.tested n false)).logAdd { cls := 2, code := 2, unit := laneUnit r n }
        s.d.mode s.d.mode) (s.d.tested r n false) := by
      rw [tested_fail]
      exact quiet_log _ _ _ _
    refine ⟨tested_link s.d r n false, hlog, ?_⟩
    generalize s.d.tested r n false = e at hq ⊢
    cases r <;> exact { hq with bzl := rfl, flt := rfl }

/-- The lowest due lane changes places with the lowest ready spare (R314). -/
theorem does_bzlLaneTempRetrain {r : Dir} {n k : Nat} {s : State} (hauto : bit (s.d.rd Reg.CAL_CTRL) 2 = true)
    (hdue : s.d.laneDue r n = true) (hlow : ∀ m, m < n → s.d.laneDue r m = false)
    (hretrain : (s.d.bzlLink r).retrain = 0) (htest : (s.d.bzlLink r).test = 0)
    (hk : (s.d.bzlLink r).spare? = some k) :
    Does (.bzlLaneTempRetrain r n) s fun d => d.bzlLink r = { s.d.bzlLink r with
        map := setBit (clrBit (s.d.bzlLink r).map n) k, spares := clrBit (s.d.bzlLink r).spares k
        retrain := setBit 0 n, sub := setBit (clrBit (s.d.bzlLink r).sub n) k
        swap := (s.d.bzlLink r).swap ++ [(n, k)] } ∧
      d.bzlLink (otherDir r) = s.d.bzlLink (otherDir r) ∧ d = { s.d.bump Reg.PWR_BZL_SPARE_CNT with bzl := d.bzl } := by
  refine ⟨s.d.swapLane r n k, ?_, ?_⟩
  · have hall : (List.range n).all (fun m => !s.d.laneDue r m) = true := by simpa using hlow
    have hexec : exec (.bzlLaneTempRetrain r n) s = execBzlLaneTempRetrain r n s := rfl
    rw [hexec]
    simp only [execBzlLaneTempRetrain, State.onDev, hauto, hdue, hall, hretrain, htest, hk, beq_self_eq_true,
      Bool.and_self, if_true]
  · rw [← hretrain]
    cases r <;> exact ⟨rfl, rfl, rfl⟩

/-- The device without a commanded run, and with no lane left to retrain for it. -/
def Dev.lanesDropped (d : Dev) : Dev :=
  ({ d with cal := { d.cal with run := none } }.modLink .f2h (fun l => { l with todo := [] })).modLink .h2f
    (fun l => { l with todo := [] })

/-- A commanded run that waits for a spare in vain ends with TIMEOUT (R315). -/
theorem does_retrainSpareWaitTimeout {c : CalRun} {n : Nat} {t : List Nat} {s : State} (hrun : s.d.cal.run = some c)
    (hkind : c.kind = 3) (htodo : s.d.bzl.f2h.todo = n :: t) (hmap : bit s.d.bzl.f2h.map n = true)
    (hspares : s.d.bzl.f2h.spares = 0) (hretrain : s.d.bzl.f2h.retrain = 0) (htest : s.d.bzl.f2h.test = 0) :
    Does .retrainSpareWaitTimeout s fun d => d.cal.run = none ∧ d.bzl.f2h.todo = [] ∧ d.bzl.h2f.todo = [] ∧
      d.ops = s.d.ops.filter (fun o => o.op != .calRun) ∧
      Quiet { s.d with bzl := d.bzl, cal := { s.d.cal with run := none }, ops := d.ops } d := by
  have hexec : exec .retrainSpareWaitTimeout s = .next { s with
      d := s.d.lanesDropped.endOps s.d.owner (fun o => o == Op.calRun) stTimeout 0 } := by
    have hinstr : exec .retrainSpareWaitTimeout s = execRetrainSpareWaitTimeout s := rfl
    rw [hinstr]
    simp only [execRetrainSpareWaitTimeout, State.onDev, hrun, hkind, Dev.bzlLink, htodo, hmap, hspares, hretrain, htest,
      beq_self_eq_true, Bool.and_self, Bool.true_or, if_true]
    rfl
  refine ⟨_, hexec, ?_⟩
  have hq := quiet_endOps s.d.lanesDropped s.d.owner (fun o => o == Op.calRun) stTimeout 0
  have hbzl := endOps_bzl s.d.lanesDropped s.d.owner (fun o => o == Op.calRun) stTimeout 0
  generalize s.d.lanesDropped.endOps s.d.owner (fun o => o == Op.calRun) stTimeout 0 = e at hq hbzl ⊢
  refine ⟨?_, ?_, ?_, ?_, ?_⟩
  · rw [hq.cal]; rfl
  · rw [hbzl]; rfl
  · rw [hbzl]; rfl
  · rw [hq.ops]; rfl
  · exact { hq with bzl := rfl, ops := rfl }


/-- Settles O30: each clause is the lemma of its instruction; what is common to the faults of lanes is
`recovers_modLink`. -/
theorem bezelLanes : Obligations.BezelLanes := by
  refine ⟨fun r n s hn hb hrec => ⟨fun hm => ?_, fun hm hs => ?_, fun e he hm => ?_, fun e he => ?_⟩,
    fun r n k s hbad hk _ _ => does_bzlLaneSpare hbad hk, fun r n s hn hr => does_bzlLaneRetrainDone hn hr,
    fun r n s ht htodo hrun hswap => does_bzlLaneTestDone ht htodo hrun hswap,
    fun r n k s hauto hm hb hretrain htest hdue hlow hk => ?_,
    fun c n t s hrun hkind htodo hm hsp hre hte => does_retrainSpareWaitTimeout hrun hkind htodo hm hsp hre hte⟩
  · refine does_onDev _ s (fun d => d.laneBad r n 0) _ rfl ?_
    rw [laneBad_eq hn hb, if_pos hm]
    exact recovers_modLink (r := { cls := 2, code := 1, unit := laneUnit r n, a := 0 }) hrec rfl
  · refine does_onDev _ s (fun d => d.laneBad r n 0) _ rfl ?_
    rw [laneBad_eq hn hb, if_neg (by simp [hm]), if_pos hs]
    obtain ⟨hlink, -, hlog, -, hquiet⟩ :=
      recovers_modLink (r := { cls := 2, code := 1, unit := laneUnit r n, a := 0 }) hrec rfl
    exact ⟨hlink, hlog, hquiet⟩
  · refine does_onDev _ s (fun d => if d.rd Reg.PWR_BZL_DEG_N ≤ e then d.laneBad r n e else d) _ rfl ?_
    rw [if_pos he, laneBad_eq hn hb, if_pos hm]
    obtain ⟨hlink, -, hlog, -, hquiet⟩ :=
      recovers_modLink (r := { cls := 2, code := 1, unit := laneUnit r n, a := e }) hrec rfl
    exact ⟨hlink, hlog, hquiet⟩
  · exact does_onDev _ s (fun d => if d.rd Reg.PWR_BZL_DEG_N ≤ e then d.laneBad r n e else d) _ rfl
      (if_neg (Nat.not_le.mpr he))
  · refine does_bzlLaneTempRetrain hauto ?_ hlow hretrain htest hk
    simp [Dev.laneDue, hm, hb, hdue]

end Sys2Proof.Machine
end

section
/-! PROOFS. WAKE ends while a COMMIT of PWR_BOOT waits for its next Catch (R12, R435). -/

namespace Sys2Proof.Machine

open Sys2Proof

/-! The COMMIT waits. -/

/-- A COMMIT that sets PWR_BOOT to 0. -/
def bootCommit : PendCommit := ⟨[(Reg.PWR_BOOT, 0)], 1, 7⟩

/-- WAKE with no job and nothing under way, where the COMMIT of PWR_BOOT waits alone. -/
structure BootWaits (d : Dev) : Prop where
  com : d.regs.com = some bootCommit
  held : d.regs.held = []
  calHeld : d.cal.held = []
  calDue : d.cal.due = []
  run : d.cal.run = none
  mode : d.mode = .wake
  jobs : d.jobs = []
  en : d.seq.en = false
  strokes : d.strokeRuns = false
  rot : d.lamp.rot = none
  recs : d.flt.recs = []
  l3fail : d.flt.l3fail = false
  started : d.pwr.started = true

theorem BootWaits.put {d : Dev} (h : BootWaits d) (a v : Nat) : BootWaits (d.put a v) := by
  unfold Dev.put Regs.put
  split <;> exact { h with }

theorem BootWaits.setHead {d : Dev} (h : BootWaits d) (k u : Nat) (x : CalHead) : BootWaits (d.setHead k u x) := { h with }

theorem BootWaits.dropHead {d : Dev} (h : BootWaits d) (k u : Nat) : BootWaits (d.dropHead k u) := { h with }

theorem BootWaits.quiet {d d' : Dev} (h : BootWaits d) (hq : Quiet d d') : BootWaits d' where
  com := hq.com.trans h.com
  held := hq.held.trans h.held
  calHeld := hq.cal ▸ h.calHeld
  calDue := hq.cal ▸ h.calDue
  run := hq.cal ▸ h.run
  mode := hq.mode.trans h.mode
  jobs := by
    have hjobs := hq.jobs
    rwa [h.jobs, List.map_nil, List.map_eq_nil_iff] at hjobs
  en := hq.seq ▸ h.en
  strokes := by
    have hstrokes := h.strokes
    rwa [Dev.strokeRuns, ← hq.seq] at hstrokes
  rot := hq.lamp ▸ h.rot
  recs := hq.flt ▸ h.recs
  l3fail := hq.flt ▸ h.l3fail
  started := hq.pwr ▸ h.started

theorem BootWaits.foldl {α : Type} {f : Dev → α → Dev} (hf : ∀ d x, BootWaits d → BootWaits (f d x)) (l : List α)
    {d : Dev} (h : BootWaits d) : BootWaits (l.foldl f d) := by
  induction l generalizing d with
  | nil => exact h
  | cons x l ih => exact ih (hf d x h)

theorem BootWaits.recal {d : Dev} (h : BootWaits d) (k u r : Nat) : BootWaits (d.recal k u r) := by
  unfold Dev.recal
  split
  · exact h
  · refine BootWaits.quiet (BootWaits.put ?_ _ _) (quiet_evAll _ _ _)
    exact { h with }

/-- The corrections of R308 that have come into force leave it waiting. -/
theorem BootWaits.filtered {d : Dev} (h : BootWaits d) (p : HeldCorr → Bool) :
    BootWaits { d with cal := { d.cal with held := d.cal.held.filter p, due := d.cal.due.filter p } } :=
  { h with calHeld := by simp [h.calHeld], calDue := by simp [h.calDue] }

theorem BootWaits.clrValid {d : Dev} (h : BootWaits d) (v : Nat) :
    BootWaits { d with cal := { d.cal with valid := v } } := { h with }

theorem BootWaits.putUnless {d : Dev} (h : BootWaits d) (b : Bool) (a v : Nat) :
    BootWaits (if b then d else d.put a v) := by
  split
  · exact h
  · exact h.put a v

/-- The restore of WAKE leaves it waiting; with no record in the store every kind takes its default. -/
theorem BootWaits.wakeRestore {d : Dev} (h : BootWaits d) (hs : d.cal.store = []) (bad : List Nat) :
    BootWaits (d.wakeRestore bad) := by
  unfold Dev.wakeRestore
  refine BootWaits.foldl (fun d p hd => ?_) _ (BootWaits.filtered (BootWaits.foldl (fun d n hd => ?_) _ ?_) _)
  · split
    · exact { hd with }
    · exact hd.recal _ _ _
  · split
    · next r hr => simp [hs] at hr
    · exact hd.foldl (fun d g hd => hd.put _ _) _
  split
  · next r hr => simp [hs] at hr
  refine BootWaits.put (BootWaits.foldl (fun d m hd => ?_) _ ?_) _ _
  · split
    · next r hr => simp [hs] at hr
    · exact hd.clrValid _
  refine BootWaits.putUnless (BootWaits.foldl (fun d q hd => ?_) _ (BootWaits.foldl (fun d r hd => ?_) _
    (BootWaits.foldl (fun d k hd => ?_) _ h))) _ _ _
  · split
    · next r hr => simp [hs] at hr
    · refine BootWaits.dropHead (hd.foldl (fun d t hd => ?_) _) _ _
      exact ((hd.put _ _).put _ _).put _ _
  · refine hd.foldl (fun d n hd => ?_) _
    split
    · next x hx => simp [hs] at hx
    · exact hd
  · dsimp only
    split
    · next r hr => simp [hs] at hr
    · exact (hd.put _ _).setHead _ _ _

/-! The COMMIT takes effect. -/

/-- PWR_BOOT reads 0, and nothing is left to come into force. -/
structure BootZero (d : Dev) : Prop where
  rd : d.rd Reg.PWR_BOOT = 0
  held : d.regs.held = []
  calHeld : d.cal.held = []
  calDue : d.cal.due = []
  rot : d.lamp.rot = none

theorem BootZero.quiet {d d' : Dev} (h : BootZero d) (hq : Quiet d d') : BootZero d' where
  rd := (hq.words _ (by decide)).trans h.rd
  held := hq.held.trans h.held
  calHeld := hq.cal ▸ h.calHeld
  calDue := hq.cal ▸ h.calDue
  rot := hq.lamp ▸ h.rot

theorem BootZero.else {a b : Dev} {c : Bool} (hc : c = false) (h : BootZero b) : BootZero (if c then a else b) := by
  rwa [hc, if_neg (by decide)]

/-- No unit watches PWR_BOOT: a COMMIT only writes it. -/
theorem commitWord_boot (d : Dev) (v m : Nat) : d.commitWord Reg.PWR_BOOT v m =
    if maskPut (d.rd Reg.PWR_BOOT) v m = d.rd Reg.PWR_BOOT then d
    else d.put Reg.PWR_BOOT (maskPut (d.rd Reg.PWR_BOOT) v m) := by
  have htap : tapOf Reg.PWR_BOOT = none := by decide
  have hchannel : channelOf Reg.PWR_BOOT = none := by decide
  have hout : headOfOut Reg.PWR_BOOT = none := by decide
  have hctrl : headOfCtrl Reg.PWR_BOOT = none := by decide
  have hmon : ∀ e : Dev, e.monChanged Reg.PWR_BOOT = e := fun e => rfl
  have hgroup : (List.range 4).find? (fun g => Reg.MOT_G_CFG g == Reg.PWR_BOOT) = none := by decide
  have haxis : (List.range 12).find? (fun x => Reg.MOT_A_CFG x == Reg.PWR_BOOT) = none := by decide
  simp only [Dev.commitWord, Dev.tapChanged, Dev.tableChanged, Dev.outChanged, Dev.headEnabled, Dev.motChanged, htap,
    hchannel, hout, hctrl, hmon, hgroup, haxis, ite_self]

/-- The COMMIT changes PWR_BOOT, and then it reads 0. -/
theorem commitWord_bootZero (d : Dev) : ∃ act,
    d.commitWord Reg.PWR_BOOT 0 0xFFFFFFFF = { d with regs := { d.regs with act := act } } ∧
    (d.commitWord Reg.PWR_BOOT 0 0xFFFFFFFF).rd Reg.PWR_BOOT = 0 := by
  have hzero : maskPut (d.rd Reg.PWR_BOOT) 0 0xFFFFFFFF = 0 := by simp [maskPut]
  rw [commitWord_boot, hzero]
  split
  · next h => exact ⟨_, rfl, h.symm⟩
  · exact ⟨_, rfl, Dev.rd_put_self _ _ _⟩

theorem seqChanged_same (d : Dev) : d.seqChanged (d.rd Reg.SEQ_CTRL) = d := by
  unfold Dev.seqChanged
  dsimp only
  rw [if_neg (by omega), if_neg (by omega)]

/-- PWR_BOOT has no image bits and belongs to no chain. -/
theorem takeCommit_boot (d : Dev) :
    d.takeCommit false bootCommit.vals = d.commitWord Reg.PWR_BOOT 0 0xFFFFFFFF := by
  have hmask : imageMask Reg.PWR_BOOT = 0 := by decide
  have himage : d.imagePart bootCommit.vals = [] := by simp [Dev.imagePart, bootCommit, hmask]
  have hchain : chainOf Reg.PWR_BOOT = none := by decide
  have hchains : d.chainsChanged bootCommit.vals = [] := by
    rw [Dev.chainsChanged, List.filterMap_eq_nil_iff.mpr]
    · rfl
    · intro p hp
      rw [List.mem_singleton.mp (List.mem_of_mem_filter hp)]
      exact hchain
  have hseq : (d.commitWord Reg.PWR_BOOT 0 0xFFFFFFFF).rd Reg.SEQ_CTRL = d.rd Reg.SEQ_CTRL := by
    rw [commitWord_boot]
    split
    · rfl
    · exact Dev.rd_put_ne _ _ _ _ (by decide)
  have hfold : bootCommit.vals.foldl (fun (d : Dev) p => d.commitWord p.1 p.2.toNat (0xFFFFFFFF ^^^ imageMask p.1)) d =
      d.commitWord Reg.PWR_BOOT 0 0xFFFFFFFF := by
    simp only [bootCommit, List.foldl_cons, List.foldl_nil, hmask]
    rfl
  simp only [Dev.takeCommit, himage, hchains, hfold, List.foldl_nil]
  rw [← hseq, seqChanged_same]
  rfl

theorem jobHeld_none {d : Dev} (h : d.jobs = []) : d.jobHeld = false := by
  simp [Dev.jobHeld, Dev.job?, h]

/-- The COMMIT comes into force. -/
theorem forceCommit_boot {d : Dev} (hc : d.regs.com = some bootCommit) (hj : d.jobs = []) (hr : d.cal.run = none) :
    ∃ act hb, d.forceCommit true =
        { d with regs := { d.regs with com := none, comDue := false, act := act, heldBy := hb } } ∧
      (d.forceCommit true).rd Reg.PWR_BOOT = 0 := by
  have hshut : (true && d.jobHeld || d.imageClosed) = false := by
    simp [Dev.imageClosed, Dev.runHolds, jobHeld_none hj, hr]
  obtain ⟨act, hact, hrd⟩ := commitWord_bootZero { d with regs := { d.regs with com := none, comDue := false } }
  simp only [Dev.forceCommit, hc, hshut, takeCommit_boot, hact]
  rw [hact] at hrd
  exact ⟨_, _, rfl, hrd⟩

/-- Disabling Catches brings the COMMIT into force. -/
theorem BootWaits.catchOff {d : Dev} (h : BootWaits d) :
    BootZero (d.catchOff false) ∧ (d.catchOff false).mode = .wake := by
  have hoff : d.catchOff false = ({ d with regs := { d.regs with comDue := true } }).commitDue := by
    simp [Dev.catchOff, Dev.catchDis, h.en, h.com]
  have hstrokes : ({ d with regs := { d.regs with comDue := true } } : Dev).strokeRuns = false := h.strokes
  obtain ⟨act, hb, hforce, hrd⟩ := forceCommit_boot (d := { d with regs := { d.regs with comDue := true } }) h.com h.jobs
    h.run
  have hdue : ({ d with regs := { d.regs with comDue := true } } : Dev).commitDue =
      (({ d with regs := { d.regs with comDue := true } } : Dev).forceCommit true).settleCommits 0 := by
    simp only [Dev.commitDue, hstrokes, Bool.not_false, Bool.and_self, if_true]
    rw [jobHeld_none (by rw [hforce]; exact h.jobs)]
    rfl
  rw [hoff, hdue]
  have hq := quiet_settleCommits (({ d with regs := { d.regs with comDue := true } } : Dev).forceCommit true) 0
  rw [hforce] at hrd hq ⊢
  refine ⟨BootZero.quiet ?_ hq, hq.mode.trans h.mode⟩
  exact { rd := hrd, held := h.held, calHeld := h.calHeld, calDue := h.calDue, rot := h.rot }

theorem BootZero.setMode {d : Dev} (h : BootZero d) (hm : d.mode = .wake) : BootZero (d.setMode .idle) := by
  obtain ⟨e, he, hset⟩ := setMode_eq d .idle (by rw [hm]; decide)
  obtain ⟨hdriven, -⟩ := entered_eq d .idle
  have hrot : d.rotAbandon = d := by simp only [Dev.rotAbandon, h.rot]
  rw [hrot, hm] at hdriven
  have hentered : BootZero (d.entered .idle) := by
    rw [hdriven]
    exact { h with }
  have hcancel : BootZero ((e.cancelStart (d.opRuns (fun o => o == .scanStart)) .idle).forgetStop .idle) := by
    rw [forgetStop_eq, cancelStart_eq]
    have hkept : BootZero e := by
      refine BootZero.quiet ?_ he
      exact { hentered with }
    exact { hkept with }
  exact hcancel.quiet hset

/-- Nothing is held that the entry to IDLE could release. -/
theorem BootZero.releaseHeld {d : Dev} (h : BootZero d) : BootZero d.releaseHeld := by
  unfold Dev.releaseHeld
  simp only [h.held, h.calHeld, h.calDue, List.filter_nil, List.append_nil, List.foldl_nil, Dev.applyCorrs, List.map_nil,
    List.isEmpty_nil, if_true]
  refine BootZero.quiet ?_ (quiet_settleCommits _ _)
  exact { h with held := rfl, calHeld := rfl, calDue := rfl }

theorem BootWaits.toIdle {d : Dev} (h : BootWaits d) : BootZero d.toIdle := by
  obtain ⟨hzero, hmode⟩ := h.catchOff
  have hidle := hzero.setMode hmode
  have hleft : BootZero ((d.catchOff false).setMode .idle).feedLeft := { hidle with }
  exact hleft.releaseHeld

/-- WAKE ends in IDLE, with the COMMIT in force. -/
theorem BootWaits.wakeEnd {d : Dev} (h : BootWaits d) : BootZero d.wakeEnd := by
  unfold Dev.wakeEnd
  simp only [h.recs, h.l3fail, h.started, List.filter_nil, List.foldl_nil, Bool.false_eq_true, if_false, if_true]
  refine BootZero.else (jobHeld_none h.jobs) (BootWaits.toIdle (BootWaits.put ?_ _ _))
  exact { h with l3fail := rfl, recs := rfl }

/-! The refutation. -/

/-- WAKE with no job, where the COMMIT of PWR_BOOT waits. -/
def wakeWaiting : State := { d := { mode := .wake, pwr := { started := true }, regs := { com := some bootCommit } } }

/-- A full training of one lane each way. -/
def fullTraining : Training := { full := true, f2h := 1, h2f := 1, lat := 0 }

/-- WAKE_COMPLETE before the restore, where no crystal has failed: the link trained, PWR_BOOT written, the converters up. -/
def Dev.trained (d : Dev) (t : Training) : Dev :=
  ((((d.linkTrained t).startClocks.putF Reg.PWR_BOOT 3 3 (b2n t.full)).freshPositions).convertersUp).clrHold hcLink

/-- WAKE_COMPLETE after the restore, up to the change of mode. -/
def Dev.restored (d : Dev) (t : Training) : Dev :=
  let e := (d.wakeRestore t.badRecs).put Reg.CAL_EPOCH_NEXT (d.wakeRestore t.badRecs).cal.block
  { e with lamp := { e.lamp with chains := e.lamp.chains.map (fun (c : Chain) => { c with diagN := 0, gate := [] }) } }

theorem exec_wakeComplete {s : State} {t : Training}
    (hgo : (s.d.mode != .wake || t.f2h % 2 ^ 24 == 0 || t.h2f % 16 == 0) = false)
    (hrec : ((s.d.linkTrained t).startClocks.putF Reg.PWR_BOOT 3 3 (b2n t.full)).flt.fieldRec = none)
    (hl3 : (s.d.trained t).flt.l3run = false) :
    exec (.wakeComplete t) s = .next { s with d := ((s.d.trained t).restored t).wakeEnd } := by
  have hinstr : exec (.wakeComplete t) s = execWakeComplete t s := rfl
  simp only [Dev.trained] at hl3
  rw [hinstr]
  simp only [execWakeComplete, State.onDev, hgo, hrec, hl3, Option.isSome_none, Bool.false_eq_true, if_false]
  rfl

theorem BootWaits.restored {d : Dev} (h : BootWaits d) (hs : d.cal.store = []) (t : Training) : BootWaits (d.restored t) := by
  have hput := (h.wakeRestore hs t.badRecs).put Reg.CAL_EPOCH_NEXT (d.wakeRestore t.badRecs).cal.block
  exact { hput with }

theorem wakeTrained_waits : BootWaits (wakeWaiting.d.trained fullTraining) :=
  ⟨by decide +kernel, by decide +kernel, by decide +kernel, by decide +kernel, by decide +kernel, by decide +kernel,
   by decide +kernel, by decide +kernel, by decide +kernel, by decide +kernel, by decide +kernel, by decide +kernel,
   by decide +kernel⟩

theorem wakeTrained_store : (wakeWaiting.d.trained fullTraining).cal.store = [] := by decide +kernel

/-- The COMMIT takes effect as IDLE is entered, after PWR_BOOT has been written. -/
theorem exec_wakeWaiting : ∃ d, exec (.wakeComplete fullTraining) wakeWaiting = .next { wakeWaiting with d := d } ∧
    d.rd Reg.PWR_BOOT = 0 := by
  exact ⟨_, exec_wakeComplete (by decide) (by decide +kernel) (by decide +kernel),
    (wakeTrained_waits.restored wakeTrained_store _).wakeEnd.rd⟩

/-- Refutes O54: the clause on WAKE_COMPLETE has bit 3 of PWR_BOOT tell a full training. IDLE is entered after that word
has been written, and a COMMIT that waited takes effect there (R12); one that names PWR_BOOT overwrites it. The statement
admits such a COMMIT, though PARAM_WRITE never stages an RO word. -/
theorem not_bootAndWake : ¬ Obligations.BootAndWake := by
  rintro ⟨-, -, -, hwake, -⟩
  obtain ⟨d, hd, -, -, -, hfull, -⟩ := hwake fullTraining wakeWaiting rfl (by decide) (by decide)
  obtain ⟨e, he, hzero⟩ := exec_wakeWaiting
  have hsame : d = e := by
    have hnext := Host.Outcome.next.inj (hd.symm.trans he)
    exact congrArg State.d hnext
  rw [hsame, hzero] at hfull
  exact absurd hfull (by decide)

end Sys2Proof.Machine
end

section
/-! PROOFS. A step runs the front of the queue (R82). -/

namespace Sys2Proof.Machine

open Sys2Proof

/-- Settles O1: with a command waiting, `step` is `exec` of the first one on the rest of the queue. -/
theorem stepRunsFront : Obligations.StepRunsFront := fun _ _ _ => rfl

end Sys2Proof.Machine
end

section
/-! PROOFS. PING and SESSION_OPEN while the runtime restarts (R62, R53, R393). -/

namespace Sys2Proof.Machine

open Sys2Proof

/-- A request without a session. -/
def sessionlessReq : Req := ⟨⟨0, 0⟩, .eth0, 0, 7, 2, 0, false⟩

/-- IDLE while the runtime restarts after a fault of its core pair: a recovery of level 1 is under way. -/
def runtimeRestarting : State :=
  { d := { mode := .idle, flt := { recs := [⟨1, 0xE, 1, 0, false, 1, 0⟩] } } }

/-- The restart completes before a PING is answered. -/
theorem runtimeRestarting_ping :
    readAfter (.ping sessionlessReq []) runtimeRestarting (fun d => d.flt.recs) = some [] := by decide +kernel

/-- The restart completes before a SESSION_OPEN is answered. -/
theorem runtimeRestarting_sessionOpen :
    readAfter (.sessionOpen sessionlessReq 0 0 0) runtimeRestarting (fun d => d.flt.recs) = some [] := by decide +kernel

/-- Refutes O6: the first clause has PING change nothing, and unlike the other clauses it does not ask that the runtime
is not restarting. A PING that arrives during a restart lets it complete first (R393, log 194): the recovery ends. -/
theorem not_readOnlyRequests : ¬ Obligations.ReadOnlyRequests := by
  rintro ⟨hping, -⟩
  obtain ⟨d, ⟨hquiet, -⟩, hrecs⟩ :=
    (hping sessionlessReq [] runtimeRestarting rfl rfl rfl rfl rfl rfl).readAfter runtimeRestarting_ping
  rw [hquiet.flt] at hrecs
  exact absurd hrecs (List.cons_ne_nil _ _)

/-- Refutes O7: the first clause keeps the fault block over SESSION_OPEN, and its premises allow a restart of the
runtime. One that is under way completes before the session opens (R393, log 194): the recovery ends. -/
theorem not_sessionOpens : ¬ Obligations.SessionOpens := by
  intro hall
  obtain ⟨hopen, -, -⟩ := hall sessionlessReq 0 0 1 runtimeRestarting rfl rfl rfl rfl rfl rfl rfl rfl
  obtain ⟨d, ⟨-, -, -, -, -, -, -, -, -, -, -, -, -, -, -, hflt, -⟩, hrecs⟩ :=
    hopen.readAfter runtimeRestarting_sessionOpen
  rw [hflt] at hrecs
  exact absurd hrecs (List.cons_ne_nil _ _)

end Sys2Proof.Machine
end

section
/-! PROOFS. The event queue and the reply cache (R56, R79). -/

namespace Sys2Proof.Machine

open Sys2Proof

/-- The sessions after a change of one of them. -/
theorem modSes_ses? (d : Dev) (n m : Nat) (f : Session → Session) :
    (d.modSes n f).ses? m = if m = n then (d.ses? n).map f else d.ses? m := aget_amod _ _ _ _

/-! Sending (R362, R367). -/

/-- A message that can be sent goes out behind what resolves its next hop. -/
theorem send_tx {d : Dev} {p : NetPort} {c : Nat} (h : d.canSend p c = true) (o : Out) :
    (d.send p c o).tx = o :: d.resolved p o := by
  unfold Dev.send
  rw [if_pos h]
  rfl

/-! The pump (R80). -/

/-- A session once its oldest 16 events have been sent. -/
def Session.pumped (x : Session) : Session :=
  { x with evq := (x.evq.take 16).map (fun e => { e with sent := true }) ++ x.evq.drop 16 }

theorem pumped_seqs (x : Session) : x.pumped.evq.map (fun e => e.seq) = x.evq.map (fun e => e.seq) := by
  have hmark : (x.evq.take 16).map ((fun e : Ev => e.seq) ∘ fun e => { e with sent := true }) =
      (x.evq.take 16).map (fun e => e.seq) := rfl
  rw [Session.pumped, List.map_append, List.map_map, hmark, ← List.map_append, List.take_append_drop]

theorem pump_ses? {d : Dev} {n : Nat} {x : Session} (hs : d.served = true) (hx : d.ses? n = some x) (m : Nat) :
    (d.pump n).ses? m = if m = n then some x.pumped else d.ses? m := by
  have hget : aget d.sess n = some x := hx
  have hsess : (d.pump n).sess = (d.modSes n Session.pumped).sess := by
    simp only [Dev.pump, hs, hget, if_true]
    exact foldl_sess _ (fun d _ => send_sess d _ _ _) _ _
  have hses := modSes_ses? d n m Session.pumped
  rw [hx] at hses
  rw [Dev.ses?, hsess]
  exact hses

/-! EVENT_ACK (R79). -/

/-- A session without the event that an acknowledgement of `q` is for. -/
def Session.acked (x : Session) (q : Word) : Session :=
  { x with evq := x.evq.filter (fun e => !(e.sent && e.seq == q)) }

/-- The device once an acknowledgement has taken its event off the queue. -/
def Dev.acknowledged (d : Dev) (h : Req) : Dev := (d.valid h).modSes h.session fun x => x.acked h.seq

/-- A session with no lost events has none to report. -/
theorem reportLost_none {d : Dev} {n : Nat} {x : Session} (hx : d.ses? n = some x) (hl : x.evLost = 0) :
    d.reportLost n = d := by
  simp [Dev.reportLost, hx, hl]

section Acknowledgement
variable {d : Dev} {h : Req} {x : Session} (hx : d.ses? h.session = some x)
include hx

theorem acknowledged_ses? : (d.acknowledged h).ses? h.session =
    some (Session.acked { x with port := h.port, openLive := false } h.seq) := by
  simp [Dev.acknowledged, Dev.valid, modSes_ses?, hx]

/-- With no lost events to report, an acknowledgement takes its event off the queue and sends what may follow. -/
theorem ackEvent_eq (he : h.src = x.ep) (hl : x.evLost = 0) :
    d.ackEvent h true = (d.acknowledged h).pump h.session := by
  have hlost : (d.acknowledged h).reportLost h.session = d.acknowledged h := reportLost_none (acknowledged_ses? hx) hl
  simp only [Dev.ackEvent, hx, he, ne_eq, not_true_eq_false, if_false, Bool.not_true, Bool.false_eq_true]
  exact congrArg (fun e : Dev => e.pump h.session) hlost

/-- The sessions after an acknowledgement. -/
theorem ackEvent_ses? (hs : d.served = true) (he : h.src = x.ep) (hl : x.evLost = 0) (m : Nat) :
    (d.ackEvent h true).ses? m =
      if m = h.session then some (Session.pumped (Session.acked { x with port := h.port, openLive := false } h.seq))
      else d.ses? m := by
  have hserved : (d.acknowledged h).served = true := hs
  rw [ackEvent_eq hx he hl, pump_ses? hserved (acknowledged_ses? hx)]
  split
  · rfl
  · next hm => simp only [Dev.acknowledged, Dev.valid, modSes_ses?, if_neg hm]

theorem quiet_ackEvent (he : h.src = x.ep) (hl : x.evLost = 0) : Quiet d (d.ackEvent h true) := by
  rw [ackEvent_eq hx he hl]
  exact ((quiet_valid d h).chain (quiet_modSes _ h.session (fun x => x.acked h.seq) fun _ => rfl)).chain
    (quiet_pump _ _)

end Acknowledgement

/-- EVENT_ACK takes the acknowledged event off its session's queue. -/
theorem does_eventAck (h : Req) (x : Session) (s : State) (hs : s.d.served = true) (hx : s.d.ses? h.session = some x)
    (he : h.src = x.ep) (hv : h.rsv = false) (hl : x.evLost = 0) :
    Does (.eventAck h) s fun d => Quiet s.d d ∧
      (∃ y, d.ses? h.session = some y ∧ y.cache = x.cache ∧
        y.evq.map (fun e => e.seq) = (x.evq.filter (fun e => !(e.sent && e.seq == h.seq))).map (fun e => e.seq)) ∧
      ∀ m, m ≠ h.session → d.ses? m = s.d.ses? m := by
  have hexec : exec (.eventAck h) s =
      .next { s with d := (s.d.bump (Reg.NET_P_RX_FRAME_CNT (portIx h.port))).ackEvent h true } := by
    have hexec : exec (.eventAck h) s = execEventAck h s := rfl
    simp [hexec, execEventAck, State.onDev, hs, hv]
  have hses := ackEvent_ses? (d := s.d.bump (Reg.NET_P_RX_FRAME_CNT (portIx h.port))) hx hs he hl
  exact ⟨_, hexec, (quiet_bump _ _ (netRx_page _)).chain (quiet_ackEvent hx he hl),
    ⟨_, (hses _).trans (if_pos rfl), rfl, pumped_seqs _⟩, fun m hm => (hses m).trans (if_neg hm)⟩

/-- EVENT_RESEND sends the event's packet again. -/
theorem does_eventResend (n : Nat) (q : Word) (x : Session) (e : Ev) (s : State) (hs : s.d.served = true)
    (hx : s.d.ses? n = some x) (he : x.evq.find? (fun e => e.sent && e.seq == q) = some e) :
    Does (.eventResend n q) s fun d => Quiet s.d d ∧ d.sess = s.d.sess ∧
      (s.d.canSend x.port 1 = true → d.tx = .skm x.ep x.port (e.packet n) ::
        s.d.resolved x.port (.skm x.ep x.port (e.packet n))) := by
  have hexec : exec (.eventResend n q) s =
      .next { s with d := s.d.send x.port 1 (.skm x.ep x.port (e.packet n)) } := by
    have hexec : exec (.eventResend n q) s = execEventResend n q s := rfl
    simp [hexec, execEventResend, State.onDev, hs, hx, he]
  exact ⟨_, hexec, quiet_send _ _ _ _, send_sess _ _ _ _, fun hc => send_tx hc _⟩

/-- REPLY_CACHE_EXPIRE changes one session, by the reply it forgets. -/
theorem does_replyCacheExpire (n : Nat) (q : Word) (s : State) :
    Does (.replyCacheExpire n q) s fun d => d = { s.d with sess := d.sess } ∧
      (∀ m, m ≠ n → d.ses? m = s.d.ses? m) ∧
      d.ses? n = (s.d.ses? n).map fun x =>
        { x with cache := x.cache.filter (fun c => c.seq != q), openLive := x.openLive && x.openSeq != q } :=
  ⟨_, rfl, rfl, fun m hm => (modSes_ses? s.d n m _).trans (if_neg hm), (modSes_ses? s.d n n _).trans (if_pos rfl)⟩

/-- Settles O9: each of the three changes one session's queue or cache, and what it sends is quiet. -/
theorem eventsAndReplies : Obligations.EventsAndReplies :=
  ⟨does_eventAck, does_eventResend, does_replyCacheExpire⟩

end Sys2Proof.Machine
end

section
/-! PROOFS. Sessions end (R54, R55, R78, R371). -/

namespace Sys2Proof.Machine

open Sys2Proof

/-! Words that sending and events leave alone (R78, R362). -/

theorem foldl_rd {α : Type} {a : Nat} {f : Dev → α → Dev} (hf : ∀ d x, (f d x).rd a = d.rd a) (l : List α) (d : Dev) :
    (l.foldl f d).rd a = d.rd a := by
  induction l generalizing d with
  | nil => rfl
  | cons x l ih => exact (ih (f d x)).trans (hf d x)

section Uncounted
variable {a : Nat} (htx : ∀ p : NetPort, a ≠ Reg.NET_P_TX_FRAME_CNT (portIx p))
include htx

theorem sendNow_rd (d : Dev) (p : NetPort) (c : Nat) (o : Out) : (d.sendNow p c o).rd a = d.rd a :=
  Dev.rd_put_ne (d.emit o) _ a _ (htx p)

theorem resolve_rd (d : Dev) (p : NetPort) (hop : Option Nat) : (d.resolve p hop).rd a = d.rd a := by
  unfold Dev.resolve
  split
  · rfl
  · split
    · rfl
    · exact sendNow_rd htx d p 1 _

theorem send_rd (d : Dev) (p : NetPort) (c : Nat) (o : Out) : (d.send p c o).rd a = d.rd a := by
  unfold Dev.send
  split
  · exact (sendNow_rd htx _ p c o).trans (resolve_rd htx d p _)
  · rfl

theorem pump_rd (d : Dev) (n : Nat) : (d.pump n).rd a = d.rd a := by
  unfold Dev.pump
  split
  · split
    · rfl
    · exact foldl_rd (fun d _ => send_rd htx d _ _ _) _ _
  · rfl

variable (hlost : a ≠ Reg.NET_SKM_EVT_LOST_CNT)
include hlost

theorem pushEv_rd (d : Dev) (n : Nat) (e : Ev) : (d.pushEv n e).rd a = d.rd a := by
  unfold Dev.pushEv
  split
  · rfl
  · split
    · exact Dev.rd_put_ne (d.modSes n _) _ a _ hlost
    · exact pump_rd htx _ n

/-- An entry of a fault that the host detects moves no word but the counters of frames sent and of events lost. -/
theorem log_rd (d : Dev) (r : FaultRec) (m n : Mode) (hf : r.field = false) : (d.log r m n).rd a = d.rd a := by
  unfold Dev.log Dev.fieldEvent
  rw [if_neg (by simp [hf])]
  exact foldl_rd (fun d _ => pushEv_rd htx hlost d _ _) _ (d.logAdd r m n)

end Uncounted

/-! What quiet changes keep of sessions and jobs. -/

theorem Quiet.ses_base {d d' : Dev} (h : Quiet d d') (n : Nat) :
    (d'.ses? n).map Session.base = (d.ses? n).map Session.base := by
  simpa only [Dev.ses?, aget_map] using congrArg (aget · n) h.sess

theorem Quiet.ses_none {d d' : Dev} (h : Quiet d d') {n : Nat} (hn : d.ses? n = none) : d'.ses? n = none := by
  have hbase := h.ses_base n
  rwa [hn, Option.map_none, Option.map_eq_none_iff] at hbase

theorem Quiet.owners {d d' : Dev} (h : Quiet d d') : d'.jobs.map Job.owner = d.jobs.map Job.owner := by
  have hbase : Job.owner ∘ Job.base = Job.owner := rfl
  simpa only [List.map_map, hbase] using congrArg (List.map Job.owner) h.jobs

theorem Quiet.jobs_length {d d' : Dev} (h : Quiet d d') : d'.jobs.length = d.jobs.length := by
  simpa using congrArg List.length h.jobs

/-! The slot is free (R54, R55). -/

section Free
variable (d : Dev) (n : Nat)

theorem freeSession_ses? (m : Nat) : (d.freeSession n).ses? m = if m = n then none else d.ses? m := aget_adel _ _ _

theorem freeSession_owners : some n ∉ (d.freeSession n).jobs.map Job.owner := by
  simp only [Dev.freeSession, List.map_map, List.mem_map, not_exists, not_and]
  intro j _
  simp only [Function.comp]
  split
  · exact fun hnone => nomatch hnone
  · assumption

theorem freeSession_jobs_length : (d.freeSession n).jobs.length = d.jobs.length := List.length_map _

theorem freeSession_qp : ((d.freeSession n).qp n).st = 0 := by
  simp [Dev.freeSession, Dev.qp]

end Free

/-- What the end of session `n` leaves of the device, whichever way it ends (R54, R55, R371). -/
structure SlotFreed (d d' : Dev) (n : Nat) : Prop where
  closed : d'.ses? n = none
  owners : ∀ j ∈ d'.jobs, j.owner ≠ some n
  jobs : d'.jobs.length = d.jobs.length
  qp : (d'.qp n).st = 0
  words : ∀ a, a / 65536 ≠ 12 → d'.rd a = d.rd a
  mode : d'.mode = d.mode
  hold : d'.hold = d.hold
  seq : d'.seq = d.seq
  tim : d'.tim = d.tim
  fsram : d'.fsram = d.fsram

/-- A session ends after quiet changes. -/
theorem slotFreed_freeSession {d d' : Dev} (h : Quiet d d') (n : Nat) : SlotFreed d (d'.freeSession n) n where
  closed := (freeSession_ses? d' n n).trans (if_pos rfl)
  owners _ hj ho := freeSession_owners d' n (ho ▸ List.mem_map_of_mem hj)
  jobs := (freeSession_jobs_length d' n).trans h.jobs_length
  qp := freeSession_qp d' n
  words := h.words
  mode := h.mode
  hold := h.hold
  seq := h.seq
  tim := h.tim
  fsram := h.fsram

/-- Quiet changes after the end of a session keep its slot free. -/
theorem SlotFreed.quiet {d e d' : Dev} {n : Nat} (h : SlotFreed d e n) (hq : Quiet e d') : SlotFreed d d' n where
  closed := hq.ses_none h.closed
  owners j hj ho := by
    have hmem : some n ∈ e.jobs.map Job.owner := hq.owners ▸ ho ▸ List.mem_map_of_mem hj
    obtain ⟨i, hi, hio⟩ := List.mem_map.mp hmem
    exact h.owners i hi hio
  jobs := hq.jobs_length.trans h.jobs
  qp := by rw [Dev.qp, hq.qps]; exact h.qp
  words a ha := (hq.words a ha).trans (h.words a ha)
  mode := hq.mode.trans h.mode
  hold := hq.hold.trans h.hold
  seq := hq.seq.trans h.seq
  tim := hq.tim.trans h.tim
  fsram := hq.fsram.trans h.fsram

/-! SESSION_CLOSE (R55). -/

/-- A request that reaches its opcode's own checks, counted, with the session's port set. -/
def Dev.arrived (d : Dev) (h : Req) : Dev :=
  ((d.bump (Reg.NET_P_RX_FRAME_CNT (portIx h.port))).valid h).bump Reg.NET_SKM_RX_CNT

theorem serveThen_arrived {d : Dev} {h : Req} (hr : Ready h d) (op : Nat) (k : Dev → Answer) (post : Nat → Dev → Dev) :
    d.serveThen h op k post =
      post (k (d.arrived h)).1 (if (k (d.arrived h)).1 = stLater then (k (d.arrived h)).2.2
        else (k (d.arrived h)).2.2.answer h op (k (d.arrived h)).1 (k (d.arrived h)).2.1) := by
  obtain ⟨hs, hw, h0, h2, hb, hv, x, hx, he, hc⟩ := hr
  have hx' : (d.bump (Reg.NET_P_RX_FRAME_CNT (portIx h.port))).ses? h.session = some x := hx
  simp only [Dev.serveThen, Dev.notRequest, hs, runtimeBack_none d hw, h0, h2, hx', he, hb, hc, hv]
  simp only [ne_eq, not_true_eq_false, Bool.not_true, Bool.false_eq_true, if_false]
  rfl

/-- Sessions other than the requester's stay as they are over an answer. -/
theorem answer_ses_ne (d : Dev) {h : Req} (op st : Nat) (b : List Byte) {m : Nat} (hm : m ≠ h.session) :
    (d.answer h op st b).ses? m = d.ses? m := by
  rw [Dev.ses?, answer_sess, aget_amod, if_neg hm, Dev.ses?]

theorem arrived_ses_ne (d : Dev) {h : Req} {m : Nat} (hm : m ≠ h.session) : (d.arrived h).ses? m = d.ses? m := by
  have hvalid : (d.arrived h).ses? m = (d.valid h).ses? m := rfl
  rw [hvalid, Dev.valid, modSes_ses?, if_neg hm]

/-- The session is answered, and then its slot is free. -/
theorem exec_sessionClose {h : Req} {s : State} (hr : Ready h s.d) :
    exec (.sessionClose h) s =
      .next { s with d := ((s.d.arrived h).answer h 3 stOk []).freeSession h.session } := by
  have hexec : exec (.sessionClose h) s = execSessionClose h s := rfl
  rw [hexec, execSessionClose, State.onDev, serveThen_arrived hr]
  rfl

theorem does_sessionClose (h : Req) (s : State) (hr : Ready h s.d) :
    Does (.sessionClose h) s fun d =>
      d.ses? h.session = none ∧ (∀ m, m ≠ h.session → d.ses? m = s.d.ses? m) ∧
      (∀ j ∈ d.jobs, j.owner ≠ some h.session) ∧ d.jobs.length = s.d.jobs.length ∧ (d.qp h.session).st = 0 ∧
      (∀ a, a / 65536 ≠ 12 → d.rd a = s.d.rd a) ∧
      d.mode = s.d.mode ∧ d.hold = s.d.hold ∧ d.seq = s.d.seq ∧ d.tim = s.d.tim ∧ d.flt = s.d.flt ∧
      d.fsram = s.d.fsram := by
  have hquiet : Quiet s.d ((s.d.arrived h).answer h 3 stOk []) := (quiet_arrived s.d h).chain (quiet_answer _ _ _ _ _)
  have hfree := slotFreed_freeSession hquiet h.session
  refine ⟨_, exec_sessionClose hr, hfree.closed, fun m hm => ?_, hfree.owners, hfree.jobs, hfree.qp, hfree.words,
    hfree.mode, hfree.hold, hfree.seq, hfree.tim, hquiet.flt, hfree.fsram⟩
  rw [freeSession_ses?, if_neg hm, answer_ses_ne _ _ _ _ hm, arrived_ses_ne _ hm]

/-! SESSION_EXPIRE (R54). -/

/-- The session's slot is free and its expiry counted. -/
def Dev.expired (d : Dev) (n : Nat) : Dev := (d.freeSession n).bump Reg.NET_SKM_EXPIRE_CNT

/-- The fault-log entry of an expiry. -/
abbrev expiryRec (n : Nat) : FaultRec := { cls := 0x10, code := 1, unit := n }

theorem exec_sessionExpire {n : Nat} {s : State} (hs : s.d.served = true) (ho : (s.d.ses? n).isSome = true) :
    exec (.sessionExpire n) s = .next { s with d := (s.d.expired n).logHere (expiryRec n) } := by
  have hexec : exec (.sessionExpire n) s = execSessionExpire n s := rfl
  have hnone : (s.d.ses? n).isNone = false := by simpa [Option.isSome_iff_ne_none] using ho
  simp only [hexec, execSessionExpire, State.onDev, hs, hnone, Bool.not_true, Bool.or_self, Bool.false_eq_true,
    if_false]
  rfl

theorem does_sessionExpire (n : Nat) (s : State) (hs : s.d.served = true) (ho : (s.d.ses? n).isSome = true) :
    Does (.sessionExpire n) s fun d =>
      d.ses? n = none ∧ (∀ m, m ≠ n → (d.ses? m).map Session.base = (s.d.ses? m).map Session.base) ∧
      (∀ j ∈ d.jobs, j.owner ≠ some n) ∧ d.jobs.length = s.d.jobs.length ∧ (d.qp n).st = 0 ∧
      d.rd Reg.NET_SKM_EXPIRE_CNT = min 0xFFFFFFFF (s.d.rd Reg.NET_SKM_EXPIRE_CNT + 1) ∧
      (∃ e, d.flt.log.head? = some e ∧ e.cls = 0x10 ∧ e.code = 1 ∧ e.unit = n ∧ e.index = s.d.flt.next) ∧
      (∀ a, a / 65536 ≠ 12 → d.rd a = s.d.rd a) ∧
      d.mode = s.d.mode ∧ d.hold = s.d.hold ∧ d.seq = s.d.seq ∧ d.tim = s.d.tim ∧ d.fsram = s.d.fsram := by
  have hlog := quiet_log (s.d.expired n) (expiryRec n) s.d.mode s.d.mode
  have hexpired : SlotFreed s.d (s.d.expired n) n :=
    (slotFreed_freeSession (Quiet.refl s.d) n).quiet (quiet_bump _ _ (by decide))
  have hadded : SlotFreed s.d ((s.d.expired n).logAdd (expiryRec n) s.d.mode s.d.mode) n := { hexpired with }
  have hfree := hadded.quiet hlog
  refine ⟨_, exec_sessionExpire hs ho, hfree.closed, fun m hm => ?_, hfree.owners, hfree.jobs, hfree.qp, ?_, ?_,
    hfree.words, hfree.mode, hfree.hold, hfree.seq, hfree.tim, hfree.fsram⟩
  · have hother : (s.d.expired n).ses? m = s.d.ses? m := (freeSession_ses? s.d n m).trans (if_neg hm)
    exact (hlog.ses_base m).trans (congrArg _ hother)
  · have htx : ∀ p : NetPort, Reg.NET_SKM_EXPIRE_CNT ≠ Reg.NET_P_TX_FRAME_CNT (portIx p) := by
      intro p; cases p <;> decide
    have hcount : (s.d.expired n).rd Reg.NET_SKM_EXPIRE_CNT =
        min 0xFFFFFFFF (s.d.rd Reg.NET_SKM_EXPIRE_CNT + 1) % 2 ^ 32 := Dev.rd_put_self _ _ _
    exact (log_rd htx (by decide) _ (expiryRec n) _ _ rfl).trans (hcount.trans (Nat.mod_eq_of_lt (by omega)))
  · exact ⟨_, congrArg (fun f : Flt => f.log.head?) hlog.flt, rfl, rfl, rfl, rfl⟩

/-- Settles O8: a close frees the slot behind its answer, an expiry before its count and its entry; both keep the
rest. -/
theorem sessionEnds : Obligations.SessionEnds := ⟨does_sessionClose, does_sessionExpire⟩

end Sys2Proof.Machine
end

section
/-! PROOFS. The manifest key and the firmware update (R64, R65). -/

namespace Sys2Proof.Machine

open Sys2Proof

/-! Requests that change one part of the device (R51, R56). -/

/-- A request that its own checks answer with a change `f`, which the shared steps before it do not disturb and which
keeps the sessions, makes this change and is otherwise quiet. -/
theorem serve_changes {d : Dev} {h : Req} (hr : Ready h d) {op st : Nat} {b : List Byte} {k : Dev → Answer}
    (f : Dev → Dev) (hst : st ≠ stLater) (hk : ∀ e, Quiet d e → e.jobs = d.jobs → k e = (st, b, f e))
    (hf : ∀ e, Quiet d e → Quiet (f d) (f e)) (hses : ∀ e, (f e).sess = e.sess) :
    Quiet (f d) (d.serve h op k) ∧ Replied (d.serve h op k) h op st b := by
  obtain ⟨da, x, hq, hx, hjobs, -, -, hserve⟩ := serve_ready d h hr
  have hopen : (f da).ses? h.session = some x := (congrArg (aget · h.session) (hses da)).trans hx
  obtain ⟨hq', hrep⟩ := hserve op k st b (f da) (hk da hq hjobs) hst ⟨x, hopen⟩
  exact ⟨(hf da hq).chain hq', hrep⟩

theorem jobHeld_congr {d e : Dev} (h : e.jobs = d.jobs) : e.jobHeld = d.jobHeld := by
  unfold Dev.jobHeld Dev.job?
  rw [h]

/-! KEY_PROVISION (R64). -/

/-- What KEY_PROVISION of KEY_ID 0 answers by its own checks. -/
def keyAnswer (key : List Byte) (d : Dev) : Answer :=
  if (d.mode != .standby && d.mode != .idle) || d.jobHeld then no stBadState d
  else if d.pages.list.any (fun (p : Page) => p.closed && p.container.isNone) then no stBadState d
  else if key.all (· == 0) then no stZero d
  else (stOk, (hmac key (be 8 Config.devUid.toNat)).take 4, { d with pages := { d.pages with key := some key } })

theorem exec_keyProvision (h : Req) (key : List Byte) (s : State) :
    exec (.keyProvision h 0 key) s = .next { s with d := s.d.serve h 0xB0 (keyAnswer key) } := rfl

/-- In STANDBY or IDLE, with no job and no page, the key alone decides. -/
theorem keyAnswer_free {d : Dev} (key : List Byte) (hm : d.mode = .standby ∨ d.mode = .idle) (hj : d.jobHeld = false)
    (hp : d.pages.list = []) :
    keyAnswer key d = if key.all (· == 0) then no stZero d else
      (stOk, (hmac key (be 8 Config.devUid.toNat)).take 4, { d with pages := { d.pages with key := some key } }) := by
  have hmode : (d.mode != .standby && d.mode != .idle) = false := by rcases hm with hm | hm <;> rw [hm] <;> rfl
  simp only [keyAnswer, hmode, hj, hp, List.any_nil, Bool.or_self, Bool.false_eq_true, if_false]

theorem does_keyProvision (h : Req) (key : List Byte) (s : State) (hr : Ready h s.d)
    (hm : s.d.mode = .standby ∨ s.d.mode = .idle) (hj : s.d.jobHeld = false) (hp : s.d.pages.list = [])
    (hkey : key.any (· != 0) = true) :
    Does (.keyProvision h 0 key) s fun d => Quiet { s.d with pages := { s.d.pages with key := some key } } d ∧
      Replied d h 0xB0 stOk ((hmac key (be 8 Config.devUid.toNat)).take 4) := by
  have hall : key.all (· == 0) = false := by
    rw [List.all_eq_not_any_not, Bool.not_eq_false']
    exact hkey
  refine ⟨_, exec_keyProvision h key s,
    serve_changes hr (fun d => { d with pages := { d.pages with key := some key } }) (by decide) (fun e hq hjobs => ?_)
      (fun e hq => { hq with pages := by simp only [hq.pages] }) fun e => rfl⟩
  rw [keyAnswer_free key (by rwa [hq.mode]) ((jobHeld_congr hjobs).trans hj) (by rwa [hq.pages]), hall]
  rfl

theorem does_keyProvision_zero (h : Req) (key : List Byte) (s : State) (hr : Ready h s.d)
    (hm : s.d.mode = .standby ∨ s.d.mode = .idle) (hj : s.d.jobHeld = false) (hp : s.d.pages.list = [])
    (hkey : key.all (· == 0) = true) :
    Does (.keyProvision h 0 key) s fun d => Quiet s.d d ∧ Replied d h 0xB0 stZero [] := by
  refine ⟨_, exec_keyProvision h key s,
    serve_changes hr id (by decide) (fun e hq hjobs => ?_) (fun _ hq => hq) fun _ => rfl⟩
  rw [keyAnswer_free key (by rwa [hq.mode]) ((jobHeld_congr hjobs).trans hj) (by rwa [hq.pages]), hkey]
  rfl

/-! The firmware update (R65). -/

theorem does_fwBegin (h : Req) (len : Nat) (s : State) (hr : Ready h s.d) (hfw : s.d.pwr.fw = none) :
    Does (.fwBegin h len) s fun d =>
      Quiet { s.d with pwr := { s.d.pwr with fw := some (h.session, len), fwImg := [] } } d ∧
      Replied d h 0xC0 stOk [] := by
  refine ⟨_, rfl,
    serve_changes hr (fun d => { d with pwr := { d.pwr with fw := some (h.session, len), fwImg := [] } }) (by decide)
      (fun e hq _ => ?_) (fun e hq => { hq with pwr := by simp only [hq.pwr] }) fun e => rfl⟩
  simp only [hq.pwr, hfw]

/-- A block is written into the image. -/
theorem does_fwBlock_write (h : Req) (len ofs : Nat) (data : List Byte) (s : State) (hr : Ready h s.d)
    (hfw : s.d.pwr.fw = some (h.session, len)) (hbusy : s.d.pwr.fwBusy = false) (hlen : ofs + data.length ≤ len) :
    Does (.fwBlock h ofs data) s fun d =>
      Quiet { s.d with pwr := { s.d.pwr with fwImg := mwrite s.d.pwr.fwImg ofs data } } d ∧
      Replied d h 0xC1 stOk [] := by
  refine ⟨_, rfl,
    serve_changes hr (fun d => { d with pwr := { d.pwr with fwImg := mwrite d.pwr.fwImg ofs data } }) (by decide)
      (fun e hq _ => ?_) (fun e hq => { hq with pwr := by simp only [hq.pwr] }) fun e => rfl⟩
  simp [hq.pwr, hfw, hbusy, Nat.not_lt.mpr hlen]

theorem does_fwBlock (h : Req) (len ofs : Nat) (data : List Byte) (s : State) (hr : Ready h s.d)
    (hfw : s.d.pwr.fw = some (h.session, len)) (hbusy : s.d.pwr.fwBusy = false) (hlen : ofs + data.length ≤ len) :
    Does (.fwBlock h ofs data) s fun d =>
      Quiet { s.d with pwr := { s.d.pwr with fwImg := d.pwr.fwImg } } d ∧ Replied d h 0xC1 stOk [] ∧
      (∀ i, i < data.length → mget d.pwr.fwImg (ofs + i) = data.getD i 0) ∧
      (∀ a, a < ofs ∨ ofs + data.length ≤ a → mget d.pwr.fwImg a = mget s.d.pwr.fwImg a) := by
  obtain ⟨d, hd, hq, hrep⟩ := does_fwBlock_write h len ofs data s hr hfw hbusy hlen
  have himg : d.pwr.fwImg = mwrite s.d.pwr.fwImg ofs data := congrArg Pwr.fwImg hq.pwr
  refine ⟨d, hd, ?_⟩
  simp only [himg]
  exact ⟨hq, hrep, mget_mwrite_in data _ ofs, mget_mwrite_out data _ ofs⟩

theorem does_fwCommit (h : Req) (len : Nat) (s : State) (hr : Ready h s.d)
    (hfw : s.d.pwr.fw = some (h.session, len)) (hbusy : s.d.pwr.fwBusy = false) :
    Does (.fwCommit h) s fun d =>
      Quiet { s.d with pwr := { s.d.pwr with fwBusy := true }, ops := s.d.ops ++ [⟨.fwCommit, h.session, h.seq⟩] } d ∧
      Replied d h 0xC2 stAccepted [] := by
  refine ⟨_, rfl,
    serve_changes hr (fun d => { d with pwr := { d.pwr with fwBusy := true }
                                        ops := d.ops ++ [⟨.fwCommit, h.session, h.seq⟩] }) (by decide)
      (fun e hq _ => ?_) (fun e hq => { hq with pwr := by simp only [hq.pwr], ops := by simp only [hq.ops] })
      fun e => rfl⟩
  simp [hq.pwr, hfw, hbusy, Dev.startOp]

/-- The update ends, once its image has been verified: one that verifies goes to the slot that does not run. -/
def Dev.fwEnded (d : Dev) (len : Nat) : Dev :=
  let img := mread d.pwr.fwImg 0 len
  let p := if Config.imageOk img then
      { d.pwr with imgs := d.pwr.imgs.set (1 - d.rf Reg.PWR_BOOT 0 0) img, slot := 1 - d.rf Reg.PWR_BOOT 0 0 }
    else d.pwr
  { d with pwr := { p with fw := none, fwImg := [], fwBusy := false } }

/-- The update ends and its request is told how. -/
def Dev.fwDone (d : Dev) (len : Nat) : Dev :=
  (d.fwEnded len).endOps d.owner (fun o => o == Op.fwCommit)
    (if Config.imageOk (mread d.pwr.fwImg 0 len) then stOk else stFault) 0

theorem exec_fwCommitDone {n len : Nat} {s : State} (hfw : s.d.pwr.fw = some (n, len))
    (hbusy : s.d.pwr.fwBusy = true) :
    exec .fwCommitDone s = .next { s with d := s.d.fwDone len } := by
  have hexec : exec .fwCommitDone s = execFwCommitDone s := rfl
  rw [hexec, execFwCommitDone, State.onDev]
  dsimp only
  split
  · next m hsome =>
    obtain ⟨-, rfl⟩ := Prod.mk.inj (Option.some.inj (hfw.symm.trans hsome))
    rfl
  · next hnone => exact absurd hfw (hnone n len hbusy)

theorem does_fwCommitDone (n len : Nat) (s : State) (hfw : s.d.pwr.fw = some (n, len)) (hbusy : s.d.pwr.fwBusy = true) :
    Does .fwCommitDone s fun d => d.pwr.fw = none ∧ d.pwr.fwBusy = false ∧
      (Config.imageOk (mread s.d.pwr.fwImg 0 len) = true → d.pwr.slot = 1 - s.d.rf Reg.PWR_BOOT 0 0 ∧
        d.pwr.imgs = s.d.pwr.imgs.set (1 - s.d.rf Reg.PWR_BOOT 0 0) (mread s.d.pwr.fwImg 0 len)) ∧
      (Config.imageOk (mread s.d.pwr.fwImg 0 len) = false → d.pwr.slot = s.d.pwr.slot ∧ d.pwr.imgs = s.d.pwr.imgs) ∧
      Quiet { s.d with pwr := d.pwr, ops := s.d.ops.filter (fun o => o.op != .fwCommit) } d := by
  have hq : Quiet { s.d.fwEnded len with ops := s.d.ops.filter (fun o => o.op != .fwCommit) } (s.d.fwDone len) :=
    quiet_endOps (s.d.fwEnded len) _ (fun o => o == Op.fwCommit) _ _
  have hpwr : (s.d.fwDone len).pwr = (s.d.fwEnded len).pwr := hq.pwr
  refine ⟨_, exec_fwCommitDone hfw hbusy, ?_⟩
  simp only [hpwr]
  refine ⟨rfl, rfl, fun hok => ?_, fun hbad => ?_, hq⟩
  · simp only [Dev.fwEnded, hok, if_true, and_self]
  · simp only [Dev.fwEnded, hbad, Bool.false_eq_true, if_false, and_self]

/-- Settles O11: every request here changes the key or the update's state and is otherwise quiet. -/
theorem keyAndFirmware : Obligations.KeyAndFirmware :=
  ⟨does_keyProvision, does_keyProvision_zero, does_fwBegin, does_fwBlock, does_fwCommit, does_fwCommitDone⟩

end Sys2Proof.Machine
end

section
/-! PROOFS. PARAM_READ and its snapshots (R69, R70). -/

namespace Sys2Proof.Machine

open Sys2Proof

/-! What reads leave (R69, R70, R139). -/

theorem be_length (k n : Nat) : (be k n).length = k := by
  induction k generalizing n with
  | zero => rfl
  | succ k ih => simp [be, ih]

/-- `d` with what reads have made of `d'`: the snapshots, what MON and the field bus keep of reads, and the count of
free values. -/
def Dev.withReads (d d' : Dev) : Dev :=
  { d with regs := { d.regs with sn := d'.regs.sn }, frees := d'.frees
           monA := { d.monA with fresh := d'.monA.fresh }, monB := { d.monB with fresh := d'.monB.fresh }
           pwr := { d.pwr with fbusMin := d'.pwr.fbusMin } }

/-- `d'` differs from `d` in what reads leave. -/
def ReadFrom (d d' : Dev) : Prop := d' = d.withReads d'

theorem ReadFrom.chain {a b c : Dev} (h : ReadFrom a b) (g : ReadFrom b c) : ReadFrom a c := by
  unfold ReadFrom at *
  rw [g, h]
  rfl

theorem readFrom_setFresh (d : Dev) (n a : Nat) (fresh : Bool) : ReadFrom d (d.setFresh n a fresh) := by
  unfold Dev.setFresh
  split
  · next b _ _ => cases b <;> rfl
  · rfl

theorem readFrom_readWord (d : Dev) (n a : Nat) : ReadFrom d (d.readWord n a).2 := by
  unfold Dev.readWord
  split
  · rfl
  · split
    · rfl
    · dsimp only
      split
      · exact readFrom_setFresh d n a false
      · refine ReadFrom.chain (b := { d with regs := { d.regs with sn := _ } }) ?_ (readFrom_setFresh _ n a true)
        rfl
    · dsimp only
      split
      · rfl
      · split <;> rfl

theorem readFrom_readWords (n k : Nat) : ∀ (d : Dev) (a : Nat), ReadFrom d (d.readWords n a k).2 := by
  induction k with
  | zero => exact fun _ _ => rfl
  | succ k ih => exact fun d a => (readFrom_readWord d n a).chain (ih _ _)

theorem readWords_length (n k : Nat) : ∀ (d : Dev) (a : Nat), (d.readWords n a k).1.length = 4 * k := by
  induction k with
  | zero => exact fun _ _ => rfl
  | succ k ih =>
    intro d a
    simp only [Dev.readWords, List.length_append, be_length, ih]
    omega

theorem Quiet.withReads {d e : Dev} (h : Quiet d e) (x : Dev) : Quiet (d.withReads x) (e.withReads x) :=
  { h with
    sn := rfl, frees := rfl
    monA := by simp only [Dev.withReads, h.monA]
    monB := by simp only [Dev.withReads, h.monB]
    pwr := by simp only [Dev.withReads, h.pwr] }

/-- Quiet changes are no reads. -/
theorem Quiet.withReads_congr {x y : Dev} (h : Quiet x y) (d : Dev) : d.withReads y = d.withReads x := by
  simp only [Dev.withReads, h.sn, h.frees, h.monA, h.monB, h.pwr]

/-- Reads between quiet changes are all that is not quiet. -/
theorem ReadFrom.quiet {d e x y : Dev} (h : Quiet d e) (hr : ReadFrom e x) (hq : Quiet x y) :
    Quiet (d.withReads y) y := by
  rw [hq.withReads_congr]
  have hx := h.withReads x
  rw [← hr] at hx
  exact hx.chain hq

/-! A block of words (R69). -/

/-- A block whose words are all assigned and inside one page is read. -/
theorem readAnswer_block {h : Req} {addr count : Nat} (ha : addr < 2 ^ 24) (h1 : 1 ≤ count) (h2 : count ≤ 2047)
    (hb : blockOk addr count = true) (d : Dev) :
    readAnswer h addr count d =
      (stOk, be 4 addr ++ (d.readWords h.session addr count).1, (d.readWords h.session addr count).2) := by
  have hcount : max 1 (min count 16384) = count := by omega
  rw [readAnswer, if_neg (Nat.not_le.mpr ha), hcount, hb, if_neg (by simp), if_neg (by omega)]

theorem does_paramRead_block (h : Req) (addr count : Nat) (s : State) (hr : Ready h s.d) (ha : addr < 2 ^ 24)
    (h1 : 1 ≤ count) (h2 : count ≤ 2047) (hb : blockOk addr count = true) :
    Does (.paramRead h addr count) s fun d =>
      (∃ b, Replied d h 0x10 stOk (be 4 addr ++ b) ∧ b.length = 4 * count) ∧ Quiet (s.d.withReads d) d := by
  obtain ⟨da, x, hq, hx, -, -, -, hk⟩ := serve_ready s.d h hr
  have hread := readFrom_readWords h.session count da addr
  have hopen : (da.readWords h.session addr count).2.ses? h.session = some x := by
    rw [hread]
    exact hx
  obtain ⟨hq', hrep⟩ := hk 0x10 (readAnswer h addr count) _ _ _ (readAnswer_block ha h1 h2 hb da) (by decide) ⟨x, hopen⟩
  exact ⟨_, exec_paramRead h addr count s, ⟨_, hrep, readWords_length _ _ _ _⟩, hread.quiet hq hq'⟩

/-! One word (R69, R70). -/

/-- A read of one word that answers `v` and makes the change `f`. -/
theorem does_paramRead_one {h : Req} {s : State} (hr : Ready h s.d) {a v : Nat} (ha : a < 2 ^ 24)
    (hrow : (rowOf a).isSome = true) (f : Dev → Dev)
    (hread : ∀ e, Quiet s.d e → e.jobs = s.d.jobs → e.readWord h.session a = (v, f e))
    (hf : ∀ e, Quiet s.d e → Quiet (f s.d) (f e)) (hses : ∀ e, (f e).sess = e.sess) :
    Does (.paramRead h a 1) s fun d => Quiet (f s.d) d ∧ Replied d h 0x10 stOk (be 4 a ++ be 4 v) := by
  have hblock : blockOk a 1 = true := by simp [blockOk, hrow]
  refine ⟨_, exec_paramRead h a 1 s, serve_changes hr f (by decide) (fun e hq hjobs => ?_) hf hses⟩
  rw [readAnswer_block ha (by decide) (by decide) hblock]
  simp only [Dev.readWords, hread e hq hjobs, List.append_nil]

/-- A word whose read leaves nothing behind: neither write-only nor of an SN pair, PWR_FBUS or DMA_INFLIGHT. -/
theorem readWord_plain {a : Nat} {r : Row} (hr : rowOf a = some r) (hro : r.acc = .ro ∨ r.acc = .rw)
    (hbus : a ≠ Reg.PWR_FBUS) (hfly : a ≠ Reg.DMA_INFLIGHT) (d : Dev) (n : Nat) : d.readWord n a = (d.word a, d) := by
  rcases hro with hacc | hacc <;> simp only [Dev.readWord, hr, hacc, if_neg hbus, if_neg hfly]

theorem modeWord_congr {d e : Dev} (h : Quiet d e) (hj : e.jobs = d.jobs) : e.modeWord = d.modeWord := by
  simp only [Dev.modeWord, h.trans, jobHeld_congr hj, h.prev, h.mode]

theorem does_paramRead_mode (h : Req) (s : State) (hr : Ready h s.d) :
    Does (.paramRead h Reg.DEV_MODE 1) s fun d => Quiet s.d d ∧
      Replied d h 0x10 stOk (be 4 Reg.DEV_MODE ++ be 4 s.d.modeWord) := by
  obtain ⟨r, hrow, hacc⟩ := Option.map_eq_some_iff.mp
    (by decide +kernel : (rowOf Reg.DEV_MODE).map Row.acc = some .ro)
  refine does_paramRead_one hr (by decide) (by rw [hrow]; rfl) id (fun e hq hjobs => ?_) (fun _ hq => hq) fun _ => rfl
  have hword : e.word Reg.DEV_MODE = e.modeWord := rfl
  rw [readWord_plain hrow (.inl hacc) (by decide) (by decide), hword, modeWord_congr hq hjobs, id]

theorem does_paramRead_escWin (h : Req) (s : State) (hr : Ready h s.d) :
    Does (.paramRead h Reg.FLT_ESC_WIN 1) s fun d => Quiet s.d d ∧
      Replied d h 0x10 stOk (be 4 Reg.FLT_ESC_WIN ++ be 4 (s.d.rd Reg.FLT_ESC_WIN)) := by
  obtain ⟨r, hrow, hacc⟩ := Option.map_eq_some_iff.mp
    (by decide +kernel : (rowOf Reg.FLT_ESC_WIN).map Row.acc = some .rw)
  refine does_paramRead_one hr (by decide) (by rw [hrow]; rfl) id (fun e hq _ => ?_) (fun _ hq => hq) fun _ => rfl
  have hword : e.word Reg.FLT_ESC_WIN = e.rd Reg.FLT_ESC_WIN := rfl
  rw [readWord_plain hrow (.inr hacc) (by decide) (by decide), hword, hq.words _ (by decide), id]

/-! The time counter (R70, R375). -/

/-- Session `n`'s snapshots once it has read the low word of the time counter. -/
def Dev.timeLatched (d : Dev) (n : Nat) : List (Nat × Word) :=
  aset (aset d.regs.sn (n * 2 ^ 24 + Reg.TIM_NS_HI) (w32 (d.ns / 2 ^ 32 % 2 ^ 32)))
    (n * 2 ^ 24 + Reg.TIM_FRAC) (w32 (d.tim.cnt % 2 ^ 32))

theorem readWord_nsLo (d : Dev) (n : Nat) :
    d.readWord n Reg.TIM_NS_LO = (d.ns % 2 ^ 32, { d with regs := { d.regs with sn := d.timeLatched n } }) := by
  obtain ⟨r, hrow, hacc⟩ := Option.map_eq_some_iff.mp
    (by decide +kernel : (rowOf Reg.TIM_NS_LO).map Row.acc = some .sn)
  have hlow : snHigh Reg.TIM_NS_LO = false := by decide
  have hmon : monEntryOf Reg.TIM_NS_LO = none := by decide
  simp only [Dev.readWord, hrow, hacc, hlow, Dev.setFresh, hmon, Bool.false_eq_true, if_false]
  rfl

theorem readWord_nsHi {d : Dev} {n : Nat} {v : Word} (hv : aget d.regs.sn (n * 2 ^ 24 + Reg.TIM_NS_HI) = some v) :
    d.readWord n Reg.TIM_NS_HI = (v.toNat, d) := by
  obtain ⟨r, hrow, hacc⟩ := Option.map_eq_some_iff.mp
    (by decide +kernel : (rowOf Reg.TIM_NS_HI).map Row.acc = some .sn)
  have hhigh : snHigh Reg.TIM_NS_HI = true := by decide
  have hmon : monEntryOf Reg.TIM_NS_HI = none := by decide
  simp only [Dev.readWord, hrow, hacc, hhigh, hv, Dev.setFresh, Dev.staleBit, hmon, if_true]
  rfl

theorem does_paramRead_nsLo (h : Req) (s : State) (hr : Ready h s.d) :
    Does (.paramRead h Reg.TIM_NS_LO 1) s fun d =>
      Replied d h 0x10 stOk (be 4 Reg.TIM_NS_LO ++ be 4 (s.d.ns % 2 ^ 32)) ∧
      aget d.regs.sn (h.session * 2 ^ 24 + Reg.TIM_NS_HI) = some (w32 (s.d.ns / 2 ^ 32 % 2 ^ 32)) ∧
      aget d.regs.sn (h.session * 2 ^ 24 + Reg.TIM_FRAC) = some (w32 (s.d.tim.cnt % 2 ^ 32)) ∧
      Quiet { s.d with regs := { s.d.regs with sn := d.regs.sn } } d := by
  have hns : ∀ e, Quiet s.d e → e.ns = s.d.ns := fun e hq => by rw [Dev.ns, hq.tim, Dev.ns]
  obtain ⟨d, hd, hq, hrep⟩ := does_paramRead_one hr (a := Reg.TIM_NS_LO) (v := s.d.ns % 2 ^ 32) (by decide)
    (by decide +kernel) (fun d => { d with regs := { d.regs with sn := d.timeLatched h.session } })
    (fun e hq _ => by rw [readWord_nsLo, hns e hq])
    (fun e hq => { hq with sn := by simp only [Dev.timeLatched, hns e hq, hq.tim, hq.sn] }) fun _ => rfl
  have hsn : d.regs.sn = s.d.timeLatched h.session := hq.sn
  refine ⟨d, hd, ?_⟩
  simp only [hsn]
  refine ⟨hrep, ?_, aget_aset_self _ _ _, hq⟩
  rw [Dev.timeLatched, aget_aset, if_neg (by simp), aget_aset_self]

theorem does_paramRead_nsHi (h : Req) (v : Word) (s : State) (hr : Ready h s.d)
    (hv : aget s.d.regs.sn (h.session * 2 ^ 24 + Reg.TIM_NS_HI) = some v) :
    Does (.paramRead h Reg.TIM_NS_HI 1) s fun d => Quiet s.d d ∧
      Replied d h 0x10 stOk (be 4 Reg.TIM_NS_HI ++ be 4 v.toNat) :=
  does_paramRead_one hr (by decide) (by decide +kernel) id
    (fun e hq _ => readWord_nsHi (by rw [hq.sn]; exact hv)) (fun _ hq => hq) fun _ => rfl

/-- Settles O14: what a read leaves behind is carried along the block's words; of one word it is its snapshot. -/
theorem paramReadAndSnapshots : Obligations.ParamReadAndSnapshots :=
  ⟨does_paramRead_block, does_paramRead_mode, does_paramRead_escWin, does_paramRead_nsLo, does_paramRead_nsHi⟩

end Sys2Proof.Machine
end

section
/-! PROOFS. A lane fails in SCAN while a COMMIT waits for the stroke under way (R12, R28, R105). -/

namespace Sys2Proof.Machine

open Sys2Proof

/-- The stroke that is still to be read out on lane 5, that of a digital head. -/
def laneStroke (d : Dev) : Stroke := { (default : Stroke) with k := 3, lagDone := true, cfg := d.regs.act }

/-- SCAN with a job of group 0 after a link loss has disabled its Catches, the last stroke not yet read out, and a COMMIT
accepted before the loss, which sets AENA_ON of group 1, waiting for that stroke. -/
def lostLinkScan : State :=
  { d := let d : Dev := ({ mode := .scan
                           jobs := [{ (default : Job) with id := 9 }]
                           bzl := { inhibit := true }
                           mot := { groups := [{ st := .run }, { drive := some false }, {}, {}] } } : Dev).putAll
             [(Reg.SEQ_H_CTRL 0, 2), (Reg.SEQ_H_LANES 0, 0x105)]
         { d with
           seq := { flight := [laneStroke d] }
           regs := { d.regs with com := some ⟨[(Reg.MOT_G_CFG 1, 1)], 1, 7⟩, comDue := true } } }

/-- The lane's failure withholds the stroke, and the COMMIT, which waited for no other, drives the group. -/
theorem lostLinkScan_driven :
    readAfter (.laneDeadline [5] []) lostLinkScan (fun d => (d.grp 1).drive) = some (some true) := by decide +kernel

/-- Refutes O35: the fifth clause keeps the motion block over a lane's missed deadline in SCAN. A link loss disables
Catches before the device leaves SCAN (R28), and an accepted COMMIT then waits for the strokes under way (R13). The lane
error withholds the last of them (R105): the COMMIT takes effect, and with it the drive enable of a group other than the
feed. -/
theorem not_lanes : ¬ Obligations.Lanes := by
  rintro ⟨-, -, -, -, hfail, -, -⟩
  obtain ⟨hdeadline, -, -⟩ := hfail 5 lostLinkScan (by decide +kernel) rfl rfl
  obtain ⟨d, ⟨-, -, -, -, -, -, -, -, -, hmot⟩, hdriven⟩ := (hdeadline (by decide +kernel)).readAfter lostLinkScan_driven
  have hsame : (d.grp 1).drive = some false := congrArg (fun m => (nth m.groups 1).drive) hmot
  exact absurd (hsame.symm.trans hdriven) (by decide)

end Sys2Proof.Machine
end

section
/-! PROOFS. The flush cycle and a COMMIT marked due (R13, R99). -/

namespace Sys2Proof.Machine

open Sys2Proof

/-- IDLE with a flush cycle due, and the mark of a COMMIT that is due although none has been accepted. -/
def flushMarked : State := { d := { mode := .idle, seq := { flushDue := true }, regs := { comDue := true } } }

/-- With the flush cycle over, the mark is cleared. -/
theorem flushMarked_cleared : readAfter .flushCycle flushMarked (fun d => d.regs.comDue) = some false := by decide +kernel

/-- Refutes O34: the clause on the flush cycle keeps the whole device but the sequencer and what has been sent. The cycle
ends the stroke for which a COMMIT waits (R13), so the mark that one is due is taken up, and cleared where there is none.
The statement asks that no COMMIT waits and still admits the mark, though the model sets it with a COMMIT only. -/
theorem not_catchesAndWatchdog : ¬ Obligations.CatchesAndWatchdog := by
  rintro ⟨-, hflush, -⟩
  obtain ⟨d, ⟨-, -, -, -, -, hrest⟩, hcleared⟩ := (hflush flushMarked rfl rfl rfl rfl).readAfter flushMarked_cleared
  have hsame : d.regs.comDue = true := congrArg (fun x : Dev => x.regs.comDue) hrest
  exact absurd (hsame.symm.trans hcleared) (by decide)

end Sys2Proof.Machine
end

section
/-! PROOFS. A failing datapath check while a COMMIT waits for the strokes in flight (R13, R389). -/

namespace Sys2Proof.Machine

open Sys2Proof

/-- What the pipeline has made of the stroke below. -/
def checkedOut : PxOut := { (default : PxOut) with payload := [1, 2], width := 1 }

/-- The stroke that is to leave F10, and one behind it that has not been read out. -/
def checkedStroke : Stroke := { (default : Stroke) with k := 3, px := some checkedOut }

/-- HOLD with both strokes in flight, and a COMMIT that waits for them and holds the counter FLT_PIPE_CHK_CNT. -/
def heldCheck : State :=
  { d := { mode := .hold
           jobs := [{ (default : Job) with id := 9 }]
           seq := { flight := [checkedStroke, { (default : Stroke) with k := 4 }] }
           regs := { com := some ⟨[(Reg.FLT_PIPE_CHK_CNT, 5)], 1, 7⟩, comDue := true } } }

/-- The strokes are withheld, the COMMIT takes effect, and the failure is counted on top of its value. -/
theorem heldCheck_counted :
    readAfter (.trailerAppend false) heldCheck (fun d => d.rd Reg.FLT_PIPE_CHK_CNT) = some 6 := by decide +kernel

/-- Refutes O36: the third clause has FLT_PIPE_CHK_CNT advance by one from its value before the failing check. The check
withholds every stroke in flight (R389), which lets a COMMIT that waited for them take effect (R13) before the failure is
counted. The statement admits a COMMIT of any word, of this counter too, though the model stages no read-only word. -/
theorem not_pipelineAndTrailer : ¬ Obligations.PipelineAndTrailer := by
  rintro ⟨-, -, hcheck⟩
  obtain ⟨d, ⟨-, -, -, -, -, hcount, -, -⟩, hcounted⟩ :=
    (hcheck checkedStroke checkedOut _ heldCheck rfl rfl rfl (by decide) rfl).readAfter heldCheck_counted
  have hbefore : heldCheck.d.rd Reg.FLT_PIPE_CHK_CNT = 0 := by decide +kernel
  omega

end Sys2Proof.Machine
end

section
/-! PROOFS. A converter fails in SCAN while a COMMIT waits for the stroke under way (R13, R130, R134). -/

namespace Sys2Proof.Machine

open Sys2Proof

/-! The channel's core (R130). -/

/-- The failed conversion withholds the stroke, and the COMMIT, which waited for no other, drives the group. -/
theorem lostLinkScan_checkFail_driven :
    readAfter (.adcCheckFail 0) lostLinkScan (fun d => (d.grp 1).drive) = some (some true) := by decide +kernel

/-- Refutes O37: the second clause keeps the motion block over a failing core check. The check withholds the strokes that
are not yet read out (R130). After a link loss an accepted COMMIT waits for these alone (R13, R28): it takes effect, and
with it the drive enable of a group other than the feed. Quadrant 0 has a core in calibration, so that the fault can be
masked. -/
theorem not_converterCores : ¬ Obligations.ConverterCores := by
  rintro ⟨-, hcheck, -⟩
  obtain ⟨d, ⟨-, -, -, -, -, -, -, -, -, hmot⟩, hdriven⟩ :=
    (hcheck 0 lostLinkScan (by decide) (by decide +kernel) (by decide +kernel) (by decide +kernel)
      (by decide +kernel)).readAfter lostLinkScan_checkFail_driven
  have hsame : (d.grp 1).drive = some false := congrArg (fun m => (nth m.groups 1).drive) hmot
  exact absurd (hsame.symm.trans hdriven) (by decide)

/-! The pixel reference (R134). -/

/-- The same SCAN with VREFX in use and settled. -/
def lostLinkVrefx : State := { lostLinkScan with d := lostLinkScan.d.put Reg.AFE_REF_CTRL 0x300 }

/-- The loss of VREFX withholds the stroke, and the COMMIT drives the group. -/
theorem lostLinkVrefx_driven :
    readAfter .vrefxLost lostLinkVrefx (fun d => (d.grp 1).drive) = some (some true) := by decide +kernel

/-- Refutes O38: the second clause keeps the motion block over the loss of VREFX. It withholds strokes as a failing core
check does (R134), so the COMMIT that waits for them takes effect (R13) and drives its group. -/
theorem not_converterMonitorsAndMon : ¬ Obligations.ConverterMonitorsAndMon := by
  rintro ⟨-, hvrefx, -⟩
  obtain ⟨d, ⟨-, -, -, -, -, -, -, -, hmot⟩, hdriven⟩ :=
    (hvrefx lostLinkVrefx (by decide +kernel) (by decide +kernel) (by decide +kernel)).readAfter lostLinkVrefx_driven
  have hsame : (d.grp 1).drive = some false := congrArg (fun m => (nth m.groups 1).drive) hmot
  exact absurd (hsame.symm.trans hdriven) (by decide)

end Sys2Proof.Machine
end

section
/-! PROOFS. Lamp-monitor compensation and the words beyond PIX_LCOMP3 (R316). -/

namespace Sys2Proof.Machine

open Sys2Proof

/-- IDLE after an update that had to limit C_p of phase 0: its DRIFT bit is set in CAL_STAT, and no chain counts for it
any more. -/
def driftSet : State := { d := ({ mode := .idle } : Dev).put Reg.CAL_STAT 0x10 }

/-- Without a chain that counts, the target is 1.0 and lies within the limit: the next update clears DRIFT. -/
theorem driftSet_cleared : readAfter .lampCompUpdate driftSet (fun d => d.rd Reg.CAL_STAT) = some 0 := by decide +kernel

/-- There are four PIX_LCOMP words; counted on, their addresses reach that of CAL_STAT. -/
theorem lcomp_eq_calStat : Reg.PIX_LCOMP 0x17FFA = Reg.CAL_STAT := rfl

/-- Refutes O41: of LAMP_COMP_UPDATE the statement keeps the word PIX_LCOMP p for every number p, not for the four phases
alone. The addresses go on beyond PIX_LCOMP3, and that of p = 0x17FFA is CAL_STAT, whose DRIFT bits the update sets and
clears (R316). -/
theorem not_correctionsApplied : ¬ Obligations.CorrectionsApplied := by
  rintro ⟨-, -, -, hupdate, -⟩
  obtain ⟨d, ⟨-, hlcomp, -⟩, hcleared⟩ := (hupdate driftSet).readAfter driftSet_cleared
  have hsame : d.rd Reg.CAL_STAT = driftSet.d.rd Reg.CAL_STAT := lcomp_eq_calStat ▸ hlcomp 0x17FFA
  have hbefore : driftSet.d.rd Reg.CAL_STAT = 0x10 := by decide +kernel
  omega

end Sys2Proof.Machine
end

section
/-! PROOFS. A switch edge and the replica counter (R33, R241). -/

namespace Sys2Proof.Machine

open Sys2Proof

/-- The level that shows switch 0 active. -/
def switchLevel (d : Dev) : Bool := true == (d.rf (Reg.MOT_SW_CFG 0) 31 31 == 0)

/-- A raw edge of switch 0 at the present instant reduces the replica. -/
theorem replicaPast_edge_reduced :
    readAfter (.switchEdge 0 (switchLevel replicaPast.d) 0 0) replicaPast (fun d => d.tim.rep) = some 0 := by
  decide +kernel

/-- No axis of it moves. -/
theorem replicaPast_rests (a : Nat) : (replicaPast.d.ax a).home = none ∧ (replicaPast.d.ax a).rate = 0 := by
  rw [Dev.ax, nth, List.getD_eq_getElem?_getD]
  cases hx : replicaPast.d.mot.axes[a]? with
  | none => exact ⟨rfl, rfl⟩
  | some x =>
    have hfresh : x = {} := List.eq_of_mem_replicate (List.mem_of_getElem? hx)
    rw [Option.getD_some, hfresh]
    exact ⟨rfl, rfl⟩

/-- Refutes O43: the clause on a raw edge keeps the whole device but its words and the latch of the switch. SWITCH_EDGE
first lets time pass up to its instant, and each passing of time, one of no length too, reduces the replica counter modulo
2 ^ 96; a replica that a TIME frame has set beyond that (R33) changes. -/
theorem not_splicesAndPages : ¬ Obligations.SplicesAndPages := by
  rintro ⟨-, -, -, hedge, -⟩
  obtain ⟨d, ⟨-, -, -, -, -, -, hrest⟩, hrep⟩ :=
    (hedge 0 0 0 true replicaPast (Nat.le_refl 0) (by decide) (Or.inr (Or.inr rfl))
      replicaPast_rests).readAfter replicaPast_edge_reduced
  have hsame : d.tim.rep = 2 ^ 96 := congrArg (fun x : Dev => x.tim.rep) hrest
  omega

end Sys2Proof.Machine
end

section
/-! PROOFS. A packet of one accepted word: what it leaves and what it writes (R9, R56, R72). -/

namespace Sys2Proof.Machine

open Sys2Proof

/-! Words that a request and its answer leave alone (R56, R83). -/

/-- The words that count requests, errors and frames. -/
def counted (a : Nat) : Bool :=
  [Reg.NET_P_RX_FRAME_CNT 0, Reg.NET_P_RX_FRAME_CNT 1, Reg.NET_P_RX_FRAME_CNT 2, Reg.NET_P_TX_FRAME_CNT 0,
    Reg.NET_P_TX_FRAME_CNT 1, Reg.NET_P_TX_FRAME_CNT 2, Reg.NET_SKM_RX_CNT, Reg.NET_SKM_ERR_CNT].contains a

section Uncounted
variable {a : Nat} (ha : counted a = false)
include ha

theorem ne_rxFrame (p : NetPort) : a ≠ Reg.NET_P_RX_FRAME_CNT (portIx p) := by
  rintro rfl
  cases p <;> exact absurd ha (by decide)

theorem ne_txFrame (p : NetPort) : a ≠ Reg.NET_P_TX_FRAME_CNT (portIx p) := by
  rintro rfl
  cases p <;> exact absurd ha (by decide)

theorem arrived_rd (d : Dev) (h : Req) : (d.arrived h).rd a = d.rd a := by
  have hskm : a ≠ Reg.NET_SKM_RX_CNT := by
    rintro rfl
    exact absurd ha (by decide)
  exact (Dev.rd_put_ne _ _ a _ hskm).trans (Dev.rd_put_ne d _ a _ (ne_rxFrame ha h.port))

theorem answer_rd (d : Dev) (h : Req) (op st : Nat) (b : List Byte) : (d.answer h op st b).rd a = d.rd a := by
  have herr : a ≠ Reg.NET_SKM_ERR_CNT := by
    rintro rfl
    exact absurd ha (by decide)
  have hcount (c : Bool) : (d.bumpIf c Reg.NET_SKM_ERR_CNT).rd a = d.rd a := by
    cases c
    · rfl
    · exact Dev.rd_put_ne d _ a _ herr
  unfold Dev.answer
  dsimp only
  split
  · exact (foldl_rd (fun d _ => send_rd (ne_txFrame ha) d _ 1 _) _ _).trans (hcount _)
  · exact hcount _

end Uncounted

/-! CMD frames touch no word (R19, R21). -/

theorem sendFrame_regs (d : Dev) (r : Dir) (f : Frame) : (d.sendFrame r f).regs = d.regs := by cases r <;> rfl

theorem sendWaiting_regs (n : Nat) (d : Dev) : (d.sendWaiting n).regs = d.regs := by
  induction n generalizing d with
  | zero => rfl
  | succ n ih =>
    unfold Dev.sendWaiting
    split
    · rfl
    · split
      · exact (ih _).trans (sendFrame_regs _ _ _)
      · rfl

theorem sendCmd_regs (d : Dev) (c : FieldCmd) : (d.sendCmd c).regs = d.regs := by
  unfold Dev.sendCmd
  split
  · exact sendWaiting_regs _ _
  · rfl

theorem forward_rd (d : Dev) (ws : List (Nat × Word)) (a : Nat) : (d.forward ws).rd a = d.rd a :=
  foldl_rd (fun d _ => by rw [Dev.rd, sendCmd_regs, Dev.rd]) _ d

/-! A packet of one accepted word (R72). -/

/-- The device once a word has been stored and has had its effect. -/
def Dev.wrote (d : Dev) (a : Nat) (v : Word) : Dev := Dev.wordEffect d (d.storeWord a v) a v

theorem writeOne_eq {a : Nat} (s : State) (h : Req) (v : Word) (ha : a < 2 ^ 24) :
    s.writeOne h a v = s.paramWrite h [w32 a, v] 0 := by
  rw [State.writeOne, Nat.mod_eq_of_lt ha]

/-- A write of one word that passes its checks, other than of a DMA channel's control word: what the word does is all that
the request does beyond its answer. -/
theorem writeOne_accepted {h : Req} {a : Nat} {v : Word} {s : State} (hr : Ready h s.d) (ha : a < 2 ^ 24)
    (hok : Writable s.d h.session a v) (hdma : ixOf (Reg.DMA_CH_CTRL 0) 0x20 16 a = none) :
    ∃ d, s.writeOne h a v = { s with d := d } ∧ Replied d h 0x11 stOk wroteAll ∧
      Quiet ((s.d.arrived h).wrote a v) d ∧ ∀ b, counted b = false → d.rd b = ((s.d.arrived h).wrote a v).rd b := by
  have hws : wrecs 0 [w32 a, v].length 0 [w32 a, v] = [oneWord a v] := wrecs_one v ha
  have happly : s.writeOne h a v = { s with d := s.d.applied h [oneWord a v] } := by
    rw [writeOne_eq s h v ha, paramWrite_accepted (by rw [hws]; exact packetCheck_one_ok _ _ _ hok), hws]
    simp only [State.ctrlsWritten, List.foldl_cons, List.foldl_nil, oneWord, hdma, ite_self]
  have hanswer : s.d.applied h [oneWord a v] = ((s.d.arrived h).writeWords [oneWord a v]).answer h 0x11 stOk wroteAll := by
    rw [Dev.applied, Dev.serve, serveThen_arrived hr]
    exact if_neg (show stOk ≠ stLater by decide)
  obtain ⟨-, -, -, hrep⟩ := applied_ready hr [oneWord a v]
  refine ⟨_, happly, hrep, ?_, fun b hb => ?_⟩
  · rw [hanswer]
    exact (quiet_forward ((s.d.arrived h).wrote a v) _).chain (quiet_answer _ _ _ _ _)
  · rw [hanswer, answer_rd hb]
    exact forward_rd ((s.d.arrived h).wrote a v) _ b

/-! What a word with plain fields holds (R9, R72). -/

theorem and_eq_self_of_and_compl {v m : Nat} (hv : v < 2 ^ 32) (h : v &&& (0xFFFFFFFF ^^^ m) = 0) : v &&& m = v := by
  apply Nat.eq_of_testBit_eq
  intro i
  have hbit : (v &&& ((2 ^ 32 - 1) ^^^ m)).testBit i = false := by
    rw [show v &&& ((2 ^ 32 - 1) ^^^ m) = 0 from h, Nat.zero_testBit]
  rw [Nat.testBit_and, Nat.testBit_xor, Nat.testBit_two_pow_sub_one] at hbit
  rw [Nat.testBit_and]
  by_cases hi : i < 32
  · cases hvi : v.testBit i <;> simp_all
  · rw [Nat.testBit_lt_two_pow (lt_of_lt_of_le hv (Nat.pow_le_pow_right (by decide) (by omega))), Bool.false_and]

/-- A word that passes its checks sets no reserved bit. -/
theorem and_rowMask_of_writable {d : Dev} {n a : Nat} {v : Word} {r : Row} (h : Writable d n a v)
    (hrow : rowOf a = some r) : v.toNat &&& rowMask r = v.toNat := by
  refine and_eq_self_of_and_compl v.isLt ?_
  by_contra hres
  simp [Writable, Dev.wordCheck, hrow, hres, stOk, stBadParam] at h

/-- The row of an RW word holds plain fields only. -/
def plainRow (r : Row) : Bool := r.acc == .rw && r.flds.all fun f => f.acc == .plain

theorem newWord_plain {r : Row} (hr : plainRow r = true) (old v : Nat) : newWord r old v = v &&& rowMask r := by
  rw [plainRow, Bool.and_eq_true, beq_iff_eq, List.all_eq_true] at hr
  obtain ⟨hacc, hplain⟩ := hr
  have hall : accMask r (fun f => f.acc == .plain) = rowMask r := by rw [accMask, rowMask, List.filter_eq_self.mpr hplain]
  have hnone {p : Fld → Bool} (hp : ∀ f, f.acc = .plain → p f = false) : accMask r p = 0 := by
    rw [accMask, List.filter_eq_nil_iff.mpr fun f hf => by simp [hp f (beq_iff_eq.mp (hplain f hf))]]
    rfl
  have hkeep : accMask r (fun f => f.acc == .ro || (Acc.rw == .ro && f.acc == .plain)) = 0 :=
    hnone fun f hf => by rw [hf]; rfl
  have hw1c : accMask r (fun f => f.acc == .w1c || (Acc.rw == .w1c && f.acc == .plain)) = 0 :=
    hnone fun f hf => by rw [hf]; rfl
  simp only [newWord, hacc, hall, hkeep, hw1c]
  simp

/-- An RW word of plain fields that passes its checks holds the written value. -/
theorem storeWord_plain {d e : Dev} {n a : Nat} {v : Word} {r : Row} (h : Writable d n a v) (hrow : rowOf a = some r)
    (hr : plainRow r = true) : e.storeWord a v = e.put a v.toNat := by
  have hacc : r.acc = .rw := beq_iff_eq.mp (Bool.and_eq_true_iff.mp hr).1
  simp only [Dev.storeWord, hrow, hacc, newWord_plain hr, and_rowMask_of_writable h hrow]

end Sys2Proof.Machine
end

section
/-! PROOFS. Session words, port words and queue pair enables (R207, R361, R371, R373). -/

namespace Sys2Proof.Machine

open Sys2Proof

/-! The words of a session (R207, R385). -/

theorem ixOf_block {base stride n i o : Nat} (hi : i < n) (ho : o < stride) :
    ixOf base stride n (base + stride * i + o) = some (i, o) := by
  have hlt : stride * i + o < stride * n :=
    calc stride * i + o < stride * i + stride := by omega
      _ = stride * (i + 1) := rfl
      _ ≤ stride * n := Nat.mul_le_mul_left _ hi
  have hsub : base + stride * i + o - base = o + stride * i := by omega
  rw [ixOf, if_pos (by omega), hsub, Nat.add_mul_div_left _ _ (by omega), Nat.add_mul_mod_self_left,
    Nat.div_eq_of_lt ho, Nat.mod_eq_of_lt ho, Nat.zero_add]

theorem pageSes_word {n o : Nat} (h1 : 1 ≤ n) (h64 : n ≤ 64) (ho : o < 0x40) :
    pageSes (0x051000 + 0x40 * (n - 1) + o) = some (n, o) := by
  rw [pageSes, ixOf_block (by omega) ho, Option.map_some, Nat.sub_add_cancel h1]

theorem netSes_qpCtrl {n : Nat} (h1 : 1 ≤ n) (h64 : n ≤ 64) : netSes (Reg.NET_S_QP_CTRL (n - 1)) = some (n, 0) := by
  have hblock : ixOf 0x0C1000 0x40 64 (0x0C1000 + 0x40 * (n - 1) + 0) = some (n - 1, 0) :=
    ixOf_block (by omega) (by decide)
  rw [netSes, show ixOf 0x0C1000 0x40 64 (Reg.NET_S_QP_CTRL (n - 1)) = some (n - 1, 0) from hblock, Option.map_some,
    Nat.sub_add_cancel h1]

/-- The words of PAGE that belong to a session lie in one block of the page. -/
theorem pageSes_range {a : Nat} {x : Nat × Nat} (ha : pageSes a = some x) : 0x051000 ≤ a ∧ a < 0x052000 := by
  by_contra hout
  rw [pageSes, ixOf, if_neg hout] at ha
  exact nomatch ha

section PageSession
variable {a n o : Nat} (ha : pageSes a = some (n, o))
include ha

theorem pageSes_ne {c : Nat} (hc : c < 0x051000 ∨ 0x052000 ≤ c) : a ≠ c := by
  have hrange := pageSes_range ha
  omega

theorem pageSes_ixOf {base stride k : Nat} (hc : base + stride * k ≤ 0x051000 ∨ 0x052000 ≤ base) :
    ixOf base stride k a = none := by
  have hrange := pageSes_range ha
  exact if_neg (by omega)

/-- With a delivery under way a session's own words of PAGE are restricted, but for a few of them (R207). -/
theorem modeBad_pageSes (d : Dev) (v : Nat) :
    d.modeBad a v = (d.delivering n && !([0x00, 0x24, 0x28, 0x2C, 0x30, 0x34, 0x3C].contains o)) := by
  have hcfg : ¬ (a = Reg.NET_P_CFG 0 ∨ a = Reg.NET_P_CFG 1) :=
    not_or.mpr ⟨pageSes_ne ha (by decide), pageSes_ne ha (by decide)⟩
  simp only [Dev.modeBad]
  rw [if_neg (pageSes_ne ha (by decide)), if_neg (pageSes_ne ha (by decide)), if_neg (pageSes_ne ha (by decide)),
    if_neg hcfg, ha]

/-- Only the session itself writes them (R207). -/
theorem accBad_pageSes (d : Dev) (m : Nat) : d.accBad m a = (n != m) := by
  simp only [Dev.accBad]
  rw [if_neg (pageSes_ne ha (by decide)), ha]

theorem entryReserved_pageSes : entryReserved a = 0 := by
  obtain ⟨hlo, hhi⟩ := pageSes_range ha
  have hwave : Reg.SEQ_H_WAVE 31 127 < 0x051000 := by decide
  have hslot : Reg.AFE_SLOT 63 15 < 0x051000 := by decide
  rw [entryReserved, if_neg (by omega), if_neg (by omega)]

/-- A word that holds no address or length of a ring takes any value; a ring's base is a multiple of 4,096 (R207). -/
theorem valueBad_pageSes (ho : o = 0x04 ∨ o = 0x24) (d : Dev) (ws : List WWord) (v : Nat) :
    d.valueBad ws a v = (o == 0x04 && v % 4096 != 0) := by
  have hfbus : ¬ (a = Reg.PWR_FBUS_LOW ∨ a = Reg.PWR_FBUS_HYST ∨ a = Reg.PWR_FBUS_HIGH) :=
    not_or.mpr ⟨pageSes_ne ha (by decide), not_or.mpr ⟨pageSes_ne ha (by decide), pageSes_ne ha (by decide)⟩⟩
  have hithr : ixOf (Reg.LMP_C_ITHR 0) 0x40 16 a = none := pageSes_ixOf ha (by decide)
  have hout : ixOf (Reg.SEQ_H_OUTCFG 0) 0x40 32 a = none := pageSes_ixOf ha (by decide)
  have hac : ixOf (Reg.LMP_P_AC 0 0) 0x40 4 a = none := pageSes_ixOf ha (by decide)
  have hdma : ixOf (Reg.DMA_CH_CTRL 0) 0x20 16 a = none := pageSes_ixOf ha (by decide)
  simp only [Dev.valueBad]
  rw [if_neg hfbus, hithr, hout, hac, hdma, ha]
  rcases ho with rfl | rfl <;> rfl

/-- The check of such a word whose row is one RW field of 32 bits. -/
theorem wordCheck_pageSes {r : Row} (hrow : rowOf a = some r) (hacc : r.acc = .rw)
    (hflds : r.flds = [⟨31, 0, .plain, .any⟩]) (ho : o = 0x04 ∨ o = 0x24) (d : Dev) (m : Nat) (v : Word)
    (hidle : o = 0x24 ∨ d.delivering n = false) (hval : o = 0x24 ∨ v.toNat % 4096 = 0) :
    d.wordCheck m [oneWord a v] (oneWord a v) = if n = m then stOk else stReadOnly := by
  have hmask : v.toNat &&& (0xFFFFFFFF ^^^ rowMask r) = 0 := by
    rw [rowMask, hflds]
    exact Nat.and_zero _
  have hfields : (r.flds.filter fun f => f.acc == FAcc.plain).any (fun f => !rngOk f v.toNat) = false := by
    rw [hflds]
    rfl
  have hmode : d.modeBad a v.toNat = false := by
    rw [modeBad_pageSes ha]
    rcases hidle with rfl | hidle
    · exact Bool.and_false _
    · rw [hidle, Bool.false_and]
  have hvalue : d.valueBad [⟨0, 0, a, a, v, true⟩] a v.toNat = false := by
    rw [valueBad_pageSes ha ho]
    rcases hval with rfl | hval
    · rfl
    · rw [hval]
      exact Bool.and_false _
  have hwrit : rowWritable r = true := by rw [rowWritable, hacc]
  simp only [Dev.wordCheck, oneWord, hrow, hmask, hfields, hmode, hvalue, hwrit, entryReserved_pageSes ha,
    accBad_pageSes ha]
  by_cases hnm : n = m
  · simp [hnm]
  · simp [hnm]

end PageSession

/-! PAGE_SESSION_WORD_WRITE (R207). -/

/-- The row of a ring's base. -/
def drngLoRow : Row := ⟨0x51004, [(64, 0x40)], .rw, 0, [⟨31, 0, .plain, .any⟩]⟩

/-- The row of a ring's consumer word. -/
def dconsRow : Row := ⟨0x51024, [(64, 0x40)], .rw, 0, [⟨31, 0, .plain, .any⟩]⟩

theorem rowOf_drngLo : ∀ i < 64, rowOf (0x051000 + 0x40 * i + 0x04) = some drngLoRow := by decide +kernel

theorem rowOf_dcons : ∀ i < 64, rowOf (0x051000 + 0x40 * i + 0x24) = some dconsRow := by decide +kernel

theorem wordEffect_pageSes {a n o : Nat} (ha : pageSes a = some (n, o)) (ho : o ≠ 0x34) (d0 d : Dev) (v : Word) :
    Dev.wordEffect d0 d a v = Dev.ringWritten d0 d n a := by
  have hcfg : ¬ (a = Reg.NET_P_CFG 0 ∨ a = Reg.NET_P_CFG 1 ∨ a = Reg.NET_SG_CFG) :=
    not_or.mpr ⟨pageSes_ne ha (by decide), not_or.mpr ⟨pageSes_ne ha (by decide), pageSes_ne ha (by decide)⟩⟩
  rw [Dev.wordEffect, if_neg (pageSes_ne ha (by decide)), if_neg (pageSes_ne ha (by decide)),
    if_neg (pageSes_ne ha (by decide)), if_neg (pageSes_ne ha (by decide)), if_neg (pageSes_ne ha (by decide)),
    if_neg (pageSes_ne ha (by decide)), if_neg hcfg, if_neg (pageSes_ne ha (by decide)), ha]
  exact if_neg ho

/-- A word of a session that is not of its rings' addresses, lengths or keys resets none of their other words. -/
theorem ringWritten_dcons (d0 d : Dev) {n a : Nat} (ha : a % 0x40 = 0x24) : Dev.ringWritten d0 d n a = d := by
  simp only [Dev.ringWritten, ha]
  simp

/-- A new base of the data ring returns its producer and consumer words to 0. -/
theorem ringWritten_drngLo {d0 d : Dev} {n a : Nat} (ha : a % 0x40 = 0x04) (hnew : d.rd a ≠ d0.rd a) :
    Dev.ringWritten d0 d n a = (d.put (Reg.PAGE_S_DPROD (n - 1)) 0).put (Reg.PAGE_S_DCONS (n - 1)) 0 := by
  simp only [Dev.ringWritten, ha]
  simp [hnew]

theorem exec_pageSessionWordWrite (h : Req) (m o : Nat) (v : Word) (s : State) :
    exec (.pageSessionWordWrite h m o v) s = .next (s.writeOne h (0x051000 + 0x40 * (m - 1) + o) v) := rfl

theorem does_dconsWrite (h : Req) (v : Word) (s : State) (hr : Ready h s.d) (h1 : 1 ≤ h.session) (h64 : h.session ≤ 64) :
    Does (.pageSessionWordWrite h h.session 0x24 v) s fun d =>
      Quiet (s.d.put (Reg.PAGE_S_DCONS (h.session - 1)) v.toNat) d ∧ Replied d h 0x11 stOk wroteAll := by
  have hpage := pageSes_word h1 h64 (show 0x24 < 0x40 by decide)
  have hrow := rowOf_dcons (h.session - 1) (by omega)
  have hok : Writable s.d h.session (0x051000 + 0x40 * (h.session - 1) + 0x24) v :=
    (wordCheck_pageSes hpage hrow rfl rfl (Or.inr rfl) s.d h.session v (Or.inl rfl) (Or.inl rfl)).trans (if_pos rfl)
  have haddr : 0x051000 + 0x40 * (h.session - 1) + 0x24 = Reg.PAGE_S_DCONS (h.session - 1) := by
    rw [Reg.PAGE_S_DCONS]
    omega
  obtain ⟨d, hd, hrep, hq, -⟩ := writeOne_accepted hr (by omega) hok (pageSes_ixOf hpage (by decide))
  rw [Dev.wrote, wordEffect_pageSes hpage (by decide), ringWritten_dcons _ _ (by omega), storeWord_plain hok hrow rfl,
    haddr] at hq
  exact ⟨d, congrArg Host.Outcome.next hd, ((quiet_arrived s.d h).put _ _).chain hq, hrep⟩

theorem does_drngLoWrite (h : Req) (v : Word) (s : State) (hr : Ready h s.d) (h1 : 1 ≤ h.session) (h64 : h.session ≤ 64)
    (hidle : s.d.pages.deliv = none) (hv : v.toNat % 4096 = 0)
    (hnew : v.toNat ≠ s.d.rd (0x051004 + 0x40 * (h.session - 1))) :
    Does (.pageSessionWordWrite h h.session 0x04 v) s fun d =>
      d.rd (0x051004 + 0x40 * (h.session - 1)) = v.toNat ∧ d.rd (Reg.PAGE_S_DPROD (h.session - 1)) = 0 ∧
      d.rd (Reg.PAGE_S_DCONS (h.session - 1)) = 0 ∧ Replied d h 0x11 stOk wroteAll := by
  have haddr : 0x051000 + 0x40 * (h.session - 1) + 0x04 = 0x051004 + 0x40 * (h.session - 1) := by omega
  have hpage := pageSes_word h1 h64 (show 0x04 < 0x40 by decide)
  have hrow := rowOf_drngLo (h.session - 1) (by omega)
  have hdeliv : s.d.delivering h.session = false := by rw [Dev.delivering, hidle]; rfl
  have hok : Writable s.d h.session (0x051000 + 0x40 * (h.session - 1) + 0x04) v :=
    (wordCheck_pageSes hpage hrow rfl rfl (Or.inl rfl) s.d h.session v (Or.inr hdeliv) (Or.inr hv)).trans (if_pos rfl)
  obtain ⟨d, hd, hrep, hq, -⟩ := writeOne_accepted hr (by omega) hok (pageSes_ixOf hpage (by decide))
  have hput : ((s.d.arrived h).put (0x051004 + 0x40 * (h.session - 1)) v.toNat).rd (0x051004 + 0x40 * (h.session - 1)) =
      v.toNat := (Dev.rd_put_self _ _ _).trans (Nat.mod_eq_of_lt v.isLt)
  have hold : (s.d.arrived h).rd (0x051004 + 0x40 * (h.session - 1)) = s.d.rd (0x051004 + 0x40 * (h.session - 1)) :=
    (quiet_arrived s.d h).words _ (by omega)
  rw [Dev.wrote, wordEffect_pageSes hpage (by decide), storeWord_plain hok hrow rfl, haddr,
    ringWritten_drngLo (by omega) (by rw [hput, hold]; exact hnew)] at hq
  refine ⟨d, congrArg Host.Outcome.next hd, ?_, ?_, ?_, hrep⟩
  · rw [hq.words _ (by omega), Dev.rd_put_ne _ _ _ _ (by rw [Reg.PAGE_S_DCONS]; omega),
      Dev.rd_put_ne _ _ _ _ (by rw [Reg.PAGE_S_DPROD]; omega), hput]
  · rw [hq.words _ (by rw [Reg.PAGE_S_DPROD]; omega),
      Dev.rd_put_ne _ _ _ _ (by rw [Reg.PAGE_S_DPROD, Reg.PAGE_S_DCONS]; omega), Dev.rd_put_self, Nat.zero_mod]
  · rw [hq.words _ (by rw [Reg.PAGE_S_DCONS]; omega), Dev.rd_put_self, Nat.zero_mod]

theorem does_dconsWrite_other (h : Req) (m : Nat) (v : Word) (s : State) (hr : Ready h s.d) (h1 : 1 ≤ m) (h64 : m ≤ 64)
    (hm : m ≠ h.session) :
    Does (.pageSessionWordWrite h m 0x24 v) s fun d => Quiet s.d d ∧ Replied d h 0x11 stReadOnly [0, 0, 0, 0] := by
  have hcheck := (wordCheck_pageSes (pageSes_word h1 h64 (show 0x24 < 0x40 by decide)) (rowOf_dcons (m - 1) (by omega))
    rfl rfl (Or.inr rfl) s.d h.session v (Or.inl rfl) (Or.inl rfl)).trans (if_neg hm)
  obtain ⟨d, hd, hrest⟩ := does_paramWrite_one_refused hr (by omega) hcheck (by decide)
  exact ⟨d, (congrArg Host.Outcome.next (writeOne_eq s h v (by omega))).trans hd, hrest⟩

/-! NET_PORT_CFG_WRITE (R361, R364). -/

theorem linkLost_rd {a : Nat} {p : NetPort} (hstat : a ≠ Reg.NET_P_STAT (portIx p))
    (hdown : a ≠ Reg.NET_P_LINK_DOWN_CNT (portIx p)) (d : Dev) : (d.linkLost p).rd a = d.rd a := by
  unfold Dev.linkLost
  split
  · exact (Dev.rd_put_ne _ _ a _ hdown).trans (Dev.rd_put_ne d _ a _ hstat)
  · rfl

theorem linkDownCnt_ne_stat (p : NetPort) : Reg.NET_P_LINK_DOWN_CNT (portIx p) ≠ Reg.NET_P_STAT (portIx p) := by
  cases p <;> decide

theorem linkLost_link (d : Dev) (p : NetPort) : (d.linkLost p).link p = false := by
  unfold Dev.linkLost
  split
  · have hstat : ((d.putF (Reg.NET_P_STAT (portIx p)) 31 29 0).bump (Reg.NET_P_LINK_DOWN_CNT (portIx p))).rd
        (Reg.NET_P_STAT (portIx p)) = withFld (d.rd (Reg.NET_P_STAT (portIx p))) 31 29 0 % 2 ^ 32 :=
      (Dev.rd_put_ne _ _ _ _ (linkDownCnt_ne_stat p).symm).trans (Dev.rd_put_self _ _ _)
    rw [Dev.link, hstat]
    simp only [bit, withFld, beq_eq_false_iff_ne]
    omega
  · next hdown => exact Bool.eq_false_iff.mpr hdown

theorem linkLost_counts {d : Dev} {p : NetPort} (hup : d.link p = true) :
    (d.linkLost p).rd (Reg.NET_P_LINK_DOWN_CNT (portIx p)) =
      min 0xFFFFFFFF (d.rd (Reg.NET_P_LINK_DOWN_CNT (portIx p)) + 1) := by
  rw [Dev.linkLost, if_pos hup]
  refine (Dev.rd_put_self _ _ _).trans ?_
  rw [Dev.putF, Dev.rd_put_ne _ _ _ _ (linkDownCnt_ne_stat p)]
  exact Nat.mod_eq_of_lt (by omega)

theorem quiet_linkLost (d : Dev) (p : NetPort) : Quiet d (d.linkLost p) := by
  unfold Dev.linkLost
  split
  · exact (quiet_put d _ _ (by cases p <;> decide)).chain (quiet_bump _ _ (by cases p <;> decide))
  · exact Quiet.refl d

/-- The row of NET_Pp_CFG. -/
def portCfgRow : Row :=
  ⟨0xc0100, [(2, 0x80)], .rw, 0x800005dc, [⟨31, 31, .plain, .any⟩, ⟨29, 28, .plain, .rng 0 1⟩, ⟨27, 20, .plain, .any⟩,
    ⟨17, 16, .plain, .rng 0 2⟩, ⟨13, 0, .plain, .rng 1280 9000⟩]⟩

/-- The row of NET_SG_CFG, whose speed is read-only. -/
def sgmiiCfgRow : Row :=
  ⟨0xc0200, [], .rw, 0x800005dc, [⟨31, 31, .plain, .any⟩, ⟨29, 28, .ro, .any⟩, ⟨27, 20, .plain, .any⟩,
    ⟨17, 16, .plain, .rng 0 0⟩, ⟨13, 0, .plain, .rng 1280 1500⟩]⟩

theorem rowOf_cfgAddr (p : NetPort) : rowOf (cfgAddr p) = some (if p = .sgmii then sgmiiCfgRow else portCfgRow) := by
  cases p <;> decide +kernel

theorem newWord_sgmiiCfg (old v : Nat) : newWord sgmiiCfgRow old v = (v &&& 0x8FF33FFF) ||| (old &&& 0x30000000) := by
  have hplain : accMask sgmiiCfgRow (fun f => f.acc == .plain) = 0x8FF33FFF := by decide
  have hkeep : accMask sgmiiCfgRow (fun f => f.acc == .ro || (Acc.rw == .ro && f.acc == .plain)) = 0x30000000 := by decide
  have hw1c : accMask sgmiiCfgRow (fun f => f.acc == .w1c || (Acc.rw == .w1c && f.acc == .plain)) = 0 := by decide
  have hacc : sgmiiCfgRow.acc = .rw := rfl
  simp only [newWord, hacc, hplain, hkeep, hw1c]
  simp

/-- What a port's configuration word holds once `v` has been written over `old`. -/
def portCfg (p : NetPort) (old v : Nat) : Nat := if p = .sgmii then (v &&& 0x8FF33FFF) ||| (old &&& 0x30000000) else v

theorem portCfg_lt (p : NetPort) (old : Nat) (v : Word) : portCfg p old v.toNat < 2 ^ 32 := by
  unfold portCfg
  split
  · exact Nat.or_lt_two_pow (Nat.and_lt_two_pow _ (by decide)) (Nat.and_lt_two_pow _ (by decide))
  · exact v.isLt

theorem storeWord_cfgAddr {d e : Dev} {n : Nat} {p : NetPort} {v : Word} (hok : Writable d n (cfgAddr p) v) :
    e.storeWord (cfgAddr p) v = e.put (cfgAddr p) (portCfg p (e.rd (cfgAddr p)) v.toNat) := by
  have hrow := rowOf_cfgAddr p
  by_cases hp : p = .sgmii
  · rw [if_pos hp] at hrow
    have hacc : sgmiiCfgRow.acc = .rw := rfl
    simp only [Dev.storeWord, hrow, hacc, newWord_sgmiiCfg, portCfg, if_pos hp]
  · rw [if_neg hp] at hrow
    rw [storeWord_plain hok hrow rfl, portCfg, if_neg hp]

theorem wordEffect_cfgAddr (d0 d : Dev) (p : NetPort) (v : Word) :
    Dev.wordEffect d0 d (cfgAddr p) v = d.linkLost p := by cases p <;> rfl

theorem cfgAddr_facts (p : NetPort) : cfgAddr p < 2 ^ 24 ∧ cfgAddr p / 65536 = 12 ∧ counted (cfgAddr p) = false ∧
    cfgAddr p ≠ Reg.NET_P_STAT (portIx p) ∧ cfgAddr p ≠ Reg.NET_P_LINK_DOWN_CNT (portIx p) ∧
    ixOf (Reg.DMA_CH_CTRL 0) 0x20 16 (cfgAddr p) = none := by
  cases p <;> decide

theorem counted_port (p : NetPort) : counted (Reg.NET_P_STAT (portIx p)) = false ∧
    counted (Reg.NET_P_LINK_DOWN_CNT (portIx p)) = false ∧ Reg.NET_P_STAT (portIx p) ≠ cfgAddr p ∧
    Reg.NET_P_LINK_DOWN_CNT (portIx p) ≠ cfgAddr p := by
  cases p <;> decide

theorem does_netPortCfgWrite (h : Req) (p : NetPort) (v : Word) (s : State) (hr : Ready h s.d)
    (hok : Writable s.d h.session (cfgAddr p) v) :
    Does (.netPortCfgWrite h p v) s fun d =>
      Replied d h 0x11 stOk wroteAll ∧
      (p ≠ .sgmii → d.rd (cfgAddr p) = v.toNat) ∧
      (p = .sgmii → d.rd (cfgAddr p) = (v.toNat &&& 0x8FF33FFF) ||| (s.d.rd (cfgAddr p) &&& 0x30000000)) ∧
      d.link p = false ∧ (s.d.link p = true → d.rd (Reg.NET_P_LINK_DOWN_CNT (portIx p)) =
          min 0xFFFFFFFF (s.d.rd (Reg.NET_P_LINK_DOWN_CNT (portIx p)) + 1)) ∧
      ∀ a, a / 65536 ≠ 12 → d.rd a = s.d.rd a := by
  obtain ⟨hlt, hpage, hcfg, hcfgStat, hcfgDown, hdma⟩ := cfgAddr_facts p
  obtain ⟨hstat, hdown, hstatCfg, hdownCfg⟩ := counted_port p
  obtain ⟨d, hd, hrep, hq, hrd⟩ := writeOne_accepted hr hlt hok hdma
  rw [Dev.wrote, wordEffect_cfgAddr, storeWord_cfgAddr hok, arrived_rd hcfg] at hq hrd
  have hvalue : d.rd (cfgAddr p) = portCfg p (s.d.rd (cfgAddr p)) v.toNat := by
    rw [hrd _ hcfg, linkLost_rd hcfgStat hcfgDown, Dev.rd_put_self, Nat.mod_eq_of_lt (portCfg_lt _ _ _)]
  have hlink : ((s.d.arrived h).put (cfgAddr p) (portCfg p (s.d.rd (cfgAddr p)) v.toNat)).link p = s.d.link p := by
    rw [Dev.link, Dev.rd_put_ne _ _ _ _ hstatCfg, arrived_rd hstat, Dev.link]
  refine ⟨d, congrArg Host.Outcome.next hd, hrep, fun hp => ?_, fun hp => ?_, ?_, fun hup => ?_, fun a ha => ?_⟩
  · rw [hvalue, portCfg, if_neg hp]
  · rw [hvalue, portCfg, if_pos hp]
  · rw [Dev.link, hrd _ hstat]
    exact linkLost_link _ p
  · rw [hrd _ hdown, linkLost_counts (hlink.trans hup), Dev.rd_put_ne _ _ _ _ hdownCfg, arrived_rd hdown]
  · exact ((((quiet_arrived s.d h).chain (quiet_put _ _ _ hpage)).chain (quiet_linkLost _ p)).chain hq).words a ha

/-! QP_ENABLE and QP_DISABLE (R371, R373). -/

theorem bit_eq_testBit (n i : Nat) : bit n i = n.testBit i := (Nat.testBit_eq_decide_div_mod_eq).symm

/-- The row of NET_Ss_QP_CTRL. -/
def qpCtrlRow : Row :=
  ⟨0xc1000, [(64, 0x40)], .rw, 0, [⟨31, 29, .plain, .any⟩, ⟨24, 24, .plain, .any⟩, ⟨17, 16, .plain, .rng 0 2⟩]⟩

theorem rowOf_qpCtrl : ∀ i < 64, rowOf (Reg.NET_S_QP_CTRL i) = some qpCtrlRow := by decide +kernel

/-- The words of NET that belong to sessions lie behind every counter of requests and frames. -/
theorem counted_session {a : Nat} (ha : 0x0C1000 ≤ a) : counted a = false := by
  rw [counted, List.contains_eq_mem, decide_eq_false_iff_not]
  intro hmem
  have hbelow : ∀ b ∈ [Reg.NET_P_RX_FRAME_CNT 0, Reg.NET_P_RX_FRAME_CNT 1, Reg.NET_P_RX_FRAME_CNT 2,
      Reg.NET_P_TX_FRAME_CNT 0, Reg.NET_P_TX_FRAME_CNT 1, Reg.NET_P_TX_FRAME_CNT 2, Reg.NET_SKM_RX_CNT,
      Reg.NET_SKM_ERR_CNT], b < 0x0C1000 := by decide
  have hlt := hbelow a hmem
  omega

theorem qpWritten_enabled {d : Dev} {n old : Nat} (hold : bit old 31 = false)
    (hon : bit (d.rd (Reg.NET_S_QP_CTRL (n - 1))) 31 = true) :
    ((d.qpWritten n old).qp n).st = 1 ∧ ((d.qpWritten n old).qp n).cause = 0 := by
  simp [Dev.qpWritten, hold, hon, Dev.modQp, Dev.qp]

theorem qpWritten_disabled {d : Dev} {n old : Nat} (hold : bit old 31 = true)
    (hon : bit (d.rd (Reg.NET_S_QP_CTRL (n - 1))) 31 = false) : ((d.qpWritten n old).qp n).st = 0 := by
  simp [Dev.qpWritten, hold, hon, Dev.modQp, Dev.qp, Dev.flushWrites, Dev.modPort]

theorem qpWritten_regs (d : Dev) (n old : Nat) : (d.qpWritten n old).regs = d.regs := by
  unfold Dev.qpWritten
  dsimp only
  split
  · rfl
  · split <;> rfl

theorem wordEffect_qpCtrl {n : Nat} (h1 : 1 ≤ n) (h64 : n ≤ 64) (d0 d : Dev) (v : Word) :
    Dev.wordEffect d0 d (Reg.NET_S_QP_CTRL (n - 1)) v = d.qpWritten n (d0.rd (Reg.NET_S_QP_CTRL (n - 1))) := by
  have hne {c : Nat} (hc : c < 0x0C1000 ∨ 0x0C2000 ≤ c) : Reg.NET_S_QP_CTRL (n - 1) ≠ c := by
    rw [Reg.NET_S_QP_CTRL]
    omega
  have hcfg : ¬ (Reg.NET_S_QP_CTRL (n - 1) = Reg.NET_P_CFG 0 ∨ Reg.NET_S_QP_CTRL (n - 1) = Reg.NET_P_CFG 1 ∨
      Reg.NET_S_QP_CTRL (n - 1) = Reg.NET_SG_CFG) :=
    not_or.mpr ⟨hne (by decide), not_or.mpr ⟨hne (by decide), hne (by decide)⟩⟩
  have hpage : pageSes (Reg.NET_S_QP_CTRL (n - 1)) = none := by
    rw [pageSes, ixOf, if_neg (by rw [Reg.NET_S_QP_CTRL]; omega), Option.map_none]
  rw [Dev.wordEffect, if_neg (hne (by decide)), if_neg (hne (by decide)), if_neg (hne (by decide)),
    if_neg (hne (by decide)), if_neg (hne (by decide)), if_neg (hne (by decide)), if_neg hcfg, if_neg (hne (by decide)),
    hpage, netSes_qpCtrl h1 h64]
  exact if_pos rfl

/-- An accepted write of a queue pair's control word, and what EN makes of the queue pair. -/
theorem writeOne_qpCtrl {h : Req} {v : Word} {s : State} (hr : Ready h s.d) (h1 : 1 ≤ h.session) (h64 : h.session ≤ 64)
    (hok : Writable s.d h.session (Reg.NET_S_QP_CTRL (h.session - 1)) v) :
    ∃ d e : Dev, s.writeOne h (Reg.NET_S_QP_CTRL (h.session - 1)) v = { s with d := d } ∧ Replied d h 0x11 stOk wroteAll ∧
      d.rd (Reg.NET_S_QP_CTRL (h.session - 1)) = v.toNat ∧ (∀ a, a / 65536 ≠ 12 → d.rd a = s.d.rd a) ∧
      e.rd (Reg.NET_S_QP_CTRL (h.session - 1)) = v.toNat ∧
      d.qp h.session = (e.qpWritten h.session (s.d.rd (Reg.NET_S_QP_CTRL (h.session - 1)))).qp h.session := by
  have haddr : Reg.NET_S_QP_CTRL (h.session - 1) = 0xc1000 + 0x40 * (h.session - 1) := rfl
  have hcnt : counted (Reg.NET_S_QP_CTRL (h.session - 1)) = false := counted_session (by omega)
  have hdma : ixOf (Reg.DMA_CH_CTRL 0) 0x20 16 (Reg.NET_S_QP_CTRL (h.session - 1)) = none :=
    if_neg (by rw [Reg.DMA_CH_CTRL]; omega)
  obtain ⟨d, hd, hrep, hq, hrd⟩ := writeOne_accepted hr (by omega) hok hdma
  rw [Dev.wrote, wordEffect_qpCtrl h1 h64, storeWord_plain hok (rowOf_qpCtrl _ (by omega)) rfl, arrived_rd hcnt] at hq hrd
  have hput : ((s.d.arrived h).put (Reg.NET_S_QP_CTRL (h.session - 1)) v.toNat).rd (Reg.NET_S_QP_CTRL (h.session - 1)) =
      v.toNat := (Dev.rd_put_self _ _ _).trans (Nat.mod_eq_of_lt v.isLt)
  refine ⟨d, _, hd, hrep, ?_, fun a ha => ?_, hput, ?_⟩
  · rw [hrd _ hcnt, Dev.rd, qpWritten_regs]
    exact hput
  · rw [hq.words a ha, Dev.rd, qpWritten_regs]
    exact ((quiet_arrived s.d h).chain (quiet_put _ _ _ (by omega))).words a ha
  · rw [Dev.qp, hq.qps, Dev.qp]

theorem does_qpEnable (h : Req) (v : Word) (s : State) (hr : Ready h s.d) (h1 : 1 ≤ h.session) (h64 : h.session ≤ 64)
    (hoff : bit (s.d.rd (Reg.NET_S_QP_CTRL (h.session - 1))) 31 = false)
    (hok : Writable s.d h.session (Reg.NET_S_QP_CTRL (h.session - 1)) (v ||| 0x80000000)) :
    Does (.qpEnable h h.session v) s fun d => (d.qp h.session).st = 1 ∧ (d.qp h.session).cause = 0 ∧
      d.rd (Reg.NET_S_QP_CTRL (h.session - 1)) = (v ||| 0x80000000).toNat ∧ Replied d h 0x11 stOk wroteAll ∧
      ∀ a, a / 65536 ≠ 12 → d.rd a = s.d.rd a := by
  obtain ⟨d, e, hd, hrep, hrd, hwords, he, hqp⟩ := writeOne_qpCtrl hr h1 h64 hok
  have hon : bit (e.rd (Reg.NET_S_QP_CTRL (h.session - 1))) 31 = true := by
    rw [he, bit_eq_testBit, ← BitVec.getLsbD, BitVec.getLsbD_or]
    exact Bool.or_true _
  obtain ⟨hst, hcause⟩ := qpWritten_enabled hoff hon
  exact ⟨d, congrArg Host.Outcome.next hd, hqp ▸ hst, hqp ▸ hcause, hrd, hrep, hwords⟩

theorem does_qpDisable (h : Req) (s : State) (hr : Ready h s.d) (h1 : 1 ≤ h.session) (h64 : h.session ≤ 64)
    (hon : bit (s.d.rd (Reg.NET_S_QP_CTRL (h.session - 1))) 31 = true)
    (hok : Writable s.d h.session (Reg.NET_S_QP_CTRL (h.session - 1))
      (w32 (clrBit (s.d.rd (Reg.NET_S_QP_CTRL (h.session - 1))) 31))) :
    Does (.qpDisable h h.session) s fun d => (d.qp h.session).st = 0 ∧
      bit (d.rd (Reg.NET_S_QP_CTRL (h.session - 1))) 31 = false ∧ Replied d h 0x11 stOk wroteAll ∧
      ∀ a, a / 65536 ≠ 12 → d.rd a = s.d.rd a := by
  obtain ⟨d, e, hd, hrep, hrd, hwords, he, hqp⟩ := writeOne_qpCtrl hr h1 h64 hok
  have hclear : bit (w32 (clrBit (s.d.rd (Reg.NET_S_QP_CTRL (h.session - 1))) 31)).toNat 31 = false := by
    rw [clrBit, if_pos hon, BitVec.toNat_ofNat]
    simp only [bit, beq_iff_eq, beq_eq_false_iff_ne] at hon ⊢
    omega
  exact ⟨d, congrArg Host.Outcome.next hd, hqp ▸ qpWritten_disabled hon (he ▸ hclear), hrd ▸ hclear, hrep, hwords⟩

/-- Settles O18: the check of a one-word packet decides, the word is stored, and its own effect, the ring's reset, the
link's loss or the queue pair's change of state, is all that the request does beyond its answer. -/
theorem sessionAndPortWords : Obligations.SessionAndPortWords :=
  ⟨does_dconsWrite, does_drngLoWrite, does_dconsWrite_other, does_netPortCfgWrite, does_qpEnable, does_qpDisable⟩

end Sys2Proof.Machine
end

section
/-! PROOFS. Page delivery over RDMA and its end (R200, R201, R203). -/

namespace Sys2Proof.Machine

open Sys2Proof

/-! What sending, receiving and queue pairs leave of the pages (R201, R202). -/

/-- The pages, the mode, the holds, the sequencer, the faults and the words of PAGE are as before. -/
structure PagesKept (d d' : Dev) : Prop where
  pages : d'.pages = d.pages
  mode : d'.mode = d.mode
  hold : d'.hold = d.hold
  seq : d'.seq = d.seq
  flt : d'.flt = d.flt
  words : ∀ a, a / 65536 = 5 → d'.rd a = d.rd a

theorem PagesKept.refl (d : Dev) : PagesKept d d := ⟨rfl, rfl, rfl, rfl, rfl, fun _ _ => rfl⟩

theorem PagesKept.trans {a b c : Dev} (h : PagesKept a b) (g : PagesKept b c) : PagesKept a c where
  pages := g.pages.trans h.pages
  mode := g.mode.trans h.mode
  hold := g.hold.trans h.hold
  seq := g.seq.trans h.seq
  flt := g.flt.trans h.flt
  words x hx := (g.words x hx).trans (h.words x hx)

theorem Quiet.pagesKept {d d' : Dev} (h : Quiet d d') : PagesKept d d' :=
  ⟨h.pages, h.mode, h.hold, h.seq, h.flt, fun a ha => h.words a (by omega)⟩

theorem pagesKept_foldl {α : Type} {f : Dev → α → Dev} (hf : ∀ d x, PagesKept d (f d x)) (l : List α) (d : Dev) :
    PagesKept d (l.foldl f d) := by
  induction l generalizing d with
  | nil => exact PagesKept.refl d
  | cons x l ih => exact (hf d x).trans (ih (f d x))

theorem pagesKept_modQp (d : Dev) (n : Nat) (f : Qp → Qp) : PagesKept d (d.modQp n f) :=
  ⟨rfl, rfl, rfl, rfl, rfl, fun _ _ => rfl⟩

theorem pagesKept_modChan (d : Dev) (n : Nat) (f : Chan → Chan) : PagesKept d (d.modChan n f) :=
  ⟨rfl, rfl, rfl, rfl, rfl, fun _ _ => rfl⟩

theorem pagesKept_request1 (d : Dev) (n : Nat) : PagesKept d (d.request1 n) := by
  unfold Dev.request1
  dsimp only
  split
  · exact pagesKept_modChan d n _
  · split
    · refine ⟨rfl, rfl, rfl, rfl, rfl, fun a ha => Dev.rd_put_ne d _ a _ ?_⟩
      rintro rfl
      exact absurd ha (by decide)
    · exact pagesKept_modChan d n _

theorem pagesKept_dmaRequests (d : Dev) (src n : Nat) : PagesKept d (d.dmaRequests src n) := by
  refine pagesKept_foldl (fun d k => ?_) _ d
  dsimp only
  split
  · exact pagesKept_request1 d k
  · exact PagesKept.refl d

theorem pagesKept_jobEndCheck (d : Dev) (serial : Nat) : PagesKept d (d.jobEndCheck serial) := by
  unfold Dev.jobEndCheck
  split
  · exact PagesKept.refl d
  · next j _ =>
    split
    · exact { (quiet_jobEv d serial 5 (beW j.id ++ be 4 j.delivered)).pagesKept with }
    · exact PagesKept.refl d

theorem pagesKept_ite {d x y : Dev} {c : Prop} [Decidable c] (hx : PagesKept d x) (hy : PagesKept d y) :
    PagesKept d (if c then x else y) := by
  split
  · exact hx
  · exact hy

theorem pagesKept_ecn (d : Dev) (n : Nat) (ce : Bool) : PagesKept d (d.ecn n ce) :=
  pagesKept_ite ((pagesKept_modQp d n _).trans (quiet_send _ _ _ _).pagesKept) (PagesKept.refl d)

theorem delivPage_congr {d d' : Dev} (h : d'.pages.list = d.pages.list) (x : Deliv) : d'.delivPage x = d.delivPage x := by
  rw [Dev.delivPage, h, Dev.delivPage]

/-! A delivered page is released and counted (R203). -/

/-- The delivery is over: its page is released and counted, and nothing else of the pages changes. -/
structure Released (d d' : Dev) (p : Page) : Prop where
  deliv : d'.pages.deliv = none
  list : d'.pages.list = d.pages.list.filter (fun q => !(q == p))
  count : d'.rd Reg.PAGE_DELIV_CNT = min 0xFFFFFFFF (d.rd Reg.PAGE_DELIV_CNT + 1)
  last : d'.rd Reg.PAGE_LAST_ID = p.id.toNat
  mode : d'.mode = d.mode
  hold : d'.hold = d.hold
  seq : d'.seq = d.seq
  flt : d'.flt = d.flt

/-- The page's buffer is free, its job and the words of PAGE count it; nothing has been told of it yet. -/
def Dev.released (d : Dev) (p : Page) : Dev :=
  (({ d with
    pages := { d.pages with list := d.pages.list.filter (fun (q : Page) => !(q == p)), deliv := none, wait := none }
    cox := { d.cox with rel := (d.now, p.alloc) :: d.cox.rel }
    jobs := d.jobs.map (fun (j : Job) => if j.serial == p.serial then { j with delivered := j.delivered + 1 } else j) } : Dev).bump
      Reg.PAGE_DELIV_CNT).put Reg.PAGE_LAST_ID p.id.toNat

theorem delivered_eq {d : Dev} {x : Deliv} {p : Page} {b : List Byte} (hx : d.delivPage x = some (p, b)) :
    d.delivered x = (((d.released p).jobEv p.serial 4 (beW p.job ++ beW p.id ++ be 4 p.mflags)).dmaRequests 3 0).jobEndCheck
      p.serial := by
  simp only [Dev.delivered, hx]
  rfl

theorem released_released (d : Dev) (p : Page) : Released d (d.released p) p where
  deliv := rfl
  list := rfl
  count := by
    refine (Dev.rd_put_ne _ _ _ _ (by decide)).trans ((Dev.rd_put_self _ _ _).trans (Nat.mod_eq_of_lt ?_))
    omega
  last := (Dev.rd_put_self _ _ _).trans (Nat.mod_eq_of_lt p.id.isLt)
  mode := rfl
  hold := rfl
  seq := rfl
  flt := rfl

theorem Released.kept {d e d' : Dev} {p : Page} (h : Released d e p) (hk : PagesKept e d') : Released d d' p where
  deliv := hk.pages ▸ h.deliv
  list := hk.pages ▸ h.list
  count := (hk.words _ (by decide)).trans h.count
  last := (hk.words _ (by decide)).trans h.last
  mode := hk.mode.trans h.mode
  hold := hk.hold.trans h.hold
  seq := hk.seq.trans h.seq
  flt := hk.flt.trans h.flt

theorem PagesKept.released {d e d' : Dev} {p : Page} (hk : PagesKept d e) (h : Released e d' p) : Released d d' p where
  deliv := h.deliv
  list := hk.pages ▸ h.list
  count := h.count.trans (by rw [hk.words _ (by decide)])
  last := h.last
  mode := h.mode.trans hk.mode
  hold := h.hold.trans hk.hold
  seq := h.seq.trans hk.seq
  flt := h.flt.trans hk.flt

theorem delivered_released {d : Dev} {x : Deliv} {p : Page} {b : List Byte} (hx : d.delivPage x = some (p, b)) :
    Released d (d.delivered x) p := by
  rw [delivered_eq hx]
  exact (released_released d p).kept (((quiet_jobEv _ _ _ _).pagesKept.trans (pagesKept_dmaRequests _ 3 0)).trans
    (pagesKept_jobEndCheck _ p.serial))

/-! An RDMA WRITE of the device (R201, R370). -/

theorem quiet_rdmaSend (d : Dev) (n addr : Nat) (rkey : Word) (data : List Byte) (k : Nat) :
    Quiet d (d.rdmaSend n addr rkey data k) := Quiet.foldl _ (fun d _ => quiet_send d _ 3 _) _ d

/-- Beyond its queue pair an RDMA WRITE only sends. -/
theorem quiet_rdmaWrite {n : Nat} (hn : n ≤ 64) (d : Dev) (addr : Nat) (rkey : Word) (data : List Byte) :
    ∃ f, Quiet (d.modQp n f) (d.rdmaWrite n addr rkey data) :=
  ⟨_, (quiet_put _ _ _ (by rw [Reg.NET_S_TX_MIB]; omega)).chain (quiet_rdmaSend _ n addr rkey data 0)⟩

theorem pagesKept_rdmaWrite {n : Nat} (hn : n ≤ 64) (d : Dev) (addr : Nat) (rkey : Word) (data : List Byte) :
    PagesKept d (d.rdmaWrite n addr rkey data) := by
  obtain ⟨f, hq⟩ := quiet_rdmaWrite hn d addr rkey data
  exact (pagesKept_modQp d n f).trans hq.pagesKept

/-! DELIVERY_START (R201). -/

/-- Where the data ring takes a container: at the next multiple of 4,096, or at its start where the rest is too short. -/
def Dev.ringPlace (d : Dev) (n len : Nat) : Nat :=
  let at_ := roundUp (d.rd (Reg.PAGE_S_DPROD (n - 1))) 4096
  if d.rd (Reg.PAGE_S_DRING_LEN (n - 1)) * 4096 < at_ + len then 0 else at_

theorem ringPlace_aligned (d : Dev) (n len : Nat) : d.ringPlace n len % 4096 = 0 := by
  simp only [Dev.ringPlace]
  split
  · rfl
  · exact Nat.mul_mod_left _ _

theorem ringPlace_inside {d : Dev} {n len : Nat} (hlen : len ≤ d.rd (Reg.PAGE_S_DRING_LEN (n - 1)) * 4096) :
    d.ringPlace n len + len ≤ d.rd (Reg.PAGE_S_DRING_LEN (n - 1)) * 4096 := by
  simp only [Dev.ringPlace]
  split <;> omega

/-- The delivery of a page that has just begun over RDMA. -/
def rdmaDeliv (p : Page) (b : List Byte) (n at_ : Nat) : Deliv := ⟨p.id, p.serial, n, true, at_, false, b.length, 0, 0, []⟩

/-- The pages with a delivery under way and nothing waiting for room. -/
def Dev.delivers (d : Dev) (x : Deliv) : Dev :=
  { d with pages := { d.pages with tooSmall := none, wait := none, deliv := some x } }

/-- With an empty ring that holds the container and 4,096 bytes more, the container is written. -/
theorem startRdma_room {d : Dev} {p : Page} {b : List Byte} {n : Nat} (hst : (d.qp n).st = 1)
    (hring : d.rd (Reg.PAGE_S_CRING_N (n - 1)) ≠ 0)
    (hempty : d.rd (Reg.PAGE_S_DPROD (n - 1)) = d.rd (Reg.PAGE_S_DCONS (n - 1)))
    (hlen : b.length + 4096 ≤ d.rd (Reg.PAGE_S_DRING_LEN (n - 1)) * 4096) :
    d.startRdma p b n = (d.delivers (rdmaDeliv p b n (d.ringPlace n b.length))).sendContainer n (d.ringPlace n b.length) b := by
  have hgo : ¬ ((d.qp n).st ≠ 1 ∨ d.rd (Reg.PAGE_S_DRING_LEN (n - 1)) * 4096 = 0 ∨
      d.rd (Reg.PAGE_S_CRING_N (n - 1)) = 0) := by
    omega
  have hfits : ¬ d.rd (Reg.PAGE_S_DRING_LEN (n - 1)) * 4096 < b.length := by omega
  have hroom : ¬ (if d.rd (Reg.PAGE_S_DPROD (n - 1)) = d.rd (Reg.PAGE_S_DCONS (n - 1)) then
      d.rd (Reg.PAGE_S_DRING_LEN (n - 1)) * 4096 else (d.rd (Reg.PAGE_S_DCONS (n - 1)) +
        d.rd (Reg.PAGE_S_DRING_LEN (n - 1)) * 4096 - d.rd (Reg.PAGE_S_DPROD (n - 1))) %
          (d.rd (Reg.PAGE_S_DRING_LEN (n - 1)) * 4096)) < b.length + 4096 := by
    rw [if_pos hempty]
    omega
  rw [Dev.startRdma]
  dsimp only
  rw [if_neg hgo, if_neg hfits]
  exact if_neg hroom

theorem does_deliveryStart (p : Page) (b : List Byte) (n : Nat) (s : State) (_ : 1 ≤ n) (h64 : n ≤ 64)
    (hs : s.d.served = true) (hidle : s.d.pages.deliv = none) (hnext : s.d.nextDelivery = some (p, b, n))
    (hmode : s.d.delivMode n = 1) (hst : (s.d.qp n).st = 1) (hring : s.d.rd (Reg.PAGE_S_CRING_N (n - 1)) ≠ 0)
    (hempty : s.d.rd (Reg.PAGE_S_DPROD (n - 1)) = s.d.rd (Reg.PAGE_S_DCONS (n - 1)))
    (hlen : b.length + 4096 ≤ s.d.rd (Reg.PAGE_S_DRING_LEN (n - 1)) * 4096) :
    Does .deliveryStart s fun d => (∃ x, d.pages.deliv = some x ∧ x.page = p.id ∧ x.serial = p.serial ∧ x.session = n ∧
        x.rdma = true ∧ x.record = false ∧ x.offset % 4096 = 0 ∧
        x.offset + b.length ≤ s.d.rd (Reg.PAGE_S_DRING_LEN (n - 1)) * 4096) ∧
      d.pages.list = s.d.pages.list ∧
      Quiet { s.d with pages := { s.d.pages with deliv := d.pages.deliv, wait := none, tooSmall := none }
                       net := { s.d.net with qps := d.net.qps } } d := by
  have hexec : exec .deliveryStart s = .next { s with d := s.d.startRdma p b n } := by
    have hinstr : exec .deliveryStart s = execDeliveryStart s := rfl
    simp [hinstr, execDeliveryStart, State.onDev, hs, hidle, hnext, hmode]
  rw [startRdma_room hst hring hempty hlen] at hexec
  obtain ⟨f, hq⟩ := quiet_rdmaWrite h64 (s.d.delivers (rdmaDeliv p b n (s.d.ringPlace n b.length)))
    (s.d.ringAt n (s.d.ringPlace n b.length)).1 (s.d.ringAt n (s.d.ringPlace n b.length)).2 b
  have hdeliv := congrArg Pages.deliv hq.pages
  refine ⟨_, hexec, ⟨_, hdeliv, rfl, rfl, rfl, rfl, rfl, ringPlace_aligned _ _ _, ringPlace_inside (by omega)⟩,
    (congrArg Pages.list hq.pages).trans rfl, ?_⟩
  exact { hq with
    pages := hq.pages.trans (congrArg (fun x => { s.d.pages with deliv := x, wait := none, tooSmall := none }) hdeliv.symm)
    qps := rfl }

/-! RDMA_ACK_RX (R201, R203, R373). -/

/-- The device once an acknowledgement on a queue pair has been taken. -/
def Dev.writeAcked (d : Dev) (n : Nat) : Dev :=
  (((d.free 38).2.qpRx n 1).ecn n ((d.free 38).1.getLsbD 0)).modQp n fun q => { q with resends := 0 }

theorem pagesKept_writeAcked (d : Dev) (n : Nat) : PagesKept d (d.writeAcked n) := by
  have hfree : PagesKept d (d.free 38).2 := ⟨rfl, rfl, rfl, rfl, rfl, fun _ _ => rfl⟩
  have hrx : PagesKept (d.free 38).2 ((d.free 38).2.qpRx n 1) := (quiet_put _ _ _ (netRx_page _)).pagesKept
  exact ((hfree.trans hrx).trans (pagesKept_ecn _ n _)).trans (pagesKept_modQp _ n _)

/-- The delivery with its container acknowledged. -/
def Deliv.sentAll (x : Deliv) : Deliv := { x with acked := max 1 x.sent }

theorem exec_rdmaAckRx {s : State} {x : Deliv} (hx : s.d.pages.deliv = some x) (hr : x.rdma = true) :
    exec .rdmaAckRx s = .next { s with d :=
      if x.record then (s.d.writeAcked x.session).delivered x
      else ((s.d.writeAcked x.session).modDeliv fun x => { x with acked := max 1 x.sent }).writeRecord x.sentAll } := by
  have hinstr : exec .rdmaAckRx s = execRdmaAckRx s := rfl
  rw [hinstr, execRdmaAckRx, State.onDev]
  simp only [hx]
  rw [if_neg (by simp [hr])]
  rfl

/-- A word whose reset value fits 32 bits reads below 2 ^ 32. -/
theorem rd_lt {a : Nat} (ha : resetWord a < 2 ^ 32) (d : Dev) : d.rd a < 2 ^ 32 := by
  have hset (c : List (Nat × Word)) : rdA c a < 2 ^ 32 := by
    rw [rdA]
    split
    · exact BitVec.isLt _
    · exact ha
  rw [Dev.rd]
  split
  · exact hset _
  · exact hset _

theorem resetWord_cringN : ∀ i < 64, resetWord (Reg.PAGE_S_CRING_N i) = 0 := by decide +kernel

/-- The completion record of a delivery on its way. -/
def Dev.recordSent (d : Dev) (x : Deliv) (p : Page) (b : List Byte) : Dev :=
  d.sendRecord x.session (d.rd (Reg.PAGE_S_CPROD (x.session - 1)))
    (recordBytes x p b ((aget d.pages.rseq x.session).getD 0 + 1))

theorem pagesKept_recordSent {x : Deliv} (h64 : x.session ≤ 64) (d : Dev) (p : Page) (b : List Byte) :
    PagesKept d (d.recordSent x p b) := pagesKept_rdmaWrite h64 d _ _ _

/-- A record counts in its session's sequence, and its delivery waits for its acknowledgement. -/
def Dev.recordNoted (d : Dev) (n r : Nat) : Dev :=
  ({ d with pages := { d.pages with rseq := aset d.pages.rseq n r } }).modDeliv fun x => { x with record := true }

theorem recordNoted_rd (d : Dev) (n r a : Nat) : (d.recordNoted n r).rd a = d.rd a := rfl

/-- With a free slot in the record ring the record is written, and the producer words advance. -/
theorem writeRecord_eq {d : Dev} {x : Deliv} {p : Page} {b : List Byte} (hx : d.delivPage x = some (p, b))
    (hroom : ¬ (d.rd (Reg.PAGE_S_CRING_N (x.session - 1)) = 0 ∨
      (d.rd (Reg.PAGE_S_CPROD (x.session - 1)) + 1) % d.rd (Reg.PAGE_S_CRING_N (x.session - 1)) =
        d.rd (Reg.PAGE_S_CCONS (x.session - 1)) % d.rd (Reg.PAGE_S_CRING_N (x.session - 1)))) :
    d.writeRecord x =
      (((d.recordSent x p b).put (Reg.PAGE_S_CPROD (x.session - 1))
          ((d.rd (Reg.PAGE_S_CPROD (x.session - 1)) + 1) % d.rd (Reg.PAGE_S_CRING_N (x.session - 1)))).put
        (Reg.PAGE_S_DPROD (x.session - 1)) (roundUp (x.offset + b.length) 4096 %
          max 1 (d.rd (Reg.PAGE_S_DRING_LEN (x.session - 1)) * 4096))).recordNoted x.session
        ((aget d.pages.rseq x.session).getD 0 + 1) := by
  simp only [Dev.writeRecord, hx, if_neg hroom, Dev.recordNoted, Dev.recordSent]

/-- A slot of a ring of at least two fits a word. -/
theorem mod_mod_word {c n : Nat} (h2 : 2 ≤ n) (hn : n < 2 ^ 32) : c % n % 2 ^ 32 = c % n :=
  Nat.mod_eq_of_lt (Nat.lt_trans (Nat.mod_lt c (by omega)) hn)

/-- What the completion record's writing leaves of the pages: the delivery waits for it, and CPROD has advanced. -/
structure RecordWritten (d d' : Dev) (n : Nat) : Prop where
  deliv : d'.pages.deliv = d.pages.deliv.map fun x => { x with record := true }
  cprod : d'.rd (Reg.PAGE_S_CPROD (n - 1)) = (d.rd (Reg.PAGE_S_CPROD (n - 1)) + 1) % d.rd (Reg.PAGE_S_CRING_N (n - 1))
  list : d'.pages.list = d.pages.list
  mode : d'.mode = d.mode
  hold : d'.hold = d.hold
  seq : d'.seq = d.seq

theorem recordNoted_written {d e : Dev} (hk : PagesKept d e) {n : Nat}
    (hword : (d.rd (Reg.PAGE_S_CPROD (n - 1)) + 1) % d.rd (Reg.PAGE_S_CRING_N (n - 1)) % 2 ^ 32 =
      (d.rd (Reg.PAGE_S_CPROD (n - 1)) + 1) % d.rd (Reg.PAGE_S_CRING_N (n - 1))) (v r : Nat) :
    RecordWritten d (((e.put (Reg.PAGE_S_CPROD (n - 1))
      ((d.rd (Reg.PAGE_S_CPROD (n - 1)) + 1) % d.rd (Reg.PAGE_S_CRING_N (n - 1)))).put (Reg.PAGE_S_DPROD (n - 1))
        v).recordNoted n r) n where
  deliv := by
    rw [← hk.pages]
    rfl
  cprod := by
    rw [recordNoted_rd, Dev.rd_put_ne _ _ _ _ (by rw [Reg.PAGE_S_CPROD, Reg.PAGE_S_DPROD]; omega), Dev.rd_put_self, hword]
  list := (congrArg Pages.list hk.pages).trans rfl
  mode := hk.mode
  hold := hk.hold
  seq := hk.seq

/-- With a free slot in the record ring the completion record is written (R201). -/
theorem writeRecord_room {d : Dev} {x : Deliv} {p : Page} {b : List Byte} (hx : d.delivPage x = some (p, b))
    (h64 : x.session ≤ 64) (h2 : 2 ≤ d.rd (Reg.PAGE_S_CRING_N (x.session - 1)))
    (hfree : d.rd (Reg.PAGE_S_CPROD (x.session - 1)) = d.rd (Reg.PAGE_S_CCONS (x.session - 1)))
    (hslot : d.rd (Reg.PAGE_S_CPROD (x.session - 1)) < d.rd (Reg.PAGE_S_CRING_N (x.session - 1))) :
    RecordWritten d (d.writeRecord x) x.session := by
  have hlt : d.rd (Reg.PAGE_S_CRING_N (x.session - 1)) < 2 ^ 32 :=
    rd_lt (by rw [resetWord_cringN _ (by omega)]; decide) d
  have hroom : ¬ (d.rd (Reg.PAGE_S_CRING_N (x.session - 1)) = 0 ∨
      (d.rd (Reg.PAGE_S_CPROD (x.session - 1)) + 1) % d.rd (Reg.PAGE_S_CRING_N (x.session - 1)) =
        d.rd (Reg.PAGE_S_CCONS (x.session - 1)) % d.rd (Reg.PAGE_S_CRING_N (x.session - 1))) := by
    rw [← hfree, Nat.mod_eq_of_lt hslot]
    rcases Nat.lt_or_ge (d.rd (Reg.PAGE_S_CPROD (x.session - 1)) + 1) (d.rd (Reg.PAGE_S_CRING_N (x.session - 1))) with h | h
    · rw [Nat.mod_eq_of_lt h]
      omega
    · rw [Nat.le_antisymm (by omega) h, Nat.mod_self]
      omega
  rw [writeRecord_eq hx hroom]
  exact recordNoted_written (pagesKept_recordSent h64 d p b) (mod_mod_word h2 hlt) _ _

theorem does_rdmaAckRx_record {x : Deliv} {p : Page} {b : List Byte} {s : State} (hx : s.d.pages.deliv = some x)
    (hr : x.rdma = true) (hp : s.d.delivPage x = some (p, b)) (hrec : x.record = true) :
    Does .rdmaAckRx s fun d => d.pages.deliv = none ∧ d.pages.list = s.d.pages.list.filter (fun q => !(q == p)) ∧
      d.rd Reg.PAGE_DELIV_CNT = min 0xFFFFFFFF (s.d.rd Reg.PAGE_DELIV_CNT + 1) ∧ d.rd Reg.PAGE_LAST_ID = p.id.toNat ∧
      d.mode = s.d.mode ∧ d.hold = s.d.hold ∧ d.seq = s.d.seq ∧ d.flt = s.d.flt := by
  have hk := pagesKept_writeAcked s.d x.session
  have hexec := exec_rdmaAckRx hx hr
  rw [if_pos hrec] at hexec
  obtain ⟨hdeliv, hlist, hcount, hlast, hmode, hhold, hseq, hflt⟩ :=
    hk.released (delivered_released ((delivPage_congr (congrArg Pages.list hk.pages) x).trans hp))
  exact ⟨_, hexec, hdeliv, hlist, hcount, hlast, hmode, hhold, hseq, hflt⟩

theorem does_rdmaAckRx_container {x : Deliv} {p : Page} {b : List Byte} {s : State} (hx : s.d.pages.deliv = some x)
    (hr : x.rdma = true) (hp : s.d.delivPage x = some (p, b)) (hrec : x.record = false) (h1 : 1 ≤ x.session)
    (h64 : x.session ≤ 64) (h2 : 2 ≤ s.d.rd (Reg.PAGE_S_CRING_N (x.session - 1)))
    (hfree : s.d.rd (Reg.PAGE_S_CPROD (x.session - 1)) = s.d.rd (Reg.PAGE_S_CCONS (x.session - 1)))
    (hslot : s.d.rd (Reg.PAGE_S_CPROD (x.session - 1)) < s.d.rd (Reg.PAGE_S_CRING_N (x.session - 1))) :
    Does .rdmaAckRx s fun d => (∃ y, d.pages.deliv = some y ∧ y.record = true ∧ y.page = x.page) ∧
      d.rd (Reg.PAGE_S_CPROD (x.session - 1)) =
        (s.d.rd (Reg.PAGE_S_CPROD (x.session - 1)) + 1) % s.d.rd (Reg.PAGE_S_CRING_N (x.session - 1)) ∧
      d.pages.list = s.d.pages.list ∧ d.mode = s.d.mode ∧ d.hold = s.d.hold ∧ d.seq = s.d.seq := by
  have hk := pagesKept_writeAcked s.d x.session
  have hexec := exec_rdmaAckRx hx hr
  rw [if_neg (by simp [hrec])] at hexec
  generalize s.d.writeAcked x.session = e at hk hexec
  have hword {a : Nat} (ha : a / 65536 = 5) : (e.modDeliv fun x => { x with acked := max 1 x.sent }).rd a = s.d.rd a :=
    hk.words a ha
  have hn := hword (a := Reg.PAGE_S_CRING_N (x.session - 1)) (by rw [Reg.PAGE_S_CRING_N]; omega)
  have hcp := hword (a := Reg.PAGE_S_CPROD (x.session - 1)) (by rw [Reg.PAGE_S_CPROD]; omega)
  have hcc := hword (a := Reg.PAGE_S_CCONS (x.session - 1)) (by rw [Reg.PAGE_S_CCONS]; omega)
  have hpages : e.pages.list = s.d.pages.list := congrArg Pages.list hk.pages
  have hpage : (e.modDeliv fun x => { x with acked := max 1 x.sent }).delivPage x.sentAll = some (p, b) :=
    (delivPage_congr hpages x.sentAll).trans hp
  obtain ⟨hdeliv, hcprod, hlist, hmode, hhold, hseq⟩ :=
    writeRecord_room (x := x.sentAll) hpage h64 (hn ▸ h2) (hcp.trans (hfree.trans hcc.symm)) (hcp ▸ hn ▸ hslot)
  have hwas : e.pages.deliv = some x := (congrArg Pages.deliv hk.pages).trans hx
  refine ⟨_, hexec, ⟨{ x.sentAll with record := true }, hdeliv.trans ?_, rfl, rfl⟩, hcprod.trans ?_,
    hlist.trans hpages, hmode.trans hk.mode, hhold.trans hk.hold, hseq.trans hk.seq⟩
  · rw [Dev.modDeliv, hwas]
    rfl
  · rw [← hn, ← hcp]
    rfl

end Sys2Proof.Machine
end

section
/-! PROOFS. Page delivery over UDP (R202, R203). -/

namespace Sys2Proof.Machine

open Sys2Proof

/-! Datagrams of a container (R202). -/

theorem resetWord_udpRetx : resetWord Reg.PAGE_UDP_RETX_CNT < 2 ^ 32 := by decide +kernel

/-- A saturating count does not fall. -/
theorem rd_le_bump {a : Nat} (ha : resetWord a < 2 ^ 32) (d : Dev) : d.rd a ≤ (d.bump a).rd a := by
  have hlt := rd_lt ha d
  have hcount : (d.bump a).rd a = min 0xFFFFFFFF (d.rd a + 1) % 2 ^ 32 := Dev.rd_put_self _ _ _
  omega

/-- The line stream has gone on: besides what sending changes, the delivery under way and the sequences of the sessions'
datagrams change, and what is sent again counts. -/
structure Streamed (d d' : Dev) : Prop where
  quiet : Quiet { d with pages := { d.pages with deliv := d'.pages.deliv, dseq := d'.pages.dseq }
                         regs := { d.regs with act := d'.regs.act } } d'
  sess : d'.sess = d.sess
  retx : d.rd Reg.PAGE_UDP_RETX_CNT ≤ d'.rd Reg.PAGE_UDP_RETX_CNT

theorem Streamed.refl (d : Dev) : Streamed d d := ⟨Quiet.refl d, rfl, Nat.le_refl _⟩

theorem Streamed.trans {a b c : Dev} (h : Streamed a b) (g : Streamed b c) : Streamed a c where
  quiet := by
    refine Quiet.chain (b := { b with pages := { b.pages with deliv := c.pages.deliv, dseq := c.pages.dseq }
                                      regs := { b.regs with act := c.regs.act } }) ?_ g.quiet
    exact { h.quiet with
      pages := congrArg (fun x : Pages => { x with deliv := c.pages.deliv, dseq := c.pages.dseq }) h.quiet.pages
      act := rfl }
  sess := g.sess.trans h.sess
  retx := Nat.le_trans h.retx g.retx

theorem Quiet.streamed {d d' : Dev} (h : Quiet d d') (hs : d'.sess = d.sess) : Streamed d d' where
  quiet := { h with pages := h.pages.trans (by rw [h.pages]), act := rfl }
  sess := hs
  retx := Nat.le_of_eq (h.words _ (by decide)).symm

theorem Streamed.list {d d' : Dev} (h : Streamed d d') : d'.pages.list = d.pages.list := by rw [h.quiet.pages]

theorem streamed_modDeliv (d : Dev) (f : Deliv → Deliv) : Streamed d (d.modDeliv f) :=
  ⟨Quiet.refl _, rfl, Nat.le_refl _⟩

theorem streamed_retx (d : Dev) (retx : Bool) : Streamed d (d.bumpIf retx Reg.PAGE_UDP_RETX_CNT) := by
  cases retx
  · exact Streamed.refl d
  · exact ⟨Quiet.refl _, rfl, rd_le_bump resetWord_udpRetx d⟩

theorem bumpIf_pages (d : Dev) (c : Bool) (a : Nat) : (d.bumpIf c a).pages = d.pages := by cases c <;> rfl

section Datagrams
variable (y : Session) (x : Deliv) (b : List Byte)

theorem streamed_sendData (d : Dev) (off : Nat) (last retx : Bool) (data : List Byte) :
    Streamed d (d.sendData y x off last retx data) := by
  unfold Dev.sendData
  dsimp only
  generalize aset d.pages.dseq _ _ = l
  have hseq : Streamed d { d with pages := { d.pages with dseq := l } } := ⟨Quiet.refl _, rfl, Nat.le_refl _⟩
  exact hseq.trans ((quiet_send _ _ 2 _).streamed (send_sess _ _ 2 _))

theorem sendData_deliv (d : Dev) (off : Nat) (last retx : Bool) (data : List Byte) :
    (d.sendData y x off last retx data).pages.deliv = d.pages.deliv := by
  rw [Dev.sendData, (quiet_send _ _ 2 _).pages]

theorem streamed_sendRange (retx : Bool) (stop lim n : Nat) (d : Dev) (off : Nat) :
    Streamed d (d.sendRange y x b retx stop lim n off).1 := by
  induction n generalizing d off with
  | zero => exact Streamed.refl d
  | succ n ih =>
    unfold Dev.sendRange
    dsimp only
    split
    · exact Streamed.refl d
    · exact ((streamed_sendData y x d off _ retx _).trans (streamed_retx _ retx)).trans (ih _ _)

theorem sendRange_deliv (retx : Bool) (stop lim n : Nat) (d : Dev) (off : Nat) :
    (d.sendRange y x b retx stop lim n off).1.pages.deliv = d.pages.deliv := by
  induction n generalizing d off with
  | zero => rfl
  | succ n ih =>
    unfold Dev.sendRange
    dsimp only
    split
    · rfl
    · rw [ih, bumpIf_pages, sendData_deliv]

/-- What is sent for the first time counts in no word of PAGE. -/
theorem sendRange_act (stop lim n : Nat) (d : Dev) (off : Nat) :
    (d.sendRange y x b false stop lim n off).1.regs.act = d.regs.act := by
  induction n generalizing d off with
  | zero => rfl
  | succ n ih =>
    unfold Dev.sendRange
    dsimp only
    split
    · rfl
    · exact (ih _ _).trans (quiet_send _ _ 2 _).act

theorem resendRanges_streamed (l : List (Nat × Nat)) (d : Dev) :
    Streamed d (l.foldl (fun d r => d.resendRange y x b r) d) ∧
      (l.foldl (fun d r => d.resendRange y x b r) d).pages.deliv = d.pages.deliv := by
  induction l generalizing d with
  | nil => exact ⟨Streamed.refl d, rfl⟩
  | cons r l ih =>
    obtain ⟨hstream, hdeliv⟩ := ih (d.resendRange y x b r)
    exact ⟨(streamed_sendRange y x b true _ _ _ d _).trans hstream,
      hdeliv.trans (sendRange_deliv y x b true _ _ _ d _)⟩

end Datagrams

/-- New data go out, and nothing of the delivery changes but how far it has been sent. -/
theorem pushUdp_streamed {d : Dev} {x : Deliv} {p : Page} {b : List Byte} {y : Session} (hx : d.pages.deliv = some x)
    (hr : x.rdma = false) (hp : d.delivPage x = some (p, b)) (hy : d.ses? x.session = some y) :
    Streamed d d.pushUdp ∧ d.pushUdp.regs.act = d.regs.act ∧
      ∃ k, d.pushUdp.pages.deliv = some { x with sent := max x.sent k } := by
  have hstream := streamed_sendRange y x b false b.length (d.udpLimit x) b.length d x.sent
  have hact := sendRange_act y x b b.length (d.udpLimit x) b.length d x.sent
  have hdeliv := (sendRange_deliv y x b false b.length (d.udpLimit x) b.length d x.sent).trans hx
  have hpush : d.pushUdp = (d.sendRange y x b false b.length (d.udpLimit x) b.length x.sent).1.modDeliv fun z =>
      { z with sent := max z.sent (d.sendRange y x b false b.length (d.udpLimit x) b.length x.sent).2 } := by
    simp [Dev.pushUdp, hx, hp, hy, hr]
  generalize d.sendRange y x b false b.length (d.udpLimit x) b.length x.sent = r at hstream hact hdeliv hpush
  rw [hpush]
  exact ⟨hstream.trans (streamed_modDeliv _ _), hact, r.2, by rw [Dev.modDeliv, hdeliv]; rfl⟩

/-! A client's datagram (R202). -/

theorem clientRx_quiet (d : Dev) (f : ClientData) : Quiet d (d.clientRx f) ∧ (d.clientRx f).sess = d.sess := by
  unfold Dev.clientRx
  split
  · exact ⟨quiet_bump d _ (netRx_page _), rfl⟩
  · exact ⟨Quiet.refl d, rfl⟩

theorem fromClient_clientRx (d : Dev) (e : Endpoint) (f : ClientData) (k : Nat) :
    (d.clientRx f).fromClient e f k = d.fromClient e f k := by
  obtain ⟨hq, hs⟩ := clientRx_quiet d f
  simp only [Dev.fromClient, Dev.ses?, hq.pages, hs]

theorem does_udpAckRx_none {e : Endpoint} {f : ClientData} {s : State} (hf : s.d.fromClient e f 2 = none) :
    Does (.udpAckRx e f) s fun d => d = s.d.clientRx f := by
  have hinstr : exec (.udpAckRx e f) s = execUdpAckRx e f s := rfl
  exact ⟨_, by simp only [hinstr, execUdpAckRx, State.onDev, fromClient_clientRx, hf], rfl⟩

theorem does_udpNakRx_none {e : Endpoint} {f : ClientData} {s : State} (hf : s.d.fromClient e f 3 = none) :
    Does (.udpNakRx e f) s fun d => d = s.d.clientRx f := by
  have hinstr : exec (.udpNakRx e f) s = execUdpNakRx e f s := rfl
  exact ⟨_, by simp only [hinstr, execUdpNakRx, State.onDev, fromClient_clientRx, hf], rfl⟩

/-! UDP_ACK_RX, UDP_NAK_RX and UDP_RTO on the container under way (R202, R203). -/

/-- The device once an ACK has moved the window. -/
def Dev.windowMoved (d : Dev) (off : Nat) : Dev := d.modDeliv fun x => { x with acked := off, rto := d.rd Reg.PAGE_UDP_RTO }

section Container
variable {x : Deliv} {p : Page} {b : List Byte} {y : Session} {e : Endpoint} {f : ClientData} {s : State}
  (hx : s.d.pages.deliv = some x) (hr : x.rdma = false) (hp : s.d.delivPage x = some (p, b))
  (hy : s.d.ses? x.session = some y)

include hp in
theorem clientRx_delivPage : (s.d.clientRx f).delivPage x = some (p, b) :=
  (delivPage_congr (congrArg Pages.list (clientRx_quiet s.d f).1.pages) x).trans hp

include hp in
theorem exec_udpAckRx (hf : s.d.fromClient e f 2 = some x) (hlo : x.acked < f.offset) (hhi : f.offset ≤ x.sent) :
    exec (.udpAckRx e f) s = .next { s with d :=
      if f.offset = b.length then ((s.d.clientRx f).windowMoved f.offset).delivered { x with acked := f.offset }
      else ((s.d.clientRx f).windowMoved f.offset).pushUdp } := by
  have hinstr : exec (.udpAckRx e f) s = execUdpAckRx e f s := rfl
  have hin : ¬ (f.offset ≤ x.acked ∨ x.sent < f.offset) := by omega
  simp only [hinstr, execUdpAckRx, State.onDev, fromClient_clientRx, hf, clientRx_delivPage hp, if_neg hin]
  rfl

include hp in
theorem does_udpAckRx_last (hf : s.d.fromClient e f 2 = some x) (hlo : x.acked < f.offset) (hhi : f.offset ≤ x.sent)
    (hlast : f.offset = b.length) :
    Does (.udpAckRx e f) s fun d => d.pages.deliv = none ∧
      d.pages.list = s.d.pages.list.filter (fun q => !(q == p)) ∧
      d.rd Reg.PAGE_DELIV_CNT = min 0xFFFFFFFF (s.d.rd Reg.PAGE_DELIV_CNT + 1) ∧ d.rd Reg.PAGE_LAST_ID = p.id.toNat ∧
      d.mode = s.d.mode ∧ d.hold = s.d.hold ∧ d.seq = s.d.seq ∧ d.flt = s.d.flt := by
  have hexec := exec_udpAckRx hp hf hlo hhi
  rw [if_pos hlast] at hexec
  have hmoved : Released ((s.d.clientRx f).windowMoved f.offset) _ p :=
    delivered_released (x := { x with acked := f.offset }) (clientRx_delivPage (f := f) hp)
  have hrx : Released (s.d.clientRx f) _ p := { hmoved with }
  obtain ⟨hdeliv, hlist, hcount, hid, hmode, hhold, hseq, hflt⟩ := (clientRx_quiet s.d f).1.pagesKept.released hrx
  exact ⟨_, hexec, hdeliv, hlist, hcount, hid, hmode, hhold, hseq, hflt⟩

include hx hr hp hy

theorem does_udpAckRx_more (hf : s.d.fromClient e f 2 = some x) (hlo : x.acked < f.offset) (hhi : f.offset ≤ x.sent)
    (hmore : f.offset ≠ b.length) :
    Does (.udpAckRx e f) s fun d =>
      (∃ z, d.pages.deliv = some z ∧ z.acked = f.offset ∧ x.sent ≤ z.sent ∧ z.rto = s.d.rd Reg.PAGE_UDP_RTO) ∧
      d.pages.list = s.d.pages.list ∧
      Quiet { s.d with pages := { s.d.pages with deliv := d.pages.deliv, dseq := d.pages.dseq } } d := by
  have hexec := exec_udpAckRx hp hf hlo hhi
  rw [if_neg hmore] at hexec
  obtain ⟨hq, hs⟩ := clientRx_quiet s.d f
  have hrto : (s.d.clientRx f).rd Reg.PAGE_UDP_RTO = s.d.rd Reg.PAGE_UDP_RTO := hq.words _ (by decide)
  have hmoved : ((s.d.clientRx f).windowMoved f.offset).pages.deliv =
      some { x with acked := f.offset, rto := s.d.rd Reg.PAGE_UDP_RTO } := by
    rw [Dev.windowMoved, Dev.modDeliv, hrto, hq.pages, hx]
    rfl
  obtain ⟨hpush, hact, k, hdeliv⟩ := pushUdp_streamed hmoved hr (clientRx_delivPage (f := f) hp)
    ((congrArg (aget · x.session) hs).trans hy)
  have hstream := ((hq.streamed hs).trans (streamed_modDeliv _ _)).trans hpush
  exact ⟨_, hexec, ⟨_, hdeliv, rfl, Nat.le_max_left _ _, rfl⟩, hstream.list,
    { hstream.quiet with act := hact.trans hq.act }⟩

theorem does_udpNakRx (hf : s.d.fromClient e f 3 = some x) :
    Does (.udpNakRx e f) s fun d => (∃ z, d.pages.deliv = some z ∧ z.acked = x.acked ∧ x.sent ≤ z.sent) ∧
      d.pages.list = s.d.pages.list ∧ s.d.rd Reg.PAGE_UDP_RETX_CNT ≤ d.rd Reg.PAGE_UDP_RETX_CNT ∧
      Quiet { s.d with pages := { s.d.pages with deliv := d.pages.deliv, dseq := d.pages.dseq }, regs := d.regs } d := by
  obtain ⟨hq, hs⟩ := clientRx_quiet s.d f
  have hpage : (s.d.clientRx f).delivPage x = some (p, b) := clientRx_delivPage hp
  have hses : (s.d.clientRx f).ses? x.session = some y := (congrArg (aget · x.session) hs).trans hy
  obtain ⟨hresent, hkept⟩ := resendRanges_streamed y x b (f.ranges.take 64) (s.d.clientRx f)
  obtain ⟨hpush, -, k, hdeliv⟩ := pushUdp_streamed (hkept.trans ((congrArg Pages.deliv hq.pages).trans hx)) hr
    ((delivPage_congr hresent.list x).trans hpage) ((congrArg (aget · x.session) hresent.sess).trans hses)
  have hstream := ((hq.streamed hs).trans hresent).trans hpush
  have hexec : exec (.udpNakRx e f) s = .next { s with d :=
      ((f.ranges.take 64).foldl (fun d r => d.resendRange y x b r) (s.d.clientRx f)).pushUdp } := by
    have hinstr : exec (.udpNakRx e f) s = execUdpNakRx e f s := rfl
    simp only [hinstr, execUdpNakRx, State.onDev, fromClient_clientRx, hf, hpage, hses]
  exact ⟨_, hexec, ⟨_, hdeliv, rfl, Nat.le_max_left _ _⟩, hstream.list, hstream.retx,
    { hstream.quiet with shd := rfl, held := rfl, heldBy := rfl, com := rfl, sn := rfl }⟩

theorem does_udpRto (hsent : x.acked < x.sent) :
    Does .udpRto s fun d => (∃ z, d.pages.deliv = some z ∧ z = { x with rto := min 100000 (2 * x.rto) }) ∧
      d.pages.list = s.d.pages.list ∧
      Quiet { s.d with pages := { s.d.pages with deliv := d.pages.deliv, dseq := d.pages.dseq }, regs := d.regs } d := by
  have hexec : exec .udpRto s = .next { s with d :=
      (s.d.sendRange y x b true x.sent (s.d.udpLimit x) b.length x.acked).1.modDeliv fun x =>
        { x with rto := min 100000 (2 * x.rto) } } := by
    have hinstr : exec .udpRto s = execUdpRto s := rfl
    have hgo : ¬ (x.rdma || decide (x.sent ≤ x.acked)) = true := by simpa [hr] using hsent
    simp only [hinstr, execUdpRto, State.onDev, hx, hp, hy, if_neg hgo]
  have hdeliv := (sendRange_deliv y x b true x.sent (s.d.udpLimit x) b.length s.d x.acked).trans hx
  have hstream := (streamed_sendRange y x b true x.sent (s.d.udpLimit x) b.length s.d x.acked).trans
    (streamed_modDeliv _ fun x => { x with rto := min 100000 (2 * x.rto) })
  refine ⟨_, hexec, ⟨_, ?_, rfl⟩, hstream.list,
    { hstream.quiet with shd := rfl, held := rfl, heldBy := rfl, com := rfl, sn := rfl }⟩
  rw [Dev.modDeliv, hdeliv]
  rfl

end Container

/-- Settles O44: over RDMA the pages, the mode and the words of PAGE are kept by all that an acknowledgement does before it
releases the page or writes its record; over UDP what streaming changes is followed from datagram to datagram. -/
theorem delivery : Obligations.Delivery := by
  refine ⟨does_deliveryStart, fun x p b s hx hr hp => ⟨does_rdmaAckRx_record hx hr hp, does_rdmaAckRx_container hx hr hp⟩,
    fun e f s => ⟨does_udpAckRx_none, does_udpNakRx_none⟩, fun x p b y e f s hx hr hp hy => ⟨?_, ?_, ?_, ?_⟩⟩
  · exact does_udpAckRx_last hp
  · exact does_udpAckRx_more hx hr hp hy
  · exact does_udpNakRx hx hr hp hy
  · exact does_udpRto hx hr hp hy

end Sys2Proof.Machine
end

section
/-! PROOFS. Lamp levels: shifts, latches and refreshes (R210 to R214, R396). -/

namespace Sys2Proof.Machine

open Sys2Proof

/-! Chains (R208). -/

/-- A chain after a change of one of them; a chain that is not there does not change. -/
theorem chain_modChain (d : Dev) (n k : Nat) (f : Chain → Chain) :
    (d.modChain n f).chain k = if k = n ∧ k < d.lamp.chains.length then f (d.chain k) else d.chain k := by
  unfold Dev.chain Dev.modChain nth modNth
  rw [List.getD_eq_getElem?_getD, List.getD_eq_getElem?_getD, List.getElem?_modify]
  by_cases hk : n = k <;> by_cases hl : k < d.lamp.chains.length <;> simp [hk, hl, eq_comm]

theorem chain_modChain_self {d : Dev} {n : Nat} (hn : n < d.lamp.chains.length) (f : Chain → Chain) :
    (d.modChain n f).chain n = f (d.chain n) := by
  rw [chain_modChain, if_pos ⟨rfl, hn⟩]

theorem chain_modChain_ne (d : Dev) {n k : Nat} (hk : k ≠ n) (f : Chain → Chain) :
    (d.modChain n f).chain k = d.chain k := by
  rw [chain_modChain, if_neg fun h => hk h.1]

/-- A number beyond the chains names a chain at rest. -/
theorem lt_of_chain_ne {d : Dev} {n : Nat} (h : d.chain n ≠ default) : n < d.lamp.chains.length := by
  refine Decidable.byContradiction fun hn => h ?_
  rw [Dev.chain, nth, List.getD_eq_getElem?_getD, List.getElem?_eq_none (Nat.le_of_not_lt hn), Option.getD_none]

theorem lt_of_shifting {d : Dev} {n : Nat} (h : (d.chain n).shifting = true) : n < d.lamp.chains.length :=
  lt_of_chain_ne fun hd => by rw [hd] at h; exact absurd h (by decide)

theorem lt_of_shifted {d : Dev} {n : Nat} (h : (d.chain n).shifted = true) : n < d.lamp.chains.length :=
  lt_of_chain_ne fun hd => by rw [hd] at h; exact absurd h (by decide)

/-! Shifts (R210, R396). -/

/-- A shift only sends its pattern. -/
theorem shiftOut_eq (d : Dev) (n : Nat) (w : Word) : d.shiftOut n w = { d with tx := (d.shiftOut n w).tx } := by
  unfold Dev.shiftOut
  split <;> rfl

theorem shiftOut_lamp (d : Dev) (n : Nat) (w : Word) : (d.shiftOut n w).lamp = d.lamp := by rw [shiftOut_eq]

theorem shiftOut_chain (d : Dev) (n k : Nat) (w : Word) : (d.shiftOut n w).chain k = d.chain k := by
  rw [Dev.chain, shiftOut_lamp, Dev.chain]

/-! LAMP_LEVEL (R214). -/

/-- A request that its own checks answer with a change makes this change, is otherwise quiet, and is replied to: `f` and
the checks are as `serve_changes` takes them. -/
theorem does_serve_changes {c : Instr} {s : State} {h : Req} {op st : Nat} {b : List Byte} {k : Dev → Answer}
    (hexec : exec c s = s.onDev fun d => d.serve h op k) (hr : Ready h s.d) (f : Dev → Dev) (hst : st ≠ stLater)
    (hk : ∀ e, Quiet s.d e → e.jobs = s.d.jobs → k e = (st, b, f e)) (hf : ∀ e, Quiet s.d e → Quiet (f s.d) (f e))
    (hses : ∀ e, (f e).sess = e.sess) : Does c s fun d => Quiet (f s.d) d ∧ Replied d h op st b :=
  ⟨_, hexec, serve_changes hr f hst hk hf hses⟩

/-- A level is accepted for a chain: it is shifted, or waits for the end of the shift that runs. -/
def Dev.takeLevel (d : Dev) (n : Nat) (w : Word) : Dev :=
  if (d.chain n).shifting then d.modChain n fun x => { x with next := some w }
  else (d.modChain n fun x => { x with want := some w, shifting := true, shifted := false }).shiftOut n w

/-- A level accepted concerns its chain alone, beyond what is sent. -/
theorem takeLevel_eq (d : Dev) (n : Nat) (w : Word) : d.takeLevel n w =
    { d with lamp := { d.lamp with chains := (d.takeLevel n w).lamp.chains }, tx := (d.takeLevel n w).tx } := by
  unfold Dev.takeLevel
  split
  · rfl
  · rw [shiftOut_eq]; rfl

theorem takeLevel_chain_ne (d : Dev) {n k : Nat} (hk : k ≠ n) (w : Word) : (d.takeLevel n w).chain k = d.chain k := by
  unfold Dev.takeLevel
  split
  · exact chain_modChain_ne d hk _
  · rw [shiftOut_chain, chain_modChain_ne d hk]

/-- A level accepted is so whatever the device has sent, answered and queued. -/
theorem Quiet.takeLevel {d e : Dev} (h : Quiet d e) (n : Nat) (w : Word) : Quiet (d.takeLevel n w) (e.takeLevel n w) := by
  have hchain : e.chain n = d.chain n := by rw [Dev.chain, h.lamp, Dev.chain]
  have hmod : ∀ f, Quiet (d.modChain n f) (e.modChain n f) := fun f =>
    { h with lamp := by simp only [Dev.modChain, h.lamp] }
  unfold Dev.takeLevel
  rw [hchain]
  split
  · exact hmod _
  · rw [shiftOut_eq, shiftOut_eq (e.modChain n _)]
    exact { hmod _ with }

theorem does_lampLevel {h : Req} {n : Nat} {w : Word} {s : State} (hr : Ready h s.d) (hrsv : fld w 22 21 = 0)
    (hm : s.d.mode = .idle) (hn : n < 16) (hen : chainEn s.d.regs.act n = true)
    (hlo : fixedCount s.d.regs.act n ≤ levelLit w) (hhi : levelLit w ≤ populated s.d.regs.act n)
    (hon : levelOn w = 0 ∨ 8 ≤ levelOn w) (hfits : windowFits s.d.regs.act n w = true) :
    Does (.lampLevel h n w) s fun d => Quiet (s.d.takeLevel n w) d ∧ Replied d h 0x50 stOk [] := by
  refine does_serve_changes rfl hr (fun d => d.takeLevel n w) (by decide) (fun e hq _ => ?_)
    (fun e hq => hq.takeLevel n w) fun e => by rw [takeLevel_eq]
  have hmode : (e.mode == .standby || e.mode == .wake || e.mode == .hold || e.mode == .splice) = false := by
    rw [hq.mode, hm]; rfl
  have hlit : ¬ (levelLit w < fixedCount e.regs.act n ∨ populated e.regs.act n < levelLit w) := by rw [hq.act]; omega
  have hon' : ¬ (levelOn w ≠ 0 ∧ levelOn w < 8) := by omega
  have hnamed : (16 ≤ n || !chainEn e.regs.act n) = false := by simp [hq.act, hen, hn]
  have hwindow : (!windowFits e.regs.act n w) = false := by rw [hq.act, hfits]; rfl
  simp only [hrsv, hmode, hnamed, hwindow, if_neg hlit, if_neg hon', ne_eq, not_true_eq_false, Bool.false_eq_true, if_false]
  unfold Dev.takeLevel
  split <;> rfl

/-! LAMP_SHIFT_END and LAMP_LATCH (R210, R211). -/

/-- The shift has ended with no newer pattern: the present one awaits its latch. -/
theorem exec_lampShiftEnd_last {n : Nat} {s : State} (hsh : (s.d.chain n).shifting = true)
    (hl2 : s.d.flt.l2run = false) (hnext : (s.d.chain n).next = none) :
    exec (.lampShiftEnd n) s =
      .next { s with d := s.d.modChain n fun x => { x with shifting := false, shifted := x.want.isSome } } := by
  have hinstr : exec (.lampShiftEnd n) s = execLampShiftEnd n s := rfl
  simp only [hinstr, execLampShiftEnd, State.onDev, hsh, hl2, hnext, Bool.not_true, Bool.or_self, Bool.false_eq_true,
    if_false]

/-- The shift has ended, and a newer pattern is shifted next. -/
theorem exec_lampShiftEnd_next {n : Nat} {w : Word} {s : State} (hsh : (s.d.chain n).shifting = true)
    (hl2 : s.d.flt.l2run = false) (hnext : (s.d.chain n).next = some w) :
    exec (.lampShiftEnd n) s = .next { s with d := (s.d.modChain n fun x =>
      { x with want := some w, next := none, shifting := true, shifted := false }).shiftOut n w } := by
  have hinstr : exec (.lampShiftEnd n) s = execLampShiftEnd n s := rfl
  simp only [hinstr, execLampShiftEnd, State.onDev, hsh, hl2, hnext, Bool.not_true, Bool.or_self, Bool.false_eq_true,
    if_false]

theorem does_lampShiftEnd {n : Nat} {s : State} (hsh : (s.d.chain n).shifting = true) (hl2 : s.d.flt.l2run = false) :
    Does (.lampShiftEnd n) s fun d =>
      ((s.d.chain n).next = none → d = { s.d with lamp := d.lamp } ∧
        d.chain n = { s.d.chain n with shifting := false, shifted := (s.d.chain n).want.isSome }) ∧
      (∀ w, (s.d.chain n).next = some w → d = { s.d with lamp := d.lamp, tx := d.tx } ∧
        d.chain n = { s.d.chain n with want := some w, next := none, shifting := true, shifted := false }) ∧
      ∀ k, k ≠ n → d.chain k = s.d.chain k := by
  have hn := lt_of_shifting hsh
  cases hnext : (s.d.chain n).next with
  | none =>
    exact ⟨_, exec_lampShiftEnd_last hsh hl2 hnext, fun _ => ⟨rfl, chain_modChain_self hn _⟩, (fun _ hw => nomatch hw),
      fun k hk => chain_modChain_ne _ hk _⟩
  | some w =>
    refine ⟨_, exec_lampShiftEnd_next hsh hl2 hnext, (fun hw => nomatch hw), fun v hv => ⟨?_, ?_⟩, fun k hk => ?_⟩
    · rw [shiftOut_eq]; rfl
    · obtain rfl := Option.some.inj hv
      rw [shiftOut_chain, chain_modChain_self hn]
    · rw [shiftOut_chain, chain_modChain_ne _ hk]

theorem does_lampLatch {n : Nat} {w : Word} {s : State} (hen : s.d.seq.en = false)
    (hsh : (s.d.chain n).shifted = true) (hw : (s.d.chain n).want = some w)
    (hgate : (s.d.chain n).gate.any (fun g => decide (s.d.now < g.2)) = false) :
    Does (.lampLatch n) s fun d => d.rd (Reg.LMP_C_LEVEL n) = w.toNat ∧
      d.chain n = { s.d.chain n with want := none, shifted := false } ∧ (∀ k, k ≠ n → d.chain k = s.d.chain k) ∧
      (∀ a, a ≠ Reg.LMP_C_LEVEL n → d.rd a = s.d.rd a) ∧ d = { s.d with lamp := d.lamp, regs := d.regs } := by
  have hexec : exec (.lampLatch n) s = .next { s with
      d := (s.d.put (Reg.LMP_C_LEVEL n) w.toNat).modChain n fun c => { c with want := none, shifted := false } } := by
    have hinstr : exec (.lampLatch n) s = execLampLatch n s := rfl
    simp only [hinstr, execLampLatch, State.onDev, hen, hgate, Bool.or_self, Bool.false_eq_true, if_false, Dev.latchChain,
      hsh, hw]
  have hrd : (s.d.put (Reg.LMP_C_LEVEL n) w.toNat).rd (Reg.LMP_C_LEVEL n) = w.toNat :=
    (Dev.rd_put_self _ _ _).trans (Nat.mod_eq_of_lt w.isLt)
  exact ⟨_, hexec, hrd, chain_modChain_self (d := s.d.put _ _) (lt_of_shifted hsh) _,
    fun k hk => chain_modChain_ne (s.d.put _ _) hk _, fun a ha => Dev.rd_put_ne s.d _ a _ ha, rfl⟩

/-! LAMP_REFRESH (R212). -/

/-- A chain that a refresh shifts: it is enabled, and no other shift of it is pending. -/
def Dev.refreshes (d : Dev) (n : Nat) : Bool :=
  chainEn d.regs.act n && !(d.chain n).shifting && (d.chain n).want.isNone

/-- A refresh of one chain. -/
def Dev.refreshChain (d : Dev) (n : Nat) : Dev :=
  if d.refreshes n then (d.modChain n fun x => { x with shifting := true }).shiftOut n (d.level n) else d

theorem exec_lampRefresh {s : State} (hf : s.d.fieldRuns = true) (hi : s.d.bzl.inhibit = false)
    (hl2 : s.d.flt.l2run = false) :
    exec .lampRefresh s = .next { s with d := (List.range 16).foldl Dev.refreshChain s.d } := by
  have hinstr : exec .lampRefresh s = execLampRefresh s := rfl
  simp only [hinstr, execLampRefresh, State.onDev, hf, hi, hl2, Bool.not_true, Bool.or_self, Bool.false_eq_true, if_false]
  rfl

/-- Only chains have changed, and what has been sent. -/
def Shifted (d d' : Dev) : Prop :=
  d' = { d with lamp := { d.lamp with chains := d'.lamp.chains }, tx := d'.tx } ∧
    d'.lamp.chains.length = d.lamp.chains.length

theorem shifted_refreshChain (d : Dev) (n : Nat) : Shifted d (d.refreshChain n) := by
  unfold Dev.refreshChain
  split
  · rw [shiftOut_eq]
    exact ⟨rfl, List.length_modify ..⟩
  · exact ⟨rfl, rfl⟩

theorem Shifted.trans {a b c : Dev} (h : Shifted a b) (g : Shifted b c) : Shifted a c := by
  obtain ⟨h1, h2⟩ := h
  obtain ⟨g1, g2⟩ := g
  exact ⟨by rw [g1, h1], g2.trans h2⟩

theorem refreshChain_chain_ne (d : Dev) {n k : Nat} (hk : k ≠ n) : (d.refreshChain n).chain k = d.chain k := by
  unfold Dev.refreshChain
  split
  · rw [shiftOut_chain, chain_modChain_ne d hk]
  · rfl

theorem refreshChain_chain_self {d : Dev} {n : Nat} (hn : n < d.lamp.chains.length) : (d.refreshChain n).chain n =
    if d.refreshes n then { d.chain n with shifting := true } else d.chain n := by
  unfold Dev.refreshChain
  split
  · rw [shiftOut_chain, chain_modChain_self hn]
  · rfl

/-- The refresh of one chain leaves open whether another is refreshed. -/
theorem refreshes_refreshChain (d : Dev) {n k : Nat} (hk : k ≠ n) : (d.refreshChain n).refreshes k = d.refreshes k := by
  have hregs : (d.refreshChain n).regs = d.regs := by rw [(shifted_refreshChain d n).1]
  simp only [Dev.refreshes, hregs, refreshChain_chain_ne d hk]

/-- Every chain of the list is refreshed once, by its state before. -/
theorem foldl_refreshChain {l : List Nat} (hl : l.Nodup) (d : Dev) :
    Shifted d (l.foldl Dev.refreshChain d) ∧ ∀ k, k < d.lamp.chains.length → (l.foldl Dev.refreshChain d).chain k =
      if k ∈ l ∧ d.refreshes k = true then { d.chain k with shifting := true } else d.chain k := by
  induction l generalizing d with
  | nil => exact ⟨⟨rfl, rfl⟩, fun k _ => by simp⟩
  | cons n l ih =>
    obtain ⟨hnl, hl⟩ := List.nodup_cons.mp hl
    have hstep := shifted_refreshChain d n
    obtain ⟨hrest, hchain⟩ := ih hl (d.refreshChain n)
    refine ⟨hstep.trans hrest, fun k hk => ?_⟩
    rw [List.foldl_cons, hchain k (hstep.2 ▸ hk)]
    by_cases hkn : k = n
    · subst hkn
      rw [if_neg fun h => hnl h.1, refreshChain_chain_self hk]
      simp
    · simp [refreshes_refreshChain d hkn, refreshChain_chain_ne d hkn, hkn]

/-- Settles O24: each clause is the lemma of its instruction; a refresh takes every chain by its state before. -/
theorem lampLevels : Obligations.LampLevels := by
  refine ⟨fun h n w s hr hrsv hm hn hlen hen hlo hhi hon hfits => ?_, fun n s => does_lampShiftEnd,
    fun n w s => does_lampLatch, fun s hf hi hl2 => ⟨_, exec_lampRefresh hf hi hl2, ?_⟩⟩
  · refine (does_lampLevel hr hrsv hm hn hen hlo hhi hon hfits).imp ?_
    rintro d ⟨hquiet, hreply⟩
    have hchain : ∀ k, d.chain k = (s.d.takeLevel n w).chain k := fun k => by rw [Dev.chain, hquiet.lamp, Dev.chain]
    refine ⟨fun hidle => ?_, fun hshift => ?_, fun k hk => (hchain k).trans (takeLevel_chain_ne _ hk w), hreply, ?_⟩
    · rw [hchain, Dev.takeLevel, if_neg (by simp [hidle]), shiftOut_chain, chain_modChain_self hlen]
    · rw [hchain, Dev.takeLevel, if_pos hshift, chain_modChain_self hlen]
    · rw [takeLevel_eq] at hquiet
      rw [hquiet.lamp]
      exact { hquiet with }
  · obtain ⟨⟨hrest, -⟩, hchain⟩ := foldl_refreshChain List.nodup_range (l := List.range 16) s.d
    refine ⟨hrest, fun n hn => (hchain n hn).trans ?_⟩
    simp only [Dev.refreshes, List.mem_range, Bool.and_eq_true, Bool.not_eq_true', Option.isNone_iff_eq_none, and_assoc]

end Sys2Proof.Machine
end

section
/-! PROOFS. A lamp window fails in SCAN while a COMMIT waits for the stroke under way (R13, R28, R220). -/

namespace Sys2Proof.Machine

open Sys2Proof

/-- The SCAN of `lostLinkScan`, its last stroke waiting for the window of chain 0, which is normal-duty: 1,800 cycles of
on-time, and current thresholds of 0x100 and 0xF00. -/
def lostLinkWindow : State :=
  { d := let d := lostLinkScan.d.putAll [(Reg.LMP_C_LEVEL 0, 1800), (Reg.LMP_C_ITHR 0, 0x0F000100)]
         { d with seq := { d.seq with flight := d.seq.flight.map fun x => { x with waits := [0] } } } }

/-- The dark window withholds the stroke, and the COMMIT, which waited for no other, drives the group. -/
theorem lostLinkWindow_driven :
    readAfter (.lampWindowDiag 0 0 0 none) lostLinkWindow (fun d => (d.grp 1).drive) = some (some true) := by
  decide +kernel

/-- Refutes O25: the third clause keeps the motion block over a failing window in SCAN. A link loss disables Catches before
the device leaves SCAN (R28), and an accepted COMMIT then waits for the strokes under way (R13). The failing window
withholds its stroke (R220): the COMMIT takes effect, and with it the drive enable of a group other than the feed. -/
theorem not_lampDiagnosisAndConfirmation : ¬ Obligations.LampDiagnosisAndConfirmation := by
  rintro ⟨-, -, hfail, -⟩
  obtain ⟨-, hscan⟩ := hfail 0 0 0 none lostLinkWindow (by decide) (by decide +kernel) (by decide +kernel)
    (by decide +kernel) (by decide +kernel)
  obtain ⟨d, ⟨-, -, -, -, -, -, -, -, hmot⟩, hdriven⟩ := (hscan rfl (by decide +kernel)).readAfter lostLinkWindow_driven
  have hsame : (d.grp 1).drive = some false := congrArg (fun m => (nth m.groups 1).drive) hmot
  exact absurd (hsame.symm.trans hdriven) (by decide)

end Sys2Proof.Machine
end

section
/-! PROOFS. The light of a wear rotation that is undone (R225, R227). -/

namespace Sys2Proof.Machine

open Sys2Proof

/-- The 6 ms of dwells complete the minute of light that chain 0 of `rotatingIdle` is one cycle short of. -/
theorem rotatingIdle_undone_counted :
    readAfter (.lampRotDone 0 1000 0 1000) rotatingIdle (fun d => d.rd (Reg.LMP_C_ROT_MIN 0)) = some 1 := by
  decide +kernel

/-- Refutes O26: the third clause has an undone rotation leave LMP_C_ROT_MIN of its chain as it is. The three dwells are
lit time of the chain (R227), as after a kept rotation, where ROT_MIN returns to 0 all the same. Where their 6 ms complete a
minute of light, ROT_MIN advances by it. -/
theorem not_lampWearAndMains : ¬ Obligations.LampWearAndMains := by
  rintro ⟨-, -, hundone, -⟩
  obtain ⟨d, ⟨-, -, hkept, -⟩, hcounted⟩ :=
    (hundone 0 1000 0 1000 rotatingIdle (by decide) rfl rfl (by decide +kernel)).readAfter rotatingIdle_undone_counted
  have hbefore : rotatingIdle.d.rd (Reg.LMP_C_ROT_MIN 0) = 0 := rfl
  omega

end Sys2Proof.Machine
end

section
/-! PROOFS. HOME and a wear rotation of a chain the device does not have (R226, R260). -/

namespace Sys2Proof.Machine

open Sys2Proof

/-- A HOME request of session 1. -/
def homeReq : Req := ⟨⟨0, 0⟩, .eth0, 1, 7, 2, 0, false⟩

/-- IDLE with axis 0 enabled and at rest, its home switch 3, and a wear rotation that has lit chain 2032, beyond the
sixteen there are. -/
def homingBeyond : State :=
  { d := [(Reg.MOT_A_CFG 0, 0x80000000), (Reg.MOT_A_HOME 0, 3)].foldl (fun (d : Dev) x => d.put x.1 x.2)
      { mode := .idle
        sess := [(1, { (default : Session) with ep := ⟨0, 0⟩ })]
        lamp := { rot := some 2032, chains := List.replicate 2033 { litCyc := 46875000000 } } } }

theorem homingBeyond_ready : Ready homeReq homingBeyond.d :=
  ⟨by decide +kernel, rfl, by decide, by decide, by decide, rfl, _, rfl, rfl, rfl⟩

/-- HOME abandons the rotation, whose light is counted at the address of chain 2032, two pages after the lamps'. -/
theorem homingBeyond_counted :
    readAfter (.home homeReq 1) homingBeyond (fun d => d.rd (Reg.LMP_C_LIT_MIN 2032)) = some 1 := by decide +kernel

/-- Refutes O23: the first clause keeps every word outside pages 12 and 7, and 6 where a rotation runs. HOME abandons a
wear rotation, whose light counts in its chain's own words (R226), and those of a chain 2032 lie in page 8. The statement
admits such a rotation, though the device has sixteen chains. -/
theorem not_homingAndMotionFaults : ¬ Obligations.HomingAndMotionFaults := by
  rintro ⟨hhome, -⟩
  obtain ⟨d, ⟨-, -, -, -, -, -, -, -, -, -, -, hwords⟩, hlit⟩ :=
    (hhome homeReq 1 homingBeyond homingBeyond_ready (by decide) rfl (by decide) (by decide +kernel)).readAfter
      homingBeyond_counted
  have hsame : d.rd (Reg.LMP_C_LIT_MIN 2032) = homingBeyond.d.rd (Reg.LMP_C_LIT_MIN 2032) :=
    hwords _ (by decide) (by decide) (fun h6 => absurd h6 (by decide))
  have hbefore : homingBeyond.d.rd (Reg.LMP_C_LIT_MIN 2032) = 0 := by decide +kernel
  omega

end Sys2Proof.Machine
end

section
/-! PROOFS. A boundary at which a faster move follows a slow one (R244, R246, R247). -/

namespace Sys2Proof.Machine

open Sys2Proof

/-! A boundary while no port has a link (R19, R244, R331). -/

/-- What a boundary does to groups and axes, once its frames have gone. -/
def Dev.periodBegins (d : Dev) : Dev :=
  let d := (List.range 4).foldl (fun d g => d.groupPeriod g) d
  let d := (List.range 12).foldl (fun d a => d.homePeriod a) d
  let d := (List.range 12).foldl (fun d a => d.feCheck a) d.homeCheck
  d.feedAtRest

/-- The temperature of the host's Bezel end as a boundary measures it, a free value. -/
def Dev.endTemp (d : Dev) : Nat := (Config.freeValue 45 d.frees).toNat % 65536

/-- The device at the instant of the next boundary. -/
def Dev.atBoundary (d : Dev) : Dev := { d.elapse (periodCyc - d.now % periodCyc) with frees := d.frees + 1 }

theorem fecPeriod_unlinked {d : Dev} {i : Nat} (h : d.link (portOf i) = false) : d.fecPeriod i = d := by
  unfold Dev.fecPeriod
  rw [h]
  rfl

theorem netStat_ne_endTemp (p : NetPort) : Reg.NET_P_STAT (portIx p) ≠ Reg.CAL_TBZ_H := by cases p <;> decide

/-- With the Bezel link and the ports down, a boundary sends nothing: it measures its temperature and moves the axes. -/
theorem exec_profileBoundary_unlinked {s : State} (hup : s.d.bzl.f2h.up = false) (hports : ∀ p, s.d.link p = false)
    (hwarm : s.d.flt.l2run = false) : exec .profileBoundary s =
      .next { s with d := (s.d.atBoundary.put Reg.CAL_TBZ_H s.d.endTemp).periodBegins } := by
  have hstatus : (s.d.elapse (periodCyc - s.d.now % periodCyc)).statusFrame =
      s.d.elapse (periodCyc - s.d.now % periodCyc) := by
    have hdown : (s.d.elapse (periodCyc - s.d.now % periodCyc)).bzl.f2h.up = false := hup
    simp only [Dev.statusFrame, hdown, Bool.and_false, Bool.false_eq_true, if_false]
  have htemp : (s.d.elapse (periodCyc - s.d.now % periodCyc)).hostEndTemp =
      s.d.atBoundary.put Reg.CAL_TBZ_H s.d.endTemp := rfl
  have hfec : ∀ i, (s.d.atBoundary.put Reg.CAL_TBZ_H s.d.endTemp).fecPeriod i =
      s.d.atBoundary.put Reg.CAL_TBZ_H s.d.endTemp := fun i => by
    refine fecPeriod_unlinked ?_
    unfold Dev.link
    rw [Dev.rd_put_ne _ _ _ _ (netStat_ne_endTemp _)]
    exact hports _
  have hrun : (s.d.atBoundary.put Reg.CAL_TBZ_H s.d.endTemp).flt.l2run = false := hwarm
  show execProfileBoundary s = _
  simp only [execProfileBoundary, State.onDev, hstatus, htemp, hfec, hrun, Bool.false_eq_true, if_false]
  rfl

/-- A word set outside the NET page is listed, or taken off the list where the value is its reset value. -/
theorem put_eq_aset_or_adel (d : Dev) {a : Nat} (v : Nat) (ha : a / 65536 ≠ 12) :
    d.put a v = { d with regs := { d.regs with act := aset d.regs.act a (w32 v) } } ∨
    d.put a v = { d with regs := { d.regs with act := adel d.regs.act a } } := by
  unfold Dev.put Regs.put putA
  rw [if_neg ha]
  by_cases h : v % 2 ^ 32 = resetWord a
  · rw [if_pos h]; exact .inr rfl
  · rw [if_neg h]; exact .inl rfl

/-! A slow move has reached its target, and a faster one waits behind it. -/

/-- A move of one step at 1 step/s. -/
def slowMove : Move := ⟨1, 1, 1, 1, false, [(0, 65536)], [(0, 0)], 1⟩

/-- The move after it: 999 steps at up to 1,000 step/s, with an acceleration of 100,000 step/s². -/
def fastMove : Move := ⟨2, 1000, 100000, 100000, false, [(0, 65536000)], [(0, 65536)], 1⟩

/-- IDLE with group 0 driven and at the end of the slow move, which the period under way has brought to its target. -/
def slowThenFast : State :=
  { d := [(Reg.MOT_A_CFG 0, 0x80000000), (Reg.MOT_G_CFG 0, 1)].foldl (fun (d : Dev) x => d.put x.1 x.2)
      { mode := .idle
        mot := { axes := { valid := true, pos := 65536 } :: List.replicate 11 {}
                 groups := { st := .run, cur := some slowMove, q := [fastMove], u := slowMove.lenU
                             ending := some (.move 0), drive := some true } :: List.replicate 3 {} } } }

/-- At the boundary the faster move begins: its first period runs at 1,024 ticks' worth of its acceleration. -/
theorem slowThenFast_speed :
    ((slowThenFast.d.atBoundary.put Reg.CAL_TBZ_H slowThenFast.d.endTemp).periodBegins.grp 0).v = 102400000 := by
  rcases put_eq_aset_or_adel slowThenFast.d.atBoundary slowThenFast.d.endTemp (a := Reg.CAL_TBZ_H) (by decide) with h | h
  · rw [h]; decide +kernel
  · rw [h]; decide +kernel

/-- Refutes O32: the third clause bounds the speed of a running group after a boundary by the VMAX of the move that was
current before it. At the boundary where that move reaches its target the next of the queue becomes current (R247), and
the period that begins is its own: a slow move followed by a faster one leaves the group faster than the slow move's
VMAX. -/
theorem not_profileAndCox : ¬ Obligations.ProfileAndCox := by
  rintro ⟨-, -, hbound, -⟩
  obtain ⟨d, hexec, hspeed⟩ :=
    hbound 0 slowMove slowThenFast (by decide) rfl rfl rfl rfl rfl rfl rfl (by decide)
  rw [exec_profileBoundary_unlinked rfl (fun p => ?_) rfl] at hexec
  · injection hexec with hstate
    have hd := congrArg State.d hstate
    dsimp only at hd
    rw [← hd, slowThenFast_speed] at hspeed
    exact absurd hspeed (by decide)
  · cases p <;> decide +kernel

end Sys2Proof.Machine
end

section
/-! PROOFS. Motion groups: a change of one of them, and what it leaves of the others (R244, R266). -/

namespace Sys2Proof.Machine

open Sys2Proof

/-! One group. -/

/-- An element after a change of one of them; one that is not there does not change. -/
theorem nth_modNth {α : Type} [Inhabited α] (l : List α) (i k : Nat) (f : α → α) :
    nth (modNth l i f) k = if k = i ∧ k < l.length then f (nth l k) else nth l k := by
  unfold nth modNth
  rw [List.getD_eq_getElem?_getD, List.getD_eq_getElem?_getD, List.getElem?_modify]
  by_cases hk : i = k <;> by_cases hl : k < l.length <;> simp [hk, hl, eq_comm]

theorem grp_modGrp_self {d : Dev} {g : Nat} (hg : g < d.mot.groups.length) (f : Group → Group) :
    (d.modGrp g f).grp g = f (d.grp g) :=
  (nth_modNth _ _ _ _).trans (if_pos ⟨rfl, hg⟩)

theorem grp_modGrp_ne (d : Dev) {g n : Nat} (hn : n ≠ g) (f : Group → Group) : (d.modGrp g f).grp n = d.grp n :=
  (nth_modNth _ _ _ _).trans (if_neg fun h => hn h.1)

@[simp] theorem modGrp_groups_length (d : Dev) (g : Nat) (f : Group → Group) :
    (d.modGrp g f).mot.groups.length = d.mot.groups.length := List.length_modify _ _ _

theorem modGrp_modGrp (d : Dev) (g : Nat) (f f' : Group → Group) :
    (d.modGrp g f).modGrp g f' = d.modGrp g (f' ∘ f) := by
  simp only [Dev.modGrp, modNth, List.modify_modify_eq]

theorem modGrp_id (d : Dev) (g : Nat) : d.modGrp g (fun x => x) = d :=
  congrArg (fun l => { d with mot := { d.mot with groups := l } }) (List.modify_id g d.mot.groups)

/-- A number beyond the groups names a group at rest. -/
theorem lt_of_grp_ne {d : Dev} {g : Nat} (h : d.grp g ≠ default) : g < d.mot.groups.length := by
  refine Decidable.byContradiction fun hn => h ?_
  rw [Dev.grp, nth, List.getD_eq_getElem?_getD, List.getElem?_eq_none (Nat.le_of_not_lt hn), Option.getD_none]

theorem lt_of_cur {d : Dev} {g : Nat} {m : Move} (h : (d.grp g).cur = some m) : g < d.mot.groups.length :=
  lt_of_grp_ne fun hd => by rw [hd] at h; exact nomatch h

theorem lt_of_entry {d : Dev} {g : Nat} {m : Move} (h : m ∈ (d.grp g).entries) : g < d.mot.groups.length :=
  lt_of_grp_ne fun hd => by rw [hd] at h; exact absurd h List.not_mem_nil

theorem entries_eq_nil {x : Group} : x.entries = [] ↔ x.heldMove = none ∧ (x.intern = 0 → x.cur = none) ∧ x.q = [] := by
  unfold Group.entries
  cases x.heldMove <;> by_cases hi : x.intern = 0 <;> simp [hi]

section Quietly
variable {d e : Dev} (h : Quiet d e)
include h

theorem Quiet.grp (g : Nat) : e.grp g = d.grp g := by rw [Dev.grp, h.mot, Dev.grp]

theorem Quiet.ax (a : Nat) : e.ax a = d.ax a := by rw [Dev.ax, h.mot, Dev.ax]

theorem Quiet.modGrp (g : Nat) (f : Group → Group) : Quiet (d.modGrp g f) (e.modGrp g f) :=
  { h with mot := by simp only [Dev.modGrp, h.mot] }

end Quietly

/-- `d'` differs from `d` in what `f` makes of group `g`, and quietly. -/
structure GroupChanged (d d' : Dev) (g : Nat) (f : Group → Group) : Prop where
  grp : d'.grp g = f (d.grp g)
  other : ∀ n, n ≠ g → d'.grp n = d.grp n
  ax : ∀ a, d'.ax a = d.ax a
  quiet : Quiet { d with mot := { d.mot with groups := d'.mot.groups } } d'

theorem Quiet.groupChanged {d d' : Dev} {g : Nat} {f : Group → Group} (h : Quiet (d.modGrp g f) d')
    (hg : g < d.mot.groups.length) : GroupChanged d d' g f where
  grp := (h.grp g).trans (grp_modGrp_self hg f)
  other n hn := (h.grp n).trans (grp_modGrp_ne d hn f)
  ax := h.ax
  quiet := { h with mot := by rw [h.mot]; rfl }

/-! Requests about motion (R51, R69). -/

/-- No counter of requests, errors and frames has an offset below 0x1C. -/
theorem counted_of_offset {a : Nat} (ha : a % 64 < 28) : counted a = false := by
  rw [counted, List.contains_eq_any_beq, List.any_eq_false]
  intro b hb heq
  obtain rfl := beq_iff_eq.mp heq
  have hoff : ∀ b ∈ [Reg.NET_P_RX_FRAME_CNT 0, Reg.NET_P_RX_FRAME_CNT 1, Reg.NET_P_RX_FRAME_CNT 2,
      Reg.NET_P_TX_FRAME_CNT 0, Reg.NET_P_TX_FRAME_CNT 1, Reg.NET_P_TX_FRAME_CNT 2, Reg.NET_SKM_RX_CNT,
      Reg.NET_SKM_ERR_CNT], 28 ≤ b % 64 := by decide
  exact absurd (hoff a hb) (Nat.not_le.mpr ha)

section Arrived
variable (d : Dev) (h : Req)

theorem arrived_rf {a : Nat} (ha : a % 64 < 28) (hi lo : Nat) : (d.arrived h).rf a hi lo = d.rf a hi lo := by
  rw [Dev.rf, arrived_rd (counted_of_offset ha), Dev.rf]

theorem arrived_axEn (a : Nat) : (d.arrived h).axEn a = d.axEn a := by
  rw [Dev.axEn, arrived_rf d h (by unfold Reg.MOT_A_CFG; omega), Dev.axEn]

theorem arrived_axGroup (a : Nat) : (d.arrived h).axGroup a = d.axGroup a :=
  arrived_rf d h (by unfold Reg.MOT_A_CFG; omega) 29 28

theorem arrived_groupAxes (g : Nat) : (d.arrived h).groupAxes g = d.groupAxes g := by
  simp only [Dev.groupAxes, arrived_axEn, arrived_axGroup]

theorem arrived_overVlim (m : Move) (v : Nat) : (d.arrived h).overVlim m v = d.overVlim m v := by
  have hlim : ∀ a, (d.arrived h).rd (Reg.MOT_A_VLIM a) = d.rd (Reg.MOT_A_VLIM a) := fun a =>
    arrived_rd (counted_of_offset (by unfold Reg.MOT_A_VLIM; omega)) d h
  simp only [Dev.overVlim, hlim]

theorem arrived_limAct (a : Nat) (pos : Bool) : (d.arrived h).limAct a pos = d.limAct a pos := by
  have hlim : ∀ hi lo, (d.arrived h).rf (Reg.MOT_A_LIM a) hi lo = d.rf (Reg.MOT_A_LIM a) hi lo := fun hi lo =>
    arrived_rf d h (by unfold Reg.MOT_A_LIM; omega) hi lo
  have hsw : (d.arrived h).rd Reg.MOT_SW_STAT = d.rd Reg.MOT_SW_STAT := arrived_rd (by decide) d h
  simp only [Dev.limAct, Dev.sw, hlim, hsw]

theorem arrived_towardLimit (m : Move) : (d.arrived h).towardLimit m = d.towardLimit m := by
  simp only [Dev.towardLimit, arrived_limAct]

theorem arrived_awayFromAll (g : Nat) (m : Move) : (d.arrived h).awayFromAll g m = d.awayFromAll g m := by
  simp only [Dev.awayFromAll, arrived_groupAxes, arrived_limAct]

end Arrived

/-- The session of a request that reaches its opcode's own checks is open. -/
theorem arrived_isOpen {d : Dev} {h : Req} (hr : Ready h d) : ∃ x, (d.arrived h).ses? h.session = some x := by
  obtain ⟨-, -, -, -, -, -, x, hx, -⟩ := hr
  have hses : (d.arrived h).ses? h.session = (d.valid h).ses? h.session := rfl
  rw [hses, Dev.valid, modSes_ses?, if_pos rfl, hx]
  exact ⟨_, rfl⟩

/-- A request is answered as its own checks answer it on the device that it has reached: they keep the sessions' replies. -/
theorem does_serve_arrived {c : Instr} {s : State} {h : Req} {op st : Nat} {b : List Byte} {k : Dev → Answer} {e : Dev}
    (hexec : exec c s = s.onDev fun d => d.serve h op k) (hr : Ready h s.d) (hst : st ≠ stLater)
    (hk : k (s.d.arrived h) = (st, b, e)) (hcaches : e.caches = (s.d.arrived h).caches) :
    Does c s fun d => Quiet e d ∧ Replied d h op st b := by
  refine does_onDev c s _ _ hexec ?_
  obtain ⟨x, hx⟩ := isOpen_of_caches hcaches (arrived_isOpen hr)
  have hserve : s.d.serve h op k = e.answer h op st b := by
    rw [Dev.serve, serveThen_arrived hr, hk]
    exact if_neg hst
  rw [hserve]
  exact ⟨quiet_answer e h op st b, answer_replied e h op st b x hx⟩

/-- A request that its own checks answer with a change of one group. -/
theorem does_changes_group {c : Instr} {s : State} {h : Req} {op st : Nat} {b : List Byte} {k : Dev → Answer} {g : Nat}
    {f : Group → Group} (hexec : exec c s = s.onDev fun d => d.serve h op k) (hr : Ready h s.d)
    (hg : g < s.d.mot.groups.length) (hst : st ≠ stLater)
    (hk : k (s.d.arrived h) = (st, b, (s.d.arrived h).modGrp g f)) :
    Does c s fun d => GroupChanged s.d d g f ∧ Replied d h op st b :=
  (does_serve_arrived hexec hr hst hk rfl).imp fun _ ⟨hq, hrep⟩ =>
    ⟨(((quiet_arrived s.d h).modGrp g f).chain hq).groupChanged hg, hrep⟩

end Sys2Proof.Machine
end

section
/-! PROOFS. MOVE_MODIFY, AXIS_HALT and MOVE_RESUME (R251, R255 to R257). -/

namespace Sys2Proof.Machine

open Sys2Proof

/-! MOVE_MODIFY (R251). -/

/-- A move with new VMAX, ACC and DEC, 0 keeping each. -/
def Move.modified (m : Move) (vmax acc dec : Nat) : Move :=
  { m with vmax := if vmax = 0 then m.vmax else vmax
           acc := if acc = 0 then m.acc else acc
           dec := if dec = 0 then m.dec else dec }

/-- The move that bears an identifier modified, another as it is. -/
def Move.modifiedIf (id : Word) (vmax acc dec : Nat) (m : Move) : Move :=
  if m.id == id then m.modified vmax acc dec else m

/-- A group with the entry of an identifier modified. -/
def Group.modified (id : Word) (vmax acc dec : Nat) (x : Group) : Group :=
  { x with cur := if x.intern = 0 then x.cur.map (Move.modifiedIf id vmax acc dec) else x.cur
           heldMove := x.heldMove.map (Move.modifiedIf id vmax acc dec)
           q := x.q.map (Move.modifiedIf id vmax acc dec)
           decNew := x.decNew || (dec != 0 && x.intern == 0 && x.cur.any fun m => m.id == id) }

section Modified
variable (id : Word) (vmax acc dec : Nat)

theorem modifiedIf_id (m : Move) : (m.modifiedIf id vmax acc dec).id = m.id := by
  unfold Move.modifiedIf
  split <;> rfl

theorem modifiedIf_of_id {m : Move} (h : m.id = id) : m.modifiedIf id vmax acc dec = m.modified vmax acc dec :=
  if_pos (beq_iff_eq.mpr h)

theorem modifiedIf_of_ne {m : Move} (h : m.id ≠ id) : m.modifiedIf id vmax acc dec = m := if_neg (by simpa using h)

theorem entries_modified (x : Group) :
    (x.modified id vmax acc dec).entries = x.entries.map (Move.modifiedIf id vmax acc dec) := by
  unfold Group.entries Group.modified
  dsimp only
  cases x.heldMove <;> by_cases hi : x.intern = 0 <;> cases x.cur <;> simp [hi]

/-- Entries of other identifiers stay, and none comes of a modified one. -/
theorem mem_map_modifiedIf {x : Move} (l : List Move) (h : x.id ≠ id) :
    x ∈ l.map (Move.modifiedIf id vmax acc dec) ↔ x ∈ l := by
  rw [List.mem_map]
  constructor
  · rintro ⟨y, hy, rfl⟩
    rw [modifiedIf_id] at h
    rwa [modifiedIf_of_ne id vmax acc dec h]
  · exact fun hx => ⟨x, hx, modifiedIf_of_ne id vmax acc dec h⟩

end Modified

theorem does_moveModify {h : Req} {g : Nat} {id : Word} {v a e : Nat} {m : Move} {s : State} (hr : Ready h s.d) (hg : g < 4)
    (hm : m ∈ (s.d.grp g).entries) (hid : m.id = id) (huniq : ∀ x ∈ (s.d.grp g).entries, x.id = id → x = m)
    (hv : v ≤ 5000000) (hlim : s.d.overVlim m (if v = 0 then m.vmax else v) = false) :
    Does (.moveModify h g id v a e) s fun d =>
      GroupChanged s.d d g (Group.modified id v a e) ∧ Replied d h 0x41 stOk [] := by
  refine does_changes_group rfl hr (lt_of_entry hm) (by decide) ?_
  have hfind : ((s.d.arrived h).grp g).entries.find? (fun m => m.id == id) = some m := by
    obtain ⟨y, hy⟩ := Option.isSome_iff_exists.mp
      (List.find?_isSome.mpr ⟨m, hm, beq_iff_eq.mpr hid⟩ : ((s.d.grp g).entries.find? fun m => m.id == id).isSome)
    have hyid : y.id = id := by simpa using List.find?_some hy
    exact hy.trans (congrArg some (huniq y (List.mem_of_find?_eq_some hy) hyid))
  have hlim' : (decide (5000000 < v) || (s.d.arrived h).overVlim m (if v = 0 then m.vmax else v)) = false := by
    rw [arrived_overVlim, hlim, decide_eq_false (Nat.not_lt.mpr hv), Bool.or_false]
  simp only [if_neg (Nat.not_le.mpr hg), hfind, hlim', Bool.false_eq_true, if_false]
  rfl

/-! AXIS_HALT (R255, R256). -/

/-- A list of one number, however often, names it once. -/
theorem eraseDups_eq_singleton {l : List Nat} {g : Nat} (hne : l ≠ []) (h : ∀ x ∈ l, x = g) : l.eraseDups = [g] := by
  cases l with
  | nil => exact absurd rfl hne
  | cons x l =>
    obtain rfl := h x List.mem_cons_self
    have hrest : l.filter (fun b => !b == x) = [] :=
      List.filter_eq_nil_iff.mpr fun y hy => by simp [h y (List.mem_cons_of_mem _ hy)]
    rw [List.eraseDups_cons, hrest, List.eraseDups_nil]

/-- A running group's change at AXIS_HALT: its ramp begins, or its hard stop is due (R255, R256). -/
def Group.halt (m : Move) (hard : Bool) (x : Group) : Group :=
  if hard then { x with hard := true } else { x with st := .halting, haltDec := m.dec }

/-- AXIS_HALT of axes of one running group, in IDLE and with none of them homing. -/
theorem axisHalt_running {d : Dev} {k : BitVec 16} {g : Nat} {m : Move} (hk : k &&& 0xF000#16 = 0) (hmode : d.mode = .idle)
    (hne : maskAxes k ≠ []) (haxes : ∀ a ∈ maskAxes k, d.axEn a = true ∧ (d.ax a).home = none ∧ d.axGroup a = g)
    (hst : (d.grp g).st = .run) (hcur : (d.grp g).cur = some m) (hard : Bool) :
    d.axisHalt k hard = (stOk, [], d.modGrp g (Group.halt m hard)) := by
  have hgroups : ((maskAxes k).map d.axGroup).eraseDups = [g] := by
    refine eraseDups_eq_singleton (by simpa using hne) fun x hx => ?_
    obtain ⟨a, ha, rfl⟩ := List.mem_map.mp hx
    exact (haxes a ha).2.2
  have hnone : ((maskAxes k).isEmpty || (maskAxes k).any fun a => !d.axEn a) = false := by
    rw [Bool.or_eq_false_iff]
    exact ⟨by simpa using hne, List.any_eq_false.mpr fun a ha => by simp [(haxes a ha).1]⟩
  have hjob : (d.jobMode && (maskAxes k).any fun a => d.axEn a && d.feed == some (d.axGroup a)) = false := by
    rw [Dev.jobMode, hmode]; rfl
  have hoff : (d.mode == .standby || d.mode == .wake) = false := by rw [hmode]; rfl
  have hhoming : (d.mode == .homing && (maskAxes k).any fun a => (d.ax a).home.isSome) = false := by rw [hmode]; rfl
  have hsafe : (d.mode == .safe) = false := by rw [hmode]; rfl
  have hbits : (k &&& 0xF000#16 != 0) = false := by rw [hk]; rfl
  simp only [Dev.axisHalt, hbits, hoff, hjob, hnone, hsafe, hhoming, Bool.false_eq_true, if_false, hgroups,
    List.foldl_cons, List.foldl_nil, hst, hcur]
  cases hard <;> rfl

theorem does_axisHalt {h : Req} {k : BitVec 16} {g : Nat} {m : Move} {s : State} {c : Instr} {hard : Bool}
    (hexec : exec c s = s.onDev fun d => d.serve h 0x43 fun d => d.axisHalt k hard) (hr : Ready h s.d)
    (hk : k &&& 0xF000#16 = 0) (hmode : s.d.mode = .idle) (hne : maskAxes k ≠ [])
    (haxes : ∀ a ∈ maskAxes k, s.d.axEn a = true ∧ (s.d.ax a).home = none ∧ s.d.axGroup a = g)
    (hst : (s.d.grp g).st = .run) (hcur : (s.d.grp g).cur = some m) :
    Does c s fun d => GroupChanged s.d d g (Group.halt m hard) ∧ Replied d h 0x43 stOk [] := by
  refine does_changes_group hexec hr (lt_of_cur hcur) (by decide) ?_
  refine axisHalt_running (d := s.d.arrived h) hk hmode hne (fun a ha => ?_) hst hcur hard
  rw [arrived_axEn, arrived_axGroup]
  exact haxes a ha

/-! MOVE_RESUME (R257). -/

/-- The current move goes on from where its axes stand: its path coordinate may change. -/
theorem rebase_eq (d : Dev) (g : Nat) :
    ∃ u : Option Nat, d.rebase g = d.modGrp g fun x => { x with u := u.getD x.u } := by
  have hset : ∀ u, (d.modGrp g fun x => { x with u := u }) = d.modGrp g fun x => { x with u := (some u).getD x.u } :=
    fun _ => rfl
  unfold Dev.rebase
  cases (d.grp g).cur with
  | none => exact ⟨none, (modGrp_id d g).symm⟩
  | some m =>
    cases hlead : m.lead with
    | none => exact ⟨none, by simp only [hlead]; exact (modGrp_id d g).symm⟩
    | some a => exact ⟨_, by simp only [hlead]; exact hset _⟩

/-- A halted group's change at MOVE_RESUME: it runs from rest, or takes up its homing attempts (R257, R265). -/
def Group.resumed (homing : Bool) (u : Option Nat) (x : Group) : Group :=
  if homing then { x with u := u.getD x.u, st := .homing } else { x with u := u.getD x.u, st := .run, v := 0 }

theorem does_moveResume {h : Req} {g : Nat} {m : Move} {s : State} (hr : Ready h s.d) (hg : g < 4)
    (hfeed : s.d.jobMode = false ∨ s.d.feed ≠ some g) (hst : (s.d.grp g).st = .halted) (hcur : (s.d.grp g).cur = some m) :
    ∃ u, Does (.moveResume h g) s fun d =>
      GroupChanged s.d d g (Group.resumed ((s.d.groupAxes g).any fun a => (s.d.ax a).home.isSome) u) ∧
        Replied d h 0x44 stOk [] := by
  obtain ⟨u, hu⟩ := rebase_eq (s.d.arrived h) g
  refine ⟨u, does_changes_group rfl hr (lt_of_cur hcur) (by decide) ?_⟩
  have hfree : ((s.d.arrived h).jobMode && (s.d.arrived h).feed == some g) = false := by
    rw [Bool.and_eq_false_iff]
    exact hfeed.imp id fun hf => beq_eq_false_iff_ne.mpr hf
  have hhalted : ¬ ((s.d.arrived h).grp g).st ≠ .halted := fun hn => hn hst
  have hcur' : (((s.d.arrived h).modGrp g fun x => { x with u := u.getD x.u }).grp g).cur = some m :=
    (congrArg Group.cur (grp_modGrp_self (d := s.d.arrived h) (lt_of_cur hcur) _)).trans hcur
  have hhome : (((s.d.arrived h).modGrp g fun x => { x with u := u.getD x.u }).groupAxes g).any
      (fun a => (((s.d.arrived h).modGrp g fun x => { x with u := u.getD x.u }).ax a).home.isSome) =
      (s.d.groupAxes g).any fun a => (s.d.ax a).home.isSome :=
    congrArg (List.any · _) (arrived_groupAxes s.d h g)
  simp only [if_neg (Nat.not_le.mpr hg), hfree, if_neg hhalted, hu, hhome, hcur', Bool.false_eq_true, if_false,
    modGrp_modGrp]
  split
  · next hany => simp only [hany]; rfl
  · next hany => simp only [hany]; rfl

/-! The clauses. -/

/-- Settles O22: each request changes its group alone, by `Group.modified`, `Group.halt` and `Group.resumed`. -/
theorem movesModifyHaltResume : Obligations.MovesModifyHaltResume := by
  refine ⟨?_, ?_, ?_, ?_⟩
  · intro h g id v a e m s hr hg hm hid huniq hv hlim
    refine (does_moveModify hr hg hm hid huniq hv hlim).imp fun d ⟨hc, hrep⟩ => ?_
    have hentries := (congrArg Group.entries hc.grp).trans (entries_modified id v a e (s.d.grp g))
    refine ⟨fun x hx hxid => ?_, ?_, fun x hx => ?_, ?_, ?_, ?_, hc.other, hrep, hc.quiet⟩
    · rw [hentries] at hx
      obtain ⟨y, hy, rfl⟩ := List.mem_map.mp hx
      rw [modifiedIf_id] at hxid
      rw [modifiedIf_of_id id v a e hxid, huniq y hy hxid]
      rfl
    · rw [hentries, List.map_map]
      exact List.map_congr_left fun y _ => modifiedIf_id id v a e y
    · rw [hentries, mem_map_modifiedIf id v a e _ hx]
    all_goals rw [hc.grp]; rfl
  · intro h k g m s hr hk hmode hne haxes hst hcur
    refine ⟨(does_axisHalt rfl hr hk hmode hne haxes hst hcur).imp fun d ⟨hc, hrep⟩ => ?_,
      (does_axisHalt rfl hr hk hmode hne haxes hst hcur).imp fun d ⟨hc, hrep⟩ => ?_⟩
    · exact ⟨hc.grp, hc.other, hrep, hc.quiet⟩
    · exact ⟨hc.grp, hc.other, hrep, hc.quiet⟩
  · intro h g m s hr hg hfeed hst hhome hcur
    obtain ⟨u, hdoes⟩ := does_moveResume hr hg hfeed hst hcur
    obtain ⟨a, ha, hsome⟩ := hhome
    have hany : ((s.d.groupAxes g).any fun a => (s.d.ax a).home.isSome) = true :=
      List.any_eq_true.mpr ⟨a, ha, Option.isSome_iff_ne_none.mpr hsome⟩
    rw [hany] at hdoes
    refine hdoes.imp fun d ⟨hc, hrep⟩ => ⟨?_, ?_, ?_, hc.ax, hc.other, hrep, hc.quiet⟩
    · rw [hc.grp]; rfl
    · rw [hc.grp]; exact hcur
    · rw [hc.grp]; rfl
  · intro h g m s hr hg hfeed hst hhome hcur
    obtain ⟨u, hdoes⟩ := does_moveResume hr hg hfeed hst hcur
    have hany : ((s.d.groupAxes g).any fun a => (s.d.ax a).home.isSome) = false :=
      List.any_eq_false.mpr fun a ha => by simp [hhome a ha]
    rw [hany] at hdoes
    refine hdoes.imp fun d ⟨hc, hrep⟩ => ⟨?_, ?_, ?_, ?_, hc.other, hrep, hc.quiet⟩
    · rw [hc.grp]; rfl
    · rw [hc.grp]; rfl
    · rw [hc.grp]; exact hcur
    · rw [hc.grp]; rfl

end Sys2Proof.Machine
end

section
/-! PROOFS. MOVE_QUEUE: an entry joins its group's queue, and what starts there (R247, R248, R258, R259). -/

namespace Sys2Proof.Machine

open Sys2Proof

/-! The next entry of a group (R247, R248, R259). -/

theorem quiet_motEv (d : Dev) (g cond : Nat) (id : Word) : Quiet d (d.motEv g cond id) :=
  Quiet.foldl (fun (d : Dev) n => d.ev n 0x12 (be 2 g ++ be 2 cond ++ beW id)) (fun d n => quiet_ev d n _ _) _ _

theorem motEv_caches (d : Dev) (g cond : Nat) (id : Word) : (d.motEv g cond id).caches = d.caches :=
  foldl_caches (fun (d : Dev) n => d.ev n 0x12 (be 2 g ++ be 2 cond ++ beW id)) (fun d n => pushEv_caches d n _) _ _

/-- A group whose next move runs, with the others behind it; the feed keeps it as its last (R290). -/
def Group.started (m : Move) (l : List Move) (v : Nat) (feed : Bool) (x : Group) : Group :=
  { x with cur := some m, q := l, st := .run, u := 0, v := v, clamp := none, decel := false, ending := none
           lastMove := if feed then some m else x.lastMove }

section Next
variable {d : Dev} {g v n : Nat} {m : Move} {l : List Move}

/-- With nothing queued a group comes to rest. -/
theorem startNext_nil (hq : (d.grp g).q = []) : d.startNext g v (n + 1) =
    d.modGrp g fun x => { x with cur := none, st := .rest, u := 0, v := 0, ending := none } := by
  rw [Dev.startNext]
  simp only [hq]

/-- A move without a distance completes, and the one after it is next. -/
theorem startNext_done (hq : (d.grp g).q = m :: l) (hlen : m.len = 0) : d.startNext g v (n + 1) =
    (((d.modGrp g fun x => { x with cur := some m, q := l }).moveDone g m).modGrp g fun x => { x with cur := none }).startNext
      g 0 n := by
  rw [Dev.startNext]
  simp only [hq, hlen, if_true]

/-- A move further toward an active limit is refused with the queue behind it. -/
theorem startNext_refused (hq : (d.grp g).q = m :: l) (hlen : m.len ≠ 0) (hlim : d.towardLimit m = true) :
    d.startNext g v (n + 1) =
      (((((d.modGrp g fun x => { x with cur := some m, q := l }).bump Reg.MOT_LIMIT_REFUSE_CNT).gFlag g 3).motEv g 4
        m.id).flushQ g false).modGrp g fun x => { x with st := .limit, v := 0 } := by
  rw [Dev.startNext]
  simp only [hq, hlen, hlim, if_true, if_false]

/-- Any other move runs. -/
theorem startNext_runs (hq : (d.grp g).q = m :: l) (hlen : m.len ≠ 0) (hlim : d.towardLimit m = false) :
    ∃ feed, d.startNext g v (n + 1) = d.modGrp g (Group.started m l v feed) := by
  refine ⟨decide (d.feed = some g), ?_⟩
  rw [Dev.startNext]
  simp only [hq, hlen, hlim, Bool.false_eq_true, if_false]
  exact congrArg (d.modGrp g) (funext fun x => by simp only [Group.started, decide_eq_true_eq])

end Next

/-- `d'` differs from `d` in group `g`, in words, and quietly. -/
structure GroupStep (g : Nat) (d d' : Dev) : Prop where
  quiet : Quiet { d with mot := { d.mot with groups := d'.mot.groups }, regs := d'.regs } d'
  other : ∀ n, n ≠ g → d'.grp n = d.grp n

theorem GroupStep.trans {g : Nat} {a b c : Dev} (h : GroupStep g a b) (k : GroupStep g b c) : GroupStep g a c where
  quiet := by
    refine Quiet.chain (b := { b with mot := { b.mot with groups := c.mot.groups }, regs := c.regs }) ?_ k.quiet
    exact { h.quiet with
      shd := rfl, held := rfl, heldBy := rfl, com := rfl, sn := rfl, act := rfl
      mot := congrArg (fun x : Motion => { x with groups := c.mot.groups }) h.quiet.mot }
  other n hn := (k.other n hn).trans (h.other n hn)

theorem GroupStep.ax {g : Nat} {d d' : Dev} (h : GroupStep g d d') (a : Nat) : d'.ax a = d.ax a := h.quiet.ax a

theorem Quiet.groupStep {d d' : Dev} (h : Quiet d d') (g : Nat) : GroupStep g d d' where
  quiet := { h with shd := rfl, held := rfl, heldBy := rfl, com := rfl, sn := rfl, act := rfl, mot := by rw [h.mot] }
  other n _ := h.grp n

theorem groupStep_modGrp (d : Dev) (g : Nat) (f : Group → Group) : GroupStep g d (d.modGrp g f) :=
  ⟨Quiet.refl _, fun _ hn => grp_modGrp_ne d hn f⟩

theorem groupStep_put (g : Nat) (d : Dev) (a v : Nat) : GroupStep g d (d.put a v) := ⟨Quiet.refl _, fun _ _ => rfl⟩

theorem groupStep_moveDone (d : Dev) (g : Nat) (m : Move) : GroupStep g d (d.moveDone g m) :=
  (groupStep_put g d _ _).trans ((quiet_motEv _ g 1 m.id).groupStep g)

/-- What starts of a group's queue concerns this group, words and events; the sessions keep their replies. -/
theorem groupStep_startNext (d : Dev) (g v n : Nat) :
    GroupStep g d (d.startNext g v n) ∧ (d.startNext g v n).caches = d.caches := by
  induction n generalizing d v with
  | zero => exact ⟨(Quiet.refl d).groupStep g, rfl⟩
  | succ n ih =>
    cases hq : (d.grp g).q with
    | nil => rw [startNext_nil hq]; exact ⟨groupStep_modGrp d g _, rfl⟩
    | cons m l =>
      by_cases hlen : m.len = 0
      · rw [startNext_done hq hlen]
        obtain ⟨hstep, hcaches⟩ := ih
          (((d.modGrp g fun x => { x with cur := some m, q := l }).moveDone g m).modGrp g fun x => { x with cur := none }) 0
        exact ⟨(((groupStep_modGrp d g _).trans (groupStep_moveDone _ g m)).trans (groupStep_modGrp _ g _)).trans hstep,
          hcaches.trans (motEv_caches ((d.modGrp g fun x => { x with cur := some m, q := l }).bump Reg.MOT_MOVE_CNT) g 1 m.id)⟩
      · cases hlim : d.towardLimit m with
        | false =>
          obtain ⟨feed, hruns⟩ := startNext_runs hq hlen hlim
          rw [hruns]
          exact ⟨groupStep_modGrp d g _, rfl⟩
        | true =>
          rw [startNext_refused hq hlen hlim]
          exact ⟨(((((groupStep_modGrp d g _).trans (groupStep_put g _ _ _)).trans (groupStep_put g _ _ _)).trans
            ((quiet_motEv _ g 4 m.id).groupStep g)).trans (groupStep_modGrp _ g _)).trans (groupStep_modGrp _ g _),
            motEv_caches (((d.modGrp g fun x => { x with cur := some m, q := l }).bump Reg.MOT_LIMIT_REFUSE_CNT).gFlag g 3) g
              4 m.id⟩

/-- Counting one, saturating (R46). -/
theorem rd_bump_self (d : Dev) (a : Nat) : (d.bump a).rd a = min 0xFFFFFFFF (d.rd a + 1) := by
  have hput : (d.bump a).rd a = min 0xFFFFFFFF (d.rd a + 1) % 2 ^ 32 := Dev.rd_put_self _ _ _
  omega

/-- A bit of a word is the number's. -/
theorem bit_mod_word (n : Nat) {i : Nat} (hi : i < 32) : bit (n % 2 ^ 32) i = bit n i := by
  have hbit : ∀ n, bit n i = n.testBit i := fun n => (Nat.testBit_eq_decide_div_mod_eq).symm
  rw [hbit, hbit, Nat.testBit_mod_two_pow, decide_eq_true hi, Bool.true_and]

/-! A queue of one entry. -/

section One
variable {d : Dev} {g v n : Nat} {m : Move} (hg : g < d.mot.groups.length) (hq : (d.grp g).q = [m])
include hg hq

/-- The only move queued has no distance: it completes, and the group is at rest. -/
theorem startNext_one_done (hlen : m.len = 0) :
    (d.startNext g v (n + 2)).grp g = { d.grp g with cur := none, q := [], st := .rest, u := 0, v := 0, ending := none } ∧
    (d.startNext g v (n + 2)).rd Reg.MOT_MOVE_CNT = min 0xFFFFFFFF (d.rd Reg.MOT_MOVE_CNT + 1) := by
  rw [startNext_done hq hlen]
  have hev : Quiet ((d.modGrp g fun x => { x with cur := some m, q := [] }).bump Reg.MOT_MOVE_CNT)
      ((d.modGrp g fun x => { x with cur := some m, q := [] }).moveDone g m) := quiet_motEv _ g 1 m.id
  generalize (d.modGrp g fun x => { x with cur := some m, q := [] }).moveDone g m = e at hev
  have hlt : g < e.mot.groups.length := by rw [hev.mot]; simpa using hg
  have hgrp : (e.modGrp g fun x => { x with cur := none }).grp g = { d.grp g with cur := none, q := [] } := by
    rw [grp_modGrp_self hlt, (hev.grp g).trans (grp_modGrp_self hg _)]
  rw [startNext_nil (by rw [hgrp])]
  refine ⟨?_, ?_⟩
  · rw [grp_modGrp_self (by simpa using hlt), hgrp]
  · exact (hev.words _ (by decide)).trans (rd_bump_self (d.modGrp g fun x => { x with cur := some m, q := [] }) _)

/-- The only move queued is refused: the group is in LIMIT with nothing queued. -/
theorem startNext_one_refused (hlen : m.len ≠ 0) (hlim : d.towardLimit m = true) (hg4 : g < 4) :
    (d.startNext g v (n + 1)).grp g =
      { d.grp g with cur := none, q := [], heldMove := none, intern := 0, u := 0, ending := none, st := .limit, v := 0 } ∧
    (d.startNext g v (n + 1)).rd Reg.MOT_LIMIT_REFUSE_CNT = min 0xFFFFFFFF (d.rd Reg.MOT_LIMIT_REFUSE_CNT + 1) ∧
    bit ((d.startNext g v (n + 1)).rd (Reg.MOT_G_FLAGS g)) 3 = true := by
  rw [startNext_refused hq hlen hlim]
  have hev := quiet_motEv
    (((d.modGrp g fun x => { x with cur := some m, q := [] }).bump Reg.MOT_LIMIT_REFUSE_CNT).gFlag g 3) g 4 m.id
  generalize (((d.modGrp g fun x => { x with cur := some m, q := [] }).bump Reg.MOT_LIMIT_REFUSE_CNT).gFlag g 3).motEv g 4
    m.id = e at hev
  have hlt : g < e.mot.groups.length := by rw [hev.mot]; exact (modGrp_groups_length d g _).symm ▸ hg
  have hgrp : e.grp g = { d.grp g with cur := some m, q := [] } := (hev.grp g).trans (grp_modGrp_self hg _)
  refine ⟨?_, ?_, ?_⟩
  · rw [grp_modGrp_self (by exact (modGrp_groups_length e g _).symm ▸ hlt)]
    exact congrArg (fun x : Group => { x with st := .limit, v := 0 })
      ((grp_modGrp_self hlt _).trans (by rw [hgrp]))
  · refine (hev.words _ (by decide)).trans ((Dev.rd_put_ne _ _ _ _ ?_).trans (rd_bump_self _ _))
    unfold Reg.MOT_LIMIT_REFUSE_CNT Reg.MOT_G_FLAGS
    omega
  · refine (congrArg (bit · 3) ((hev.words (Reg.MOT_G_FLAGS g) (by unfold Reg.MOT_G_FLAGS; omega)).trans
      (Dev.rd_put_self _ _ _))).trans ?_
    exact (bit_mod_word _ (by decide)).trans (bit_setBit _ 3)

end One

/-! MOVE_QUEUE (R247, R248, R250, R258). -/

/-- A group with an entry queued behind the others: the running move may accelerate again where the entry raises its exit
speed (R250). -/
def Dev.joinQueue (d : Dev) (g : Nat) (m : Move) : Dev :=
  let e := d.modGrp g fun x => { x with q := x.q ++ [m] }
  match (d.grp g).cur with
  | some c => if e.exitSpeed g none c (d.grp g).q < e.exitSpeed g none c ((d.grp g).q ++ [m]) then
      e.modGrp g fun x => { x with decel := false } else e
  | none => e

theorem joinQueue_eq (d : Dev) (g : Nat) (m : Move) :
    ∃ b, d.joinQueue g m = d.modGrp g fun x => { x with q := x.q ++ [m], decel := x.decel && b } := by
  have hkept : (d.modGrp g fun x => { x with q := x.q ++ [m] }) =
      d.modGrp g fun x => { x with q := x.q ++ [m], decel := x.decel && true } := by
    simp only [Bool.and_true]
  unfold Dev.joinQueue
  dsimp only
  split
  · split
    · refine ⟨false, ?_⟩
      rw [modGrp_modGrp]
      simp only [Bool.and_false]
      rfl
    · exact ⟨true, hkept⟩
  · exact ⟨true, hkept⟩

/-- Whether a move starts from a group's queue once an entry has joined it: the group is at rest, or in LIMIT with the
first entry leading away from every active limit, or further toward one, where it is refused (R247, R258, R259). -/
def Dev.starts (d : Dev) (g : Nat) (m : Move) : Prop :=
  (d.grp g).st = .rest ∧ (d.grp g).cur = none ∨
    (d.grp g).st = .limit ∧ (d.awayFromAll g ((d.grp g).q.headD m) || d.towardLimit ((d.grp g).q.headD m)) = true

/-- A group once an entry has joined its queue and has started what it may (R247, R258). -/
def Dev.takeMove (d : Dev) (g : Nat) (m : Move) : Dev :=
  if (d.grp g).st = .rest ∧ (d.grp g).cur = none then (d.joinQueue g m).startNext g 0 33
  else if (d.grp g).st = .limit ∧ ((d.joinQueue g m).awayFromAll g ((d.grp g).q.headD m) ||
      (d.joinQueue g m).towardLimit ((d.grp g).q.headD m)) = true then (d.joinQueue g m).startNext g 0 33
  else d.joinQueue g m

theorem joinQueue_towardLimit (d : Dev) (g : Nat) (m x : Move) : (d.joinQueue g m).towardLimit x = d.towardLimit x := by
  obtain ⟨b, hb⟩ := joinQueue_eq d g m
  rw [hb]
  rfl

theorem joinQueue_awayFromAll (d : Dev) (g : Nat) (m x : Move) :
    (d.joinQueue g m).awayFromAll g x = d.awayFromAll g x := by
  obtain ⟨b, hb⟩ := joinQueue_eq d g m
  rw [hb]
  rfl

theorem takeMove_of_starts {d : Dev} {g : Nat} {m : Move} (h : d.starts g m) :
    d.takeMove g m = (d.joinQueue g m).startNext g 0 33 := by
  unfold Dev.takeMove
  rw [joinQueue_towardLimit, joinQueue_awayFromAll]
  rcases h with h | h
  · exact if_pos h
  · rw [if_pos h, ite_self]

theorem takeMove_of_waits {d : Dev} {g : Nat} {m : Move} (h : ¬ d.starts g m) : d.takeMove g m = d.joinQueue g m := by
  unfold Dev.takeMove
  rw [joinQueue_towardLimit, joinQueue_awayFromAll, if_neg fun hn => h (.inl hn), if_neg fun hn => h (.inr hn)]

theorem groupStep_takeMove (d : Dev) (g : Nat) (m : Move) :
    GroupStep g d (d.takeMove g m) ∧ (d.takeMove g m).caches = d.caches := by
  obtain ⟨b, hb⟩ := joinQueue_eq d g m
  have hjoin : GroupStep g d (d.joinQueue g m) := hb ▸ groupStep_modGrp d g _
  have hcaches : (d.joinQueue g m).caches = d.caches := by rw [hb]; rfl
  by_cases h : d.starts g m
  · rw [takeMove_of_starts h]
    obtain ⟨hstep, hkept⟩ := groupStep_startNext (d.joinQueue g m) g 0 33
    exact ⟨hjoin.trans hstep, hkept.trans hcaches⟩
  · rw [takeMove_of_waits h]
    exact ⟨hjoin, hcaches⟩

/-- What a MOVE_QUEUE of session `n` answers once its other checks have passed: its group's room decides (R63, R247). -/
def Dev.roomAnswer (d : Dev) (n : Nat) (m : MoveReq) : Answer :=
  if 32 ≤ (d.grp m.group).count then (stQueueFull, [], d.bump Reg.MOT_QFULL_CNT)
  else (stOk, be 4 (32 - ((d.takeMove m.group (d.entryOf n m)).grp m.group).count), d.takeMove m.group (d.entryOf n m))

/-- `MoveOk` says that the other checks pass. -/
theorem does_moveQueue {h : Req} {m : MoveReq} {s : State} {st : Nat} {b : List Byte} {e : Dev} (hr : Ready h s.d)
    (hok : MoveOk s.d h.session m) (ha : (s.d.arrived h).roomAnswer h.session m = (st, b, e)) (hst : st ≠ stLater)
    (hcaches : e.caches = (s.d.arrived h).caches) :
    Does (.moveQueue h m) s fun d => Quiet e d ∧ Replied d h 0x40 st b := by
  refine does_serve_arrived rfl hr hst ?_ hcaches
  obtain ⟨⟨hstandby, hwake, hreset, hsafe⟩, ⟨hflags, hmask⟩, ⟨hg, -⟩, hen, hhome, ⟨hne, hin⟩, hknown, hlen, hrates,
    hrange, hfresh⟩ := hok
  obtain ⟨hvpos, hvmax, hacc, hdec, hvlim⟩ := hrates
  have hbits : ¬ (m.mflags &&& 0xFFFC#16 != 0 || m.mask &&& 0xF000#16 != 0) = true := by simp [hflags, hmask]
  have hmode : ¬ (s.d.mode == .standby || s.d.mode == .wake || s.d.mode == .reset || s.d.mode == .safe) = true := by
    simp [hstandby, hwake, hreset, hsafe]
  have hgroup : ¬ (((s.d.arrived h).groupAxes m.group).any (fun a => (s.d.ax a).home.isSome) ||
      (s.d.arrived h).rf (Reg.MOT_G_CFG m.group) 0 0 == 0) = true := by
    rw [arrived_groupAxes, arrived_rf s.d h (by unfold Reg.MOT_G_CFG; omega), hen]
    simpa using hhome
  have hvalid : ¬ (!m.mflags.getLsbD 0 && (maskAxes m.mask).any fun a => !(s.d.ax a).valid) = true := by
    rcases hknown with hrel | hvalid
    · simp [hrel]
    · simpa using fun _ => hvalid
  have haxes : ¬ ((maskAxes m.mask).isEmpty ||
      (maskAxes m.mask).any (fun a => !((s.d.arrived h).groupAxes m.group).contains a) ||
      m.targets.length != (maskAxes m.mask).length) = true := by
    rw [arrived_groupAxes, hlen]
    simpa [hne] using hin
  have hzero : ¬ (m.vmax = 0 ∨ 5000000 < m.vmax ∨ m.acc = 0 ∨ m.dec = 0) := by omega
  have hover : ¬ (s.d.arrived h).overVlim (s.d.entryOf h.session m) m.vmax = true := by
    rw [arrived_overVlim, hvlim]
    exact Bool.false_ne_true
  have hfar : ¬ (s.d.entryOf h.session m).target.any (fun t => decide (t.2 < -(2 ^ 63) ∨ 2 ^ 63 ≤ t.2)) = true := by
    rw [List.any_eq_true]
    rintro ⟨t, ht, hout⟩
    have hr := hrange t ht
    have hout := of_decide_eq_true hout
    omega
  have hnew : ¬ (s.d.grp m.group).entries.any (fun y => y.id == m.moveId) = true := by
    simpa using hfresh
  exact (if_neg hbits).trans <| (if_neg hmode).trans <| (if_neg (Nat.not_le.mpr hg)).trans <| (if_neg hgroup).trans <|
    (if_neg hvalid).trans <| (if_neg haxes).trans <| (if_neg hzero).trans <| (if_neg hover).trans <|
    (if_neg hfar).trans <| (if_neg hnew).trans ha

/-! The clauses. -/

/-- A group with a move joined behind what it has queued. -/
def Group.joined (m : Move) (accelerates : Bool) (x : Group) : Group :=
  { x with q := x.q ++ [m], decel := x.decel && accelerates }

theorem count_joined (m : Move) (b : Bool) (x : Group) : (x.joined m b).count = x.count + 1 := by
  have hentries : (x.joined m b).entries = x.entries ++ [m] := (List.append_assoc _ _ _).symm
  rw [Group.count, hentries, List.length_append, List.length_singleton, Group.count]

theorem joined_q {m : Move} {x : Group} (h : x.q = []) (b : Bool) : (x.joined m b).q = [m] := by
  rw [Group.joined, h, List.nil_append]

theorem modGrp_joined_q {d : Dev} {g : Nat} {m : Move} (hg : g < d.mot.groups.length) (hq : (d.grp g).q = []) (b : Bool) :
    ((d.modGrp g (Group.joined m b)).grp g).q = [m] := by
  rw [grp_modGrp_self hg, joined_q hq]

/-- What starts from an empty queue is the entry that joins it. -/
theorem arrived_starts {d : Dev} {g : Nat} (hq : (d.grp g).q = []) (h : Req) (m : Move) : (d.arrived h).starts g m ↔
    (d.grp g).st = .rest ∧ (d.grp g).cur = none ∨
      (d.grp g).st = .limit ∧ (d.awayFromAll g m || d.towardLimit m) = true := by
  have hfirst : ((d.arrived h).grp g).q.headD m = m := by
    rw [show (d.arrived h).grp g = d.grp g from rfl, hq, List.headD_nil]
  unfold Dev.starts
  rw [hfirst, arrived_awayFromAll, arrived_towardLimit]
  exact Iff.rfl

section Queue
variable {h : Req} {m : MoveReq} {s : State} (hr : Ready h s.d) (hok : MoveOk s.d h.session m)
include hr hok

/-- A move accepted is answered with the room that it leaves. -/
theorem does_moveQueue_room (hroom : (s.d.grp m.group).count < 32) :
    Does (.moveQueue h m) s fun d => Quiet ((s.d.arrived h).takeMove m.group (s.d.entryOf h.session m)) d ∧
      Replied d h 0x40 stOk (be 4 (32 - (d.grp m.group).count)) :=
  (does_moveQueue hr hok (if_neg (Nat.not_le.mpr hroom)) (by decide)
    (groupStep_takeMove _ _ _).2).imp fun d ⟨hq, hrep⟩ => ⟨hq, by rw [hq.grp]; exact hrep⟩

/-- A full queue refuses a move (R63). -/
theorem does_moveQueue_full (hfull : 32 ≤ (s.d.grp m.group).count) :
    Does (.moveQueue h m) s fun d => Quiet (s.d.bump Reg.MOT_QFULL_CNT) d ∧ Replied d h 0x40 stQueueFull [] := by
  have hcount : (s.d.arrived h).rd Reg.MOT_QFULL_CNT = s.d.rd Reg.MOT_QFULL_CNT := arrived_rd (by decide) _ _
  have hquiet := (quiet_arrived s.d h).put Reg.MOT_QFULL_CNT (min 0xFFFFFFFF (s.d.rd Reg.MOT_QFULL_CNT + 1))
  refine (does_moveQueue hr hok (if_pos hfull) (by decide) rfl).imp fun d ⟨hq, hrep⟩ => ⟨hquiet.chain ?_, hrep⟩
  rw [← hcount]
  exact hq

/-- A move that does not start waits in its group's queue. -/
theorem does_moveQueue_waits (hroom : (s.d.grp m.group).count < 32)
    (hwait : ¬ (s.d.arrived h).starts m.group (s.d.entryOf h.session m)) :
    ∃ b, Does (.moveQueue h m) s fun d => GroupChanged s.d d m.group (Group.joined (s.d.entryOf h.session m) b) ∧
      Replied d h 0x40 stOk (be 4 (31 - (s.d.grp m.group).count)) := by
  obtain ⟨b, hb⟩ := joinQueue_eq (s.d.arrived h) m.group (s.d.entryOf h.session m)
  refine ⟨b, (does_moveQueue_room hr hok hroom).imp fun d ⟨hq, hrep⟩ => ?_⟩
  rw [takeMove_of_waits hwait, hb] at hq
  have hchanged := (((quiet_arrived s.d h).modGrp m.group (Group.joined (s.d.entryOf h.session m) b)).chain hq).groupChanged
    hok.group.2
  refine ⟨hchanged, ?_⟩
  rwa [hchanged.grp, count_joined, Nat.add_comm, Nat.sub_add_eq] at hrep

/-- A move that starts does so behind what its group has queued. -/
theorem does_moveQueue_starts (hroom : (s.d.grp m.group).count < 32)
    (hstart : (s.d.arrived h).starts m.group (s.d.entryOf h.session m)) :
    ∃ b, Does (.moveQueue h m) s fun d =>
      Quiet (((s.d.arrived h).modGrp m.group (Group.joined (s.d.entryOf h.session m) b)).startNext m.group 0 33) d ∧
      Replied d h 0x40 stOk (be 4 (32 - (d.grp m.group).count)) := by
  obtain ⟨b, hb⟩ := joinQueue_eq (s.d.arrived h) m.group (s.d.entryOf h.session m)
  refine ⟨b, (does_moveQueue_room hr hok hroom).imp fun d ⟨hq, hrep⟩ => ⟨?_, hrep⟩⟩
  rw [takeMove_of_starts hstart, hb] at hq
  exact hq

end Queue

section Empty
variable {h : Req} {m : MoveReq} {s : State} (hr : Ready h s.d) (hok : MoveOk s.d h.session m)
  (hempty : (s.d.grp m.group).entries = [])
include hr hok hempty

/-- A move without a distance completes at once. -/
theorem does_moveQueue_done
    (hst : (s.d.grp m.group).st = .rest ∧ (s.d.grp m.group).cur = none ∨ (s.d.grp m.group).st = .limit ∧
      s.d.awayFromAll m.group (s.d.entryOf h.session m) = true)
    (hlen : (s.d.entryOf h.session m).len = 0) :
    Does (.moveQueue h m) s fun d =>
      (d.grp m.group).cur = none ∧ (d.grp m.group).q = [] ∧ (d.grp m.group).st = .rest ∧
      d.rd Reg.MOT_MOVE_CNT = min 0xFFFFFFFF (s.d.rd Reg.MOT_MOVE_CNT + 1) ∧ Replied d h 0x40 stOk (be 4 32) := by
  obtain ⟨hheld, -, hq⟩ := entries_eq_nil.mp hempty
  obtain ⟨b, hdoes⟩ := does_moveQueue_starts hr hok (by rw [Group.count, hempty]; decide)
    ((arrived_starts hq h _).mpr (hst.imp id fun ⟨hl, haway⟩ => ⟨hl, by rw [haway, Bool.true_or]⟩))
  have hcount : (s.d.arrived h).rd Reg.MOT_MOVE_CNT = s.d.rd Reg.MOT_MOVE_CNT := arrived_rd (by decide) _ _
  obtain ⟨hgrp, hmoves⟩ := startNext_one_done (v := 0) (n := 31)
    (d := (s.d.arrived h).modGrp m.group (Group.joined (s.d.entryOf h.session m) b))
    ((modGrp_groups_length _ _ _).symm ▸ hok.group.2) (modGrp_joined_q hok.group.2 hq b) hlen
  refine hdoes.imp fun d ⟨hquiet, hrep⟩ => ?_
  have hd := (hquiet.grp m.group).trans hgrp
  have hnone : (d.grp m.group).count = 0 := by
    rw [Group.count, entries_eq_nil.mpr ⟨?_, fun _ => by rw [hd], by rw [hd]⟩]
    · rfl
    · rw [hd, grp_modGrp_self (d := s.d.arrived h) hok.group.2]; exact hheld
  rw [hnone] at hrep
  exact ⟨by rw [hd], by rw [hd], by rw [hd],
    (hquiet.words _ (by decide)).trans (hmoves.trans (congrArg (fun n => min 0xFFFFFFFF (n + 1)) hcount)), hrep⟩

/-- A move further toward an active limit is refused (R259). -/
theorem does_moveQueue_refused
    (hst : (s.d.grp m.group).st = .rest ∧ (s.d.grp m.group).cur = none ∨ (s.d.grp m.group).st = .limit)
    (htoward : s.d.towardLimit (s.d.entryOf h.session m) = true) (hlen : (s.d.entryOf h.session m).len ≠ 0) :
    Does (.moveQueue h m) s fun d =>
      (d.grp m.group).entries = [] ∧ (d.grp m.group).st = .limit ∧ (d.grp m.group).v = 0 ∧
      d.rd Reg.MOT_LIMIT_REFUSE_CNT = min 0xFFFFFFFF (s.d.rd Reg.MOT_LIMIT_REFUSE_CNT + 1) ∧
      bit (d.rd (Reg.MOT_G_FLAGS m.group)) 3 = true ∧ Replied d h 0x40 stOk (be 4 32) := by
  obtain ⟨-, -, hq⟩ := entries_eq_nil.mp hempty
  obtain ⟨b, hdoes⟩ := does_moveQueue_starts hr hok (by rw [Group.count, hempty]; decide)
    ((arrived_starts hq h _).mpr (hst.imp id fun hl => ⟨hl, by rw [htoward, Bool.or_true]⟩))
  have hcount : (s.d.arrived h).rd Reg.MOT_LIMIT_REFUSE_CNT = s.d.rd Reg.MOT_LIMIT_REFUSE_CNT := arrived_rd (by decide) _ _
  obtain ⟨hgrp, hrefused, hflag⟩ := startNext_one_refused (v := 0) (n := 32)
    (d := (s.d.arrived h).modGrp m.group (Group.joined (s.d.entryOf h.session m) b))
    ((modGrp_groups_length _ _ _).symm ▸ hok.group.2) (modGrp_joined_q hok.group.2 hq b) hlen
    ((arrived_towardLimit s.d h _).trans htoward) hok.group.1
  refine hdoes.imp fun d ⟨hquiet, hrep⟩ => ?_
  have hd := (hquiet.grp m.group).trans hgrp
  have hnone : (d.grp m.group).entries = [] :=
    entries_eq_nil.mpr ⟨by rw [hd], fun _ => by rw [hd], by rw [hd]⟩
  rw [Group.count, hnone] at hrep
  exact ⟨hnone, by rw [hd], by rw [hd],
    (hquiet.words _ (by decide)).trans (hrefused.trans (congrArg (fun n => min 0xFFFFFFFF (n + 1)) hcount)),
    by rwa [hquiet.words _ (by unfold Reg.MOT_G_FLAGS; have := hok.group.1; omega)], hrep⟩

/-- In LIMIT a move that leads neither away from every active limit nor further toward one waits (R258). -/
theorem does_moveQueue_kept (hst : (s.d.grp m.group).st = .limit)
    (htoward : s.d.towardLimit (s.d.entryOf h.session m) = false)
    (haway : s.d.awayFromAll m.group (s.d.entryOf h.session m) = false) :
    Does (.moveQueue h m) s fun d =>
      (d.grp m.group).q = [s.d.entryOf h.session m] ∧ (d.grp m.group).st = .limit ∧
      (d.grp m.group).cur = (s.d.grp m.group).cur ∧ Replied d h 0x40 stOk (be 4 31) := by
  obtain ⟨-, -, hq⟩ := entries_eq_nil.mp hempty
  have hwait : ¬ (s.d.arrived h).starts m.group (s.d.entryOf h.session m) := by
    rw [arrived_starts hq, hst, htoward, haway]
    simp
  obtain ⟨b, hdoes⟩ := does_moveQueue_waits hr hok (by rw [Group.count, hempty]; decide) hwait
  refine hdoes.imp fun d ⟨hc, hrep⟩ => ⟨?_, ?_, ?_, ?_⟩
  · rw [hc.grp, joined_q hq]
  · rw [hc.grp]; exact hst
  · rw [hc.grp]; rfl
  · rwa [Group.count, hempty] at hrep

/-- A group at rest runs the move. -/
theorem does_moveQueue_runs (hst : (s.d.grp m.group).st = .rest) (hcur : (s.d.grp m.group).cur = none)
    (hlen : (s.d.entryOf h.session m).len ≠ 0) (htoward : s.d.towardLimit (s.d.entryOf h.session m) = false)
    (hintern : (s.d.grp m.group).intern = 0) :
    ∃ b feed, Does (.moveQueue h m) s fun d =>
      GroupChanged s.d d m.group
        (Group.started (s.d.entryOf h.session m) [] 0 feed ∘ Group.joined (s.d.entryOf h.session m) b) ∧
      Replied d h 0x40 stOk (be 4 31) := by
  obtain ⟨hheld, -, hq⟩ := entries_eq_nil.mp hempty
  obtain ⟨b, hdoes⟩ := does_moveQueue_starts hr hok (by rw [Group.count, hempty]; decide)
    ((arrived_starts hq h _).mpr (.inl ⟨hst, hcur⟩))
  obtain ⟨feed, hruns⟩ := startNext_runs (v := 0) (n := 32)
    (d := (s.d.arrived h).modGrp m.group (Group.joined (s.d.entryOf h.session m) b))
    (modGrp_joined_q hok.group.2 hq b) hlen ((arrived_towardLimit s.d h _).trans htoward)
  rw [hruns, modGrp_modGrp] at hdoes
  refine ⟨b, feed, hdoes.imp fun d ⟨hquiet, hrep⟩ => ?_⟩
  have hc := (((quiet_arrived s.d h).modGrp m.group _).chain hquiet).groupChanged hok.group.2
  have hone : (d.grp m.group).count = 1 := by
    rw [hc.grp]
    simp [Group.count, Group.entries, Group.joined, Group.started, hheld, hintern]
  rw [hone] at hrep
  exact ⟨hc, hrep⟩

end Empty

/-- Settles O21: an entry that joins its group's queue waits there or starts it; what starts is `startNext` of a queue of
one, which completes, is refused, or runs. -/
theorem movesQueue : Obligations.MovesQueue := by
  refine ⟨?_, ?_, ?_, ?_, ?_, ?_, ?_⟩
  · intro h m s hr hok hroom hrest hlimit
    obtain ⟨b, hdoes⟩ := does_moveQueue_waits hr hok hroom fun hs => hs.elim (fun x => hrest x.1) fun x => hlimit x.1
    refine hdoes.imp fun d ⟨hc, hrep⟩ => ⟨?_, ?_, ?_, ?_, ?_, hc.other, hrep, hc.quiet⟩
    all_goals rw [hc.grp]; rfl
  · intro h m s hr hok hroom
    refine (does_moveQueue_room hr hok hroom).imp fun d ⟨hq, hrep⟩ => ?_
    have hstep := (((quiet_arrived s.d h).groupStep m.group).trans
      (groupStep_takeMove _ m.group (s.d.entryOf h.session m)).1).trans (hq.groupStep m.group)
    exact ⟨hrep, hstep.ax, hstep.other, hstep.quiet⟩
  · exact fun h m s hr hok hempty hst hlen => does_moveQueue_done hr hok hempty hst hlen
  · exact fun h m s hr hok hempty hst htoward hlen => does_moveQueue_refused hr hok hempty hst htoward hlen
  · exact fun h m s hr hok hempty hst htoward haway => does_moveQueue_kept hr hok hempty hst htoward haway
  · intro h m s hr hok hst hcur hq hheld hlen htoward hintern
    obtain ⟨b, feed, hdoes⟩ := does_moveQueue_runs hr hok (entries_eq_nil.mpr ⟨hheld, fun _ => hcur, hq⟩) hst hcur hlen
      htoward hintern
    refine hdoes.imp fun d ⟨hc, hrep⟩ => ⟨?_, ?_, ?_, ?_, ?_, hc.other, hrep, hc.quiet⟩
    all_goals rw [hc.grp]; rfl
  · exact fun h m s hr hok hfull => does_moveQueue_full hr hok hfull

end Sys2Proof.Machine
end

section
/-! PROOFS. A COMMIT of words that a held job fixes (R73, R286). -/

namespace Sys2Proof.Machine

open Sys2Proof

theorem mem_of_aget {α : Type} {l : List (Nat × α)} {a : Nat} {v : α} (h : aget l a = some v) : (a, v) ∈ l := by
  induction l with
  | nil => exact absurd h (by simp)
  | cons p l ih =>
    obtain ⟨k, w⟩ := p
    simp only [aget] at h
    split at h
    · next hk =>
      obtain rfl := Option.some.inj h
      rw [hk]
      exact List.mem_cons_self
    · exact List.mem_cons_of_mem _ (ih h)

/-- The words that no COMMIT may change while a job is held (R286). -/
def FixedByJob (a : Nat) : Prop :=
  a = Reg.SEQ_DIV_INT ∨ a = Reg.SEQ_DIV_FRAC ∨ (∃ n c, n < 32 ∧ c < 3 ∧ a = Reg.SEQ_H_OFS n c) ∨
    a = Reg.COX_FEED_RATIO ∨ a / 65536 = 9

/-- None of them is a word of the NET page. -/
theorem FixedByJob.page {a : Nat} (h : FixedByJob a) : a / 65536 ≠ 12 := by
  obtain rfl | rfl | ⟨n, c, hn, hc, rfl⟩ | rfl | h := h
  · decide
  · decide
  · unfold Reg.SEQ_H_OFS
    omega
  · decide
  · omega

/-- A staged value that differs from the active one is part of a COMMIT (R75). -/
theorem mem_staged {d : Dev} {a : Nat} {v : Word} (hshd : aget d.regs.shd a = some v) (hne : v.toNat ≠ d.rd a) :
    (a, v) ∈ d.staged? :=
  List.mem_filter.mpr ⟨mem_of_aget hshd, by simp [hne]⟩

/-- While a job is held, a changed word that it fixes is among those that fail with BAD_STATE (R286). -/
theorem FixedByJob.mem_coxState {d : Dev} {x : Com} {a : Nat} (h : FixedByJob a) (hjob : d.jobHeld = true)
    (ha : a ∈ x.ch) : a ∈ x.coxState d := by
  refine List.mem_filter.mpr ⟨ha, ?_⟩
  obtain rfl | rfl | ⟨n, c, hn, hc, rfl⟩ | rfl | h := h
  · simp [hjob]
  · simp [hjob]
  · have hofs : (List.range 32).any (fun m => (List.range 3).any fun l =>
        Reg.SEQ_H_OFS n c == Reg.SEQ_H_OFS m l) = true :=
      List.any_eq_true.mpr ⟨n, List.mem_range.mpr hn, List.any_eq_true.mpr
        ⟨c, List.mem_range.mpr hc, beq_self_eq_true _⟩⟩
    rw [hjob, hofs]
    simp
  · simp [hjob]
  · simp [hjob, h]

/-- BAD_STATE comes before every other refusal (R52). -/
theorem commitCheck_badState {d : Dev} {x : Com} (h : d.commitState x ≠ []) : (d.commitCheck x).1 = stBadState := by
  unfold Dev.commitCheck
  split
  · rfl
  · next hnil _ => exact absurd hnil h
  · next hnil _ _ => exact absurd hnil h
  · next hnil _ _ => exact absurd hnil h

/-- A COMMIT that would change a word that the held job fixes is refused. -/
theorem commitCheck_fixedByJob {d : Dev} {vals : List (Nat × Word)} {a : Nat} {v : Word} (h : FixedByJob a)
    (hjob : d.jobHeld = true) (hmem : (a, v) ∈ vals) : (d.commitCheck (d.comOf vals)).1 = stBadState := by
  have hch : a ∈ (d.comOf vals).ch := List.mem_map.mpr ⟨(a, v), hmem, rfl⟩
  exact commitCheck_badState (List.ne_nil_of_mem (List.mem_append_right _ (h.mem_coxState hjob hch)))

/-- A refused COMMIT changes nothing, and its reply names the first failing word (R74). -/
theorem commit_refused {d : Dev} {h : Req} (hr : Ready h d) (hcom : d.regs.com = none) {st : Nat} (hok : st ≠ stOk)
    (hlater : st ≠ stLater) (hvals : ∀ e, Quiet d e → e.staged? ≠ [])
    (hcheck : ∀ e, Quiet d e → e.jobs = d.jobs → (e.commitCheck (e.comOf e.staged?)).1 = st) :
    Quiet d (d.commit h) ∧ ∃ w, Replied (d.commit h) h 0x13 st (be 4 w) := by
  obtain ⟨e, x, hq, hx, hjobs, -, -, hserve⟩ := serve_ready d h hr
  have hst := hcheck e hq hjobs
  have hans : Quiet e (d.commit h) ∧
      Replied (d.commit h) h 0x13 st (be 4 (e.commitCheck (e.comOf e.staged?)).2) := by
    refine hserve _ _ _ _ e ?_ hlater ⟨x, hx⟩
    simp [hq.com, hcom, hvals e hq, hst, hok]
  obtain ⟨hquiet, hrep⟩ := hans
  exact ⟨hq.chain hquiet, _, hrep⟩

/-- Settles O58: the request's arrival leaves the shadow set, the active value and the held job as they are, and R286's
check stands among those that BAD_STATE answers, which come first. -/
theorem heldJobCommits : Obligations.HeldJobCommits := by
  intro h a v s hr hjob hcom (hfix : FixedByJob a) hshd hne
  have hmem : ∀ e, Quiet s.d e → (a, v) ∈ e.staged? := fun e hq =>
    mem_staged (hq.shd ▸ hshd) (by rwa [hq.words a hfix.page])
  obtain ⟨hq, hrep⟩ := commit_refused hr hcom (st := stBadState) (by decide) (by decide)
    (fun e he => List.ne_nil_of_mem (hmem e he))
    fun e he hjobs => commitCheck_fixedByJob hfix ((jobHeld_congr hjobs).trans hjob) (hmem e he)
  have hshr : (s.d.commit h).shrMib = s.d.shrMib := by rw [Dev.shrMib, hq.words _ (by decide), Dev.shrMib]
  exact ⟨_, exec_commit h s (by rw [hshr]; exact Nat.lt_irrefl _), hq, hrep⟩

end Sys2Proof.Machine
end

section
/-! PROOFS. A Catch while the Cox paces (R88, R279): all that a Catch does before its stroke leaves the pacing alone. -/

namespace Sys2Proof.Machine

open Sys2Proof

/-- SCAN under pacing with no stroke withheld, after `n` paced strokes and with `m` phases in use. -/
structure Paces (n m : Nat) (d : Dev) : Prop where
  mode : d.mode = .scan
  cox : d.cox.st = 2
  withhold : d.seq.withhold = false
  count : d.rd Reg.COX_PACED_CNT = n
  phases : nphOf d.regs.act = m

/-- The phases in use are read from LMP_CTRL alone. -/
theorem nphOf_act (d : Dev) : nphOf d.regs.act = d.rf Reg.LMP_CTRL 1 0 + 1 := rfl

/-- Four phases at most (R88). -/
theorem nphOf_le (c : List (Nat × Word)) : nphOf c ≤ 4 := Nat.succ_le_of_lt (Nat.mod_lt _ (by decide))

/-- A word other than the two that `Paces` reads. -/
abbrev Apart (a : Nat) : Prop := Reg.COX_PACED_CNT ≠ a ∧ Reg.LMP_CTRL ≠ a

/-- The words of a lamp chain behind the first two of its block (R208). -/
theorem apart_chainWord {b k : Nat} (hb : 4 < b % 64) : Apart (b + 0x40 * k) := by
  unfold Apart Reg.COX_PACED_CNT Reg.LMP_CTRL
  omega

/-- With no COMMIT waiting there is none to take effect (R13). -/
theorem forceCommit_none {d : Dev} (hcom : d.regs.com = none) (closed : Bool) :
    d.forceCommit closed = { d with regs := { d.regs with comDue := false } } := by
  simp only [Dev.forceCommit, hcom]

namespace Paces

/-- A loop that carries a result along beside the device. -/
theorem foldl_fst {n m : Nat} {α β : Type} {f : Dev × β → α → Dev × β} {l : List α}
    (hf : ∀ a, ∀ x ∈ l, Paces n m a.1 → Paces n m (f a x).1) {a : Dev × β} (h : Paces n m a.1) :
    Paces n m (l.foldl f a).1 := by
  induction l generalizing a with
  | nil => exact h
  | cons x l ih => exact ih (fun a y hy => hf a y (List.mem_cons_of_mem _ hy)) (hf a x List.mem_cons_self h)

section
variable {n m : Nat} {d : Dev} (h : Paces n m d)
include h

theorem foldl {α : Type} {f : Dev → α → Dev} (hf : ∀ d x, Paces n m d → Paces n m (f d x)) (l : List α) :
    Paces n m (l.foldl f d) := by
  induction l generalizing d with
  | nil => exact h
  | cons x l ih => exact ih (hf d x h)

theorem quiet {e : Dev} (hq : Quiet d e) : Paces n m e where
  mode := hq.mode.trans h.mode
  cox := hq.cox ▸ h.cox
  withhold := hq.seq ▸ h.withhold
  count := (hq.words _ (by decide)).trans h.count
  phases := hq.act ▸ h.phases

theorem put {a : Nat} (ha : Apart a) (v : Nat) : Paces n m (d.put a v) :=
  { h with
    count := (d.rd_put_ne a _ v ha.1).trans h.count
    phases := by rw [nphOf_act, Dev.rf, d.rd_put_ne a _ v ha.2]; exact h.phases }

theorem putF {a : Nat} (ha : Apart a) (hi lo x : Nat) : Paces n m (d.putF a hi lo x) :=
  h.put ha _

theorem bumpBy {a : Nat} (ha : Apart a) (k : Nat) : Paces n m (d.bumpBy a k) := h.put ha _

theorem bump {a : Nat} (ha : Apart a) : Paces n m (d.bump a) := h.put ha _

/-! Requests of calibration and the store (R307, R325, R327). -/

theorem recal (kind unit reason : Nat) : Paces n m (d.recal kind unit reason) := by
  unfold Dev.recal
  split
  · exact h
  · extract_lets cal e
    have he : Paces n m e := { h with }
    exact (he.bump (by decide)).quiet (quiet_evAll _ _ _)

theorem driftBit (p : Nat) (on : Bool) : Paces n m (d.driftBit p on) := by
  have hput : ∀ v, Paces n m (d.put Reg.CAL_STAT v) := h.put (by decide)
  unfold Dev.driftBit
  dsimp only
  split
  · exact (hput _).recal _ _ _
  · exact { hput _ with }

theorem setFlash (f : Flash) : Paces n m (d.setFlash f) := by
  have hregion : Paces n m { d with
      cal := { d.cal with flash := f.sweep }, tx := (d.cal.flash.headers f).reverse ++ d.tx } := { h with }
  exact hregion.put (by decide) _

theorem storeRec (r : CalRec) : Paces n m (d.storeRec r) := by
  have hstore : Paces n m { d with cal := { d.cal with store := storeAdd d.cal.store r } } := { h with }
  exact ((hstore.bump (by decide)).setFlash _).quiet (quiet_emit _ _)

theorem takeEpoch : Paces n m d.takeEpoch.2 := by
  unfold Dev.takeEpoch
  extract_lets e cal f
  have hf : Paces n m f := by
    have hblock : Paces n m { d with cal := { d.cal with block := e + 4096 } } := { h with }
    exact iteInduction (fun _ => hblock.storeRec _) fun _ => h
  exact hf.put (by decide) _

end

/-! What a Catch brings into force (R76, R307 to R309, R317). -/

theorem selectSlots {n m : Nat} {d : Dev} (h : Paces n m d) : Paces n m d.selectSlots.1 := by
  unfold Dev.selectSlots
  refine foldl_fst (fun a p hp h => ?_) h
  have hp : p < 4 := Nat.lt_of_lt_of_le (List.mem_range.mp hp) (nphOf_le _)
  extract_lets e q cal e1 es
  have he1 : Paces n m e1 := { h with }
  split
  · exact h
  · split
    · exact he1
    · next mr _ =>
      extract_lets e2
      have he2 : Paces n m e2 := he1.foldl (fun d k hd =>
        (hd.put (apart_chainWord (by decide)) _).put (apart_chainWord (by decide)) _) _
      split
      next c lim _ =>
      extract_lets e3
      have he3 : Paces n m e3 := he2.driftBit p lim
      split
      · exact he3
      · have hcomp : Apart (Reg.PIX_LCOMP p) := by
          unfold Apart Reg.COX_PACED_CNT Reg.LMP_CTRL Reg.PIX_LCOMP
          omega
        exact { he3.takeEpoch.put hcomp c with }

section
variable {n m : Nat} {d : Dev} (h : Paces n m d)
include h

/-- With nothing held under R76 the waiting COMMITs alone are renumbered. -/
theorem takeHeld (hheld : d.regs.held = []) (k : Int) : Paces n m (d.takeHeld k) := by
  have heq : d.takeHeld k = ({ d with regs := { d.regs with held := [] } } : Dev).waitMoves 0 none := by
    simp [Dev.takeHeld, Dev.takeImage, Dev.imageWait, hheld]
  rw [heq]
  exact { h with }

/-- With no value and no correction waiting, a Catch brings newly selected slots into force alone. -/
theorem catchCorr (hheld : d.regs.held = []) (hdue : d.cal.due = []) (hcal : d.cal.held = []) (k : Nat) :
    Paces n m (d.catchCorr k) := by
  have htake : (d.takeHeld k).cal = d.cal := by simp [Dev.takeHeld, Dev.takeImage, Dev.waitMoves, hheld]
  unfold Dev.catchCorr
  split
  · exact h
  · extract_lets e now cal e1 e2 es
    have he : Paces n m e := h.takeHeld hheld k
    have hnow : now = [] := by simp [now, e, htake, hdue, hcal]
    have he2 : Paces n m e2 := by
      simp only [e2, hnow, List.foldl_nil]
      exact { he with }
    split
    next e3 es2 hsel =>
    have he3 : Paces n m e3 := by
      have := he2.selectSlots
      rwa [hsel] at this
    split
    · exact he3
    · exact he3.put (by decide) _

theorem settleCommits (stroke : Nat) : Paces n m (d.settleCommits stroke) := by
  refine quiet ?_ (quiet_settleCommits d stroke)
  exact { h with }

/-! What a Catch starts and times (R97, R313, R320). -/

theorem afeStart (q : Nat) : Paces n m (d.afeStart q) := by
  unfold Dev.afeStart
  split
  · exact h
  · extract_lets c without cal e e1
    have he : Paces n m e := { h with }
    split
    · exact he
    · have he1 : Paces n m e1 := he.putF (by unfold Apart Reg.CAL_AFE_Q Reg.COX_PACED_CNT Reg.LMP_CTRL; omega) _ _ _
      split
      · exact { he1 with }
      · exact he1.recal _ _ _

theorem afeCatch : Paces n m d.afeCatch := by
  unfold Dev.afeCatch
  split
  · exact h
  · extract_lets named cal e
    have he : Paces n m e := { h with }
    refine he.foldl (fun d q hd => ?_) _
    split
    · exact hd.afeStart q
    · exact hd

theorem runCatch (t : Nat) : Paces n m (d.runCatch t) := by
  unfold Dev.runCatch
  split
  · split
    · exact { h with }
    · exact h
  · exact h

theorem headRun (c : List (Nat × Word)) (t k : Nat) : Paces n m (d.headRun c t k) := by
  unfold Dev.headRun
  extract_lets evs sq e
  split <;> exact { h with }

/-! The lamps at a Catch (R211, R215, R221). -/

theorem latchChain (k : Nat) : Paces n m (d.latchChain k) := by
  unfold Dev.latchChain
  extract_lets c
  split
  · exact { h.put (apart_chainWord (by decide)) _ with }
  · exact h

theorem latchPhase (p : Nat) : Paces n m (d.latchPhase p) := by
  unfold Dev.latchPhase
  extract_lets cs
  split
  · exact h
  · exact h.foldl (fun d k hd => hd.latchChain k) _

theorem lit (k cyc : Nat) : Paces n m (d.lit k cyc) := by
  unfold Dev.lit
  extract_lets t x e
  have he : Paces n m e := { h with }
  split
  · exact he
  · exact (he.bumpBy (apart_chainWord (by decide)) _).bumpBy (apart_chainWord (by decide)) _

theorem shine (k opens closes : Nat) : Paces n m (d.shine k opens closes) := by
  have hgate : Paces n m (d.gateOpen k opens closes) := by
    unfold Dev.gateOpen
    split
    · exact h
    · exact { h with }
  exact hgate.lit k _

theorem lampCatch (p t : Nat) (dark : Bool) : Paces n m (d.lampCatch p t dark).1 := by
  unfold Dev.lampCatch
  extract_lets e c first litC last e1 lamp e2 normal proof tp e3 warn
  have he1 : Paces n m e1 := (h.latchPhase p).foldl (fun d k hd => hd.shine k _ _) _
  have he2 : Paces n m e2 := { he1 with }
  exact he2.foldl (fun d k hd => hd.shine k _ _) _

/-! The stroke itself (R84, R87, R88, R279). -/

/-- One more paced stroke is counted. -/
theorem counted : Paces (min 0xFFFFFFFF (n + 1)) m (d.bump Reg.COX_PACED_CNT) :=
  { h with
    count := by
      rw [Dev.bump, Dev.bumpBy, Dev.rd_put_self, h.count]
      omega
    phases := by
      rw [nphOf_act, Dev.rf, Dev.bump, Dev.bumpBy, Dev.rd_put_ne _ _ _ _ (by decide)]
      exact h.phases }

/-- Beyond the grid's origin, which stands for the next Catches, the pitch changes nothing (R87). -/
theorem newOrigin (k : Nat) : Paces n m (d.newOrigin k) ∧ (d.newOrigin k).seq.flight = d.seq.flight := by
  unfold Dev.newOrigin
  extract_lets w
  split
  · exact ⟨h, rfl⟩
  · exact ⟨{ h with }, rfl⟩

/-- What the Catch captures joins the strokes in flight and is counted as paced. -/
theorem doCatch (hcom : d.regs.com = none) (hheld : d.regs.held = []) (hdue : d.cal.due = []) (hcal : d.cal.held = [])
    (k : Nat) (pos : Int) (t : Nat) (deferred timer : Bool) :
    (d.doCatch k pos t deferred timer).rd Reg.COX_PACED_CNT = min 0xFFFFFFFF (n + 1) ∧
      ∃ x, (d.doCatch k pos t deferred timer).seq.flight.getLast? = some x ∧ x.at_ = t ∧ x.k = k ∧ x.paced = true ∧
        x.phase = k % m := by
  unfold Dev.doCatch
  extract_lets e0 e1 e2 e3 c e4 p dark
  have he0 : Paces n m e0 := { h with }
  have he1 : Paces n m e1 := by
    unfold e1
    rw [forceCommit_none (d := e0) hcom]
    split
    · exact he0.catchCorr hheld hdue hcal k
    · have hfree : Paces n m { e0 with regs := { e0.regs with comDue := false } } := { he0 with }
      exact hfree.catchCorr hheld hdue hcal k
  have he2 : Paces n m e2 := he1.settleCommits _
  have he3 : Paces n m e3 := (he2.afeCatch.bump (by decide)).runCatch t
  have he4 : Paces n m e4 := he3.foldl (fun d i hd => hd.headRun c t i) _
  split
  next e waits diag hlamp =>
  have he : Paces n m e := by
    have := he4.lampCatch p t dark
    rwa [hlamp] at this
  extract_lets paced e5 first band gap stroke flight sq e7 e8 e9 cls e10
  have hpaced : paced = true := by simp [paced, he.mode, he.cox]
  have he5 : Paces (min 0xFFFFFFFF (n + 1)) m e5 := by
    unfold e5
    rw [hpaced]
    cases deferred
    · exact he.counted
    · exact he.counted.bump (by decide)
  have hflight : e7.seq.flight = flight ++ [stroke] := if_neg (by rw [he5.withhold]; decide)
  have he7 : Paces (min 0xFFFFFFFF (n + 1)) m e7 := { he5 with }
  have he8 : e8 = e7 := by
    unfold e8
    rw [he7.withhold]
    rfl
  have he9 : Paces (min 0xFFFFFFFF (n + 1)) m e9 ∧ e9.seq.flight = e7.seq.flight := by
    unfold e9
    rw [he8]
    cases timer
    · exact he7.newOrigin k
    · exact ⟨he7, rfl⟩
  obtain ⟨he9, hflight9⟩ := he9
  have he10 : e10 = e9 := if_neg (by rw [he9.mode]; decide)
  have hdone : e10.rd Reg.COX_PACED_CNT = min 0xFFFFFFFF (n + 1) ∧
      ∃ x, e10.seq.flight.getLast? = some x ∧ x.at_ = t ∧ x.k = k ∧ x.paced = true ∧ x.phase = k % m := by
    rw [he10]
    refine ⟨he9.count, stroke, ?_, rfl, rfl, hpaced, congrArg (k % ·) he3.phases⟩
    rw [hflight9, hflight, List.getLast?_concat]
  split
  · rw [if_neg (by rw [he10, he9.mode]; simp)]
    exact hdone
  · exact hdone

end

end Paces

/-! The three commands of a Catch (R84, R91, R93). -/

theorem exec_catchStroke {s : State} {k r : Nat} {l : List (Nat × Nat)} (hpend : s.d.seq.pend = (k, r) :: l)
    (hr : s.d.earliest ≤ r) (t : Nat) :
    exec (.catchStroke t) s = .next { s with d := s.d.popPend.doCatch k (s.d.seq.grid k) r false false } := by
  have hexec : exec (.catchStroke t) s = execCatchStroke t s := rfl
  simp only [hexec, execCatchStroke, State.onDev, hpend, if_neg (Nat.not_lt.mpr hr)]

theorem exec_catchDeferred {s : State} {k r : Nat} {l : List (Nat × Nat)} (hpend : s.d.seq.pend = (k, r) :: l)
    (hr : r < s.d.earliest) (t : Nat) :
    exec (.catchDeferred t) s = .next { s with
      d := s.d.popPend.doCatch k (s.d.feedPos ((s.d.earliest : Int) - 16)) s.d.earliest true false } := by
  have hexec : exec (.catchDeferred t) s = execCatchDeferred t s := rfl
  simp only [hexec, execCatchDeferred, State.onDev, hpend, if_pos hr]

/-- The timer counts its next stroke (R93). -/
def Dev.timerCounted (d : Dev) : Dev := { d with seq := { d.seq with timerN := d.seq.timerN + 1 } }

theorem exec_timerStroke {s : State} (hen : s.d.seq.en = true) (htimer : s.d.rf Reg.SEQ_CTRL 0 0 = 1)
    (how : s.d.owBusy = false) (t : Nat) :
    exec (.timerStroke t) s = .next { s with
      d := s.d.timerCounted.doCatch (s.d.seq.timerN + 1) (2 ^ 47 * 65536) t false true } := by
  have hexec : exec (.timerStroke t) s = execTimerStroke t s := rfl
  simp [hexec, execTimerStroke, State.onDev, Dev.timerCounted, hen, htimer, how]

/-- Settles O59: pacing is an invariant of all that a Catch does before its stroke, and each of the three commands is a
Catch of its grid index at its instant. -/
theorem pacedStrokes : Obligations.PacedStrokes := by
  intro t s hmode hcox hcom hheld hdue hcal hwithhold
  have h : Paces (s.d.rd Reg.COX_PACED_CNT) (nphOf s.d.regs.act) s.d := ⟨hmode, hcox, hwithhold, rfl, rfl⟩
  have hpop : Paces (s.d.rd Reg.COX_PACED_CNT) (nphOf s.d.regs.act) s.d.popPend := { h with }
  have htime : Paces (s.d.rd Reg.COX_PACED_CNT) (nphOf s.d.regs.act) s.d.timerCounted := { h with }
  refine ⟨fun k r l hpend hr => ?_, fun k r l hpend hr => ?_, fun hen htimer how => ?_⟩
  · exact ⟨_, exec_catchStroke hpend hr t, hpop.doCatch hcom hheld hdue hcal k _ r false false⟩
  · exact ⟨_, exec_catchDeferred hpend hr t, hpop.doCatch hcom hheld hdue hcal k _ _ true false⟩
  · exact ⟨_, exec_timerStroke hen htimer how t, htime.doCatch hcom hheld hdue hcal _ _ t false true⟩

end Sys2Proof.Machine
end

section
/-! PROOFS. A CAL_RUN of retired cores while a COMMIT waits for its next Catch (R12, R130, R318). -/

namespace Sys2Proof.Machine

open Sys2Proof

/-- A CAL_RUN request of session 1. -/
def calRunReq : Req := ⟨⟨0, 0⟩, .eth0, 1, 7, 2, 0, false⟩

/-- CALIBRATE with no run under way and every core retired; a COMMIT that holds the counter CAL_RUN_CNT waits for the next
Catch. -/
def retiredCores : State :=
  { d := { mode := .calibrate
           sess := [(1, { (default : Session) with ep := ⟨0, 0⟩ })]
           afe := { quads := [{ (default : Quad) with retired := List.range 68 }] }
           seq := { en := true }
           regs := { com := some ⟨[(Reg.CAL_RUN_CNT, 5)], 1, 7⟩ } } }

theorem retiredCores_ready : Ready calRunReq retiredCores.d :=
  ⟨by decide +kernel, rfl, by decide, by decide, by decide, rfl, _, rfl, rfl, rfl⟩

/-- The run is over at once and counted; the Catches end with it, and the COMMIT takes effect over the count. -/
theorem retiredCores_counted :
    readAfter (.calRunAdcCore calRunReq 0) retiredCores (fun d => d.rd Reg.CAL_RUN_CNT) = some 5 := by decide +kernel

/-- Refutes O39: the second clause has CAL_RUN_CNT advance by one with a run that names retired cores only. In CALIBRATE
the end of a run disables Catches (R94), and a COMMIT that waited for the next one takes effect there (R12), after the run
is counted. The statement admits a COMMIT of any word, of this counter too, though the model stages no read-only word. -/
theorem not_calibrationRuns : ¬ Obligations.CalibrationRuns := by
  rintro ⟨hcore, -⟩
  obtain ⟨-, hretired, -⟩ := hcore calRunReq 0 retiredCores retiredCores_ready (by decide) (by decide)
  obtain ⟨d, ⟨-, -, -, hcount, -⟩, hcounted⟩ := (hretired rfl (by decide +kernel)).readAfter retiredCores_counted
  have hbefore : retiredCores.d.rd Reg.CAL_RUN_CNT = 0 := by decide +kernel
  omega

end Sys2Proof.Machine
end

section
/-! PROOFS. A capture that meets no Catch while a COMMIT waits for one (R12, R323). -/

namespace Sys2Proof.Machine

open Sys2Proof

/-- The white capture of a SHADING run begun in IDLE. -/
def whiteCapture : CalRun := { (default : CalRun) with kind := 5, stage := 2, fromIdle := true }

/-- The capture in CALIBRATE with Catches enabled; a COMMIT that holds the counter CAL_FAIL_CNT waits for the next Catch. -/
def stalledCapture : State :=
  { d := { mode := .calibrate
           seq := { en := true }
           cal := { run := some whiteCapture }
           regs := { com := some ⟨[(Reg.CAL_FAIL_CNT, 5)], 1, 7⟩ } } }

/-- The run fails and is counted; the Catches end with it, and the COMMIT takes effect over the count. -/
theorem stalledCapture_counted :
    readAfter .calRunTimeout stalledCapture (fun d => d.rd Reg.CAL_FAIL_CNT) = some 5 := by decide +kernel

/-- Refutes O40: the last clause has CAL_FAIL_CNT advance by one with a capture that meets no Catch. The end of the run
disables Catches (R94), and a COMMIT that waited for the next one takes effect there (R12), after the failure is counted.
The statement admits a COMMIT of any word, of this counter too, though the model stages no read-only word. -/
theorem not_calibrationResults : ¬ Obligations.CalibrationResults := by
  rintro ⟨-, -, -, hruns⟩
  obtain ⟨-, -, -, -, -, htimeout⟩ := hruns whiteCapture stalledCapture rfl
  obtain ⟨d, ⟨-, -, -, hcount, -⟩, hcounted⟩ :=
    (htimeout (by decide) (by decide) (by decide)).readAfter stalledCapture_counted
  have hbefore : stalledCapture.d.rd Reg.CAL_FAIL_CNT = 0 := by decide +kernel
  omega

end Sys2Proof.Machine
end

section
/-! PROOFS. What has been sent stays on the record (R78, R362). -/

namespace Sys2Proof.Machine

open Sys2Proof

/-- What had been sent is still on the record. -/
def KeepsSent (d d' : Dev) : Prop := d.tx ⊆ d'.tx

theorem KeepsSent.refl (d : Dev) : KeepsSent d d := List.Subset.refl _

theorem KeepsSent.trans {a b c : Dev} (h : KeepsSent a b) (g : KeepsSent b c) : KeepsSent a c := List.Subset.trans h g

theorem KeepsSent.foldl {α : Type} {f : Dev → α → Dev} (hf : ∀ d x, KeepsSent d (f d x)) (l : List α) (d : Dev) :
    KeepsSent d (l.foldl f d) := by
  induction l generalizing d with
  | nil => exact KeepsSent.refl d
  | cons x l ih => exact (hf d x).trans (ih (f d x))

theorem keepsSent_sendNow (d : Dev) (p : NetPort) (c : Nat) (o : Out) : KeepsSent d (d.sendNow p c o) :=
  List.subset_cons_self o d.tx

theorem keepsSent_resolve (d : Dev) (p : NetPort) (hop : Option Nat) : KeepsSent d (d.resolve p hop) := by
  unfold Dev.resolve
  split
  · exact KeepsSent.refl d
  · split
    · exact KeepsSent.refl d
    · exact keepsSent_sendNow d p 1 _

theorem keepsSent_send (d : Dev) (p : NetPort) (c : Nat) (o : Out) : KeepsSent d (d.send p c o) := by
  unfold Dev.send
  split
  · exact (keepsSent_resolve d p _).trans (keepsSent_sendNow _ p c o)
  · exact KeepsSent.refl d

theorem keepsSent_pump (d : Dev) (n : Nat) : KeepsSent d (d.pump n) := by
  unfold Dev.pump
  split
  · split
    · exact KeepsSent.refl d
    · exact KeepsSent.foldl (fun d _ => keepsSent_send d _ _ _) _ (d.modSes n _)
  · exact KeepsSent.refl d

theorem keepsSent_pushEv (d : Dev) (n : Nat) (e : Ev) : KeepsSent d (d.pushEv n e) := by
  unfold Dev.pushEv
  split
  · exact KeepsSent.refl d
  · split
    · exact KeepsSent.refl d
    · exact keepsSent_pump (d.modSes n _) n

theorem keepsSent_opDone (d : Dev) (o : LongOp) (w : Option Nat) (st id : Nat) : KeepsSent d (d.opDone o w st id) := by
  unfold Dev.opDone
  cases w with
  | none => exact keepsSent_pushEv d _ _
  | some n =>
    dsimp only
    split
    · exact (keepsSent_pushEv d _ _).trans (keepsSent_pushEv _ n _)
    · exact keepsSent_pushEv d _ _

theorem keepsSent_endOps (d : Dev) (w : Option Nat) (p : Op → Bool) (st id : Nat) : KeepsSent d (d.endOps w p st id) :=
  KeepsSent.foldl (fun d o => keepsSent_opDone d o w st id) _ { d with ops := d.ops.filter (fun o => !p o.op) }

end Sys2Proof.Machine
end

section
/-! PROOFS. The results in force (R304, R327, R328). -/

namespace Sys2Proof.Machine

open Sys2Proof

section Quietly
variable {d e : Dev} (h : Quiet d e)
include h

/-- A field of a word of a page before NET reads as before. -/
theorem Quiet.rf_below {a : Nat} (ha : a < 0xC0000) (hi lo : Nat) : e.rf a hi lo = d.rf a hi lo := by
  rw [Dev.rf, h.words a (by omega), Dev.rf]

theorem Quiet.bref {t : Nat} (ht : t < 384) (g : Nat) : e.bref t g = d.bref t g := by
  have h01 : Reg.CAL_BREF01 t < 0xC0000 := by unfold Reg.CAL_BREF01; omega
  have h2 : Reg.CAL_BREF2 t < 0xC0000 := by unfold Reg.CAL_BREF2; omega
  simp only [Dev.bref, h.rf_below h01, h.rf_below h2]

theorem Quiet.afeBody {q : Nat} (hq : q < 4) : e.afeBody q = d.afeBody q := by
  refine List.flatMap_congr fun t ht => List.map_congr_left fun a ha => h.words a ?_
  rw [List.mem_range'_1] at ht
  simp only [List.mem_cons, List.not_mem_nil, or_false, Reg.AFE_T_CFG, Reg.AFE_T_CDS, Reg.AFE_T_CLAMP, Reg.AFE_T_GO,
    Reg.CAL_TRIM, Reg.CAL_BREF01, Reg.CAL_BREF2] at ha
  omega

/-- The stripe and the spares stay as they are. -/
theorem Quiet.lanes (r : Dir) : (e.bzlLink r).map = (d.bzlLink r).map ∧ (e.bzlLink r).spares = (d.bzlLink r).spares := by
  cases r with
  | f2h => exact ⟨congrArg (fun b => b.f2h.map) h.bzl, congrArg (fun b => b.f2h.spares) h.bzl⟩
  | h2f => exact ⟨congrArg (fun b => b.h2f.map) h.bzl, congrArg (fun b => b.h2f.spares) h.bzl⟩

theorem Quiet.headOf (k u : Nat) : e.headOf k u = d.headOf k u := by rw [Dev.headOf, h.cal, Dev.headOf]

theorem Quiet.tag (m i n : Nat) : e.tag m i n = d.tag m i n := by rw [Dev.tag, h.fsram, Dev.tag]

theorem Quiet.slotOf (p : Nat) : e.slotOf p = d.slotOf p := by rw [Dev.slotOf, h.words _ (by decide), Dev.slotOf]

theorem Quiet.lampRecord {n : Nat} (hn : n < 16) : e.lampRecord n = d.lampRecord n := by
  have hrot : (List.range 14).map (fun g => e.rd (Reg.LMP_C_ROT n g)) =
      (List.range 14).map (fun g => d.rd (Reg.LMP_C_ROT n g)) := by
    refine List.map_congr_left fun g hg => h.words _ ?_
    rw [List.mem_range] at hg
    unfold Reg.LMP_C_ROT
    omega
  have hlit : e.rd (Reg.LMP_C_LIT_MIN n) = d.rd (Reg.LMP_C_LIT_MIN n) := h.words _ (by unfold Reg.LMP_C_LIT_MIN; omega)
  have hmin : e.rd (Reg.LMP_C_ROT_MIN n) = d.rd (Reg.LMP_C_ROT_MIN n) := h.words _ (by unfold Reg.LMP_C_ROT_MIN; omega)
  rw [Dev.lampRecord, hrot, hlit, hmin, Dev.ns, h.tim]
  rfl

/-- The result in force of a unit is made of calibration words, the slots, the stripe and the time. -/
theorem Quiet.inForce {k u : Nat} (hu : u ∈ kindUnits k) : e.inForce k u = d.inForce k u := by
  match k with
  | 1 =>
    have hcore : Reg.CAL_CORE u < 0xC0000 := by
      have hu68 := List.mem_range.mp hu
      unfold Reg.CAL_CORE
      omega
    simp only [Dev.inForce, h.headOf, h.rf_below hcore, h.words _ (show Reg.CAL_CORE u / 65536 ≠ 12 by omega)]
  | 2 =>
    have hu4 : u < 4 := List.mem_range.mp hu
    have hset : (List.range' (96 * u) 96).any (fun t => (List.range 3).any fun g => (e.bref t g).isSome) =
        (List.range' (96 * u) 96).any (fun t => (List.range 3).any fun g => (d.bref t g).isSome) := by
      rw [Bool.eq_iff_iff, List.any_eq_true, List.any_eq_true]
      refine exists_congr fun t => and_congr_right fun ht => ?_
      rw [List.mem_range'_1] at ht
      simp only [h.bref (show t < 384 by omega)]
    simp only [Dev.inForce, h.headOf, h.afeBody hu4, hset]
  | 3 =>
    have hlane (r : Dir) : laneWord r (u % 32) < 0xC0000 := by
      cases r <;> simp only [laneWord, Reg.CAL_LANE_F2H, Reg.CAL_LANE_H2F] <;> omega
    have hword (r : Dir) : e.rd (laneWord r (u % 32)) = d.rd (laneWord r (u % 32)) :=
      h.words _ (by have := hlane r; omega)
    obtain ⟨hmap, hspares⟩ := h.lanes (if u < 32 then .f2h else .h2f)
    simp only [Dev.inForce, h.headOf, h.rf_below (hlane _), hword, hmap, hspares]
  | 4 =>
    have hcomp : e.rd (Reg.PIX_LCOMP u) = d.rd (Reg.PIX_LCOMP u) := by
      have hu4 : u < 4 := List.mem_range.mp hu
      exact h.words _ (by unfold Reg.PIX_LCOMP; omega)
    simp only [Dev.inForce, h.cal, hcomp]
  | 5 => simp only [Dev.inForce, h.headOf, h.tag, h.cal, h.fsram]
  | 6 => simp only [Dev.inForce, h.slotOf, h.cal]
  | 7 => simp only [Dev.inForce, h.headOf, h.words _ (show Reg.CAL_BG_UV / 65536 ≠ 12 by decide)]
  | 8 => exact congrArg some (h.lampRecord (List.mem_range.mp hu))
  | 0 | _ + 9 => exact absurd hu List.not_mem_nil

theorem Quiet.toStore (k u : Nat) : e.toStore k u = d.toStore k u := by
  refine List.flatMap_congr fun j _ => List.filterMap_congr fun n hn => h.inForce ?_
  exact List.mem_of_mem_filter hn

end Quietly

end Sys2Proof.Machine
end

section
/-! PROOFS. The calibration store (R327 to R329). -/

namespace Sys2Proof.Machine

open Sys2Proof

/-! The end of the writes (R328). -/

theorem endOps_caches (d : Dev) (w : Option Nat) (p : Op → Bool) (st id : Nat) : (d.endOps w p st id).caches = d.caches :=
  foldl_caches _ (fun d o => opDone_caches d o w st id) _ _

/-- The operation of CAL_STORE is over once nothing is left to write. -/
def Dev.writesEnd (d : Dev) : Dev := if d.cal.writes.isEmpty then d.storeEnd else d

/-- What that does: with writes left nothing, else CAL_STORE completes, and the mark of a record lost is taken off. -/
structure WritesEnded (d d' : Dev) : Prop where
  quiet : Quiet { d with cal := { d.cal with lost := d'.cal.lost }, ops := d'.ops } d'
  done : d.cal.writes = [] → d'.ops = d.ops.filter (fun o => o.op != .calStore)
  more : d.cal.writes ≠ [] → d'.ops = d.ops
  lost : d.cal.lost = false → d'.cal.lost = false
  caches : d'.caches = d.caches
  sent : KeepsSent d d'

theorem writesEnded_writesEnd (d : Dev) : WritesEnded d d.writesEnd := by
  unfold Dev.writesEnd
  split
  · next hnone =>
    have hq : Quiet { d with cal := { d.cal with lost := false }, ops := d.ops.filter (fun o => o.op != .calStore) }
        d.storeEnd := quiet_endOps { d with cal := { d.cal with lost := false } } _ (fun o => o == Op.calStore) _ 0
    have hlost : d.storeEnd.cal.lost = false := congrArg Cal.lost hq.cal
    exact {
      quiet := { hq with cal := by rw [hlost]; exact hq.cal, ops := rfl }
      done := fun _ => hq.ops
      more := fun hmore => absurd (List.isEmpty_iff.mp hnone) hmore
      lost := fun _ => hlost
      caches := endOps_caches { d with cal := { d.cal with lost := false } } _ _ _ _
      sent := keepsSent_endOps { d with cal := { d.cal with lost := false } } _ _ _ _ }
  · next hsome =>
    exact {
      quiet := Quiet.refl d
      done := fun hnone => absurd (List.isEmpty_iff.mpr hnone) hsome
      more := fun _ => rfl
      lost := id
      caches := rfl
      sent := KeepsSent.refl d }

/-! CAL_STORE (R328). -/

/-- A request that its own checks answer with a change `f`, as `serve_changes` takes them, makes this change, is replied
to, and then does what follows its reply. -/
theorem serveThen_changes {d : Dev} {h : Req} (hr : Ready h d) {op st : Nat} {b : List Byte} {k : Dev → Answer}
    (f : Dev → Dev) (post : Nat → Dev → Dev) (hst : st ≠ stLater) (hk : ∀ e, Quiet d e → k e = (st, b, f e))
    (hf : ∀ e, Quiet d e → Quiet (f d) (f e)) (hses : ∀ e, (f e).sess = e.sess) :
    ∃ e, Quiet (f d) e ∧ Replied e h op st b ∧ d.serveThen h op k post = post st e := by
  obtain ⟨da, x, hq, hx, -, -, -, hserve⟩ := serveThen_ready d h hr
  have hopen : (f da).ses? h.session = some x := (congrArg (aget · h.session) (hses da)).trans hx
  refine ⟨(f da).answer h op st b, (hf da hq).chain (quiet_answer _ _ _ _ _), answer_replied _ _ _ _ _ x hopen, ?_⟩
  rw [hserve, hk da hq]
  exact congrArg (post st) (if_neg hst)

/-- The records a CAL_STORE names are queued behind those that wait, and its operation is under way. -/
def Dev.storeQueued (d : Dev) (h : Req) (k u : Nat) : Dev :=
  { d with cal := { d.cal with writes := d.cal.writes ++ d.toStore k u, lost := false }
           ops := d.ops ++ [⟨.calStore, h.session, h.seq⟩] }

theorem Quiet.storeQueued {d e : Dev} (hq : Quiet d e) (h : Req) (k u : Nat) :
    Quiet (d.storeQueued h k u) (e.storeQueued h k u) :=
  { hq with
    cal := by simp only [Dev.storeQueued, hq.cal, hq.toStore]
    ops := by simp only [Dev.storeQueued, hq.ops] }

/-- What CAL_STORE answers by its own checks. -/
def storeAnswer (h : Req) (k u : Nat) (d : Dev) : Answer :=
  if k = 0 ∨ (9 ≤ k ∧ k ≠ 0xFFFF) then no stBadParam d
  else if u ≠ 0xFFFF ∧ !((kindsNamed k).any fun j => (kindUnits j).contains u) then no stBadParam d
  else (stAccepted, [], d.storeQueued h k u)

theorem exec_calStore (h : Req) (k u : Nat) (s : State) :
    exec (.calStore h k u) s = s.onDev fun d => d.serveThen h 0x62 (storeAnswer h k u) fun st d =>
      if st = stAccepted ∧ d.cal.writes.isEmpty then d.storeEnd else d := rfl

/-- A kind and a unit of R304 are accepted. -/
theorem storeAnswer_named {k u : Nat} (h1 : 1 ≤ k) (h8 : k ≤ 8 ∨ k = 0xFFFF)
    (hu : u = 0xFFFF ∨ ∃ j ∈ kindsNamed k, u ∈ kindUnits j) (h : Req) (d : Dev) :
    storeAnswer h k u d = (stAccepted, [], d.storeQueued h k u) := by
  have hunit : ¬ (u ≠ 0xFFFF ∧ (!(kindsNamed k).any fun j => (kindUnits j).contains u) = true) := by
    rintro ⟨hne, hnone⟩
    obtain ⟨j, hj, hju⟩ := hu.resolve_left hne
    simp only [Bool.not_eq_true', List.any_eq_false, List.contains_iff_mem] at hnone
    exact hnone j hj hju
  rw [storeAnswer, if_neg (by omega), if_neg hunit]

theorem does_calStore (h : Req) (k u : Nat) (s : State) (hr : Ready h s.d) (h1 : 1 ≤ k) (h8 : k ≤ 8 ∨ k = 0xFFFF)
    (hu : u = 0xFFFF ∨ ∃ j ∈ kindsNamed k, u ∈ kindUnits j) :
    Does (.calStore h k u) s fun d => d.cal.writes = s.d.cal.writes ++ s.d.toStore k u ∧ Replied d h 0x62 stAccepted [] ∧
      (d.cal.writes ≠ [] → d.ops = s.d.ops ++ [⟨.calStore, h.session, h.seq⟩]) ∧
      (d.cal.writes = [] → d.ops = s.d.ops.filter (fun o => o.op != .calStore)) ∧
      Quiet { s.d with cal := { s.d.cal with writes := d.cal.writes, lost := false }, ops := d.ops } d := by
  obtain ⟨e, hq, hrep, hserve⟩ := serveThen_changes (op := 0x62) hr (fun d => d.storeQueued h k u)
    (fun st d => if st = stAccepted ∧ d.cal.writes.isEmpty then d.storeEnd else d) (show stAccepted ≠ stLater by decide)
    (fun e _ => storeAnswer_named h1 h8 hu h e) (fun e hq => hq.storeQueued h k u) (fun _ => rfl)
  have hexec : exec (.calStore h k u) s = .next { s with d := e.writesEnd } := by
    rw [exec_calStore, State.onDev, hserve]
    simp only [true_and]
    rfl
  have hend := writesEnded_writesEnd e
  have hcal : e.writesEnd.cal = (s.d.storeQueued h k u).cal := by
    have hlost : e.writesEnd.cal.lost = false := hend.lost (congrArg Cal.lost hq.cal)
    have hkept := hend.quiet.cal
    rw [hlost, hq.cal] at hkept
    exact hkept
  have hwrites : e.writesEnd.cal.writes = e.cal.writes := congrArg Cal.writes (hcal.trans hq.cal.symm)
  refine ⟨_, hexec, congrArg Cal.writes hcal, hrep.of_caches hend.caches, fun hmore => ?_, fun hnone => ?_, ?_⟩
  · rw [hend.more (hwrites ▸ hmore), hq.ops]
    rfl
  · rw [hend.done (hwrites ▸ hnone), hq.ops]
    simp [Dev.storeQueued]
  · have hqueued : Quiet { s.d with cal := e.writesEnd.cal, ops := e.writesEnd.ops }
        { e with cal := e.writesEnd.cal, ops := e.writesEnd.ops } := { hq with cal := rfl, ops := rfl }
    have hended : Quiet { e with cal := e.writesEnd.cal, ops := e.writesEnd.ops } e.writesEnd :=
      { hend.quiet with cal := rfl }
    exact { hqueued.chain hended with cal := by rw [hcal]; rfl }

theorem does_calPeriodicStore (s : State) :
    (s.d.fieldRuns = true → Does .calPeriodicStore s fun d => d.cal.writes = s.d.cal.writes ++
        ([1, 2, 3] : List Nat).flatMap (fun k => (kindUnits k).filterMap (s.d.inForce k)) ∧
      d = { s.d with cal := { s.d.cal with writes := d.cal.writes } }) ∧
    (s.d.fieldRuns = false → Does .calPeriodicStore s fun d => d = s.d) := by
  have hexec : exec .calPeriodicStore s = s.onDev fun d => if d.fieldRuns then
      d.queueWrites (([1, 2, 3] : List Nat).flatMap fun k => (kindUnits k).filterMap (d.inForce k)) else d := rfl
  refine ⟨fun hruns => does_onDev _ s _ _ hexec ?_, fun hruns => does_onDev _ s _ _ hexec ?_⟩
  · rw [if_pos hruns]
    exact ⟨rfl, rfl⟩
  · rw [hruns]
    rfl

/-! CAL_FLASH_WRITE_DONE (R328, R405). -/

/-- The write of the record at the head of the queue has ended: `l` are the records behind it. -/
def Dev.writeDone (d : Dev) (ok : Bool) (r : CalRec) (l : List CalRec) : Dev :=
  if ok then { d with cal := { d.cal with writes := l, retry := false } }.storeRec r
  else if !d.cal.retry then { d with cal := { d.cal with retry := true } }.sectorFails
  else ({ d with cal := { d.cal with writes := l, retry := false, lost := true } }.bump Reg.CAL_FLASH_ERR_CNT).logHere
    { cls := 0x11, code := 2, unit := r.unit, a := r.epoch.toNat } |>.sectorFails

theorem exec_calFlashWriteDone {r : CalRec} {l : List CalRec} {s : State} (hwrites : s.d.cal.writes = r :: l) (ok : Bool) :
    exec (.calFlashWriteDone ok) s = .next { s with d := (s.d.writeDone ok r l).writesEnd } := by
  have hexec : exec (.calFlashWriteDone ok) s = execCalFlashWriteDone ok s := rfl
  rw [hexec, execCalFlashWriteDone, State.onDev]
  split
  · next hnone => exact absurd (hwrites.symm.trans hnone) (List.cons_ne_nil r l)
  · next r' l' hsome =>
    obtain ⟨rfl, rfl⟩ := List.cons.inj (hwrites.symm.trans hsome)
    rfl

/-! A record that is written (R327). -/

/-- The record has joined the store, is counted and has gone to the flash. -/
structure RecordStored (d d' : Dev) (r : CalRec) (l : List CalRec) : Prop where
  dev : d' = { d with
    cal := { d.cal with store := storeAdd d.cal.store r, writes := l, retry := false, flash := d'.cal.flash }
    regs := d'.regs, tx := d'.tx }
  count : d'.rd Reg.CAL_STORE_CNT = min 0xFFFFFFFF (d.rd Reg.CAL_STORE_CNT + 1)
  sent : Out.flashRecord r.bytes ∈ d'.tx

theorem storeRec_eq (d : Dev) (r : CalRec) : ∃ f, d.storeRec r =
    (({ d with cal := { d.cal with store := storeAdd d.cal.store r } }.bump Reg.CAL_STORE_CNT).setFlash f).emit
      (.flashRecord r.bytes) := ⟨_, rfl⟩

theorem recordStored_writeDone (d : Dev) (r : CalRec) (l : List CalRec) : RecordStored d (d.writeDone true r l) r l := by
  obtain ⟨f, hf⟩ := storeRec_eq { d with cal := { d.cal with writes := l, retry := false } } r
  rw [Dev.writeDone, if_pos rfl, hf]
  exact {
    dev := rfl
    count := (Dev.rd_put_ne _ _ _ _ (by decide)).trans
      (rd_bump_self { d with cal := { d.cal with store := storeAdd d.cal.store r, writes := l, retry := false } } _)
    sent := List.mem_cons_self }

theorem does_calFlashWriteDone_ok {r : CalRec} {l : List CalRec} {s : State} (hwrites : s.d.cal.writes = r :: l) :
    Does (.calFlashWriteDone true) s (fun d => d.cal.store = storeAdd s.d.cal.store r ∧ d.cal.writes = l ∧
      d.cal.retry = false ∧ d.rd Reg.CAL_STORE_CNT = min 0xFFFFFFFF (s.d.rd Reg.CAL_STORE_CNT + 1) ∧
      Out.flashRecord r.bytes ∈ d.tx ∧
      (l = [] → d.ops = s.d.ops.filter (fun o => o.op != .calStore)) ∧ (l ≠ [] → d.ops = s.d.ops) ∧
      Quiet { s.d with cal := d.cal, regs := d.regs, ops := d.ops } d) := by
  refine ⟨_, exec_calFlashWriteDone hwrites true, ?_⟩
  obtain ⟨hdev, hcount, hsent⟩ := recordStored_writeDone s.d r l
  generalize s.d.writeDone true r l = e at hdev hcount hsent ⊢
  obtain ⟨hq, hdone, hmore, -, -, hkept⟩ := writesEnded_writesEnd e
  have hwords : e.writesEnd.rd Reg.CAL_STORE_CNT = e.rd Reg.CAL_STORE_CNT := hq.words _ (by decide)
  have hrec := hkept hsent
  generalize e.writesEnd = d at hq hdone hmore hwords hrec ⊢
  rw [hdev] at hq hdone hmore
  exact ⟨by rw [hq.cal], by rw [hq.cal], by rw [hq.cal], hwords.trans hcount, hrec, hdone, hmore,
    { hq with shd := rfl, held := rfl, heldBy := rfl, com := rfl, sn := rfl, act := rfl, cal := rfl, ops := rfl }⟩

/-! A write that fails (R328, R405). -/

/-- The head sector has failed: the flash, its status word and the fault log follow. -/
structure SectorFailed (d d' : Dev) : Prop where
  cal : d'.cal = { d.cal with flash := d'.cal.flash }
  ops : d'.ops = d.ops
  mode : d'.mode = d.mode
  hold : d'.hold = d.hold
  words : ∀ a, a / 65536 ≠ 12 → a ≠ Reg.CAL_FLASH_STAT → d'.rd a = d.rd a
  log : d'.flt.log = d.flt.log ∨ Logged d' 0x11 2 0

theorem sectorFailed_setFlash (d : Dev) (f : Flash) : SectorFailed d (d.setFlash f) where
  cal := rfl
  ops := rfl
  mode := rfl
  hold := rfl
  words a _ ha := Dev.rd_put_ne _ _ a _ ha
  log := .inl rfl

/-- Too few sectors are left: this is logged once. -/
theorem SectorFailed.logHere {d e : Dev} (h : SectorFailed d e) (b : Bool) :
    SectorFailed d { e.logHere { cls := 0x11, code := 2 } with
      flt := { (e.logHere { cls := 0x11, code := 2 }).flt with flashLow := b } } := by
  have hq := quiet_log e { cls := 0x11, code := 2 } e.mode e.mode
  exact {
    cal := (hq.cal.trans h.cal).trans
      (congrArg (fun f => { d.cal with flash := f }) (congrArg Cal.flash hq.cal).symm)
    ops := hq.ops.trans h.ops
    mode := hq.mode.trans h.mode
    hold := hq.hold.trans h.hold
    words := fun a hnet ha => (hq.words a hnet).trans (h.words a hnet ha)
    log := .inr (logged_log e { cls := 0x11, code := 2 } e.mode e.mode) }

theorem sectorFails_eq (d : Dev) : ∃ f, d.sectorFails =
    if (d.setFlash f).cal.flash.usable < 16 ∧ (d.setFlash f).flt.flashLow = false then
      { (d.setFlash f).logHere { cls := 0x11, code := 2 } with
        flt := { ((d.setFlash f).logHere { cls := 0x11, code := 2 }).flt with flashLow := true } }
    else d.setFlash f := ⟨_, rfl⟩

theorem sectorFailed_sectorFails (d : Dev) : SectorFailed d d.sectorFails := by
  obtain ⟨f, hf⟩ := sectorFails_eq d
  rw [hf]
  split
  · exact (sectorFailed_setFlash d f).logHere true
  · exact sectorFailed_setFlash d f

/-- A first failure is tried again: the record stays at the head of the queue. -/
theorem does_calFlashWriteDone_retry {r : CalRec} {l : List CalRec} {s : State} (hwrites : s.d.cal.writes = r :: l)
    (hretry : s.d.cal.retry = false) :
    Does (.calFlashWriteDone false) s fun d => d.cal.store = s.d.cal.store ∧ d.cal.writes = r :: l ∧
      d.cal.retry = true ∧ d.ops = s.d.ops ∧ d.rd Reg.CAL_FLASH_ERR_CNT = s.d.rd Reg.CAL_FLASH_ERR_CNT ∧
      d.mode = s.d.mode ∧ d.hold = s.d.hold := by
  have hfail := sectorFailed_sectorFails { s.d with cal := { s.d.cal with retry := true } }
  have hdone : s.d.writeDone false r l = ({ s.d with cal := { s.d.cal with retry := true } } : Dev).sectorFails := by
    rw [Dev.writeDone, if_neg (by decide), if_pos (by rw [hretry]; rfl)]
  rw [← hdone] at hfail
  refine ⟨_, exec_calFlashWriteDone hwrites false, ?_⟩
  generalize s.d.writeDone false r l = e at hfail ⊢
  have hleft : e.cal.writes = r :: l := by rw [hfail.cal]; exact hwrites
  have hend : e.writesEnd = e := by rw [Dev.writesEnd, hleft]; rfl
  rw [hend]
  exact ⟨by rw [hfail.cal], hleft, by rw [hfail.cal], hfail.ops, hfail.words _ (by decide) (by decide), hfail.mode,
    hfail.hold⟩

/-- The record is given up: it leaves the queue, and this is counted and logged. -/
structure RecordLost (d d' : Dev) (l : List CalRec) : Prop where
  cal : d'.cal = { d.cal with writes := l, retry := false, lost := true, flash := d'.cal.flash }
  ops : d'.ops = d.ops
  mode : d'.mode = d.mode
  hold : d'.hold = d.hold
  count : d'.rd Reg.CAL_FLASH_ERR_CNT = min 0xFFFFFFFF (d.rd Reg.CAL_FLASH_ERR_CNT + 1)
  log : ∃ u, Logged d' 0x11 2 u

/-- The record has left the queue, and this is counted. -/
def Dev.recordOut (d : Dev) (l : List CalRec) : Dev :=
  { d with cal := { d.cal with writes := l, retry := false, lost := true } }.bump Reg.CAL_FLASH_ERR_CNT

/-- What is logged of it. -/
def lostRec (r : CalRec) : FaultRec := { cls := 0x11, code := 2, unit := r.unit, a := r.epoch.toNat }

theorem writeDone_lost {d : Dev} (r : CalRec) (l : List CalRec) (hretry : d.cal.retry = true) :
    d.writeDone false r l = ((d.recordOut l).log (lostRec r) d.mode d.mode).sectorFails := by
  rw [Dev.writeDone, if_neg (by decide), if_neg (by rw [hretry]; decide)]
  rfl

theorem recordLost_writeDone {d : Dev} {r : CalRec} (l : List CalRec) (hretry : d.cal.retry = true) :
    RecordLost d (d.writeDone false r l) l := by
  rw [writeDone_lost r l hretry]
  have hq := quiet_log (d.recordOut l) (lostRec r) d.mode d.mode
  have hlogged := logged_log (d.recordOut l) (lostRec r) d.mode d.mode
  generalize (d.recordOut l).log (lostRec r) d.mode d.mode = e at hq hlogged ⊢
  obtain ⟨hcal, hops, hmode, hhold, hwords, hlog⟩ := sectorFailed_sectorFails e
  generalize e.sectorFails = d' at hcal hops hmode hhold hwords hlog ⊢
  exact {
    cal := hcal.trans (congrArg (fun c => { c with flash := d'.cal.flash }) hq.cal)
    ops := hops.trans hq.ops
    mode := hmode.trans hq.mode
    hold := hhold.trans hq.hold
    count := (hwords _ (by decide) (by decide)).trans ((hq.words _ (by decide)).trans (rd_bump_self _ _))
    log := hlog.elim (fun hsame => ⟨r.unit, by rwa [Logged, hsame]⟩) fun hlow => ⟨0, hlow⟩ }

/-- A second failure gives the record up. -/
theorem does_calFlashWriteDone_lost {r : CalRec} {l : List CalRec} {s : State} (hwrites : s.d.cal.writes = r :: l)
    (hretry : s.d.cal.retry = true) :
    Does (.calFlashWriteDone false) s fun d => d.cal.store = s.d.cal.store ∧ d.cal.writes = l ∧
      d.cal.retry = false ∧ (l = [] → d.ops = s.d.ops.filter (fun o => o.op != .calStore)) ∧
      d.rd Reg.CAL_FLASH_ERR_CNT = min 0xFFFFFFFF (s.d.rd Reg.CAL_FLASH_ERR_CNT + 1) ∧ (∃ u, Logged d 0x11 2 u) ∧
      d.mode = s.d.mode ∧ d.hold = s.d.hold := by
  obtain ⟨hcal, hops, hmode, hhold, hcount, hlog⟩ := recordLost_writeDone l hretry (r := r)
  refine ⟨_, exec_calFlashWriteDone hwrites false, ?_⟩
  generalize s.d.writeDone false r l = e at hcal hops hmode hhold hcount hlog ⊢
  have hwritesE : e.cal.writes = l := by rw [hcal]
  obtain ⟨hq, hdone, -, -, -, -⟩ := writesEnded_writesEnd e
  rw [hwritesE, hops] at hdone
  refine ⟨?_, ?_, ?_, hdone, (hq.words _ (by decide)).trans hcount, ?_, hq.mode.trans hmode, hq.hold.trans hhold⟩
  · exact (congrArg Cal.store hq.cal).trans (by rw [hcal])
  · exact (congrArg Cal.writes hq.cal).trans (by rw [hcal])
  · exact (congrArg Cal.retry hq.cal).trans (by rw [hcal])
  · obtain ⟨u, x, hx, hrest⟩ := hlog
    exact ⟨u, x, by rw [hq.flt]; exact hx, hrest⟩

/-! CAL_RESTORE (R324, R329). -/

/-- The records that a CAL_RESTORE has named are to be read, and its operation is under way. -/
def Dev.restoring (d : Dev) (h : Req) (rs : List CalRec) : Dev :=
  { d with cal := { d.cal with restore := d.cal.restore ++ [(h.session, h.seq, rs)] }
           ops := d.ops ++ [⟨.calRestore, h.session, h.seq⟩] }

theorem Quiet.restoring {d e : Dev} (hq : Quiet d e) (h : Req) (rs : List CalRec) :
    Quiet (d.restoring h rs) (e.restoring h rs) :=
  { hq with
    cal := by simp only [Dev.restoring, hq.cal]
    ops := by simp only [Dev.restoring, hq.ops] }

theorem Quiet.storeNamed {d e : Dev} (hq : Quiet d e) (k u n : Nat) : e.storeNamed k u n = d.storeNamed k u n := by
  rw [Dev.storeNamed, hq.cal, Dev.storeNamed]

/-- What CAL_RESTORE answers by its own checks. -/
def restoreAnswer (h : Req) (k u n : Nat) (d : Dev) : Answer :=
  if d.mode == .wake then no stBadState d
  else if d.storeNamed k u n = [] then no stBadParam d
  else (stAccepted, [], d.restoring h (d.storeNamed k u n))

theorem exec_calRestore (h : Req) (k u n : Nat) (s : State) :
    exec (.calRestore h k u n) s = s.onDev fun d => d.serve h 0x63 (restoreAnswer h k u n) := rfl

theorem restoreAnswer_wake {d : Dev} (hmode : d.mode = .wake) (h : Req) (k u n : Nat) :
    restoreAnswer h k u n d = no stBadState d := if_pos (beq_iff_eq.mpr hmode)

theorem restoreAnswer_awake {d : Dev} (hmode : d.mode ≠ .wake) (h : Req) (k u n : Nat) :
    restoreAnswer h k u n d = if d.storeNamed k u n = [] then no stBadParam d
      else (stAccepted, [], d.restoring h (d.storeNamed k u n)) := if_neg (by rwa [beq_iff_eq])

theorem does_calRestore (h : Req) (k u n : Nat) (s : State) (hr : Ready h s.d) :
    (s.d.mode ≠ .wake → s.d.storeNamed k u n ≠ [] →
      Does (.calRestore h k u n) s fun d =>
        d.cal.restore = s.d.cal.restore ++ [(h.session, h.seq, s.d.storeNamed k u n)] ∧ Replied d h 0x63 stAccepted [] ∧
        Quiet { s.d with cal := { s.d.cal with restore := d.cal.restore }
                         ops := s.d.ops ++ [⟨.calRestore, h.session, h.seq⟩] } d) ∧
    (s.d.mode ≠ .wake → s.d.storeNamed k u n = [] →
      Does (.calRestore h k u n) s fun d => Quiet s.d d ∧ Replied d h 0x63 stBadParam []) ∧
    (s.d.mode = .wake → Does (.calRestore h k u n) s fun d => Quiet s.d d ∧ Replied d h 0x63 stBadState []) := by
  have hexec := exec_calRestore h k u n s
  refine ⟨fun hmode hsome => ?_, fun hmode hnone => ?_, fun hmode => ?_⟩
  · obtain ⟨d, hd, hq, hrep⟩ := does_serve_changes hexec hr (fun d => d.restoring h (s.d.storeNamed k u n))
      (show stAccepted ≠ stLater by decide)
      (fun e hq _ => by rw [restoreAnswer_awake (by rwa [hq.mode]), hq.storeNamed, if_neg hsome])
      (fun e hq => hq.restoring h _) (fun _ => rfl)
    have hrestore : d.cal.restore = s.d.cal.restore ++ [(h.session, h.seq, s.d.storeNamed k u n)] :=
      congrArg Cal.restore hq.cal
    exact ⟨d, hd, hrestore, hrep, { hq with cal := hq.cal.trans (by rw [hrestore]; rfl) }⟩
  · exact does_serve_changes hexec hr id (show stBadParam ≠ stLater by decide)
      (fun e hq _ => by rw [restoreAnswer_awake (by rwa [hq.mode]), hq.storeNamed, if_pos hnone]; rfl)
      (fun _ hq => hq) (fun _ => rfl)
  · exact does_serve_changes hexec hr id (show stBadState ≠ stLater by decide)
      (fun e hq _ => restoreAnswer_wake (hq.mode.trans hmode) h k u n) (fun _ hq => hq) (fun _ => rfl)

/-! CAL_RESTORE_DONE (R324, R329). -/

/-- Of the pending results eight are kept (R324). -/
theorem addPend_length (d : Dev) (r : CalRec) : (d.addPend r).cal.pend.length ≤ 8 := by
  simp only [Dev.addPend, List.length_drop]
  omega

/-- The result added is the newest. -/
theorem addPend_getLast? (d : Dev) (r : CalRec) : (d.addPend r).cal.pend.getLast? = some r := by
  simp only [Dev.addPend, List.getLast?_drop, List.length_append, List.length_singleton, List.getLast?_concat]
  exact if_neg (by omega)

/-- Pending results that are added concern the pending results alone. -/
theorem foldl_addPend_eq (rs : List CalRec) (d : Dev) :
    rs.foldl Dev.addPend d = { d with cal := { d.cal with pend := (rs.foldl Dev.addPend d).cal.pend } } := by
  induction rs generalizing d with
  | nil => rfl
  | cons r rs ih => exact ih (d.addPend r)

theorem foldl_addPend_newest {rs : List CalRec} (h : rs ≠ []) (d : Dev) :
    (rs.foldl Dev.addPend d).cal.pend.getLast? = rs.getLast? ∧ (rs.foldl Dev.addPend d).cal.pend.length ≤ 8 := by
  obtain ⟨front, r, rfl⟩ := (List.eq_nil_or_concat rs).resolve_left h
  rw [List.concat_eq_append, List.foldl_concat, List.getLast?_concat]
  exact ⟨addPend_getLast? _ r, addPend_length _ r⟩

theorem foldl_addPend_length (rs : List CalRec) (d : Dev) (h : d.cal.pend.length ≤ 8) :
    (rs.foldl Dev.addPend d).cal.pend.length ≤ 8 := by
  cases rs with
  | nil => exact h
  | cons r rs => exact (foldl_addPend_newest (List.cons_ne_nil r rs) d).2

/-- A request that ends leaves the operations under way, and is otherwise quiet. -/
theorem quiet_endRequest (d : Dev) (op : Op) (n : Nat) (q : Word) (st id : Nat) :
    Quiet { d with ops := (d.endRequest op n q st id).ops } (d.endRequest op n q st id) := by
  unfold Dev.endRequest
  split
  · exact Quiet.refl d
  · next o _ => exact { quiet_opDone { d with ops := d.ops.erase o } o none st id with ops := rfl }

theorem endRequest_ops {d : Dev} {op : Op} {n : Nat} {q : Word} {o : LongOp}
    (h : d.ops.find? (fun o => o.op == op && o.seq == q && (o.session == n || o.session == 0)) = some o) (st id : Nat) :
    (d.endRequest op n q st id).ops = d.ops.erase o := by
  rw [Dev.endRequest, h]
  exact (quiet_opDone { d with ops := d.ops.erase o } o none st id).ops

/-- The records `rs` that a CAL_RESTORE has read become pending results; `l` are the restores behind it. -/
def Dev.readBack (d : Dev) (rs : List CalRec) (l : List (Nat × Word × List CalRec)) : Dev :=
  rs.foldl Dev.addPend { d with cal := { d.cal with restore := l } }

theorem exec_calRestoreDone {n : Nat} {q : Word} {rs : List CalRec} {l : List (Nat × Word × List CalRec)} {s : State}
    (h : s.d.cal.restore = (n, q, rs) :: l) : exec .calRestoreDone s = .next { s with
      d := (s.d.readBack rs l).endRequest .calRestore n q stOk (maxN (rs.map fun r => r.epoch.toNat)) } := by
  have hexec : exec .calRestoreDone s = execCalRestoreDone s := rfl
  rw [hexec, execCalRestoreDone, State.onDev]
  split
  · next hnone => exact absurd (h.symm.trans hnone) (List.cons_ne_nil _ _)
  · next hsome =>
    obtain ⟨heq, rfl⟩ := List.cons.inj (h.symm.trans hsome)
    cases heq
    rfl

theorem does_calRestoreDone {n : Nat} {q : Word} {rs : List CalRec} {l : List (Nat × Word × List CalRec)} {s : State}
    (h : s.d.cal.restore = (n, q, rs) :: l) :
    Does .calRestoreDone s fun d => d.cal.restore = l ∧ (s.d.cal.pend.length ≤ 8 → d.cal.pend.length ≤ 8) ∧
      (rs ≠ [] → d.cal.pend.getLast? = rs.getLast? ∧ d.cal.pend.length ≤ 8) ∧
      (s.d.ops.find? (fun o => o.op == .calRestore && o.seq == q && (o.session == n || o.session == 0)) =
          some ⟨.calRestore, n, q⟩ → d.ops = s.d.ops.erase ⟨.calRestore, n, q⟩) ∧
      Quiet { s.d with cal := { s.d.cal with restore := l, pend := d.cal.pend }, ops := d.ops } d := by
  have hread : s.d.readBack rs l = { s.d with cal := { s.d.cal with restore := l, pend := (s.d.readBack rs l).cal.pend } } :=
    foldl_addPend_eq rs _
  have hfew : s.d.cal.pend.length ≤ 8 → (s.d.readBack rs l).cal.pend.length ≤ 8 :=
    foldl_addPend_length rs { s.d with cal := { s.d.cal with restore := l } }
  have hnew (hrs : rs ≠ []) : (s.d.readBack rs l).cal.pend.getLast? = rs.getLast? ∧
      (s.d.readBack rs l).cal.pend.length ≤ 8 := foldl_addPend_newest hrs _
  refine ⟨_, exec_calRestoreDone h, ?_⟩
  generalize s.d.readBack rs l = e at hread hfew hnew ⊢
  have hq := quiet_endRequest e .calRestore n q stOk (maxN (rs.map fun r => r.epoch.toNat))
  have hends := endRequest_ops (d := e) (op := .calRestore) (n := n) (q := q) (o := ⟨.calRestore, n, q⟩)
    (st := stOk) (id := maxN (rs.map fun r => r.epoch.toNat))
  have hops : e.ops = s.d.ops := by rw [hread]
  rw [hops] at hends
  generalize e.endRequest .calRestore n q stOk (maxN (rs.map fun r => r.epoch.toNat)) = d at hq hends ⊢
  have hpend : d.cal.pend = e.cal.pend := congrArg Cal.pend hq.cal
  rw [hpend]
  refine ⟨(congrArg Cal.restore hq.cal).trans (by rw [hread]), hfew, hnew, hends, ?_⟩
  rw [hread] at hq
  exact hq

/-- Settles O42: each command by what its own checks answer and what ends with it. -/
theorem calibrationStore : Obligations.CalibrationStore := by
  unfold Obligations.CalibrationStore
  refine ⟨does_calStore, does_calPeriodicStore, fun r l s hwrites => ?_, does_calRestore, fun n q rs l s hrestore => ?_⟩
  · exact ⟨does_calFlashWriteDone_ok hwrites, does_calFlashWriteDone_retry hwrites, does_calFlashWriteDone_lost hwrites⟩
  · exact does_calRestoreDone hrestore

end Sys2Proof.Machine
end

section
/-! PROOFS. What every command leaves of the queue and of the DRAM (R333, R82): each completes, keeps the commands that wait
behind it and the memory's canonical form, and none but the commands of `storesToDram` changes a byte. -/

namespace Sys2Proof.Machine

open Sys2Proof

/-! The DMA channels keep the canonical form (R344, R347, R349). -/

theorem writePiece_mem (x : State × Nat × Option Nat) (p : Nat × List Byte) :
    (writePiece x p).1.mem = x.1.mem ∨ (writePiece x p).1.mem = mwrite x.1.mem p.1 p.2 := by
  by_cases hr : x.2.2.isSome
  · exact .inl (by simp only [writePiece, hr, if_true])
  · by_cases hw : winBase ≤ p.1
    · exact .inl (by simp only [writePiece, hr, hw, if_true, if_false, Bool.false_eq_true])
    · exact .inr (by simp only [writePiece, hr, hw, if_false, Bool.false_eq_true])

theorem writePiece_wf (x : State × Nat × Option Nat) (p : Nat × List Byte) (h : Memory.wf x.1.mem = true) :
    Memory.wf (writePiece x p).1.mem = true := by
  rcases writePiece_mem x p with hm | hm
  · rw [hm]; exact h
  · rw [hm]; exact mwrite_wf _ _ _ h

theorem writePieces_wf (l : List (Nat × List Byte)) (x : State × Nat × Option Nat) (h : Memory.wf x.1.mem = true) :
    Memory.wf (l.foldl writePiece x).1.mem = true := by
  induction l generalizing x with
  | nil => exact h
  | cons p l ih => exact ih _ (writePiece_wf x p h)

theorem moveData_wf (s : State) (i : List Byte) (n st cls addr : Nat) (h : Memory.wf s.mem = true) :
    Memory.wf (s.moveData i n st cls addr).1.mem = true := by
  unfold State.moveData
  dsimp only
  split <;> exact writePieces_wf _ _ h

theorem runDesc_wf (s : State) (i : List Byte) (n st cls addr : Nat) (h : Memory.wf s.mem = true) :
    Memory.wf (s.runDesc i n st cls addr).1.mem = true := by
  unfold State.runDesc
  dsimp only
  split
  · exact h
  · split
    · exact h
    · split <;> exact moveData_wf _ _ _ _ _ _ h

theorem writeBack_wf (s : State) (n : Nat) (e : DEnd) (h : Memory.wf s.mem = true) :
    Memory.wf (s.writeBack n e).mem = true :=
  mwrite_wf _ _ _ (mwrite_wf _ _ _ (mwrite_wf _ _ _ h))

theorem earlyEnd_mem (s : State) (ch st : Nat) : (s.earlyEnd ch st).1.mem = s.mem := by
  unfold State.earlyEnd
  dsimp only
  split <;> rfl

theorem cutShort_wf (s : State) (ch st cls : Nat) (h : Memory.wf s.mem = true) :
    Memory.wf (s.cutShort ch st cls).mem = true := by
  unfold State.cutShort
  extract_lets c
  split
  · exact writeBack_wf s ch _ h
  · split
    extract_lets r _ e t
    exact writeBack_wf r.1 ch e (runDesc_wf _ _ _ _ _ _ h)

theorem abort_wf (s : State) (ch : Nat) (h : Memory.wf s.mem = true) : Memory.wf (s.abort ch).mem = true := by
  have hcut : ∀ (d : Dev) (x : Nat), Memory.wf (({ s with d := d } : State).cutShort ch stBadState x).mem = true :=
    fun d x => cutShort_wf _ ch _ x h
  unfold State.abort
  extract_lets c drop
  have hdrop : ∀ t, (drop t).mem = t.mem := fun _ => rfl
  split
  · split; rw [hdrop]; exact hcut _ _
  · split; rw [hdrop]; exact hcut _ _
  · extract_lets r t
    rw [hdrop]
    exact writeBack_wf r.1 ch r.2 (by rw [earlyEnd_mem]; exact h)
  · exact h

theorem ctrlWritten_wf (s : State) (ch : Nat) (v : Word) (h : Memory.wf s.mem = true) :
    Memory.wf (s.ctrlWritten ch v).mem = true := by
  unfold State.ctrlWritten
  dsimp only
  split
  · exact abort_wf _ _ h
  · exact h

theorem ctrlsWritten_wf (s : State) (ws : List WWord) (h : Memory.wf s.mem = true) :
    Memory.wf (s.ctrlsWritten ws).mem = true := by
  unfold State.ctrlsWritten
  induction ws generalizing s with
  | nil => exact h
  | cons w ws ih =>
    refine ih _ ?_
    dsimp only
    split
    · exact ctrlWritten_wf _ _ _ h
    · exact h

/-! What a command may do to the queue and to the DRAM; `stores` says whether it is one of `storesToDram`. -/

/-- The state after leaves the queue and the canonical form, and where nothing is stored the DRAM. -/
structure Holds (stores : Bool) (s t : State) : Prop where
  pending : t.pending = s.pending
  form : MemInv s → MemInv t
  mem : stores = false → t.mem = s.mem

theorem Holds.ofStore {s t : State} (hp : t.pending = s.pending) (hf : MemInv s → MemInv t) : Holds true s t :=
  ⟨hp, hf, fun h => by cases h⟩

theorem Holds.ofMem {b : Bool} {s t : State} (hp : t.pending = s.pending) (hm : t.mem = s.mem) : Holds b s t :=
  ⟨hp, fun h => by unfold MemInv; rw [hm]; exact h, fun _ => hm⟩

theorem Holds.refl (b : Bool) (s : State) : Holds b s s := .ofMem rfl rfl

theorem Holds.onDev (b : Bool) (s : State) (d : Dev) : Holds b s { s with d := d } := .ofMem rfl rfl

/-- A command whose outcome is the next state with a memory lost leaves the empty memory. -/
theorem Holds.lost (s : State) (d : Dev) : Holds true s { s with mem := [], d := d } := .ofStore rfl fun _ => rfl

theorem aside_pending {s t : State} (h : s.aside = t.aside) : s.pending = t.pending := congrArg Prod.fst h

theorem Holds.trans {b : Bool} {s t u : State} (h : Holds b s t) (h' : Holds b t u) : Holds b s u :=
  ⟨h'.pending.trans h.pending, fun m => h'.form (h.form m), fun e => (h'.mem e).trans (h.mem e)⟩

theorem ctrlsWritten_holds (s : State) (ws : List WWord) : Holds true s (s.ctrlsWritten ws) :=
  .ofStore (aside_pending (ctrlsWritten_aside s ws)) (ctrlsWritten_wf s ws)

theorem paramWrite_holds (s : State) (h : Req) (payload : List Word) (tail : Nat) :
    Holds true s (s.paramWrite h payload tail) := by
  unfold State.paramWrite
  extract_lets ws r t
  split
  · exact (Holds.onDev true s t.d).trans (ctrlsWritten_holds t ws)
  · exact .onDev _ _ _

/-- A word that is not a channel's control word does not reach a DMA channel. -/
theorem ctrlsWritten_plain (s : State) (w : WWord) (h : ∀ n, ixOf (Reg.DMA_CH_CTRL 0) 0x20 16 w.addr ≠ some (n, 0)) :
    s.ctrlsWritten [w] = s := by
  simp only [State.ctrlsWritten, List.foldl_cons, List.foldl_nil]

theorem writeOne_holds (s : State) (h : Req) (a : Nat) (v : Word) (ha : a < 2 ^ 24)
    (hdma : ∀ n, ixOf (Reg.DMA_CH_CTRL 0) 0x20 16 a ≠ some (n, 0)) (b : Bool) : Holds b s (s.writeOne h a v) := by
  have hws : wrecs 0 [w32 a, v].length 0 [w32 a, v] = [oneWord a v] := wrecs_one v ha
  have hplain : ∀ t : State, t.ctrlsWritten [oneWord a v] = t := fun t => ctrlsWritten_plain t _ hdma
  rw [writeOne_eq s h v ha, State.paramWrite, hws]
  simp only [hplain, ite_self]
  exact .onDev _ _ _

/-! The addresses of the rows that write one word (R345 to R384) lie outside the channels' control words. -/

theorem ixOf_none {base stride n a : Nat} (h : a < base ∨ base + stride * n ≤ a) (m k : Nat) :
    ixOf base stride n a ≠ some (m, k) := by
  rw [ixOf, if_neg (by omega)]
  exact nofun

theorem chCtrl_ixOf_errInfo (ch n : Nat) :
    ixOf (Reg.DMA_CH_CTRL 0) 0x20 16 (Reg.DMA_CH_ERR_INFO ch % 2 ^ 24) ≠ some (n, 0) := by
  simp only [ixOf, Reg.DMA_CH_ERR_INFO, Reg.DMA_CH_CTRL]
  split
  · intro h
    have hoff := congrArg Prod.snd (Option.some.inj h)
    dsimp only at hoff
    omega
  · exact nofun

theorem cfgAddr_lt (p : NetPort) : cfgAddr p < 2 ^ 24 := by cases p <;> decide

theorem chCtrl_ixOf_cfgAddr (p : NetPort) (n : Nat) : ixOf (Reg.DMA_CH_CTRL 0) 0x20 16 (cfgAddr p) ≠ some (n, 0) := by
  refine ixOf_none (.inr ?_) _ _
  cases p <;> decide

theorem chCtrl_ixOf_monRef (b : Bool) (n : Nat) : ixOf (Reg.DMA_CH_CTRL 0) 0x20 16 (monRefReg b) ≠ some (n, 0) := by
  refine ixOf_none (.inl ?_) _ _
  cases b <;> decide

/-- A write of one word reads its address modulo 2²⁴ (R71). -/
theorem writeOne_mod (s : State) (h : Req) (a : Nat) (v : Word) : s.writeOne h a v = s.writeOne h (a % 2 ^ 24) v := by
  rw [State.writeOne, State.writeOne, Nat.mod_mod]

/-! The commands that do more than work on the device. -/

theorem dmaChainFetch_holds (ch : Nat) (s : State) :
    ∃ t, exec (.dmaChainFetch ch) s = .next t ∧ Holds false s t := by
  show ∃ t, execDmaChainFetch ch s = .next t ∧ Holds false s t
  unfold execDmaChainFetch
  dsimp only
  split
  · exact ⟨_, rfl, .refl _ _⟩
  · split
    · exact ⟨_, rfl, .refl _ _⟩
    · split
      · exact ⟨_, rfl, .onDev _ _ _⟩
      · split <;> exact ⟨_, rfl, .onDev _ _ _⟩

theorem dmaWriteback_holds (ch : Nat) (e : DmaEnd) (s : State) :
    ∃ t, exec (.dmaWriteback ch e) s = .next t ∧ Holds true s t := by
  show ∃ t, execDmaWriteback ch e s = .next t ∧ Holds true s t
  unfold execDmaWriteback
  extract_lets c done
  have hdone : ∀ r : State × DEnd, r.1.aside = s.aside → (Memory.wf s.mem = true → Memory.wf r.1.mem = true) →
      ∃ t, done r = .next t ∧ Holds true s t := fun r ha hf =>
    have hp : (r.1.writeBack ch r.2).pending = s.pending := aside_pending ((writeBack_aside r.1 ch r.2).trans ha)
    ⟨_, rfl, .ofStore hp fun h => writeBack_wf r.1 ch r.2 (hf h)⟩
  have hrun : ∀ (d : Dev) (n st cls a : Nat), d.sess = s.d.sess →
      ∃ t, done (({ s with d := d } : State).runDesc c.img n st cls a) = .next t ∧ Holds true s t := fun d n st cls a h =>
    hdone _ ((runDesc_aside { s with d := d } c.img n st cls a).trans (aside_of_sess s h s.mem))
      (runDesc_wf { s with d := d } c.img n st cls a)
  have hdbl : ∀ a, (s.d.dblError a).sess = s.d.sess := fun _ => rfl
  split
  · exact ⟨_, rfl, .refl _ _⟩
  · split
    · exact hdone _ (earlyEnd_aside s ch _) fun h => by rw [earlyEnd_mem]; exact h
    · split
      · exact hrun _ _ _ _ _ (hdbl _)
      · split
        · exact hrun s.d _ _ _ _ rfl
        · exact ⟨_, rfl, .refl _ _⟩
      · split
        · split
          next v d hfree => exact hrun d _ _ _ _ (congrArg Prod.snd (free_aside hfree))
        · split
          · exact hrun _ _ _ _ _ (hdbl _)
          · exact hrun s.d _ _ _ _ rfl
    · exact ⟨_, rfl, .refl _ _⟩

theorem dmaWdog_holds (ch : Nat) (s : State) : ∃ t, exec (.dmaWdog ch) s = .next t ∧ Holds true s t := by
  show ∃ t, execDmaWdog ch s = .next t ∧ Holds true s t
  unfold execDmaWdog
  split
  · exact ⟨_, rfl, .refl _ _⟩
  · extract_lets t d d'
    have hp : t.pending = s.pending := aside_pending (cutShort_aside s ch stTimeout 4)
    exact ⟨_, rfl, .ofStore hp (cutShort_wf s ch stTimeout 4)⟩

theorem hostPowerValid_holds (s : State) : ∃ t, exec .hostPowerValid s = .next t ∧ Holds false s t := by
  show ∃ t, execHostPowerValid s = .next t ∧ Holds false s t
  unfold execHostPowerValid
  dsimp only
  split
  · exact ⟨_, rfl, .refl _ _⟩
  · exact ⟨_, rfl, .onDev _ _ _⟩

theorem nrstHRise_holds (k : Bool) (s : State) : ∃ t, exec (.nrstHRise k) s = .next t ∧ Holds true s t := by
  show ∃ t, execNrstHRise k s = .next t ∧ Holds true s t
  unfold execNrstHRise
  extract_lets d
  split
  · exact ⟨_, rfl, .refl _ _⟩
  · split
    · exact ⟨_, rfl, .onDev _ _ _⟩
    · split
      · exact ⟨_, rfl, .lost _ _⟩
      · split
        · exact ⟨_, rfl, .onDev _ _ _⟩
        · exact ⟨_, rfl, .lost _ _⟩

theorem roceWriteRx_holds (n : Nat) (ce : Bool) (rkey : Word) (addr : Nat) (data : List Byte) (s : State) :
    ∃ t, exec (.roceWriteRx n ce rkey addr data) s = .next t ∧ Holds true s t := by
  show ∃ t, execRoceWriteRx n ce rkey addr data s = .next t ∧ Holds true s t
  unfold execRoceWriteRx
  extract_lets k d d1 psn d2
  split
  · exact ⟨_, rfl, .onDev _ _ _⟩
  · split
    · exact ⟨_, rfl, .ofStore rfl fun h => mwrite_wf _ _ _ h⟩
    · exact ⟨_, rfl, .onDev _ _ _⟩

theorem roceReadRx_holds (n : Nat) (ce : Bool) (rkey : Word) (addr len : Nat) (s : State) :
    ∃ t, exec (.roceReadRx n ce rkey addr len) s = .next t ∧ Holds false s t := by
  show ∃ t, execRoceReadRx n ce rkey addr len s = .next t ∧ Holds false s t
  unfold execRoceReadRx
  extract_lets d d1
  split
  · exact ⟨_, rfl, .onDev _ _ _⟩
  · split
    · split
      · exact ⟨_, rfl, .onDev _ _ _⟩
      · split
        · split; exact ⟨_, rfl, .onDev _ _ _⟩
        · exact ⟨_, rfl, .onDev _ _ _⟩
    · exact ⟨_, rfl, .onDev _ _ _⟩

theorem loseBeyond_pending (s : State) (fin : Nat) : (s.loseBeyond fin).pending = s.pending := by
  unfold State.loseBeyond
  generalize s.mem.filter (fun c => decide (fin ≤ c.1)) = l
  induction l generalizing s with
  | nil => rfl
  | cons x l ih => exact ih _

theorem commit_holds (h : Req) (s : State) : ∃ t, exec (.commit h) s = .next t ∧ Holds true s t := by
  show ∃ t, execCommit h s = .next t ∧ Holds true s t
  unfold execCommit
  extract_lets t
  split
  · exact ⟨_, rfl, .ofStore (loseBeyond_pending t _) (loseBeyond_wf t _)⟩
  · exact ⟨_, rfl, .onDev _ _ _⟩

/-- Every command completes; it leaves the queue and the canonical form, and unless it is one of `storesToDram` the DRAM. -/
theorem exec_holds (c : Instr) (s : State) : ∃ t, exec c s = .next t ∧ Holds (storesToDram c) s t := by
  cases c
  case paramWrite h p tail => exact ⟨_, rfl, paramWrite_holds s h p tail⟩
  case commit h => exact commit_holds h s
  case dmaChainFetch ch => exact dmaChainFetch_holds ch s
  case dmaWriteback ch e => exact dmaWriteback_holds ch e s
  case dmaWdog ch => exact dmaWdog_holds ch s
  case hostPowerValid => exact hostPowerValid_holds s
  case hostPowerLost => exact ⟨_, rfl, .lost _ _⟩
  case nrstHRise k => exact nrstHRise_holds k s
  case roceWriteRx n ce rkey addr data => exact roceWriteRx_holds n ce rkey addr data s
  case roceReadRx n ce rkey addr len => exact roceReadRx_holds n ce rkey addr len s
  case devCtrlWrite h v => exact ⟨_, rfl, writeOne_holds s h _ v (by decide) (ixOf_none (.inl (by decide)) · 0) _⟩
  case afeRefSelWrite h v => exact ⟨_, rfl, writeOne_holds s h _ v (by decide) (ixOf_none (.inl (by decide)) · 0) _⟩
  case afeOwStart h v => exact ⟨_, rfl, writeOne_holds s h _ _ (by decide) (ixOf_none (.inl (by decide)) · 0) _⟩
  case monRefWrite h b v => exact ⟨_, rfl, writeOne_holds s h _ v (by cases b <;> decide) (chCtrl_ixOf_monRef b) _⟩
  case netStore h => exact ⟨_, rfl, writeOne_holds s h _ 1 (by decide) (ixOf_none (.inr (by decide)) · 0) _⟩
  case netPortCfgWrite h p v => exact ⟨_, rfl, writeOne_holds s h _ v (cfgAddr_lt p) (chCtrl_ixOf_cfgAddr p) _⟩
  case dmaErrClear h ch =>
    exact ⟨_, congrArg Host.Outcome.next (writeOne_mod s h (Reg.DMA_CH_ERR_INFO ch) _),
      writeOne_holds s h _ _ (Nat.mod_lt _ (by decide)) (chCtrl_ixOf_errInfo ch) _⟩
  case pageSessionWordWrite h n o v => exact ⟨_, rfl, paramWrite_holds _ _ _ _⟩
  case dmaReqWrite h ch v => exact ⟨_, rfl, paramWrite_holds _ _ _ _⟩
  case dmaChannelDisable h ch => exact ⟨_, rfl, paramWrite_holds _ _ _ _⟩
  case dmaChannelEnable h ch => exact ⟨_, rfl, paramWrite_holds _ _ _ _⟩
  case dmaAbort h ch => exact ⟨_, rfl, paramWrite_holds _ _ _ _⟩
  case qpEnable h n v => exact ⟨_, rfl, paramWrite_holds _ _ _ _⟩
  case qpDisable h n => exact ⟨_, rfl, paramWrite_holds _ _ _ _⟩
  all_goals exact ⟨_, rfl, .onDev _ _ _⟩

/-- With no slew under way the ticks add the increments alone (R375, R377). -/
theorem ticks_unslewed (d : Dev) (n : Nat) (h : d.tim.slew = 0) :
    d.ticks n = { d with tim := { d.tim with
      cnt := (d.tim.cnt + n * d.tim.incr) % 2 ^ 96
      rep := (d.tim.rep + n * d.tim.repIncr) % 2 ^ 96 } } := by
  have hstep : min (n * d.slewStep) d.tim.slew.natAbs = 0 := by rw [h]; exact Nat.min_zero _
  simp only [Dev.ticks, hstep, Int.natCast_zero, Int.neg_zero, ite_self, Int.add_zero, Int.sub_zero, Int.toNat_natCast]

/-! The obligations. -/

/-- Settles O4: a command keeps the canonical form (`exec_holds`), and a tick does not touch the memory. -/
theorem memoryFormKept : Obligations.MemoryFormKept := by
  unfold Obligations.MemoryFormKept
  intro s t hs hstep
  unfold step at hstep
  split at hstep
  · next c rest _ =>
    obtain ⟨u, hu, hold⟩ := exec_holds c { s with pending := rest }
    obtain rfl := Host.Outcome.next.inj (hu.symm.trans hstep)
    exact hold.form hs
  · obtain rfl := Host.Outcome.next.inj hstep
    exact hs

/-- Settles O3: every case of `exec_holds` has its next state, with the queue as it was. -/
theorem everyCommandCompletes : Obligations.EveryCommandCompletes := by
  unfold Obligations.EveryCommandCompletes
  intro c s
  obtain ⟨t, ht, hold⟩ := exec_holds c s
  exact ⟨t, ht, hold.pending⟩

/-- Settles O2: an idle step's four CLK_PIX cycles hold one tick, in which an empty remainder slews nothing. -/
theorem idleStepTicks : Obligations.IdleStepTicks := by
  unfold Obligations.IdleStepTicks
  intro s hp hslew
  have htick : (s.d.now + 4) / 4 - s.d.now / 4 = 1 := by omega
  refine ⟨{ s with d := s.d.elapse 4 }, ?_, hp, rfl, ?_⟩
  · rw [step, hp]
  · rw [Dev.elapse, htick]
    dsimp only
    rw [ticks_unslewed s.d 1 hslew, Nat.one_mul, Nat.one_mul]

/-- Settles O5: the memory at reset is empty. -/
theorem memoryFormAtReset : Obligations.MemoryFormAtReset := by
  unfold Obligations.MemoryFormAtReset
  rfl

end Sys2Proof.Machine
end

section
/-! PROOFS. A late FENCE (R348, R81) and a channel disabled before its fetch (R345). -/

namespace Sys2Proof.Machine

open Sys2Proof

/-- IDLE with session 1 open. -/
def openIdle : State := { d := { mode := .idle, sess := [(1, { (default : Session) with ep := ⟨0, 0⟩ })] } }

/-- `openIdle` serves session 1, which `modeSetReq` is a request of. -/
theorem openIdle_ready : Ready modeSetReq openIdle.d :=
  ⟨by decide +kernel, rfl, by decide, by decide, by decide, rfl, _, rfl, rfl, rfl⟩

/-- A FENCE (opcode 0x81) answered TIMEOUT with none waiting is counted. -/
theorem openIdle_fenceCounted :
    readAfter (.skmReplyTimeout modeSetReq 0x81) openIdle (fun d => d.rd Reg.DMA_FENCE_CNT) = some 1 := by
  decide +kernel

/-- Refutes O10: the last clause has a late request answered TIMEOUT with no effect outside the NET page. A late FENCE is
an answered one, and DMA_FENCE_CNT counts it. -/
theorem not_telemetryAndLateRequests : ¬ Obligations.TelemetryAndLateRequests := by
  rintro ⟨-, -, -, -, hlate⟩
  obtain ⟨d, ⟨hquiet, -⟩, hcount⟩ := (hlate modeSetReq 0x81 openIdle openIdle_ready (by decide +kernel) (by decide)
    (by decide) rfl).readAfter openIdle_fenceCounted
  have hsame : d.rd Reg.DMA_FENCE_CNT = 0 := hquiet.words _ (by decide)
  omega

/-- IDLE with session 1 open and channel 0 enabled, between two descriptors: it is to fetch the next one. -/
def fetching : State :=
  { d := { openIdle.d.put (Reg.DMA_CH_CTRL 0) 1 with dma := { ch := [{ (default : Chan) with st := .fetch }] } } }

theorem fetching_ready : Ready modeSetReq fetching.d :=
  ⟨by decide +kernel, rfl, by decide, by decide, by decide, rfl, _, rfl, rfl, rfl⟩

/-- The channel disabled is idle. -/
theorem fetching_disabled :
    readAfter (.dmaChannelDisable modeSetReq 0) fetching (fun d => decide ((d.chan 0).st = .idle)) = some true := by
  decide +kernel

/-- Refutes O19: the second clause has a channel keep its state when it is disabled. One that has yet to fetch its next
descriptor becomes idle. -/
theorem not_dmaControlAndQueue : ¬ Obligations.DmaControlAndQueue := by
  rintro ⟨-, hdisable, -⟩
  obtain ⟨d, ⟨-, hst, -⟩, hidle⟩ := (hdisable modeSetReq 0 fetching fetching_ready (by decide) (by decide +kernel)
    (by rw [Writable]; decide +kernel)).readAfter fetching_disabled
  have hfetch : (d.chan 0).st = .fetch := hst
  rw [hfetch] at hidle
  exact absurd hidle (by decide)

end Sys2Proof.Machine
end

section
/-! PROOFS. An RDMA READ of two packets on a port without a neighbour table (R367, R370). -/

namespace Sys2Proof.Machine

open Sys2Proof

/-- IDLE with session 1 open, its queue pair in RTS with READ granted, ETH0's link up, and no port that keeps the next hops
it has resolved. -/
def tablelessPorts : State :=
  { d := { ((openIdle.d.put (Reg.NET_S_QP_CTRL 0) (2 ^ 30)).put (Reg.NET_P_STAT 0) (2 ^ 31)) with
      net := { ports := [], qps := [(1, { st := 1 })] } } }

/-- A READ of two packets of the path MTU sends each and resolves the next hop for each. -/
theorem tablelessPorts_sent :
    readAfter (.roceReadRx 1 false 0 shrBase 2048) tablelessPorts (fun d => d.tx.length) = some 4 := by
  decide +kernel

/-- Refutes O46: the second clause has a granted READ send its packets behind one resolution of the next hop. On a port
that keeps no neighbour, each packet resolves the hop anew: a READ of two packets sends four messages, not three. -/
theorem not_queuePairs : ¬ Obligations.QueuePairs := by
  rintro ⟨-, hread, -⟩
  obtain ⟨hgranted, -⟩ := hread 1 false 0 shrBase 2048 tablelessPorts (by decide) (by decide) (by decide +kernel)
  obtain ⟨d, ⟨-, htx, -⟩, hlen⟩ := (hgranted (by decide +kernel) (by decide +kernel) (by decide +kernel)).readAfter
    tablelessPorts_sent
  rw [htx rfl (by decide +kernel)] at hlen
  exact absurd hlen (by decide +kernel)

end Sys2Proof.Machine
end

section
/-! PROOFS. A withheld stroke under a COMMIT that waits (R13, R391). -/

namespace Sys2Proof.Machine

open Sys2Proof

/-- IDLE with Catches disabled and a COMMIT that waits for it, whose image holds a value for SEQ_WITHHELD_CNT. -/
def countCommitted : State :=
  { d := { mode := .idle, regs := { com := some ⟨[(Reg.SEQ_WITHHELD_CNT, 77)], 1, 7⟩, comDue := true } } }

/-- Withholding the strokes in flight brings the image into force. -/
theorem countCommitted_forced :
    readAfter (.eccDoubleError ⟨.strokeBuf, false⟩ 0) countCommitted (fun d => d.rd Reg.SEQ_WITHHELD_CNT) = some 77 := by
  decide +kernel

/-- Refutes O50: the clause on the stroke buffer has SEQ_WITHHELD_CNT advance by the strokes in flight alone. A COMMIT that
waits for Catches to be disabled comes into force as the strokes are withheld, and an image that holds a value for the
count sets it. -/
theorem not_coresAndDoubleErrors : ¬ Obligations.CoresAndDoubleErrors := by
  rintro ⟨-, -, -, hecc⟩
  obtain ⟨-, -, -, -, hstroke, -⟩ := hecc 0 false countCommitted
  obtain ⟨d, ⟨-, hcount, -⟩, hforced⟩ := (hstroke rfl).readAfter countCommitted_forced
  have hnone : d.rd Reg.SEQ_WITHHELD_CNT = 0 := hcount.trans (by decide +kernel)
  omega

end Sys2Proof.Machine
end

section
/-! PROOFS. A compression engine that comes back to waiting units (R198, R394). -/

namespace Sys2Proof.Machine

open Sys2Proof

/-- A unit of a page: section 0 of H3. -/
def firstUnit : FUnit := ⟨.h3, 0, 0⟩

/-- Engine 0 alone is enabled and in its level 1 restart; a page waits with one unit. -/
def engineDown : State :=
  { d := { pages := { list := [{ (default : Page) with units := [firstUnit] }], engines := 1, engRestart := 1 } } }

/-- The engine that comes back takes the unit. -/
theorem engineDown_issued :
    readAfter (.recoveryL1Done (.engine 0)) engineDown (fun d => d.pages.list.map (fun p => p.units.length)) = some [0] := by
  decide +kernel

/-- Refutes O51: the clause on an engine's restart keeps the pages as they are. The engine takes the next unit that waits,
which its page then no longer lists. -/
theorem not_recoveries : ¬ Obligations.Recoveries := by
  rintro ⟨-, hback, -⟩
  obtain ⟨-, hengine, -⟩ := hback engineDown
  obtain ⟨d, ⟨-, -, hlist, -⟩, hissued⟩ := (hengine 0).readAfter engineDown_issued
  rw [hlist] at hissued
  exact absurd hissued (by decide)

end Sys2Proof.Machine
end

section
/-! PROOFS. A lost rail and a wear rotation's lit time (R226, R227, R416). -/

namespace Sys2Proof.Machine

open Sys2Proof

/-- IDLE with a wear rotation of chain 9200, one cycle over a minute lit: LMP_C_LIT_MIN of that number has the address of
PWR_RAIL_F. -/
def rotatingRail : State :=
  { d := { mode := .idle
           lamp := { rot := some 9200, chains := List.replicate 9201 { litCyc := 46875000000 } } } }

/-- The rotation is abandoned and its minute counted where the rail's bit was cleared. -/
theorem rotatingRail_counted :
    readAfter (.fieldPowerLost 0) rotatingRail (fun d => bit (d.rd Reg.PWR_RAIL_F) 0) = some true := by
  decide +kernel

/-- Refutes O53: the second clause has the lost rail's bit of PWR_RAIL_F read 0. A wear rotation that runs is abandoned as
the field side goes, and the minute it has lit is counted in LMP_C_LIT_MIN of its chain, which a chain number without a
bound places at that word. -/
theorem not_fieldSupply : ¬ Obligations.FieldSupply := by
  rintro ⟨-, hloss, -⟩
  obtain ⟨hruns, -⟩ := hloss rotatingRail rfl
  obtain ⟨hrail, -⟩ := hruns rfl
  obtain ⟨d, ⟨-, -, -, -, -, -, hbit, -⟩, hcounted⟩ := (hrail 0 (by decide)).readAfter rotatingRail_counted
  rw [hbit] at hcounted
  exact absurd hcounted (by decide)

end Sys2Proof.Machine
end

section
/-! SUPPORT. Bits of a word: what setting, clearing and writing one bit leaves of the others, and the frame of a counter
and of a field. -/

namespace Sys2Proof.Machine

open Sys2Proof

/-- Adding `2 ^ i` where bit `i` is clear changes bit `i` alone. -/
theorem bit_add_pow {n i j : Nat} (hi : bit n i = false) (h : j ≠ i) : bit (n + 2 ^ i) j = bit n j := by
  have hdiv : (n + 2 ^ i) / 2 ^ j % 2 = n / 2 ^ j % 2 := by
    rcases Nat.lt_or_gt_of_ne h with hj | hj
    · obtain ⟨k, rfl⟩ := Nat.exists_eq_add_of_lt hj
      have hpow : 2 ^ (j + k + 1) = 2 ^ j * (2 * 2 ^ k) := by ring
      rw [hpow, Nat.add_mul_div_left _ _ (Nat.two_pow_pos j)]
      omega
    · obtain ⟨k, rfl⟩ := Nat.exists_eq_add_of_lt hj
      have hhalf : ∀ m, m / 2 ^ (i + k + 1) = m / 2 ^ i / 2 / 2 ^ k := fun m => by
        rw [Nat.div_div_eq_div_mul, Nat.div_div_eq_div_mul]
        congr 1
        ring
      have heven : n / 2 ^ i % 2 = 0 := by
        simp only [bit, beq_eq_false_iff_ne] at hi
        omega
      have hnext : (n / 2 ^ i + 1) / 2 = n / 2 ^ i / 2 := by omega
      rw [hhalf, hhalf, Nat.add_div_right n (Nat.two_pow_pos i), hnext]
  simp only [bit, hdiv]

theorem bit_setBit_ne (n : Nat) {i j : Nat} (h : j ≠ i) : bit (setBit n i) j = bit n j := by
  unfold setBit
  split
  · rfl
  · next hi => exact bit_add_pow (Bool.not_eq_true _ ▸ hi) h

theorem bit_clrBit_ne (n : Nat) {i j : Nat} (h : j ≠ i) : bit (clrBit n i) j = bit n j := by
  unfold clrBit
  split
  · next hi =>
    have hle : 2 ^ i ≤ n := by
      by_contra hlt
      simp only [bit, Nat.div_eq_of_lt (Nat.lt_of_not_le hlt)] at hi
      exact absurd hi (by decide)
    have hclear : bit (n - 2 ^ i) i = false := by
      have := bit_clrBit n i
      rwa [clrBit, if_pos hi] at this
    have := bit_add_pow hclear h
    rwa [Nat.sub_add_cancel hle, eq_comm] at this
  · rfl

/-- A field of one bit written 1 is the bit set, written 0 the bit cleared. -/
theorem withFld_bit (v i x : Nat) (hx : x < 2) : withFld v i i x = if x = 1 then setBit v i else clrBit v i := by
  have hw : i + 1 - i = 1 := by omega
  have hle : v / 2 ^ i % 2 * 2 ^ i ≤ v :=
    (Nat.mul_le_mul_right _ (Nat.mod_le _ _)).trans (Nat.div_mul_le_self v (2 ^ i))
  rw [withFld, hw, Nat.pow_one, Nat.mod_eq_of_lt hx]
  rcases Nat.mod_two_eq_zero_or_one (v / 2 ^ i) with h | h <;>
    simp only [setBit, clrBit, bit, h] at hle ⊢ <;>
    (obtain rfl | rfl : x = 0 ∨ x = 1 := by omega) <;> simp at hle ⊢
  omega

/-- A bit of a word put, within its 32. -/
theorem bit_rd_put (d : Dev) (a v : Nat) {i : Nat} (hi : i < 32) : bit ((d.put a v).rd a) i = bit v i := by
  rw [Dev.rd_put_self, bit_mod_word _ hi]

/-- A counter leaves the other words. -/
theorem rd_bump_ne (d : Dev) {a b : Nat} (h : b ≠ a) : (d.bump a).rd b = d.rd b := Dev.rd_put_ne _ _ _ _ h

theorem rd_putF_ne (d : Dev) (hi lo x : Nat) {a b : Nat} (h : b ≠ a) : (d.putF a hi lo x).rd b = d.rd b :=
  Dev.rd_put_ne _ _ _ _ h

end Sys2Proof.Machine
end

section
/-! PROOFS. The field bus and the mains (R426 to R430, R255). -/

namespace Sys2Proof.Machine

open Sys2Proof

/-! What a dip stops. -/

/-- The device with other groups. -/
def Dev.withGroups (d : Dev) (gs : List Group) : Dev := { d with mot := { d.mot with groups := gs } }

/-- `d'` differs from `d` in its groups alone. -/
def OnlyGroups (d d' : Dev) : Prop := d' = d.withGroups d'.mot.groups

theorem OnlyGroups.trans {d e f : Dev} (h : OnlyGroups d e) (h' : OnlyGroups e f) : OnlyGroups d f := by
  unfold OnlyGroups at h h'
  rw [h] at h'
  exact h'

theorem OnlyGroups.mode {d d' : Dev} (h : OnlyGroups d d') : d'.mode = d.mode := by
  rw [h]
  rfl

theorem OnlyGroups.hold {d d' : Dev} (h : OnlyGroups d d') : d'.hold = d.hold := by
  rw [h]
  rfl

theorem onlyGroups_modGrp (d : Dev) (g : Nat) (f : Group → Group) : OnlyGroups d (d.modGrp g f) := rfl

theorem onlyGroups_foldl {β : Type} (f : Dev → β → Dev) (h : ∀ d b, OnlyGroups d (f d b)) (l : List β) (d : Dev) :
    OnlyGroups d (l.foldl f d) := by
  induction l generalizing d with
  | nil => exact rfl
  | cons b l ih => exact (h d b).trans (ih _)

theorem onlyGroups_stopFeed (d : Dev) : OnlyGroups d d.stopFeed := by
  unfold Dev.stopFeed
  split
  · exact rfl
  · exact onlyGroups_modGrp _ _ _

theorem onlyGroups_rampOthers (d : Dev) : OnlyGroups d d.rampOthers := by
  refine onlyGroups_foldl _ (fun d g => ?_) _ d
  split
  · exact rfl
  · exact onlyGroups_modGrp _ _ _

/-- Outside HOMING a dip stops groups and nothing else. -/
theorem onlyGroups_supplyStop {d : Dev} (h : d.mode ≠ .homing) : OnlyGroups d d.supplyStop := by
  unfold Dev.supplyStop
  split
  · exact (onlyGroups_stopFeed d).trans (onlyGroups_rampOthers _)
  · extract_lets d'
    have hgroups : OnlyGroups d d' := onlyGroups_foldl _ (fun d g => onlyGroups_modGrp d g _) _ d
    have hmode : d'.mode = d.mode := hgroups.mode
    rw [hmode, if_neg (by simpa using h)]
    exact hgroups

/-- A group that runs a move ramps to HALTED at its DEC; any other group stays. -/
def Group.ramp (x : Group) : Group :=
  match x.st, x.cur with
  | .run, some m => { x with st := .halting, haltDec := m.dec }
  | _, _ => x

theorem Group.ramp_run {x : Group} {m : Move} (hst : x.st = .run) (hcur : x.cur = some m) :
    x.ramp = { x with st := .halting, haltDec := m.dec } := by
  simp only [Group.ramp, hst, hcur]

theorem Group.ramp_ramp (x : Group) : x.ramp.ramp = x.ramp := by
  obtain hst | hst := eq_or_ne x.st .run
  · cases hcur : x.cur with
    | none => simp only [Group.ramp, hst, hcur]
    | some m => rw [Group.ramp_run hst hcur]; rfl
  · have hsame : x.ramp = x := by
      unfold Group.ramp
      split
      · next h _ => exact absurd h hst
      · rfl
    rw [hsame, hsame]

/-- What ramping the groups of a list, but for the feed, makes of a group that is not the feed. -/
theorem rampFold_grp (g : Nat) (l : List Nat) (d : Dev) (hfeed : d.feed ≠ some g) (hg : g < d.mot.groups.length) :
    (l.foldl (fun d k => if d.feed = some k then d else d.modGrp k Group.ramp) d).grp g =
      if g ∈ l then (d.grp g).ramp else d.grp g := by
  induction l generalizing d with
  | nil => rfl
  | cons k l ih =>
    rw [List.foldl_cons]
    by_cases hk : d.feed = some k
    · have hne : g ≠ k := fun e => hfeed (e ▸ hk)
      rw [if_pos hk, ih d hfeed hg]
      simp [hne]
    · have hlen : g < (d.modGrp k Group.ramp).mot.groups.length := by
        rw [Dev.modGrp, modNth, List.length_modify]
        exact hg
      have hgrp : (d.modGrp k Group.ramp).grp g = if g = k then (d.grp g).ramp else d.grp g := by
        rw [Dev.grp, Dev.modGrp, nth_modNth]
        simp only [hg, and_true]
        rfl
      rw [if_neg hk, ih (d.modGrp k Group.ramp) hfeed hlen, hgrp]
      by_cases hgk : g = k
      · simp [hgk, Group.ramp_ramp]
      · simp [hgk]

theorem rampOthers_grp {g : Nat} {d : Dev} (hg4 : g < 4) (hfeed : d.feed ≠ some g) (hg : g < d.mot.groups.length) :
    d.rampOthers.grp g = (d.grp g).ramp := by
  have h := rampFold_grp g (List.range 4) d hfeed hg
  rw [if_pos (List.mem_range.mpr hg4)] at h
  exact h

theorem stopFeed_grp {g : Nat} {d : Dev} (hfeed : d.feed ≠ some g) : d.stopFeed.grp g = d.grp g := by
  unfold Dev.stopFeed
  split
  · rfl
  · next k hk =>
    have hne : g ≠ k := fun e => hfeed (e ▸ hk)
    rw [Dev.grp, Dev.modGrp, nth_modNth, if_neg (fun h => hne h.1)]
    rfl

/-- A group that runs is one of the device's. -/
theorem grp_lt_of_run {d : Dev} {g : Nat} (h : (d.grp g).st = .run) : g < d.mot.groups.length := by
  by_contra hge
  have hdef : d.grp g = default := by
    rw [Dev.grp, nth, List.getD_eq_getElem?_getD, List.getElem?_eq_none (Nat.le_of_not_lt hge)]
    rfl
  rw [hdef] at h
  exact absurd h (by decide)

/-- Under a job a dip ramps a running group that is not the feed (R255). -/
theorem supplyStop_grp {d : Dev} {g : Nat} {m : Move} (hjob : d.jobMode = true) (hg4 : g < 4) (hfeed : d.feed ≠ some g)
    (hst : (d.grp g).st = .run) (hcur : (d.grp g).cur = some m) :
    d.supplyStop.grp g = { d.grp g with st := .halting, haltDec := m.dec } := by
  have hgroups := onlyGroups_stopFeed d
  have hsame : d.stopFeed.grp g = d.grp g := stopFeed_grp hfeed
  have hfeed' : d.stopFeed.feed = d.feed := by rw [hgroups]; rfl
  rw [Dev.supplyStop, if_pos hjob, rampOthers_grp hg4 (hfeed' ▸ hfeed) (grp_lt_of_run (hsame ▸ hst)), hsame,
    Group.ramp_run hst hcur]

/-! The bus. -/

theorem does_fbusDip_sample {v : Nat} {s : State} (h : s.d.rd Reg.PWR_FBUS_LOW ≤ v) :
    Does (.fbusDip v) s fun d => d.pwr.fbus = v ∧ d = { s.d with pwr := { s.d.pwr with
      fbus := v, fbusMin := d.pwr.fbusMin, fbusValid := d.pwr.fbusValid } } :=
  have hexec : exec (.fbusDip v) s = .next { s with d := s.d.fbusSample v } := by
    show execFbusDip v s = _
    rw [execFbusDip, onDev_next, if_pos h]
  ⟨_, hexec, rfl, rfl⟩

/-- The device as a dip is detected, before what it stops. -/
def Dev.dipped (d : Dev) (v : Nat) : Dev :=
  let d := (d.fbusSample v).bump Reg.PWR_DIP_CNT
  ({ d with pwr := { d.pwr with dip := true, dipCode := v, dipSeen := some d.sight } }).setHold hcSupply

theorem exec_fbusDip {v : Nat} {s : State} (h : v < s.d.rd Reg.PWR_FBUS_LOW) :
    exec (.fbusDip v) s = .next { s with d := (s.d.dipped v).supplyStop } := by
  show execFbusDip v s = _
  rw [execFbusDip, onDev_next, if_neg (Nat.not_le.mpr h)]
  rfl

theorem does_fbusDip {v : Nat} {s : State} (hmode : s.d.mode ≠ .homing) (h : v < s.d.rd Reg.PWR_FBUS_LOW) :
    Does (.fbusDip v) s fun d => d.pwr.dip = true ∧ d.pwr.dipCode = v ∧ d.pwr.fbus = v ∧ bit d.hold hcSupply = true ∧
      d.mode = s.d.mode ∧ d.rd Reg.PWR_DIP_CNT = min 0xFFFFFFFF (s.d.rd Reg.PWR_DIP_CNT + 1) ∧ d.flt = s.d.flt ∧
      d.seq = s.d.seq ∧ d.mot.axes = s.d.mot.axes := by
  have hstop : OnlyGroups (s.d.dipped v) (s.d.dipped v).supplyStop := onlyGroups_supplyStop hmode
  refine ⟨_, exec_fbusDip h, ?_⟩
  rw [hstop]
  exact ⟨rfl, rfl, rfl, bit_setBit _ _, rfl, rd_bump_self (s.d.fbusSample v) _, rfl, rfl, rfl⟩

theorem does_fbusDip_ramp {v g : Nat} {m : Move} {s : State} (hjob : s.d.jobMode = true) (hg : g < 4)
    (hfeed : s.d.feed ≠ some g) (hst : (s.d.grp g).st = .run) (hcur : (s.d.grp g).cur = some m)
    (h : v < s.d.rd Reg.PWR_FBUS_LOW) :
    Does (.fbusDip v) s fun d => d.grp g = { s.d.grp g with st := .halting, haltDec := m.dec } :=
  ⟨_, exec_fbusDip h, supplyStop_grp (d := s.d.dipped v) hjob hg hfeed hst hcur⟩

/-- The newest entry of the log is the one written. -/
theorem log_head (d : Dev) (r : FaultRec) (m n : Mode) : (d.log r m n).flt.log.head? = some (d.logEntry r m n) := by
  rw [(quiet_log d r m n).flt]
  rfl

/-- Whether a dip was detected in SCAN or SPLICE. -/
def Dev.dipHeld (d : Dev) : Bool :=
  (d.pwr.dipSeen.map Sight.mode).any (fun m => m == Mode.scan.code || m == Mode.splice.code)

/-- The entry of a dip that ends (R411, R428). -/
def Dev.dipRec (d : Dev) (u : Nat) : FaultRec :=
  { cls := 4, code := 1, action := if d.dipHeld then 6 else 0, field := true, a := d.pwr.dipCode, b := u
    seen := d.pwr.dipSeen }

/-- The device as a dip has ended, before its entry. -/
def Dev.dipEnded (d : Dev) (v : Nat) : Dev :=
  { d.fbusSample v with pwr := { (d.fbusSample v).pwr with dip := false } }

/-- The device after the bus is valid again: a dip ends with its entry, a shorter excursion is counted. -/
def Dev.busRecovered (d : Dev) (v u : Nat) : Dev :=
  if d.pwr.dip = true then (d.dipEnded v).log (d.dipRec u) d.mode (if d.dipHeld then .hold else d.mode)
  else (d.fbusSample v).bump Reg.PWR_SHORT_DIP_CNT

theorem exec_fbusRecover {v : Nat} (u : Nat) {s : State}
    (hv : s.d.rd Reg.PWR_FBUS_LOW + s.d.rd Reg.PWR_FBUS_HYST ≤ v) :
    exec (.fbusRecover v u) s = .next { s with d := s.d.busRecovered v u } := by
  have hvalid : (s.d.fbusSample v).pwr.fbusValid = true := decide_eq_true hv
  show execFbusRecover v u s = _
  rw [execFbusRecover, onDev_next]
  extract_lets d held
  rw [if_neg (show ¬ (!d.pwr.fbusValid) = true by rw [hvalid]; decide)]
  rfl

theorem does_fbusRecover_dip {v : Nat} (u : Nat) {s : State} (hv : s.d.rd Reg.PWR_FBUS_LOW + s.d.rd Reg.PWR_FBUS_HYST ≤ v)
    (hdip : s.d.pwr.dip = true) :
    Does (.fbusRecover v u) s fun d => d.pwr.dip = false ∧ d.pwr.fbusValid = true ∧
      Logged d 4 1 0 ∧ (∃ e, d.flt.log.head? = some e ∧ e.a = s.d.pwr.dipCode ∧ e.b = u ∧
        ∀ x, s.d.pwr.dipSeen = some x → e.time = x.time ∧ e.mode1 = x.mode ∧
          e.action = if x.mode = Mode.scan.code ∨ x.mode = Mode.splice.code then 6 else 0) ∧
      d.hold = s.d.hold ∧ d.mode = s.d.mode ∧ ∀ a, a / 65536 ≠ 12 → d.rd a = s.d.rd a := by
  have q := quiet_log (s.d.dipEnded v) (s.d.dipRec u) s.d.mode (if s.d.dipHeld then .hold else s.d.mode)
  refine ⟨_, exec_fbusRecover u hv, ?_⟩
  rw [Dev.busRecovered, if_pos hdip]
  refine ⟨congrArg Pwr.dip q.pwr, (congrArg Pwr.fbusValid q.pwr).trans (decide_eq_true hv), logged_log _ _ _ _,
    ⟨(s.d.dipEnded v).logEntry (s.d.dipRec u) s.d.mode (if s.d.dipHeld then .hold else s.d.mode),
      log_head _ _ _ _, rfl, rfl, fun x hx => ?_⟩, ?_, ?_, q.words⟩
  · simp [Dev.logEntry, Dev.dipRec, Dev.dipHeld, hx]
  · simp only [Dev.log_fields]
    rfl
  · simp only [Dev.log_fields]
    rfl

theorem does_fbusRecover_short {v : Nat} (u : Nat) {s : State}
    (hv : s.d.rd Reg.PWR_FBUS_LOW + s.d.rd Reg.PWR_FBUS_HYST ≤ v) (hdip : s.d.pwr.dip = false) :
    Does (.fbusRecover v u) s fun d => d.flt = s.d.flt ∧ d.hold = s.d.hold ∧ d.pwr.fbusValid = true ∧
      d.rd Reg.PWR_SHORT_DIP_CNT = min 0xFFFFFFFF (s.d.rd Reg.PWR_SHORT_DIP_CNT + 1) := by
  refine ⟨_, exec_fbusRecover u hv, ?_⟩
  rw [Dev.busRecovered, if_neg (Bool.eq_false_iff.mp hdip)]
  exact ⟨rfl, rfl, decide_eq_true hv, rd_bump_self (s.d.fbusSample v) _⟩

theorem does_fbusRecover_sample {v : Nat} (u : Nat) {s : State}
    (hv : v < s.d.rd Reg.PWR_FBUS_LOW + s.d.rd Reg.PWR_FBUS_HYST) :
    Does (.fbusRecover v u) s fun d => d.pwr.fbusValid = false ∧ d = { s.d with pwr := { s.d.pwr with
      fbus := v, fbusMin := d.pwr.fbusMin, fbusValid := false } } := by
  have hvalid : (s.d.fbusSample v).pwr.fbusValid = false := decide_eq_false (Nat.not_le.mpr hv)
  have hexec : exec (.fbusRecover v u) s = .next { s with d := s.d.fbusSample v } := by
    show execFbusRecover v u s = _
    rw [execFbusRecover, onDev_next]
    simp only [hvalid, Bool.not_false, if_true]
  refine ⟨_, hexec, hvalid, ?_⟩
  simp only [Dev.fbusSample, decide_eq_false (Nat.not_le.mpr hv)]

theorem does_fbusSurge {v : Nat} {s : State} (h : s.d.rd Reg.PWR_FBUS_HIGH ≤ v) :
    Does (.fbusSurge v) s fun d => bit (d.rd Reg.PWR_STAT) 4 = true ∧ d.hold = s.d.hold ∧ d.mode = s.d.mode ∧
      d.rd Reg.PWR_SURGE_CNT = min 0xFFFFFFFF (s.d.rd Reg.PWR_SURGE_CNT + 1) := by
  have hexec : exec (.fbusSurge v) s =
      .next { s with d := ((s.d.fbusSample v).putF Reg.PWR_STAT 4 4 1).bump Reg.PWR_SURGE_CNT } := by
    show execFbusSurge v s = _
    rw [execFbusSurge, onDev_next, if_neg (Nat.not_lt.mpr h)]
  refine ⟨_, hexec, ?_, rfl, rfl, ?_⟩
  · rw [rd_bump_ne _ (by decide), Dev.putF, bit_rd_put _ _ _ (by decide), withFld_bit _ _ _ (by decide)]
    exact bit_setBit _ _
  · rw [rd_bump_self, rd_putF_ne _ _ _ _ (by decide)]
    rfl

theorem does_fbusSurge_sample {v : Nat} {s : State} (h : v < s.d.rd Reg.PWR_FBUS_HIGH) :
    Does (.fbusSurge v) s fun d => d.regs = s.d.regs ∧ d.flt = s.d.flt ∧ d.hold = s.d.hold := by
  have hexec : exec (.fbusSurge v) s = .next { s with d := s.d.fbusSample v } := by
    show execFbusSurge v s = _
    rw [execFbusSurge, onDev_next, if_pos h]
  exact ⟨_, hexec, rfl, rfl, rfl⟩

/-! SUPPLY and the mains. -/

theorem does_supplyClear {s : State} (hdip : s.d.pwr.dip = false) (hvalid : s.d.pwr.fbusValid = true)
    (hac : s.d.pwr.acDip = false ∨ s.d.lamp.acLock = true) :
    Does .supplyClear s fun d => d.hold = clrBit s.d.hold hcSupply ∧
      d = { s.d with hold := d.hold, pwr := { s.d.pwr with acDip := false } } := by
  have hpass : (s.d.pwr.dip || !s.d.pwr.fbusValid || (s.d.pwr.acDip && !s.d.lamp.acLock)) = false := by
    rw [hdip, hvalid]
    rcases hac with h | h <;> simp [h]
  have hexec : exec .supplyClear s =
      .next { s with d := ({ s.d with pwr := { s.d.pwr with acDip := false } } : Dev).clrHold hcSupply } := by
    show execSupplyClear s = _
    rw [execSupplyClear, onDev_next, hpass]
    rfl
  exact ⟨_, hexec, rfl, rfl⟩

theorem does_supplyClear_dip {s : State} (hdip : s.d.pwr.dip = true) : Does .supplyClear s fun d => d = s.d := by
  have hexec : exec .supplyClear s = .next { s with d := s.d } := by
    show execSupplyClear s = _
    rw [execSupplyClear, onDev_next, hdip]
    rfl
  exact ⟨_, hexec, rfl⟩

/-- The device as a dip of the mains is detected. -/
def Dev.acDipped (d : Dev) : Dev :=
  (({ d with pwr := { d.pwr with acDip := true } }).setHold hcSupply).bump Reg.PWR_AC_DIP_CNT

/-- The entry of a dip of the mains (R429). -/
def Dev.acDipRec (d : Dev) : FaultRec := { cls := 4, code := 1, action := d.faultAction, field := true }

theorem does_acDip {s : State} (hon : s.d.rf Reg.PWR_CTRL 0 0 = 1) (hlock : s.d.lamp.acLock = true)
    (hmode : s.d.mode ≠ .homing) :
    Does .acDip s fun d => d.pwr.acDip = true ∧ bit d.hold hcSupply = true ∧ Logged d 4 1 0 ∧ d.mode = s.d.mode ∧
      d.rd Reg.PWR_AC_DIP_CNT = min 0xFFFFFFFF (s.d.rd Reg.PWR_AC_DIP_CNT + 1) := by
  have hpass : ¬ (s.d.rf Reg.PWR_CTRL 0 0 = 0 ∨ (!s.d.lamp.acLock) = true) := by
    rw [hon, hlock]
    decide
  have hexec : exec .acDip s =
      .next { s with d := (s.d.acDipped.log s.d.acDipped.acDipRec s.d.acDipped.mode s.d.acDipped.leadsTo).supplyStop } := by
    show execAcDip s = _
    rw [execAcDip, onDev_next, if_neg hpass]
    rfl
  have q := quiet_log s.d.acDipped s.d.acDipped.acDipRec s.d.acDipped.mode s.d.acDipped.leadsTo
  have hlogged := logged_log s.d.acDipped s.d.acDipped.acDipRec s.d.acDipped.mode s.d.acDipped.leadsTo
  have hstop := onlyGroups_supplyStop (by rw [q.mode]; exact hmode :
    (s.d.acDipped.log s.d.acDipped.acDipRec s.d.acDipped.mode s.d.acDipped.leadsTo).mode ≠ .homing)
  refine ⟨_, hexec, ?_⟩
  rw [hstop]
  refine ⟨congrArg Pwr.acDip q.pwr, ?_, hlogged, q.mode, (q.words _ (by decide)).trans (rd_bump_self _ _)⟩
  exact (congrArg (bit · hcSupply) q.hold).trans (bit_setBit _ _)

/-- Settles O55: a dip changes its record, its count and SUPPLY, and what it stops are groups alone (`onlyGroups_supplyStop`). -/
theorem fieldBus : Obligations.FieldBus := by
  unfold Obligations.FieldBus
  refine ⟨fun v s => does_fbusDip_sample, fun v s => does_fbusDip, fun v u s => ⟨fun hv => ⟨?_, ?_⟩, ?_, ?_, ?_⟩,
    fun s => ⟨?_, ?_, ?_, ?_⟩, fun v g m s => does_fbusDip_ramp⟩
  · exact does_fbusRecover_dip u hv
  · exact does_fbusRecover_short u hv
  · exact does_fbusRecover_sample u
  · exact does_fbusSurge
  · exact does_fbusSurge_sample
  · exact does_supplyClear
  · exact does_supplyClear_dip
  · exact does_acDip
  · intro hoff
    have hexec : exec .acDip s = .next { s with d := s.d } := by
      show execAcDip s = _
      rw [execAcDip, onDev_next, if_pos (.inl hoff)]
    exact ⟨_, hexec, rfl⟩

end Sys2Proof.Machine
end

section
/-! PROOFS. Scrubbing, flash work and the fault log's copy (R402 to R406, R410, R446). -/

namespace Sys2Proof.Machine

open Sys2Proof

/-! Scrub passes. -/

/-- Counting several, saturating (R46). -/
theorem rd_bumpBy_self (d : Dev) (a n : Nat) : (d.bumpBy a n).rd a = min 0xFFFFFFFF (d.rd a + n) := by
  have hput : (d.bumpBy a n).rd a = min 0xFFFFFFFF (d.rd a + n) % 2 ^ 32 := Dev.rd_put_self _ _ _
  omega

theorem rd_bumpBy_ne (d : Dev) (n : Nat) {a b : Nat} (h : b ≠ a) : (d.bumpBy a n).rd b = d.rd b := Dev.rd_put_ne _ _ _ _ h

theorem rd_free (d : Dev) (site a : Nat) : (d.free site).2.rd a = d.rd a := rfl

theorem resetWord_scrubCorr : resetWord Reg.FLT_SCRUB_CORR_CNT < 2 ^ 32 := by decide +kernel

/-- What a pass over `w` words counts as corrected. -/
def Dev.scrubN (d : Dev) (w : Nat) : Nat := (d.free 43).1.toNat % (w + 1)

theorem scrubbed_eq (d : Dev) (w : Nat) :
    d.scrubbed w = (d.scrubN w, (d.free 43).2.bumpBy Reg.FLT_SCRUB_CORR_CNT (d.scrubN w)) := rfl

/-- The corrections of a pass do not lower their count. -/
theorem scrubbed_le (d : Dev) (w : Nat) :
    d.rd Reg.FLT_SCRUB_CORR_CNT ≤ (d.scrubbed w).2.rd Reg.FLT_SCRUB_CORR_CNT := by
  have hlt := rd_lt resetWord_scrubCorr d
  rw [scrubbed_eq, rd_bumpBy_self, rd_free]
  omega

/-- A pass that counts its corrections and then itself, in another word. -/
theorem scrubbed_bump (d : Dev) (w : Nat) {a : Nat} (ha : a ≠ Reg.FLT_SCRUB_CORR_CNT) :
    Scrubbed d ((d.scrubbed w).2.bump a) ∧ ((d.scrubbed w).2.bump a).rd a = min 0xFFFFFFFF (d.rd a + 1) ∧
      ∀ b, b ≠ a → b ≠ Reg.FLT_SCRUB_CORR_CNT → ((d.scrubbed w).2.bump a).rd b = d.rd b := by
  have hrd : ∀ b, b ≠ Reg.FLT_SCRUB_CORR_CNT → (d.scrubbed w).2.rd b = d.rd b := fun b hb => by
    rw [scrubbed_eq, rd_bumpBy_ne _ _ hb, rd_free]
  refine ⟨⟨?_, Quiet.refl _, rfl⟩, ?_, fun b hb hc => ?_⟩
  · rw [rd_bump_ne _ ha.symm]
    exact scrubbed_le d w
  · rw [rd_bump_self, hrd a ha]
  · rw [rd_bump_ne _ hb, hrd b hc]

/-- A pass over DRAM as it is counted (R335, R403). -/
def Dev.dramScrubbed (d : Dev) : Dev :=
  ((d.scrubbed 8589934592).2.bumpBy Reg.DMA_ECC_CORR_CNT (d.scrubbed 8589934592).1).bump Reg.FLT_DRAM_PASS_CNT

theorem scrubbed_dram (d : Dev) : Scrubbed d d.dramScrubbed ∧
    d.dramScrubbed.rd Reg.FLT_DRAM_PASS_CNT = min 0xFFFFFFFF (d.rd Reg.FLT_DRAM_PASS_CNT + 1) ∧
    (d.dramScrubbed.rd Reg.FLT_SCRUB_CORR_CNT < 0xFFFFFFFF → d.dramScrubbed.rd Reg.DMA_ECC_CORR_CNT < 0xFFFFFFFF →
      d.dramScrubbed.rd Reg.DMA_ECC_CORR_CNT + d.rd Reg.FLT_SCRUB_CORR_CNT =
        d.rd Reg.DMA_ECC_CORR_CNT + d.dramScrubbed.rd Reg.FLT_SCRUB_CORR_CNT) := by
  have hpass : d.dramScrubbed.rd Reg.FLT_DRAM_PASS_CNT = min 0xFFFFFFFF (d.rd Reg.FLT_DRAM_PASS_CNT + 1) := by
    rw [Dev.dramScrubbed, rd_bump_self, rd_bumpBy_ne _ _ (by decide), scrubbed_eq, rd_bumpBy_ne _ _ (by decide), rd_free]
  have hcorr : d.dramScrubbed.rd Reg.FLT_SCRUB_CORR_CNT = (d.scrubbed 8589934592).2.rd Reg.FLT_SCRUB_CORR_CNT := by
    rw [Dev.dramScrubbed, rd_bump_ne _ (by decide), rd_bumpBy_ne _ _ (by decide)]
  have hecc : d.dramScrubbed.rd Reg.DMA_ECC_CORR_CNT =
      min 0xFFFFFFFF (d.rd Reg.DMA_ECC_CORR_CNT + d.scrubN 8589934592) := by
    rw [Dev.dramScrubbed, rd_bump_ne _ (by decide), rd_bumpBy_self, scrubbed_eq, rd_bumpBy_ne _ _ (by decide), rd_free]
  refine ⟨⟨?_, Quiet.refl _, rfl⟩, hpass, ?_⟩
  · rw [hcorr]
    exact scrubbed_le d _
  · rw [hcorr, hecc, scrubbed_eq, rd_bumpBy_self, rd_free]
    omega

theorem scrubOn {d : Dev} {b : Nat} (hon : bit (d.rd Reg.FLT_SCRUB_CTRL) b = true) (hrun : d.flt.l3run = false) :
    (bit (d.rd Reg.FLT_SCRUB_CTRL) b && !d.flt.l3run) = true := by
  rw [hon, hrun]
  rfl

theorem does_scrubFsram {s : State} (hrun : s.d.flt.l3run = false) (hon : bit (s.d.rd Reg.FLT_SCRUB_CTRL) 0 = true)
    (hok : s.d.pwr.fieldOk = true) :
    Does (.scrubPassDone .fsram) s fun d => Scrubbed s.d d ∧
      d.rd Reg.FLT_FSRAM_PASS_CNT = min 0xFFFFFFFF (s.d.rd Reg.FLT_FSRAM_PASS_CNT + 1) ∧
      ∀ a, a ≠ Reg.FLT_FSRAM_PASS_CNT → a ≠ Reg.FLT_SCRUB_CORR_CNT → d.rd a = s.d.rd a := by
  have hexec : exec (.scrubPassDone .fsram) s =
      .next { s with d := (s.d.scrubbed 1572864).2.bump Reg.FLT_FSRAM_PASS_CNT } := by
    show execScrubPassDone .fsram s = _
    rw [execScrubPassDone, onDev_next]
    simp only [scrubOn hon hrun, hok, Bool.and_self, if_true]
  exact ⟨_, hexec, scrubbed_bump s.d _ (by decide)⟩

theorem does_scrubFsram_off {s : State} (hok : s.d.pwr.fieldOk = false) :
    Does (.scrubPassDone .fsram) s fun d => d = s.d := by
  have hexec : exec (.scrubPassDone .fsram) s = .next { s with d := s.d } := by
    show execScrubPassDone .fsram s = _
    rw [execScrubPassDone, onDev_next]
    simp only [hok, Bool.and_false, Bool.false_eq_true, if_false]
  exact ⟨_, hexec, rfl⟩

theorem does_scrubHsram {s : State} (hrun : s.d.flt.l3run = false) (hon : bit (s.d.rd Reg.FLT_SCRUB_CTRL) 1 = true)
    (hmode : s.d.mode ≠ .off) :
    Does (.scrubPassDone .hsram) s fun d => Scrubbed s.d d ∧
      d.rd Reg.FLT_HSRAM_PASS_CNT = min 0xFFFFFFFF (s.d.rd Reg.FLT_HSRAM_PASS_CNT + 1) ∧
      ∀ a, a ≠ Reg.FLT_HSRAM_PASS_CNT → a ≠ Reg.FLT_SCRUB_CORR_CNT → d.rd a = s.d.rd a := by
  have hexec : exec (.scrubPassDone .hsram) s =
      .next { s with d := (s.d.scrubbed 2097152).2.bump Reg.FLT_HSRAM_PASS_CNT } := by
    show execScrubPassDone .hsram s = _
    rw [execScrubPassDone, onDev_next]
    simp only [scrubOn hon hrun, bne_iff_ne.mpr hmode, Bool.and_self, if_true]
  exact ⟨_, hexec, scrubbed_bump s.d _ (by decide)⟩

theorem exec_scrubDram {s : State} (hrun : s.d.flt.l3run = false) (hon : bit (s.d.rd Reg.FLT_SCRUB_CTRL) 2 = true)
    (hmode : s.d.mode ≠ .off) : exec (.scrubPassDone .dram) s = .next { s with d := s.d.dramScrubbed } := by
  show execScrubPassDone .dram s = _
  rw [execScrubPassDone, onDev_next]
  simp only [scrubOn hon hrun, bne_iff_ne.mpr hmode, Bool.and_self, if_true]
  rfl

theorem does_scrub_disabled {s : State} (h : s.d.rd Reg.FLT_SCRUB_CTRL = 0) (t : ScrubTarget) :
    Does (.scrubPassDone t) s fun d => d = s.d := by
  have hbit : ∀ b, bit 0 b = false := fun b => by simp [bit]
  have hexec : exec (.scrubPassDone t) s = .next { s with d := s.d } := by
    show execScrubPassDone t s = _
    rw [execScrubPassDone, onDev_next]
    simp only [h, hbit, Bool.false_and, Bool.false_eq_true, if_false]
    cases t <;> rfl
  exact ⟨_, hexec, rfl⟩

/-! A record that fails (R406). -/

/-- What a failing record of the store leaves: its entry and count, and every other record. -/
structure RecordBad (d d' : Dev) (r : CalRec) : Prop where
  logged : Logged d' 0xC 4 0
  gone : r ∉ d'.cal.store
  kept : ∀ x ∈ d.cal.store, x ≠ r → x ∈ d'.cal.store
  count : d'.rd Reg.FLT_FLASH_BAD_CNT = min 0xFFFFFFFF (d.rd Reg.FLT_FLASH_BAD_CNT + 1)
  verify : d'.rd Reg.FLT_FLASH_VERIFY_CNT = d.rd Reg.FLT_FLASH_VERIFY_CNT
  rest : d'.mode = d.mode ∧ d'.hold = d.hold ∧ d'.fsram = d.fsram

theorem setFlash_rd (d : Dev) (f : Flash) {a : Nat} (ha : a ≠ Reg.CAL_FLASH_STAT) : (d.setFlash f).rd a = d.rd a :=
  Dev.rd_put_ne _ _ _ _ ha

theorem dropRec_rd (d : Dev) (r : CalRec) {a : Nat} (ha : a ≠ Reg.CAL_FLASH_STAT) : (d.dropRec r).rd a = d.rd a :=
  setFlash_rd _ _ ha

theorem dropRec_store (d : Dev) (r : CalRec) : (d.dropRec r).cal.store = d.cal.store.filter (fun x => !(x == r)) := rfl

/-- The device with a failing record counted and logged: its address is a free value. -/
def Dev.badLogged (d : Dev) (r : CalRec) : Dev :=
  ((d.free 17).2.bump Reg.FLT_FLASH_BAD_CNT).logHere
    { cls := 0xC, code := 4, a := (d.free 17).1.toNat, b := r.epoch.toNat }

theorem recordBad_dropRec (d : Dev) (r : CalRec) : RecordBad d ((d.badLogged r).dropRec r) r where
  logged := logged_log _ _ _ _
  gone := by
    rw [dropRec_store]
    simp
  kept x hx hne := by
    rw [dropRec_store, Dev.badLogged, (Quiet.cal (quiet_log _ _ _ _) : (Dev.logHere _ _).cal = _)]
    exact List.mem_filter.mpr ⟨hx, by simpa using hne⟩
  count := by
    rw [dropRec_rd _ _ (by decide), Dev.badLogged, Dev.logHere, (quiet_log _ _ _ _).words _ (by decide)]
    exact rd_bump_self (d.free 17).2 _
  verify := by
    rw [dropRec_rd _ _ (by decide), Dev.badLogged, Dev.logHere, (quiet_log _ _ _ _).words _ (by decide)]
    exact rd_bump_ne (d.free 17).2 (by decide)
  rest := by
    have hrest : (d.badLogged r).mode = d.mode ∧ (d.badLogged r).hold = d.hold ∧ (d.badLogged r).fsram = d.fsram := by
      simp only [Dev.badLogged, Dev.logHere_fields]
      exact ⟨rfl, rfl, rfl⟩
    exact hrest

/-- A record queued to be written again is not in the store yet. -/
theorem RecordBad.queueWrites {d d' : Dev} {r : CalRec} (h : RecordBad d d' r) (l : List CalRec) :
    RecordBad d (d'.queueWrites l) r := ⟨h.logged, h.gone, h.kept, h.count, h.verify, h.rest⟩

theorem recordBad_badRecord (d : Dev) (r : CalRec) : RecordBad d (d.badRecord r) r := by
  have hdrop := recordBad_dropRec d r
  have heq : ∃ b : Bool, d.badRecord r = if b then ((d.badLogged r).dropRec r).queueWrites [r]
      else (d.badLogged r).dropRec r := ⟨_, rfl⟩
  obtain ⟨b, heq⟩ := heq
  rw [heq]
  cases b
  · exact hdrop
  · exact hdrop.queueWrites _

theorem exec_flashVerify {s : State} (l : List Nat) (hon : bit (s.d.rd Reg.FLT_SCRUB_CTRL) 3 = true) :
    exec (.flashVerify l) s = .next { s with d :=
      (l.eraseDups.filterMap (fun i => s.d.cal.store[i]?)).foldl Dev.badRecord (s.d.bump Reg.FLT_FLASH_VERIFY_CNT) } := by
  show execFlashVerify l s = _
  rw [execFlashVerify, onDev_next, hon]
  rfl

theorem does_flashVerify_bad {s : State} {i : Nat} {r : CalRec} (hon : bit (s.d.rd Reg.FLT_SCRUB_CTRL) 3 = true)
    (hr : s.d.cal.store[i]? = some r) :
    Does (.flashVerify [i]) s fun d => Logged d 0xC 4 0 ∧ r ∉ d.cal.store ∧
      (∀ x ∈ s.d.cal.store, x ≠ r → x ∈ d.cal.store) ∧
      d.rd Reg.FLT_FLASH_BAD_CNT = min 0xFFFFFFFF (s.d.rd Reg.FLT_FLASH_BAD_CNT + 1) ∧
      d.rd Reg.FLT_FLASH_VERIFY_CNT = min 0xFFFFFFFF (s.d.rd Reg.FLT_FLASH_VERIFY_CNT + 1) ∧
      d.mode = s.d.mode ∧ d.hold = s.d.hold ∧ d.fsram = s.d.fsram := by
  have hone : [i].eraseDups.filterMap (fun i => s.d.cal.store[i]?) = [r] := by
    simp [List.eraseDups_cons, hr]
  have h := recordBad_badRecord (s.d.bump Reg.FLT_FLASH_VERIFY_CNT) r
  refine ⟨_, exec_flashVerify [i] hon, ?_⟩
  rw [hone]
  exact ⟨h.logged, h.gone, h.kept, h.count.trans (by rw [rd_bump_ne _ (by decide)]), h.verify.trans (rd_bump_self _ _), h.rest⟩

/-! Reclaiming keeps a place for every record (R405). -/

theorem append_place (k n : Nat) (f : Flash) : (Flash.append k n f).1.place = f.place := by
  induction k generalizing n f with
  | zero => rfl
  | succ k ih =>
    unfold Flash.append
    split
    · rfl
    · split
      · split
        · exact ih _ _
        · rfl
      · exact ih _ _

theorem foldl_places (F : Flash → Nat → Flash) (h : ∀ g i, (F g i).place.length = g.place.length) (l : List Nat)
    (f : Flash) : (l.foldl F f).place.length = f.place.length := by
  induction l generalizing f with
  | nil => rfl
  | cons i l ih => exact (ih _).trans (h f i)

theorem reclaim_places (f : Flash) (size : Nat → Nat) : (f.reclaim size).place.length = f.place.length := by
  unfold Flash.reclaim
  split
  · rfl
  · split
    · rfl
    · refine foldl_places _ (fun g i => ?_) _ f
      split
      · exact List.length_set
      · rfl

/-- Besides the region and its status word, headers are sent. -/
theorem quiet_setFlash (d : Dev) (f : Flash) :
    Quiet { d with cal := (d.setFlash f).cal, regs := (d.setFlash f).regs } (d.setFlash f) := by
  constructor <;> rfl

theorem does_flashReclaim (s : State) :
    Does .flashReclaim s fun d => d.cal = { s.d.cal with flash := d.cal.flash } ∧
      d.cal.flash.place.length = s.d.cal.flash.place.length ∧ (∀ a, a ≠ Reg.CAL_FLASH_STAT → d.rd a = s.d.rd a) ∧
      Quiet { s.d with cal := d.cal, regs := d.regs } d :=
  ⟨_, rfl, rfl, reclaim_places _ _, fun _ ha => setFlash_rd s.d _ ha, quiet_setFlash s.d _⟩

/-! ROC (R446). -/

/-- A bit of ROC that follows its side. -/
theorem roc_bit (n i : Nat) (out : Bool) :
    bit (if out then setBit n i else clrBit n i) i = out ∧
      ∀ b, b ≠ i → bit (if out then setBit n i else clrBit n i) b = bit n b := by
  cases out
  · exact ⟨bit_clrBit n i, fun b hb => bit_clrBit_ne n hb⟩
  · exact ⟨bit_setBit n i, fun b hb => bit_setBit_ne n hb⟩

theorem does_rocChange_field (s : State) (out : Bool) :
    Does (.rocChange .field out) s fun d => bit d.flt.roc 0 = out ∧ (∀ b, b ≠ 0 → bit d.flt.roc b = bit s.d.flt.roc b) ∧
      d = { s.d with flt := { s.d.flt with roc := d.flt.roc } } :=
  ⟨_, rfl, (roc_bit s.d.flt.roc 0 out).1, (roc_bit s.d.flt.roc 0 out).2, rfl⟩

theorem does_rocChange_host (s : State) (out : Bool) :
    Does (.rocChange .host out) s fun d => bit d.flt.roc 1 = out ∧ (∀ b, b ≠ 1 → bit d.flt.roc b = bit s.d.flt.roc b) ∧
      d = { s.d with flt := { s.d.flt with roc := d.flt.roc } } :=
  ⟨_, rfl, (roc_bit s.d.flt.roc 1 out).1, (roc_bit s.d.flt.roc 1 out).2, rfl⟩

/-- Settles O49: a pass counts its free value and itself (`scrubbed_bump`), and a failing record is dropped from the store
before it may be queued again (`recordBad_badRecord`). -/
theorem backgroundWork : Obligations.BackgroundWork := by
  unfold Obligations.BackgroundWork
  refine ⟨fun s hrun => ⟨does_scrubFsram hrun, fun _ => does_scrubFsram_off, does_scrubHsram hrun,
    fun hon hmode => ⟨_, exec_scrubDram hrun hon hmode, scrubbed_dram s.d⟩, does_scrub_disabled⟩,
    fun s hon => ⟨⟨_, exec_flashVerify [] hon, rfl⟩, fun i r => does_flashVerify_bad hon⟩,
    fun s => ⟨does_flashReclaim s, ⟨_, rfl, rfl⟩, fun out => ⟨does_rocChange_field s out, does_rocChange_host s out⟩⟩⟩

end Sys2Proof.Machine
end

section
/-! PROOFS. DMA channels and a one-line copy (R336 to R351). -/

namespace Sys2Proof.Machine

open Sys2Proof

/-! A channel after another one, or itself, has changed. -/

theorem chan_modChan (d : Dev) (k n : Nat) (f : Chan → Chan) :
    (d.modChan k f).chan n = if n = k ∧ n < d.dma.ch.length then f (d.chan n) else d.chan n := nth_modNth _ _ _ _

theorem chan_modChan_self {d : Dev} {n : Nat} (h : n < d.dma.ch.length) (f : Chan → Chan) :
    (d.modChan n f).chan n = f (d.chan n) := by rw [chan_modChan, if_pos ⟨rfl, h⟩]

theorem chan_modChan_ne (d : Dev) {k n : Nat} (h : n ≠ k) (f : Chan → Chan) : (d.modChan k f).chan n = d.chan n := by
  rw [chan_modChan, if_neg (fun x => h x.1)]

theorem modChan_length (d : Dev) (k : Nat) (f : Chan → Chan) : (d.modChan k f).dma.ch.length = d.dma.ch.length :=
  List.length_modify _ _ _

/-- A channel that is not idle is one of the device's. -/
theorem chan_lt {d : Dev} {n : Nat} (h : (d.chan n).st ≠ .idle) : n < d.dma.ch.length := by
  by_contra hge
  have hdef : d.chan n = default := by
    rw [Dev.chan, nth, List.getD_eq_getElem?_getD, List.getElem?_eq_none (Nat.le_of_not_lt hge)]
    rfl
  rw [hdef] at h
  exact h rfl

/-! Fetching and pacing. -/

theorem does_chainFetch {ch a : Nat} {r : List Nat} {s : State} (h16 : ch < 16) (hlen : ch < s.d.dma.ch.length)
    (hen : s.d.rf (Reg.DMA_CH_CTRL ch) 0 0 = 1) (hserved : s.d.served = true) (hst : (s.d.chan ch).st = .idle)
    (hbusy : (s.d.chan ch).busy = false) (hq : (s.d.chan ch).q = a :: r) (hpoison : s.d.poisonAt a 64 = none)
    (hvalid : bit (dCtrl (mread s.mem a 64)) 31 = true) (hcheck : s.d.descCheck (mread s.mem a 64) = stOk)
    (hpace : bit (dCtrl (mread s.mem a 64)) 23 = false) :
    Does (.dmaChainFetch ch) s fun d =>
      d.chan ch = { s.d.chan ch with st := .run, busy := true, next := none, q := r, desc := a, early := none
                                     cut := false, img := mread s.mem a 64 } ∧
      (∀ n, n ≠ ch → d.chan n = s.d.chan n) ∧ d = { s.d with dma := { s.d.dma with ch := d.dma.ch } } := by
  let taken : Dev := s.d.modChan ch fun c => { c with
    q := if c.busy then c.q else c.q.drop 1, busy := true, next := none, desc := a, img := mread s.mem a 64, early := none
    cut := false }
  have hexec : exec (.dmaChainFetch ch) s = .next { s with d := taken.modChan ch fun c => { c with st := .run } } := by
    have hstart : ¬ (16 ≤ ch ∨ s.d.rf (Reg.DMA_CH_CTRL ch) 0 0 = 0 ∨ (!s.d.served) = true ∨
        ((s.d.chan ch).st ≠ .idle ∧ (s.d.chan ch).st ≠ .fetch)) := by
      simp [Nat.not_le.mpr h16, hen, hserved, hst]
    have hclean : ¬ (taken.poisonAt a 64).isSome = true := by
      rw [show taken.poisonAt a 64 = s.d.poisonAt a 64 from rfl, hpoison]
      decide
    have hok : ¬ taken.descCheck (mread s.mem a 64) ≠ stOk := not_not.mpr hcheck
    show execDmaChainFetch ch s = _
    unfold execDmaChainFetch
    dsimp only
    rw [if_neg hstart]
    simp only [hbusy, hq, List.head?_cons, Bool.false_eq_true, if_false]
    rw [if_neg hclean, if_neg (by rw [hvalid]; decide)]
    simp only [hpace, Bool.false_eq_true, if_false]
    refine congrArg Host.Outcome.next (congrArg (fun d => { s with d := d }) (congrArg (Dev.modChan _ ch) (funext fun c => ?_)))
    exact if_neg hok
  refine ⟨_, hexec, ?_, fun n hn => ?_, rfl⟩
  · rw [chan_modChan_self (by rw [modChan_length]; exact hlen), chan_modChan_self hlen, hbusy, hq]
    rfl
  · rw [chan_modChan_ne _ hn, chan_modChan_ne _ hn]

theorem exec_paceTimer {ch : Nat} {s : State} (h16 : ch < 16) (hsrc : s.d.rf (Reg.DMA_CH_CTRL ch) 10 8 = 1) :
    exec (.dmaPaceTimer ch) s = .next { s with d := s.d.request1 ch } := by
  show execDmaPaceTimer ch s = _
  rw [execDmaPaceTimer, onDev_next, if_pos ⟨h16, hsrc⟩]

theorem request1_waiting {d : Dev} {n : Nat} (h : (d.chan n).st = .waitReq) :
    d.request1 n = d.modChan n fun c => { c with st := .run } := by
  simp only [Dev.request1, h, if_true]

theorem request1_full {d : Dev} {n : Nat} (h : (d.chan n).st ≠ .waitReq) (hfull : 255 ≤ (d.chan n).reqs) :
    d.request1 n = d.bump Reg.DMA_PACE_OVF_CNT := by
  simp only [Dev.request1, h, hfull, if_false, if_true]

theorem request1_counted {d : Dev} {n : Nat} (h : (d.chan n).st ≠ .waitReq) (hroom : (d.chan n).reqs < 255) :
    d.request1 n = d.modChan n fun c => { c with reqs := c.reqs + 1 } := by
  simp only [Dev.request1, h, Nat.not_le.mpr hroom, if_false]

/-- A request changes no other channel. -/
theorem request1_ne (d : Dev) {n k : Nat} (h : k ≠ n) : (d.request1 n).chan k = d.chan k := by
  unfold Dev.request1
  dsimp only
  split
  · exact chan_modChan_ne d h _
  · split
    · rfl
    · exact chan_modChan_ne d h _

theorem does_paceTimer {ch : Nat} {s : State} (h16 : ch < 16) (hlen : ch < s.d.dma.ch.length)
    (hsrc : s.d.rf (Reg.DMA_CH_CTRL ch) 10 8 = 1) :
    Does (.dmaPaceTimer ch) s fun d =>
      ((s.d.chan ch).st = .waitReq → d.chan ch = { s.d.chan ch with st := .run }) ∧
      ((s.d.chan ch).st ≠ .waitReq → (s.d.chan ch).reqs < 255 →
        d.chan ch = { s.d.chan ch with reqs := (s.d.chan ch).reqs + 1 }) ∧
      ((s.d.chan ch).st ≠ .waitReq → 255 ≤ (s.d.chan ch).reqs → d = s.d.bump Reg.DMA_PACE_OVF_CNT) ∧
      (∀ n, n ≠ ch → d.chan n = s.d.chan n) := by
  refine ⟨_, exec_paceTimer h16 hsrc, fun h => ?_, fun h hroom => ?_, request1_full, fun n hn => request1_ne _ hn⟩
  · rw [request1_waiting h, chan_modChan_self hlen]
  · rw [request1_counted h hroom, chan_modChan_self hlen]

/-! What a channel at work leaves of the rest of the device. -/

/-- What a channel shows of its chains: its state, the chains held and whether one runs. -/
def Chan.chains (c : Chan) : DSt × List Nat × Bool := (c.st, c.q, c.busy)

/-- The mode, the hold causes, the sequencer, every channel's chains and the watchdog's count stay. -/
structure DmaKept (d d' : Dev) : Prop where
  mode : d'.mode = d.mode
  hold : d'.hold = d.hold
  seq : d'.seq = d.seq
  chans : d'.dma.ch.map Chan.chains = d.dma.ch.map Chan.chains
  wdog : d'.rd Reg.DMA_WDOG_CNT = d.rd Reg.DMA_WDOG_CNT

theorem DmaKept.refl (d : Dev) : DmaKept d d := ⟨rfl, rfl, rfl, rfl, rfl⟩

theorem DmaKept.trans {d e f : Dev} (h : DmaKept d e) (g : DmaKept e f) : DmaKept d f :=
  ⟨g.mode.trans h.mode, g.hold.trans h.hold, g.seq.trans h.seq, g.chans.trans h.chans, g.wdog.trans h.wdog⟩

theorem DmaKept.ite {d x y : Dev} {p : Prop} [Decidable p] (hx : DmaKept d x) (hy : DmaKept d y) :
    DmaKept d (if p then x else y) := by split <;> assumption

theorem DmaKept.foldl {β : Type} {f : Dev → β → Dev} (h : ∀ d b, DmaKept d (f d b)) (l : List β) (d : Dev) :
    DmaKept d (l.foldl f d) := by
  induction l generalizing d with
  | nil => exact .refl d
  | cons b l ih => exact (h d b).trans (ih _)

theorem Quiet.dmaKept {d d' : Dev} (q : Quiet d d') : DmaKept d d' :=
  ⟨q.mode, q.hold, q.seq, by rw [q.dma], q.words _ (by decide)⟩

theorem dmaKept_put (d : Dev) {a : Nat} (v : Nat) (ha : Reg.DMA_WDOG_CNT ≠ a) : DmaKept d (d.put a v) :=
  ⟨rfl, rfl, rfl, rfl, Dev.rd_put_ne _ _ _ _ ha⟩

theorem dmaKept_bumpBy (d : Dev) {a : Nat} (k : Nat) (ha : Reg.DMA_WDOG_CNT ≠ a) : DmaKept d (d.bumpBy a k) :=
  dmaKept_put d _ ha

theorem dmaKept_bumpIf (d : Dev) (b : Bool) {a : Nat} (ha : Reg.DMA_WDOG_CNT ≠ a) : DmaKept d (d.bumpIf b a) := by
  cases b
  · exact .refl d
  · exact dmaKept_put d _ ha

theorem dmaKept_modChan (d : Dev) (n : Nat) {f : Chan → Chan} (h : ∀ c, (f c).chains = c.chains) :
    DmaKept d (d.modChan n f) := ⟨rfl, rfl, rfl, modNth_map _ _ _ _ h, rfl⟩

theorem dmaKept_sendWindow (d : Dev) (c : FieldCmd) : DmaKept d (d.sendWindow c) := by
  unfold Dev.sendWindow
  dsimp only
  split
  · exact (quiet_sendCmd d c).dmaKept
  · exact (quiet_sendCmd d c).dmaKept.trans ⟨rfl, rfl, rfl, rfl, rfl⟩

theorem dmaKept_slotWritten (d : Dev) (o n : Nat) : DmaKept d (d.slotWritten o n) := by
  refine DmaKept.foldl ?_ (mapSlots o n) d
  exact fun _ _ => ⟨rfl, rfl, rfl, rfl, rfl⟩

theorem dmaKept_sramWrite (d : Dev) (o : Nat) (data : List Byte) : DmaKept d (d.sramWrite o data).1 := by
  unfold Dev.sramWrite
  split
  · exact dmaKept_put d _ (by decide)
  · refine DmaKept.trans ?_ (dmaKept_slotWritten _ o data.length)
    exact ⟨rfl, rfl, rfl, rfl, rfl⟩

/-- What a piece's outcome at the field side makes of the state, the bytes written and the refusal. -/
def pieceSent (s : State) (n : Nat) (p : Nat × List Byte) (w : Dev × Bool) : State × Nat × Option Nat :=
  ({ s with d := w.1 }, if w.2 then n + p.2.length else n, if w.2 then none else some p.1)

theorem writePiece_window (s : State) (n : Nat) {p : Nat × List Byte} (hw : winBase ≤ p.1) :
    writePiece (s, n, none) p =
      pieceSent s n p ((s.d.sendWindow (.sramWrite (p.1 - winBase) p.2)).sramWrite (p.1 - winBase) p.2) := by
  unfold writePiece
  exact (if_neg (by decide)).trans (if_pos hw)

theorem pieceSent_dev (s : State) (n : Nat) (p : Nat × List Byte) (w : Dev × Bool) : (pieceSent s n p w).1.d = w.1 := rfl

theorem writePiece_dram (s : State) (n : Nat) {p : Nat × List Byte} (hw : ¬ winBase ≤ p.1) :
    writePiece (s, n, none) p =
      ({ s with mem := mwrite s.mem p.1 p.2, d := s.d.cleanPoison p.1 p.2.length }, n + p.2.length, none) := by
  unfold writePiece
  exact (if_neg (by decide)).trans (if_neg hw)

theorem writePiece_refused (s : State) (n a : Nat) (p : Nat × List Byte) :
    writePiece (s, n, some a) p = (s, n, some a) := by
  unfold writePiece
  exact if_pos rfl

theorem dmaKept_writePiece (x : State × Nat × Option Nat) (p : Nat × List Byte) : DmaKept x.1.d (writePiece x p).1.d := by
  obtain ⟨s, n, r | a⟩ := x
  · by_cases hw : winBase ≤ p.1
    · rw [writePiece_window s n hw, pieceSent_dev]
      exact (dmaKept_sendWindow _ _).trans (dmaKept_sramWrite _ _ _)
    · rw [writePiece_dram s n hw]
      exact ⟨rfl, rfl, rfl, rfl, rfl⟩
  · rw [writePiece_refused]
    exact .refl _

theorem dmaKept_writePieces (l : List (Nat × List Byte)) (x : State × Nat × Option Nat) :
    DmaKept x.1.d (l.foldl writePiece x).1.d := by
  induction l generalizing x with
  | nil => exact .refl _
  | cons p l ih => exact (dmaKept_writePiece x p).trans (ih _)

theorem dmaKept_moveData (s : State) (i : List Byte) (n st cls addr : Nat) :
    DmaKept s.d (s.moveData i n st cls addr).1.d := by
  unfold State.moveData
  dsimp only
  split <;> exact dmaKept_writePieces _ (s, 0, none)

theorem dmaKept_readWindow (d : Dev) (a : Nat) (step : Int) (len cnt n : Nat) :
    DmaKept d (d.readWindow a step len cnt n) := by
  unfold Dev.readWindow
  split
  · exact .refl d
  · exact .foldl (fun d _ => .foldl (fun d _ => dmaKept_sendWindow d _) _ d) _ _

theorem dmaKept_readFrames (d : Dev) (i : List Byte) (n : Nat) : DmaKept d (d.readFrames i n) := by
  have hsrc : DmaKept d (if dReads i then d.readWindow (dSrc i) (dSrcStep i) (dLen i) (dCnt i) n else d) :=
    .ite (dmaKept_readWindow _ _ _ _ _ _) (.refl d)
  exact hsrc.trans (.ite (dmaKept_readWindow _ _ _ _ _ _) (.refl _))

theorem dmaKept_runDesc (s : State) (i : List Byte) (n st cls addr : Nat) : DmaKept s.d (s.runDesc i n st cls addr).1.d := by
  have hread := dmaKept_readFrames s.d i n
  unfold State.runDesc
  dsimp only
  split
  · exact .refl _
  · split
    · exact hread
    · split
      · exact (hread.trans (dmaKept_moveData { s with d := s.d.readFrames i n } i n st cls addr)).trans
          (dmaKept_put _ _ (by decide))
      · exact hread.trans (dmaKept_moveData { s with d := s.d.readFrames i n } i n st cls addr)

theorem wdog_ne_stat (n : Nat) : Reg.DMA_WDOG_CNT ≠ Reg.DMA_CH_STAT n := by
  simp only [Reg.DMA_WDOG_CNT, Reg.DMA_CH_STAT]
  omega

theorem wdog_ne_errInfo (n : Nat) : Reg.DMA_WDOG_CNT ≠ Reg.DMA_CH_ERR_INFO n := by
  simp only [Reg.DMA_WDOG_CNT, Reg.DMA_CH_ERR_INFO]
  omega

theorem dmaKept_latchErr (d : Dev) (n cls st addr : Nat) : DmaKept d (d.latchErr n cls st addr) := by
  have hcount : DmaKept d (d.bump Reg.DMA_ERR_CNT) := dmaKept_put d _ (by decide)
  unfold Dev.latchErr
  dsimp only
  split
  · exact hcount.trans (dmaKept_put _ _ (wdog_ne_errInfo n))
  · exact (hcount.trans (dmaKept_put _ _ (wdog_ne_errInfo n))).trans (dmaKept_modChan _ n fun _ => rfl)

theorem dmaKept_dramUse (d : Dev) (n : Nat) : DmaKept d (d.dramUse n) := by
  have hfrees : DmaKept d (d.free 36).2 := ⟨rfl, rfl, rfl, rfl, rfl⟩
  have hfrees' : DmaKept (d.free 36).2 ((d.free 36).2.free 25).2 := ⟨rfl, rfl, rfl, rfl, rfl⟩
  exact ((hfrees.trans hfrees').trans (dmaKept_put _ _ (by decide))).trans (dmaKept_put _ _ (by decide))

theorem dmaKept_writeBack (s : State) (n : Nat) (e : DEnd) : DmaKept s.d (s.writeBack n e).d := by
  unfold State.writeBack
  extract_lets c ctrl m w d1 d2 _ d3 d4 stat d5 d6 d7
  have h1 : DmaKept s.d d1 := (dmaKept_put s.d _ (by decide)).trans (dmaKept_dramUse _ _)
  have h2 : DmaKept d1 d2 := ⟨rfl, rfl, rfl, rfl, rfl⟩
  have h3 : DmaKept d2 { d2 with dma := { d2.dma with wrote := w % 1048576 } } := ⟨rfl, rfl, rfl, rfl, rfl⟩
  have h3' : DmaKept _ d3 := dmaKept_bumpBy { d2 with dma := { d2.dma with wrote := w % 1048576 } } (w / 1048576) (by decide)
  have h4 : DmaKept d3 d4 := (dmaKept_bumpIf _ _ (by decide)).trans (dmaKept_bumpIf _ _ (by decide))
  have h5 : DmaKept d4 d5 := .ite (dmaKept_put _ _ (wdog_ne_stat n)) (.refl _)
  have h6 : DmaKept d5 d6 := .ite (dmaKept_put _ _ (wdog_ne_stat n)) (.refl _)
  have h7 : DmaKept d6 d7 := .ite (.refl _) (dmaKept_latchErr _ _ _ _ _)
  exact ((((((h1.trans h2).trans h3).trans h3').trans h4).trans h5).trans h6).trans h7

theorem dmaKept_cutShort (s : State) (ch st cls : Nat) : DmaKept s.d (s.cutShort ch st cls).d := by
  unfold State.cutShort
  extract_lets c
  split
  · exact dmaKept_writeBack _ _ _
  · split
    next v d hfree =>
    have hd : DmaKept s.d d := by
      cases hfree
      exact ⟨rfl, rfl, rfl, rfl, rfl⟩
    extract_lets r _ e t
    have hrun : DmaKept d r.1.d := dmaKept_runDesc { s with d := d } _ _ _ _ _
    exact ((hd.trans hrun).trans (dmaKept_writeBack _ _ _)).trans (.ite (dmaKept_modChan _ _ fun _ => rfl) (.refl _))

/-- What the channels show is what one of them shows. -/
theorem DmaKept.chan {d d' : Dev} (h : DmaKept d d') (n : Nat) : (d'.chan n).chains = (d.chan n).chains := by
  have hnth : ∀ l : List Chan, (nth l n).chains = (l.map Chan.chains).getD n (default : Chan).chains := fun l => by
    rw [nth, List.getD_eq_getElem?_getD, List.getD_eq_getElem?_getD, List.getElem?_map]
    cases l[n]? <;> rfl
  rw [Dev.chan, Dev.chan, hnth, hnth, h.chans]

theorem DmaKept.length {d d' : Dev} (h : DmaKept d d') : d'.dma.ch.length = d.dma.ch.length := by
  have := congrArg List.length h.chans
  rwa [List.length_map, List.length_map] at this

/-! The watchdog (R351). -/

/-- A request changes neither the state of a channel that waits for none nor any chain, nor a word but the overflow count. -/
structure Asked (d d' : Dev) : Prop where
  st : ∀ n, (d.chan n).st ≠ .waitReq → (d'.chan n).st = (d.chan n).st
  chains : ∀ n, (d'.chan n).q = (d.chan n).q ∧ (d'.chan n).busy = (d.chan n).busy
  words : ∀ a, a ≠ Reg.DMA_PACE_OVF_CNT → d'.rd a = d.rd a
  rest : d'.mode = d.mode ∧ d'.hold = d.hold ∧ d'.seq = d.seq ∧ d'.fsram = d.fsram

theorem Asked.refl (d : Dev) : Asked d d :=
  ⟨fun _ _ => rfl, fun _ => ⟨rfl, rfl⟩, fun _ _ => rfl, rfl, rfl, rfl, rfl⟩

theorem Asked.trans {d e f : Dev} (h : Asked d e) (g : Asked e f) : Asked d f where
  st n hn := by
    have he := h.st n hn
    exact (g.st n (he ▸ hn)).trans he
  chains n := ⟨(g.chains n).1.trans (h.chains n).1, (g.chains n).2.trans (h.chains n).2⟩
  words a ha := (g.words a ha).trans (h.words a ha)
  rest := by
    obtain ⟨hm, hh, hs, hf⟩ := h.rest
    obtain ⟨gm, gh, gs, gf⟩ := g.rest
    exact ⟨gm.trans hm, gh.trans hh, gs.trans hs, gf.trans hf⟩

theorem asked_request1 (d : Dev) (n : Nat) : Asked d (d.request1 n) := by
  by_cases hwait : (d.chan n).st = .waitReq
  · rw [request1_waiting hwait]
    refine ⟨fun k hk => ?_, fun k => ?_, fun _ _ => rfl, rfl, rfl, rfl, rfl⟩
    · rw [chan_modChan_ne d (fun e => hk (by rw [e]; exact hwait))]
    · rw [chan_modChan]
      split <;> exact ⟨rfl, rfl⟩
  · by_cases hfull : 255 ≤ (d.chan n).reqs
    · rw [request1_full hwait hfull]
      exact ⟨fun _ _ => rfl, fun _ => ⟨rfl, rfl⟩, fun a ha => rd_bump_ne d ha, rfl, rfl, rfl, rfl⟩
    · rw [request1_counted hwait (Nat.lt_of_not_le hfull)]
      refine ⟨fun k _ => ?_, fun k => ?_, fun _ _ => rfl, rfl, rfl, rfl, rfl⟩ <;> rw [chan_modChan] <;> split
      · rfl
      · rfl
      · exact ⟨rfl, rfl⟩
      · exact ⟨rfl, rfl⟩

theorem asked_dmaRequests (d : Dev) (src n : Nat) : Asked d (d.dmaRequests src n) := by
  unfold Dev.dmaRequests
  induction List.range 16 generalizing d with
  | nil => exact .refl d
  | cons k l ih =>
    refine Asked.trans ?_ (ih _)
    dsimp only
    split
    · exact asked_request1 d k
    · exact .refl d

/-- The watchdog's count and its recovery (R351, R394). -/
def Dev.wdogCounted (d : Dev) (ch : Nat) : Dev := (d.bump Reg.DMA_WDOG_CNT).startLevel 1 0 4 ch 0 false

theorem wdogCounted_rest (d : Dev) (ch : Nat) :
    (d.wdogCounted ch).rd Reg.DMA_WDOG_CNT = min 0xFFFFFFFF (d.rd Reg.DMA_WDOG_CNT + 1) ∧
      (d.wdogCounted ch).mode = d.mode ∧ (d.wdogCounted ch).hold = d.hold ∧ (d.wdogCounted ch).seq = d.seq ∧
      (d.wdogCounted ch).dma = d.dma := by
  have heq : ∃ f, d.wdogCounted ch = { ((d.bump Reg.DMA_WDOG_CNT).bump (Reg.FLT_RECOV_CNT 1)) with flt := f } := ⟨_, rfl⟩
  obtain ⟨f, heq⟩ := heq
  rw [heq]
  refine ⟨?_, rfl, rfl, rfl, rfl⟩
  show ((d.bump Reg.DMA_WDOG_CNT).bump (Reg.FLT_RECOV_CNT 1)).rd _ = _
  rw [rd_bump_ne _ (by decide), rd_bump_self]

theorem does_dmaWdog {ch : Nat} {s : State} (h16 : ch < 16) (hst : (s.d.chan ch).st = .run) :
    ∃ t, exec (.dmaWdog ch) s = .next t ∧ t.pending = s.pending ∧ (t.d.chan ch).st = .restart ∧
      (t.d.chan ch).busy = false ∧ (t.d.chan ch).q = (s.d.chan ch).q ∧
      t.d.rd Reg.DMA_WDOG_CNT = min 0xFFFFFFFF (s.d.rd Reg.DMA_WDOG_CNT + 1) ∧
      t.d.mode = s.d.mode ∧ t.d.hold = s.d.hold ∧ t.d.seq = s.d.seq := by
  have hcut := dmaKept_cutShort s ch stTimeout 4
  obtain ⟨hcount, hmode, hhold, hseq, hdma⟩ := wdogCounted_rest (s.cutShort ch stTimeout 4).d ch
  let restarted := ((s.cutShort ch stTimeout 4).d.wdogCounted ch).modChan ch fun c =>
    { c with st := .restart, busy := false, next := none, early := none }
  have hreq := asked_dmaRequests restarted 4 ch
  have hexec : exec (.dmaWdog ch) s = .next { s.cutShort ch stTimeout 4 with d := restarted.dmaRequests 4 ch } := by
    show execDmaWdog ch s = _
    rw [execDmaWdog, if_neg (by rw [hst]; simp [Nat.not_le.mpr h16])]
    rfl
  have hchan : restarted.chan ch =
      { (s.cutShort ch stTimeout 4).d.chan ch with st := .restart, busy := false, next := none, early := none } := by
    have hlen : ch < ((s.cutShort ch stTimeout 4).d.wdogCounted ch).dma.ch.length := by
      rw [hdma, hcut.length]
      exact chan_lt (by rw [hst]; decide)
    rw [show restarted.chan ch = _ from chan_modChan_self hlen _, Dev.chan, hdma]
    rfl
  have hq : ((s.cutShort ch stTimeout 4).d.chan ch).q = (s.d.chan ch).q := congrArg (·.2.1) (hcut.chan ch)
  obtain ⟨rmode, rhold, rseq, -⟩ := hreq.rest
  have hpending : (s.cutShort ch stTimeout 4).pending = s.pending := aside_pending (cutShort_aside s ch stTimeout 4)
  refine ⟨_, hexec, hpending, ?_, ?_, ?_, ?_, ?_, ?_, ?_⟩
  · exact (hreq.st ch (by rw [hchan]; exact nofun)).trans (by rw [hchan])
  · exact (hreq.chains ch).2.trans (by rw [hchan])
  · exact (hreq.chains ch).1.trans (by rw [hchan]; exact hq)
  · exact (hreq.words _ (by decide)).trans (hcount.trans (by rw [hcut.wdog]))
  · exact rmode.trans (hmode.trans hcut.mode)
  · exact rhold.trans (hhold.trans hcut.hold)
  · exact rseq.trans (hseq.trans hcut.seq)

/-! The restart's end (R351, R350). -/

theorem recEnd_flt (d : Dev) (cls code : Nat) (unit : Option Nat) :
    d.recEnd cls code unit = { d with flt := (d.recEnd cls code unit).flt } := by
  unfold Dev.recEnd
  generalize d.flt.recs.filter _ = l
  induction l generalizing d with
  | nil => rfl
  | cons x l ih => exact ih (d.recovered x)

theorem does_restartDone {ch : Nat} {s : State} (h16 : ch < 16) (hst : (s.d.chan ch).st = .restart) :
    Does (.dmaChannelRestartDone ch) s fun d =>
      ((d.chan ch).st = if s.d.rf (Reg.DMA_CH_CTRL ch) 2 2 = 1 ∧ bit (s.d.rd (Reg.DMA_CH_ERR_INFO ch)) 23 = true
        then .halted else .idle) ∧ (d.chan ch).q = (s.d.chan ch).q ∧ (∀ n, n ≠ ch → d.chan n = s.d.chan n) ∧
      d = { s.d with dma := d.dma, flt := d.flt } := by
  have hlen : ch < s.d.dma.ch.length := chan_lt (by rw [hst]; decide)
  let stop := s.d.rf (Reg.DMA_CH_CTRL ch) 2 2 == 1 && bit (s.d.rd (Reg.DMA_CH_ERR_INFO ch)) 23
  let freed := s.d.modChan ch fun c => { c with st := if stop then .halted else .idle }
  have hexec : exec (.dmaChannelRestartDone ch) s = .next { s with d := freed.recEnd 0 4 (some ch) } := by
    show execDmaChannelRestartDone ch s = _
    rw [execDmaChannelRestartDone, onDev_next, if_pos h16, Dev.chanRestarted, if_neg (not_not.mpr hst)]
  have hself : freed.chan ch = { s.d.chan ch with st := if stop then .halted else .idle } := chan_modChan_self hlen _
  have hq : (freed.chan ch).q = (s.d.chan ch).q := by rw [hself]
  refine ⟨_, hexec, ?_⟩
  rw [recEnd_flt]
  refine ⟨?_, hq, fun n hn => chan_modChan_ne s.d hn _, rfl⟩
  refine (congrArg Chan.st hself).trans (if_congr ?_ rfl rfl)
  simp only [stop, Bool.and_eq_true, beq_iff_eq]

/-! A one-line copy within the shared region (R337, R340, R342, R347). -/

/-- A COPY of one line of `n` bytes between places below the field window that have no byte in common. -/
structure LineCopy (i : List Byte) (n : Nat) : Prop where
  op : dOp i = 0
  cnt : dCnt i = 1
  len : dLen i = n
  pos : 1 ≤ n
  src : dSrc i + n ≤ winBase
  dst : dDst i + n ≤ winBase
  apart : dSrc i + n ≤ dDst i ∨ dDst i + n ≤ dSrc i

section
variable {i : List Byte} {n : Nat} (h : LineCopy i n)
include h

theorem LineCopy.srcStep : dSrcStep i = 0 := if_pos h.cnt

theorem LineCopy.dstStep : dDstStep i = 0 := if_pos h.cnt

theorem LineCopy.total : dTotal i = n := by rw [dTotal, h.len, h.cnt, Nat.mul_one]

/-- An address below the window is not in it. -/
theorem inWindow_below {a : Nat} (ha : a + n ≤ winBase) : inWindow a = false := by
  have hpos := h.pos
  rw [inWindow]
  refine decide_eq_false fun hw => ?_
  have := Int.ofNat_le.mp hw.1
  omega

theorem LineCopy.src_window : inWindow (dSrc i) = false := inWindow_below h h.src

theorem LineCopy.dst_window : inWindow (dDst i) = false := inWindow_below h h.dst

theorem LineCopy.noOverlap : dOverlap i = false := by
  have hpos := h.pos
  have hdisjoint : ¬ ((dSrcSpan i).1 ≤ (dDstSpan i).2 ∧ (dDstSpan i).1 ≤ (dSrcSpan i).2) := by
    simp only [dSrcSpan, dDstSpan, span, h.srcStep, h.dstStep, h.len]
    rcases h.apart with ha | ha <;> omega
  rw [dOverlap, decide_eq_false hdisjoint, Bool.and_false]

theorem LineCopy.noField : dField i = false := by
  rw [dField, h.src_window, h.dst_window]
  simp

theorem LineCopy.reads : dReads i = true := by rw [dReads, h.op]; rfl

theorem LineCopy.writes : dWrites i = true := by rw [dWrites, h.op]; rfl

/-- Nothing is asked of the field side. -/
theorem LineCopy.readFrames (d : Dev) (k : Nat) : d.readFrames i k = d := by
  have hsrc : d.readWindow (dSrc i) (dSrcStep i) (dLen i) (dCnt i) k = d := by
    rw [Dev.readWindow, h.src_window]
    rfl
  rw [Dev.readFrames, if_pos h.reads, hsrc, h.op]
  rfl

/-- The bytes a line copies are the source's. -/
theorem LineCopy.data (s : State) : s.dmaData i = mread s.mem (dSrc i) n := by
  have hsrc := h.src
  rw [State.dmaData, h.op, if_neg (by decide), State.sideBytes, h.cnt, h.len, h.srcStep]
  simp only [List.range_one, List.flatMap_cons, List.flatMap_nil, List.append_nil, mread]
  refine List.map_congr_left fun k hk => ?_
  have hk := List.mem_range.mp hk
  have haddr : ((dSrc i : Int) + ((0 : Nat) : Int) * 0 + (k : Int)).toNat = dSrc i + k := by omega
  rw [haddr, State.dmaRead, if_neg (by omega)]

/-- A line below the window is written in one piece. -/
theorem LineCopy.pieces {data : List Byte} (hdata : data.length = n) : pieces i data n = [(dDst i, data)] := by
  have hpos := h.pos
  have haddr : ((dDst i : Int) + ((0 : Nat) : Int) * 0).toNat = dDst i := by omega
  have hne : data ≠ [] := fun e => by rw [e] at hdata; exact absurd hdata (by simp; omega)
  have htake : (data.drop (0 * n)).take (min n (n - 0 * n)) = data := by
    rw [Nat.zero_mul, List.drop_zero, Nat.sub_zero, Nat.min_self, ← hdata, List.take_length]
  have hparts : parts (max 1 n) data.length data = [data] := by
    obtain ⟨k, hk⟩ : ∃ k, data.length = k + 1 := ⟨n - 1, by omega⟩
    rw [hk, parts, if_pos (by omega)]
  unfold Machine.pieces
  rw [h.noOverlap, h.dst_window, h.cnt, h.len, h.dstStep]
  simp only [Bool.false_and, Bool.false_eq_true, if_false, List.range_one, List.flatMap_cons, List.flatMap_nil,
    List.append_nil, htake, hne, hparts, haddr]
  rfl

/-- What the copy itself does: the bytes are written, and the words wholly written are clean. -/
theorem LineCopy.runDesc (s : State) :
    s.runDesc i n stOk 0 0 =
      ({ s with mem := mwrite s.mem (dDst i) (mread s.mem (dSrc i) n), d := s.d.cleanPoison (dDst i) n },
        ⟨stOk, 0, 0, n, crc32c (mread s.mem (dSrc i) n), false⟩) := by
  have hdst := h.dst
  have hpos := h.pos
  have hlen : (mread s.mem (dSrc i) n).length = n := by simp [mread]
  have hpiece : writePiece (s, 0, none) (dDst i, mread s.mem (dSrc i) n) =
      ({ s with mem := mwrite s.mem (dDst i) (mread s.mem (dSrc i) n), d := s.d.cleanPoison (dDst i) n }, n, none) := by
    rw [writePiece_dram s 0 (show ¬ winBase ≤ dDst i by omega), hlen, Nat.zero_add]
  have hmove : s.moveData i n stOk 0 0 =
      ({ s with mem := mwrite s.mem (dDst i) (mread s.mem (dSrc i) n), d := s.d.cleanPoison (dDst i) n },
        ⟨stOk, 0, 0, n, crc32c (mread s.mem (dSrc i) n), false⟩) := by
    rw [State.moveData, h.data, h.pieces hlen]
    simp only [List.foldl_cons, List.foldl_nil, hpiece, h.noOverlap, Bool.false_and, Bool.false_eq_true, if_false]
    rw [List.take_of_length_le (Nat.le_of_eq hlen)]
  rw [State.runDesc, if_neg (by rw [h.op]; decide)]
  simp only [h.readFrames]
  rw [if_neg (by rw [h.op]; decide), hmove, h.noOverlap]
  rfl

end

/-! The write-back (R347). -/

theorem mwrite_append (l l' : List Byte) (m : List Host.Cell) (a : Nat) :
    mwrite m a (l ++ l') = mwrite (mwrite m a l) (a + l.length) l' := by
  induction l generalizing m a with
  | nil => rfl
  | cons x l ih =>
    rw [List.cons_append, mwrite, mwrite, ih, List.length_cons, Nat.add_assoc, Nat.add_comm 1]

theorem mread_mwrite_self (m : List Host.Cell) (a : Nat) {l : List Byte} {k : Nat} (h : l.length = k) :
    mread (mwrite m a l) a k = l := by
  subst h
  refine List.ext_getElem (by simp [mread]) fun j hj hl => ?_
  simp only [mread, List.getElem_map, List.getElem_range]
  rw [mget_mwrite_in _ _ _ _ hl]
  simp [hl]

theorem mread_mwrite_out (m : List Host.Cell) {a b k : Nat} {l : List Byte} (h : b + k ≤ a ∨ a + l.length ≤ b) :
    mread (mwrite m a l) b k = mread m b k := by
  refine List.map_congr_left fun j hj => mget_mwrite_out _ _ _ _ ?_
  have := List.mem_range.mp hj
  omega

/-- What a write-back of a descriptor at `a` stores: its status, its outcome, and its control word. -/
def descWritten (m : List Host.Cell) (a c : Nat) (e : DEnd) : List Host.Cell :=
  mwrite (mwrite (mwrite m (a + 4) (be 2 e.st)) (a + 48) (be 8 e.n ++ beW e.crc)) a (be 4 c)

theorem writeBack_mem (s : State) (ch : Nat) (e : DEnd) :
    ∃ c, (s.writeBack ch e).mem = descWritten s.mem (s.d.chan ch).desc c e := ⟨_, rfl⟩

theorem beW_length (w : Word) : (beW w).length = 4 := be_length 4 _

section
variable (m : List Host.Cell) (a c : Nat) (e : DEnd)

theorem descWritten_out {x : Nat} (h : x < a ∨ a + 60 ≤ x) : mget (descWritten m a c e) x = mget m x := by
  rw [descWritten, mget_mwrite_out _ _ _ _ (by rw [be_length]; omega),
    mget_mwrite_out _ _ _ _ (by rw [List.length_append, be_length, beW_length]; omega),
    mget_mwrite_out _ _ _ _ (by rw [be_length]; omega)]

theorem descWritten_st : mread (descWritten m a c e) (a + 4) 2 = be 2 e.st := by
  rw [descWritten, mread_mwrite_out _ (by rw [be_length]; omega),
    mread_mwrite_out _ (by omega), mread_mwrite_self _ _ (be_length _ _)]

theorem descWritten_n : mread (descWritten m a c e) (a + 48) 8 = be 8 e.n := by
  rw [descWritten, mread_mwrite_out _ (by rw [be_length]; omega), mwrite_append,
    mread_mwrite_out _ (by rw [be_length]; omega), mread_mwrite_self _ _ (be_length _ _)]

theorem descWritten_crc : mread (descWritten m a c e) (a + 56) 4 = beW e.crc := by
  rw [descWritten, mread_mwrite_out _ (by rw [be_length]; omega), mwrite_append, be_length]
  exact mread_mwrite_self _ _ (beW_length _)

end

/-- The field SRAM and the count of descriptors stay. -/
structure DescKept (d d' : Dev) : Prop where
  fsram : d'.fsram = d.fsram
  count : d'.rd Reg.DMA_DESC_CNT = d.rd Reg.DMA_DESC_CNT

theorem DescKept.trans {d e f : Dev} (h : DescKept d e) (g : DescKept e f) : DescKept d f :=
  ⟨g.fsram.trans h.fsram, g.count.trans h.count⟩

theorem DescKept.ite {d x y : Dev} {p : Prop} [Decidable p] (hx : DescKept d x) (hy : DescKept d y) :
    DescKept d (if p then x else y) := by split <;> assumption

theorem descKept_put (d : Dev) {a : Nat} (v : Nat) (ha : Reg.DMA_DESC_CNT ≠ a) : DescKept d (d.put a v) :=
  ⟨rfl, Dev.rd_put_ne _ _ _ _ ha⟩

theorem descKept_bumpIf (d : Dev) (b : Bool) {a : Nat} (ha : Reg.DMA_DESC_CNT ≠ a) : DescKept d (d.bumpIf b a) := by
  cases b
  · exact ⟨rfl, rfl⟩
  · exact descKept_put d _ ha

theorem desc_ne_stat (n : Nat) : Reg.DMA_DESC_CNT ≠ Reg.DMA_CH_STAT n := by
  simp only [Reg.DMA_DESC_CNT, Reg.DMA_CH_STAT]
  omega

theorem desc_ne_errInfo (n : Nat) : Reg.DMA_DESC_CNT ≠ Reg.DMA_CH_ERR_INFO n := by
  simp only [Reg.DMA_DESC_CNT, Reg.DMA_CH_ERR_INFO]
  omega

theorem descKept_latchErr (d : Dev) (n cls st addr : Nat) : DescKept d (d.latchErr n cls st addr) := by
  have hcount : DescKept d (d.bump Reg.DMA_ERR_CNT) := descKept_put d _ (by decide)
  unfold Dev.latchErr
  dsimp only
  split
  · exact hcount.trans (descKept_put _ _ (desc_ne_errInfo n))
  · exact (hcount.trans (descKept_put _ _ (desc_ne_errInfo n))).trans ⟨rfl, rfl⟩

theorem descKept_dramUse (d : Dev) (n : Nat) : DescKept d (d.dramUse n) := by
  have hfrees : DescKept d ((d.free 36).2.free 25).2 := ⟨rfl, rfl⟩
  exact (hfrees.trans (descKept_put _ _ (by decide))).trans (descKept_put _ _ (by decide))

theorem descKept_writeBack (s : State) (n : Nat) (e : DEnd) :
    DescKept (s.d.bump Reg.DMA_DESC_CNT) (s.writeBack n e).d := by
  unfold State.writeBack
  extract_lets c ctrl m w d1 d2 _ d3 d4 stat d5 d6 d7
  have h1 : DescKept _ d1 := descKept_dramUse (s.d.bump Reg.DMA_DESC_CNT) _
  have h2 : DescKept d1 { d2 with dma := { d2.dma with wrote := w % 1048576 } } := ⟨rfl, rfl⟩
  have h3 : DescKept _ d3 := descKept_put { d2 with dma := { d2.dma with wrote := w % 1048576 } } _ (by decide)
  have h4 : DescKept d3 d4 := (descKept_bumpIf _ _ (by decide)).trans (descKept_bumpIf _ _ (by decide))
  have h5 : DescKept d4 d5 := .ite (descKept_put _ _ (desc_ne_stat n)) ⟨rfl, rfl⟩
  have h6 : DescKept d5 d6 := .ite (descKept_put _ _ (desc_ne_stat n)) ⟨rfl, rfl⟩
  have h7 : DescKept d6 d7 := .ite ⟨rfl, rfl⟩ (descKept_latchErr _ _ _ _ _)
  exact (((((h1.trans h2).trans h3).trans h4).trans h5).trans h6).trans h7

theorem descKept_dmaRequests (d : Dev) (src n : Nat) : DescKept d (d.dmaRequests src n) := by
  have h := asked_dmaRequests d src n
  obtain ⟨-, -, -, hfsram⟩ := h.rest
  exact ⟨hfsram, h.words _ (by decide)⟩

theorem descKept_afterWriteBack (d : Dev) (n : Nat) (e : DEnd) : DescKept d (d.afterWriteBack n e) := by
  unfold Dev.afterWriteBack
  extract_lets c d1 go d2
  have h1 : DescKept d d1 := .ite ⟨rfl, rfl⟩ ⟨rfl, rfl⟩
  have h2 : DescKept d1 d2 := .ite ⟨rfl, rfl⟩ ⟨rfl, rfl⟩
  exact (h1.trans h2).trans (descKept_dmaRequests _ _ _)

/-- The state once a descriptor has moved its data and is written back. -/
def State.descDone (r : State × DEnd) (ch : Nat) : State :=
  { r.1.writeBack ch r.2 with d := (r.1.writeBack ch r.2).d.afterWriteBack ch r.2 }

theorem exec_writeback {ch n : Nat} {i : List Byte} {s : State} (h : LineCopy i n) (h16 : ch < 16)
    (hst : (s.d.chan ch).st = .run) (himg : (s.d.chan ch).img = i) (hpoison : s.d.descPoison i = none) :
    exec (.dmaWriteback ch .ok) s = .next (State.descDone (s.runDesc i n stOk 0 0) ch) := by
  show execDmaWriteback ch .ok s = _
  unfold execDmaWriteback
  extract_lets c done
  have hc : c.img = i := himg
  rw [if_neg (Nat.not_le.mpr h16), hc]
  simp only [show c.st = .run from hst, h.noField, Bool.and_false, Bool.false_eq_true, if_false, hpoison, h.total]
  rfl

/-- What is left once `r` is written back on a channel whose descriptor lies at `a`. -/
theorem descDone_spec {r : State × DEnd} {ch a : Nat} (hdesc : (r.1.d.chan ch).desc = a) :
    (State.descDone r ch).pending = r.1.pending ∧ (∃ c, (State.descDone r ch).mem = descWritten r.1.mem a c r.2) ∧
      (State.descDone r ch).d.fsram = r.1.d.fsram ∧
      (State.descDone r ch).d.rd Reg.DMA_DESC_CNT = min 0xFFFFFFFF (r.1.d.rd Reg.DMA_DESC_CNT + 1) := by
  have hkept : DescKept _ (State.descDone r ch).d := (descKept_writeBack r.1 ch r.2).trans (descKept_afterWriteBack _ ch r.2)
  obtain ⟨c, hc⟩ := writeBack_mem r.1 ch r.2
  have hpending : (State.descDone r ch).pending = r.1.pending := by
    have h : (r.1.writeBack ch r.2).pending = r.1.pending := aside_pending (writeBack_aside r.1 ch r.2)
    rw [State.descDone]
    exact h
  exact ⟨hpending, ⟨c, hdesc ▸ hc⟩, hkept.fsram.trans (by simp only [Dev.bump_fields]), hkept.count.trans (rd_bump_self _ _)⟩

/-- The state with the copy's bytes written. -/
def State.copied (s : State) (i : List Byte) (n : Nat) : State :=
  { s with mem := mwrite s.mem (dDst i) (mread s.mem (dSrc i) n), d := s.d.cleanPoison (dDst i) n }

/-- How a whole copy ends. -/
def State.copyEnd (s : State) (i : List Byte) (n : Nat) : DEnd := ⟨stOk, 0, 0, n, crc32c (mread s.mem (dSrc i) n), false⟩

theorem copied_mem_in {s : State} {i : List Byte} {n k : Nat} (hk : k < n) :
    mget (s.copied i n).mem (dDst i + k) = mget s.mem (dSrc i + k) := by
  rw [State.copied, mget_mwrite_in _ _ _ _ (by simpa [mread] using hk)]
  simp [mread, hk]

theorem copied_mem_out {s : State} {i : List Byte} {n x : Nat} (hx : x < dDst i ∨ dDst i + n ≤ x) :
    mget (s.copied i n).mem x = mget s.mem x :=
  mget_mwrite_out _ _ _ _ (by simpa [mread] using hx)

theorem does_lineCopy {ch a n : Nat} {i : List Byte} {s : State} (h : LineCopy i n) (h16 : ch < 16)
    (hst : (s.d.chan ch).st = .run) (himg : (s.d.chan ch).img = i) (hdesc : (s.d.chan ch).desc = a)
    (ha : a + 64 ≤ dDst i ∨ dDst i + n ≤ a) (hpoison : s.d.descPoison i = none) :
    ∃ t, exec (.dmaWriteback ch .ok) s = .next t ∧ t.pending = s.pending ∧
      (∀ k, k < n → mget t.mem (dDst i + k) = mget s.mem (dSrc i + k)) ∧
      (∀ x, (x < dDst i ∨ dDst i + n ≤ x) → (x < a ∨ a + 60 ≤ x) → mget t.mem x = mget s.mem x) ∧
      mread t.mem (a + 4) 2 = be 2 stOk ∧ mread t.mem (a + 48) 8 = be 8 n ∧
      mread t.mem (a + 56) 4 = beW (crc32c (mread s.mem (dSrc i) n)) ∧ t.d.fsram = s.d.fsram ∧
      t.d.rd Reg.DMA_DESC_CNT = min 0xFFFFFFFF (s.d.rd Reg.DMA_DESC_CNT + 1) := by
  have hexec : exec (.dmaWriteback ch .ok) s = .next (State.descDone (s.copied i n, s.copyEnd i n) ch) := by
    rw [exec_writeback h h16 hst himg hpoison, h.runDesc s]
    rfl
  obtain ⟨hpending, ⟨c, hmem⟩, hfsram, hcount⟩ :=
    descDone_spec (r := (s.copied i n, s.copyEnd i n)) (ch := ch) (a := a) hdesc
  refine ⟨_, hexec, hpending, fun k hk => ?_, fun x hx hxa => ?_, ?_, ?_, ?_, hfsram, hcount⟩
  · rw [hmem, descWritten_out _ _ _ _ (by omega)]
    exact copied_mem_in hk
  · rw [hmem, descWritten_out _ _ _ _ hxa]
    exact copied_mem_out hx
  · rw [hmem]
    exact descWritten_st _ _ _ _
  · rw [hmem]
    exact descWritten_n _ _ _ _
  · rw [hmem]
    exact descWritten_crc _ _ _ _

/-- Settles O20: a line within the shared region is one piece (`LineCopy.runDesc`), and its write-back stores in its own
descriptor alone (`descWritten_out`). -/
theorem dmaChannelsAndCopies : Obligations.DmaChannelsAndCopies := by
  unfold Obligations.DmaChannelsAndCopies
  refine ⟨fun ch a r s => does_chainFetch, fun ch s => does_paceTimer, fun ch s => does_dmaWdog, fun ch s => does_restartDone,
    fun ch s i a n h16 hst himg hdesc hop hcnt hlen hpos hsrc hdst hapart ha hpoison => ?_⟩
  exact does_lineCopy ⟨hop, hcnt, hlen, hpos, hsrc, hdst, hapart⟩ h16 hst himg hdesc ha hpoison

end Sys2Proof.Machine
end

section
/-! PROOFS. Ports, flow control, answers and reassembly (R362 to R368). -/

namespace Sys2Proof.Machine

open Sys2Proof

/-! What sending leaves of the ports. -/

section Ports
variable {α : Type} {g : Port → α} (hn : ∀ q l, g { q with neigh := l } = g q) (hr : ∀ q b, g { q with roceLast := b } = g q)

theorem modPort_ports (d : Dev) (p : NetPort) {f : Port → Port} (hf : ∀ q, g (f q) = g q) :
    (d.modPort p f).net.ports.map g = d.net.ports.map g := modNth_map _ _ _ _ hf

include hn

theorem resolve_ports (d : Dev) (p : NetPort) (hop : Option Nat) :
    (d.resolve p hop).net.ports.map g = d.net.ports.map g := by
  unfold Dev.resolve
  split
  · rfl
  · split
    · rfl
    · exact modPort_ports (d.sendNow p 1 _) p fun q => hn q _

include hr

/-- A message that can be sent leaves of a port what neither the neighbours nor the turn of ROCE is. -/
theorem send_ports_sent {d : Dev} {p : NetPort} {c : Nat} (h : d.canSend p c = true) (o : Out) :
    (d.send p c o).net.ports.map g = d.net.ports.map g := by
  unfold Dev.send
  rw [if_pos h]
  exact (modPort_ports (d.resolve p _) p fun q => hr q _).trans (resolve_ports hn d p _)

theorem send_ports (hw : ∀ q l, g { q with waitq := l } = g q) (d : Dev) (p : NetPort) (c : Nat) (o : Out) :
    (d.send p c o).net.ports.map g = d.net.ports.map g := by
  by_cases h : d.canSend p c = true
  · exact send_ports_sent hn hr h o
  · unfold Dev.send
    rw [if_neg h]
    exact modNth_map _ _ _ _ fun q => hw q _

theorem drain_ports (hw : ∀ q l, g { q with waitq := l } = g q) (d : Dev) (p : NetPort) :
    (d.drain p).net.ports.map g = d.net.ports.map g := by
  have hfold : ∀ (l : List (Nat × Out)) (d : Dev), (l.foldl (fun d m => d.send p m.1 m.2) d).net.ports.map g = d.net.ports.map g := by
    intro l
    induction l with
    | nil => exact fun d => rfl
    | cons m l ih => exact fun d => (ih _).trans (send_ports hn hr hw d p m.1 m.2)
  exact (hfold _ _).trans (modNth_map _ _ _ _ fun q => hw q _)

end Ports

/-- What a map of two lists makes equal, it makes equal at each place. -/
theorem nth_of_map {α β : Type} [Inhabited α] {g : α → β} {l l' : List α} (h : l.map g = l'.map g) (i : Nat) :
    g (nth l i) = g (nth l' i) := by
  have hnth : ∀ l : List α, g (nth l i) = (l.map g).getD i (g default) := fun l => by
    rw [nth, List.getD_eq_getElem?_getD, List.getD_eq_getElem?_getD, List.getElem?_map]
    cases l[i]? <;> rfl
  rw [hnth, hnth, h]

/-- What stops a port, and what it has stopped: PAUSE, PFC and the XOFF it sent. -/
def Port.flowPart (q : Port) : Bool × Nat × Nat × List (Nat × Nat) × Nat := (q.paused, q.pausedTill, q.pfc, q.pfcTill, q.xoff)

/-- Sending what waits stops and resumes nothing. -/
theorem drain_flow (d : Dev) (p : NetPort) (i : Nat) :
    (nth (d.drain p).net.ports i).flowPart = (nth d.net.ports i).flowPart :=
  nth_of_map (drain_ports (g := Port.flowPart) (fun _ _ => rfl) (fun _ _ => rfl) (fun _ _ => rfl) d p) i

theorem drain_rd {a : Nat} (htx : ∀ p : NetPort, a ≠ Reg.NET_P_TX_FRAME_CNT (portIx p)) (d : Dev) (p : NetPort) :
    (d.drain p).rd a = d.rd a := by
  refine foldl_rd (a := a) (f := fun d (m : Nat × Out) => d.send p m.1 m.2) (fun d m => send_rd htx d p _ _) _ _

theorem port_modPort {d : Dev} {p : NetPort} (h : portIx p < d.net.ports.length) (f : Port → Port) :
    nth (d.modPort p f).net.ports (portIx p) = f (nth d.net.ports (portIx p)) := by
  rw [Dev.modPort, nth_modNth, if_pos ⟨rfl, h⟩]

/-! A port that can send. -/

/-- Nothing stops a port and nothing waits on it. -/
structure Open (d : Dev) (p : NetPort) : Prop where
  served : d.served = true
  link : d.link p = true
  paused : (nth d.net.ports (portIx p)).paused = false
  pfc : (nth d.net.ports (portIx p)).pfc = 0
  waitq : (nth d.net.ports (portIx p)).waitq = []

theorem bit_zero (i : Nat) : bit 0 i = false := by simp [bit]

theorem Open.canSend {d : Dev} {p : NetPort} (h : Open d p) (c : Nat) : d.canSend p c = true := by
  rw [Dev.canSend, h.served, h.link, h.paused, h.pfc, bit_zero]
  rfl

theorem Quiet.served {d d' : Dev} (q : Quiet d d') : d'.served = d.served := by
  have hbase : d'.bzl.base.xtalDead = d.bzl.base.xtalDead := congrArg Bezel.xtalDead q.bzl
  have hxtal : d'.bzl.xtalDead = d.bzl.xtalDead := hbase
  rw [Dev.served, q.mode, hxtal, Dev.served]

theorem ne_netStat (p p' : NetPort) : Reg.NET_P_STAT (portIx p) ≠ Reg.NET_P_TX_FRAME_CNT (portIx p') := by
  cases p <;> cases p' <;> decide

theorem Open.send {d : Dev} {p : NetPort} (h : Open d p) (c : Nat) (o : Out) : Open (d.send p c o) p := by
  have hport := nth_of_map (send_ports_sent (g := fun q : Port => (q.paused, q.pfc, q.waitq)) (fun _ _ => rfl)
    (fun _ _ => rfl) (h.canSend c) o) (portIx p)
  refine ⟨(quiet_send d p c o).served.trans h.served, ?_, (congrArg Prod.fst hport).trans h.paused,
    (congrArg (fun x => x.2.1) hport).trans h.pfc, (congrArg (fun x => x.2.2) hport).trans h.waitq⟩
  rw [Dev.link, send_rd (ne_netStat p)]
  exact h.link

/-- On a port that nothing stops, nothing waits once it has sent. -/
theorem drain_waitq {d : Dev} {p : NetPort} (hlen : portIx p < d.net.ports.length) (hserved : d.served = true)
    (hlink : d.link p = true) (hpaused : (nth d.net.ports (portIx p)).paused = false)
    (hpfc : (nth d.net.ports (portIx p)).pfc = 0) : (nth (d.drain p).net.ports (portIx p)).waitq = [] := by
  have hempty : Open (d.modPort p fun q => { q with waitq := [] }) p := by
    have hport := port_modPort hlen fun q => { q with waitq := [] }
    exact ⟨hserved, hlink, by rw [hport]; exact hpaused, by rw [hport]; exact hpfc, by rw [hport]⟩
  have hfold : ∀ (l : List (Nat × Out)) (e : Dev), Open e p → Open (l.foldl (fun d m => d.send p m.1 m.2) e) p := by
    intro l
    induction l with
    | nil => exact fun e he => he
    | cons m l ih => exact fun e he => ih _ (he.send m.1 m.2)
  exact (hfold _ _ hempty).waitq

/-! Links (R364, R365). -/

theorem linkUp_stat (p : NetPort) (d : Dev) : (d.put (Reg.NET_P_STAT (portIx p)) 0xCF000000).link p = true := by
  rw [Dev.link, Dev.rd_put_self]
  decide

theorem stat_ne_sgCfg (p : NetPort) : Reg.NET_P_STAT (portIx p) ≠ Reg.NET_SG_CFG := by cases p <;> decide
theorem sgCfg_ne_tx (p : NetPort) : Reg.NET_SG_CFG ≠ Reg.NET_P_TX_FRAME_CNT (portIx p) := by cases p <;> decide
theorem netStat_page (p : NetPort) : Reg.NET_P_STAT (portIx p) / 65536 = 12 := by cases p <;> rfl

/-- A field of two bits written is read back. -/
theorem rf_putF_speed (d : Dev) {x : Nat} (hx : x < 4) : (d.putF Reg.NET_SG_CFG 29 28 x).rf Reg.NET_SG_CFG 29 28 = x := by
  rw [Dev.rf, Dev.putF, Dev.rd_put_self, withFld]
  omega

/-- The port's registers as its link has come up, before it sends. -/
def Dev.linkUp (d : Dev) (p : NetPort) (v : Nat) : Dev :=
  if p == .sgmii then (d.put (Reg.NET_P_STAT (portIx p)) 0xCF000000).putF Reg.NET_SG_CFG 29 28 (min v 2)
  else d.put (Reg.NET_P_STAT (portIx p)) 0xCF000000

theorem quiet_linkUp (d : Dev) (p : NetPort) (v : Nat) : Quiet d (d.linkUp p v) := by
  have hstat := quiet_put d (Reg.NET_P_STAT (portIx p)) 0xCF000000 (netStat_page p)
  unfold Dev.linkUp
  split
  · exact hstat.chain (quiet_put _ _ _ rfl)
  · exact hstat

theorem linkUp_link (d : Dev) (p : NetPort) (v : Nat) : (d.linkUp p v).link p = true := by
  have hstat := linkUp_stat p d
  unfold Dev.linkUp
  split
  · rw [Dev.link, rd_putF_ne _ _ _ _ (stat_ne_sgCfg p)]
    exact hstat
  · exact hstat

theorem linkUp_ports (d : Dev) (p : NetPort) (v : Nat) : (d.linkUp p v).net.ports = d.net.ports := by
  unfold Dev.linkUp
  split <;> rfl

theorem exec_netLinkUp {p : NetPort} {v : Nat} {s : State} (hmode : s.d.mode ≠ .off)
    (hen : s.d.rf (cfgAddr p) 31 31 = 1) : exec (.netLinkUp p v) s = .next { s with d := (s.d.linkUp p v).drain p } := by
  show execNetLinkUp p v s = _
  rw [execNetLinkUp, onDev_next, if_pos (by rw [hen, bne_iff_ne.mpr hmode]; rfl)]
  rfl

theorem does_netLinkUp {p : NetPort} {v : Nat} {s : State} (hmode : s.d.mode ≠ .off)
    (hen : s.d.rf (cfgAddr p) 31 31 = 1) :
    Does (.netLinkUp p v) s fun d => Quiet s.d d ∧ d.link p = true ∧
      (p = .sgmii → d.rf Reg.NET_SG_CFG 29 28 = min v 2) ∧
      (s.d.served = true → portIx p < s.d.net.ports.length → (nth s.d.net.ports (portIx p)).paused = false →
        (nth s.d.net.ports (portIx p)).pfc = 0 → (nth d.net.ports (portIx p)).waitq = []) := by
  have hq := quiet_linkUp s.d p v
  have hports := linkUp_ports s.d p v
  refine ⟨_, exec_netLinkUp hmode hen, hq.chain (quiet_drain _ p), ?_, fun hp => ?_, fun hserved hlen hpaused hpfc => ?_⟩
  · rw [Dev.link, drain_rd (ne_netStat p)]
    exact linkUp_link s.d p v
  · rw [Dev.rf, drain_rd sgCfg_ne_tx, hp]
    exact rf_putF_speed _ (by omega)
  · exact drain_waitq (hports ▸ hlen) (hq.served.trans hserved) (linkUp_link s.d p v) (hports ▸ hpaused) (hports ▸ hpfc)

theorem does_netLinkDown {p : NetPort} {s : State} (hlink : s.d.link p = true) :
    Does (.netLinkDown p) s fun d => Quiet s.d d ∧ d.link p = false ∧ d.sess = s.d.sess ∧ d.net.ports = s.d.net.ports ∧
      d.rd (Reg.NET_P_LINK_DOWN_CNT (portIx p)) = min 0xFFFFFFFF (s.d.rd (Reg.NET_P_LINK_DOWN_CNT (portIx p)) + 1) := by
  have hports : (s.d.linkLost p).net.ports = s.d.net.ports := by
    unfold Dev.linkLost
    split <;> rfl
  exact ⟨s.d.linkLost p, rfl, quiet_linkLost _ p, linkLost_link _ p, linkLost_sess _ p, hports, linkLost_counts hlink⟩

/-! Frames that are dropped (R362, R363). -/

theorem accepts_false {f : NetFrame} {s : State}
    (h : f.len < 64 ∨ s.d.mtu f.port + 22 < f.len ∨ f.fcsOk = false ∨ f.full = true) : s.d.accepts f = false := by
  have hlen : ∀ v : Bool, f.len < 64 ∨ s.d.mtu f.port + 22 < f.len →
      ¬ (64 ≤ f.len ∧ f.len ≤ s.d.mtu f.port + if v then 22 else 18) := by
    intro v hv
    cases v <;> simp <;> omega
  unfold Dev.accepts
  dsimp only
  rcases h with h | h | h | h
  · rw [decide_eq_false (hlen _ (.inl h))]
    simp
  · rw [decide_eq_false (hlen _ (.inr h))]
    simp
  · simp [h]
  · simp [h]

theorem does_netFrameDrop_refused {f : NetFrame} {s : State} (h : s.d.accepts f = false) :
    Does (.netFrameDrop f) s fun d => d = s.d.bump (Reg.NET_P_RX_DROP_CNT (portIx f.port)) := by
  have hexec : exec (.netFrameDrop f) s = .next { s with d := s.d.bump (Reg.NET_P_RX_DROP_CNT (portIx f.port)) } := by
    show execNetFrameDrop f s = _
    rw [execNetFrameDrop, onDev_next, if_pos (by rw [h]; rfl)]
  exact ⟨_, hexec, rfl⟩

theorem does_netFrameDrop_unserved {f : NetFrame} {u : Nat} {s : State} (h : s.d.accepts f = true) (hu : f.udp = some u)
    (hno : udpServed f.port u = false) :
    Does (.netFrameDrop f) s fun d => d = (s.d.rxFrame f.port).bump (Reg.NET_P_RX_DROP_CNT (portIx f.port)) := by
  have hexec : exec (.netFrameDrop f) s =
      .next { s with d := (s.d.rxFrame f.port).bump (Reg.NET_P_RX_DROP_CNT (portIx f.port)) } := by
    show execNetFrameDrop f s = _
    rw [execNetFrameDrop, onDev_next, if_neg (by rw [h]; decide), if_pos (by simp [hu, hno])]
  exact ⟨_, hexec, rfl⟩

/-! PAUSE (R363). -/

theorem pauseRx_page (p : NetPort) : Reg.NET_P_PAUSE_RX_CNT (portIx p) / 65536 = 12 := by cases p <;> rfl

theorem does_pauseRx {p : NetPort} {q : Nat} {s : State} (hlen : portIx p < s.d.net.ports.length) (hflow : s.d.flow p = 1)
    (hq : q ≠ 0) :
    Does (.pauseRx p q) s fun d => Quiet s.d d ∧ d.tx = s.d.tx ∧
      (nth d.net.ports (portIx p)).paused = true ∧ (nth d.net.ports (portIx p)).pausedTill = s.d.now + s.d.quanta p q ∧
      d.canSend p 1 = false ∧
      d.rd (Reg.NET_P_PAUSE_RX_CNT (portIx p)) = min 0xFFFFFFFF (s.d.rd (Reg.NET_P_PAUSE_RX_CNT (portIx p)) + 1) := by
  let counted := s.d.bump (Reg.NET_P_PAUSE_RX_CNT (portIx p))
  let stop : Port → Port := fun x => { x with paused := true, pausedTill := counted.now + counted.quanta p q }
  have hexec : exec (.pauseRx p q) s = .next { s with d := counted.modPort p stop } := by
    show execPauseRx p q s = _
    rw [execPauseRx, onDev_next, if_pos hflow]
    dsimp only
    rw [if_neg hq]
  have hport : nth (counted.modPort p stop).net.ports (portIx p) = stop (nth counted.net.ports (portIx p)) :=
    port_modPort hlen stop
  have hcfg : counted.quanta p q = s.d.quanta p q := by
    have hne : cfgAddr p ≠ Reg.NET_P_PAUSE_RX_CNT (portIx p) := by cases p <;> decide
    rw [Dev.quanta, Dev.rf, rd_bump_ne _ hne, Dev.quanta, Dev.rf]
  refine ⟨_, hexec, (quiet_bump _ _ (pauseRx_page p)).chain (quiet_modPort _ p _), rfl, by rw [hport], ?_, ?_, ?_⟩
  · rw [hport]
    exact congrArg (s.d.now + ·) hcfg
  · rw [Dev.canSend, hport]
    simp [stop]
  · exact rd_bump_self s.d _

theorem does_pauseRx_zero {p : NetPort} {s : State} (hlen : portIx p < s.d.net.ports.length) (hflow : s.d.flow p = 1) :
    Does (.pauseRx p 0) s fun d => Quiet s.d d ∧ (nth d.net.ports (portIx p)).paused = false := by
  let resumed := (s.d.bump (Reg.NET_P_PAUSE_RX_CNT (portIx p))).modPort p fun q => { q with paused := false }
  have hexec : exec (.pauseRx p 0) s = .next { s with d := resumed.drain p } := by
    show execPauseRx p 0 s = _
    rw [execPauseRx, onDev_next, if_pos hflow]
    rfl
  have hport : (nth resumed.net.ports (portIx p)).paused = false := by
    rw [show nth resumed.net.ports (portIx p) = _ from port_modPort hlen _]
  exact ⟨_, hexec, ((quiet_bump _ _ (pauseRx_page p)).chain (quiet_modPort _ p _)).chain (quiet_drain _ p),
    (congrArg Prod.fst (drain_flow resumed p (portIx p))).trans hport⟩

theorem does_pauseRx_off {p : NetPort} {q : Nat} {s : State} (hflow : s.d.flow p ≠ 1) :
    Does (.pauseRx p q) s fun d => d = s.d.bump (Reg.NET_P_RX_DROP_CNT (portIx p)) := by
  have hexec : exec (.pauseRx p q) s = .next { s with d := s.d.bump (Reg.NET_P_RX_DROP_CNT (portIx p)) } := by
    show execPauseRx p q s = _
    rw [execPauseRx, onDev_next, if_neg hflow]
  exact ⟨_, hexec, rfl⟩

theorem does_pauseExpire_none {p : NetPort} {s : State} (h : (nth s.d.net.ports (portIx p)).ends = []) :
    Does (.pauseExpire p) s fun d => d = s.d := by
  have hexec : exec (.pauseExpire p) s = .next { s with d := s.d } := by
    show execPauseExpire p s = _
    rw [execPauseExpire, onDev_next]
    simp only [h]
  exact ⟨_, hexec, rfl⟩

/-- Clearing the bits of a list clears those and no others. -/
theorem bit_foldl_clrBit (l : List (Nat × Nat)) (n i : Nat) :
    bit (l.foldl (fun m x => clrBit m x.1) n) i = (bit n i && !l.any (fun y => y.1 == i)) := by
  induction l generalizing n with
  | nil => simp
  | cons x l ih =>
    rw [List.foldl_cons, ih, List.any_cons]
    by_cases hx : x.1 = i
    · rw [hx, bit_clrBit]
      simp
    · rw [bit_clrBit_ne _ (Ne.symm hx), beq_eq_false_iff_ne.mpr hx, Bool.false_or]

theorem expire_pfc (q : Port) (now i : Nat) :
    bit (q.expire now).pfc i = (bit q.pfc i && !q.pfcTill.any (fun y => y.1 == i && decide (y.2 ≤ now))) := by
  rw [Port.expire, bit_foldl_clrBit, List.any_filter]
  simp only [Bool.and_comm]

theorem does_pauseExpire {p : NetPort} {e : Nat} {l : List Nat} {s : State} (hlen : portIx p < s.d.net.ports.length)
    (h : (nth s.d.net.ports (portIx p)).ends = e :: l) :
    Does (.pauseExpire p) s fun d =>
      Quiet (s.d.until_ (l.foldl min e)) d ∧
      (nth d.net.ports (portIx p)).paused =
        ((nth s.d.net.ports (portIx p)).paused && decide (d.now < (nth s.d.net.ports (portIx p)).pausedTill)) ∧
      (nth d.net.ports (portIx p)).pfcTill = (nth s.d.net.ports (portIx p)).pfcTill.filter (fun x => decide (d.now < x.2)) ∧
      ∀ x, x < 8 → bit (nth d.net.ports (portIx p)).pfc x = (bit (nth s.d.net.ports (portIx p)).pfc x &&
        !(nth s.d.net.ports (portIx p)).pfcTill.any (fun y => y.1 == x && decide (y.2 ≤ d.now))) := by
  let late := s.d.until_ (l.foldl min e)
  let expired := late.modPort p fun q => q.expire late.now
  have hexec : exec (.pauseExpire p) s = .next { s with d := expired.drain p } := by
    show execPauseExpire p s = _
    rw [execPauseExpire, onDev_next]
    simp only [h]
    rfl
  have hquiet : Quiet late (expired.drain p) := (quiet_modPort late p _).chain (quiet_drain _ p)
  have hflow := drain_flow expired p (portIx p)
  have hport : nth expired.net.ports (portIx p) = (nth s.d.net.ports (portIx p)).expire late.now := port_modPort hlen _
  rw [hport] at hflow
  refine ⟨_, hexec, hquiet, ?_, ?_, fun x _ => ?_⟩
  · rw [hquiet.now]
    exact congrArg Prod.fst hflow
  · rw [hquiet.now]
    exact congrArg (fun x => x.2.2.2.1) hflow
  · rw [hquiet.now, show (nth (expired.drain p).net.ports (portIx p)).pfc = _ from congrArg (fun x => x.2.2.1) hflow]
    exact expire_pfc _ _ _

/-! PFC (R363). -/

theorem pfcTx_page (p : NetPort) : Reg.NET_P_PFC_TX_CNT (portIx p) / 65536 = 12 := by cases p <;> rfl

/-- A port after a PFC frame for priority `x`: it stops until an instant, or resumes. -/
def Port.pfcSet (q : Port) (x n till : Nat) : Port :=
  if n = 0 then { q with pfc := clrBit q.pfc x, pfcTill := q.pfcTill.filter (fun y => y.1 != x) }
  else { q with pfc := setBit q.pfc x, pfcTill := q.pfcTill.filter (fun y => y.1 != x) ++ [(x, till)] }

theorem pfcSet_bit (q : Port) (x n till : Nat) : bit (q.pfcSet x n till).pfc x = decide (n ≠ 0) := by
  unfold Port.pfcSet
  split
  · next h =>
    rw [decide_eq_false (not_not.mpr h)]
    exact bit_clrBit _ _
  · next h =>
    rw [decide_eq_true h]
    exact bit_setBit _ _

theorem pfcSet_till (q : Port) {x n : Nat} (till : Nat) (hn : n ≠ 0) : (x, till) ∈ (q.pfcSet x n till).pfcTill := by
  rw [Port.pfcSet, if_neg hn]
  exact List.mem_append_right _ (List.mem_singleton_self _)

theorem pfcSet_paused (q : Port) (x n till : Nat) : (q.pfcSet x n till).paused = q.paused := by
  unfold Port.pfcSet
  split <;> rfl

theorem does_pfcRx {p : NetPort} {x q : Nat} {s : State} (hlen : portIx p < s.d.net.ports.length) (hflow : s.d.flow p = 2)
    (hp : p ≠ .sgmii) (hx : x < 8) (hen : bit (s.d.rf (Reg.NET_P_PFC (portIx p)) 7 0) x = true) :
    Does (.pfcRx p [(x, q)]) s fun d => Quiet s.d d ∧
      bit (nth d.net.ports (portIx p)).pfc x = decide (q ≠ 0) ∧
      (q ≠ 0 → (x, s.d.now + s.d.quanta p q) ∈ (nth d.net.ports (portIx p)).pfcTill) ∧
      (nth d.net.ports (portIx p)).paused = (nth s.d.net.ports (portIx p)).paused := by
  let set := (s.d.bump (Reg.NET_P_PAUSE_RX_CNT (portIx p))).modPort p fun y => y.pfcSet x q (s.d.now + s.d.quanta p q)
  have hexec : exec (.pfcRx p [(x, q)]) s = .next { s with d := set.drain p } := by
    show execPfcRx p [(x, q)] s = _
    rw [execPfcRx, onDev_next, if_pos ⟨hflow, hp⟩]
    simp only [List.foldl_cons, List.foldl_nil, hen, decide_eq_true hx, Bool.and_self, if_true]
    rfl
  have hport : nth set.net.ports (portIx p) = (nth s.d.net.ports (portIx p)).pfcSet x q (s.d.now + s.d.quanta p q) :=
    port_modPort hlen _
  have hkept := drain_flow set p (portIx p)
  rw [hport] at hkept
  have hpfc : (nth (set.drain p).net.ports (portIx p)).pfc = _ := congrArg (fun y => y.2.2.1) hkept
  have htill : (nth (set.drain p).net.ports (portIx p)).pfcTill = _ := congrArg (fun y => y.2.2.2.1) hkept
  refine ⟨_, hexec, ((quiet_bump _ _ (pauseRx_page p)).chain (quiet_modPort _ p _)).chain (quiet_drain _ p), ?_,
    fun hq => ?_, (congrArg Prod.fst hkept).trans (pfcSet_paused _ _ _ _)⟩
  · rw [hpfc]
    exact pfcSet_bit _ _ _ _
  · rw [htill]
    exact pfcSet_till _ _ hq

/-- XOFF, or XON, goes out for a priority of a port. -/
def Dev.pfcTold (d : Dev) (p : NetPort) (x : Nat) (off : Bool) : Dev :=
  (((d.emit (.pfc p x off)).bump (Reg.NET_P_TX_FRAME_CNT (portIx p))).bump (Reg.NET_P_PFC_TX_CNT (portIx p))).modPort p
    fun q => { q with xoff := if off then setBit q.xoff x else clrBit q.xoff x }

theorem quiet_pfcTold (d : Dev) (p : NetPort) (x : Nat) (off : Bool) : Quiet d (d.pfcTold p x off) :=
  (((quiet_emit d _).chain (quiet_bump _ _ (netTx_page p))).chain (quiet_bump _ _ (pfcTx_page p))).chain
    (quiet_modPort _ p _)

theorem pfcTold_xoff {d : Dev} {p : NetPort} (hlen : portIx p < d.net.ports.length) (x : Nat) (off : Bool) :
    bit (nth (d.pfcTold p x off).net.ports (portIx p)).xoff x = off := by
  rw [show nth (d.pfcTold p x off).net.ports (portIx p) = _ from port_modPort hlen _]
  cases off
  · exact bit_clrBit _ _
  · exact bit_setBit _ _

theorem pfcTold_count (d : Dev) (p : NetPort) (x : Nat) (off : Bool) :
    (d.pfcTold p x off).rd (Reg.NET_P_PFC_TX_CNT (portIx p)) = min 0xFFFFFFFF (d.rd (Reg.NET_P_PFC_TX_CNT (portIx p)) + 1) := by
  have hne : Reg.NET_P_PFC_TX_CNT (portIx p) ≠ Reg.NET_P_TX_FRAME_CNT (portIx p) := by cases p <;> decide
  have hcount := rd_bump_self ((d.emit (.pfc p x off)).bump (Reg.NET_P_TX_FRAME_CNT (portIx p))) (Reg.NET_P_PFC_TX_CNT (portIx p))
  rw [rd_bump_ne _ hne] at hcount
  exact hcount

theorem does_pfcXoff {p : NetPort} {x q : Nat} {s : State} (hlen : portIx p < s.d.net.ports.length) (hflow : s.d.flow p = 2)
    (hp : p ≠ .sgmii) (hx : x < 8) (hserved : s.d.served = true) (hen : bit (s.d.rf (Reg.NET_P_PFC (portIx p)) 15 8) x = true)
    (hq : 0x80000 ≤ q) (hoff : bit (nth s.d.net.ports (portIx p)).xoff x = false) :
    Does (.pfcXoffTx p x q) s fun d => Quiet s.d d ∧ d.tx = .pfc p x true :: s.d.tx ∧
      bit (nth d.net.ports (portIx p)).xoff x = true ∧
      d.rd (Reg.NET_P_PFC_TX_CNT (portIx p)) = min 0xFFFFFFFF (s.d.rd (Reg.NET_P_PFC_TX_CNT (portIx p)) + 1) := by
  have hexec : exec (.pfcXoffTx p x q) s = .next { s with d := s.d.pfcTold p x true } := by
    show execPfcXoffTx p x q s = _
    rw [execPfcXoffTx, onDev_next, if_pos ⟨hserved, hflow, hp, hx⟩]
    dsimp only
    rw [if_pos (by rw [hen, hoff, decide_eq_true hq]; rfl)]
    rfl
  exact ⟨_, hexec, quiet_pfcTold _ _ _ _, rfl, pfcTold_xoff hlen x true, pfcTold_count _ _ _ _⟩

theorem does_pfcXon {p : NetPort} {x q : Nat} {s : State} (hlen : portIx p < s.d.net.ports.length) (hflow : s.d.flow p = 2)
    (hp : p ≠ .sgmii) (hx : x < 8) (hserved : s.d.served = true) (hq : q < 0x40000)
    (hoff : bit (nth s.d.net.ports (portIx p)).xoff x = true) :
    Does (.pfcXoffTx p x q) s fun d => Quiet s.d d ∧ d.tx = .pfc p x false :: s.d.tx ∧
      bit (nth d.net.ports (portIx p)).xoff x = false := by
  have hlow : ¬ 0x80000 ≤ q := by omega
  have hexec : exec (.pfcXoffTx p x q) s = .next { s with d := s.d.pfcTold p x false } := by
    show execPfcXoffTx p x q s = _
    rw [execPfcXoffTx, onDev_next, if_pos ⟨hserved, hflow, hp, hx⟩]
    dsimp only
    rw [if_neg (by rw [decide_eq_false hlow]; simp), if_pos (by rw [hoff, decide_eq_true hq]; rfl)]
    rfl
  exact ⟨_, hexec, quiet_pfcTold _ _ _ _, rfl, pfcTold_xoff hlen x false⟩

/-! Address resolution and echo (R367). -/

/-- A frame taken moves no word of a port's addresses, and none that sending reads. -/
theorem rxFrame_rd (d : Dev) (p : NetPort) {a : Nat} (ha : counted a = false) : (d.rxFrame p).rd a = d.rd a :=
  rd_bump_ne d (ne_rxFrame ha p)

theorem quiet_rxFrame (d : Dev) (p : NetPort) : Quiet d (d.rxFrame p) := quiet_bump d _ (netRx_page p)

theorem addr_counted (p : NetPort) : counted (Reg.NET_P_IP4 (portIx p)) = false ∧
    counted (Reg.NET_P_IP4_PFX (portIx p)) = false ∧ counted (Reg.NET_P_GW4 (portIx p)) = false ∧
    counted (Reg.NET_P_IP6_PFX (portIx p)) = false ∧ (∀ j < 4, counted (Reg.NET_P_IP6 (portIx p) j) = false) ∧
    (∀ j < 4, counted (Reg.NET_P_GW6 (portIx p) j) = false) ∧ counted (Reg.NET_P_STAT (portIx p)) = false ∧
    counted (Reg.NET_P_PCP (portIx p)) = false := by
  cases p <;> decide

theorem words128_congr {d e : Dev} {w : Nat → Nat} (h : ∀ j < 4, e.rd (w j) = d.rd (w j)) : e.words128 w = d.words128 w := by
  simp only [Dev.words128, List.range_succ, List.range_zero, List.nil_append, List.cons_append, List.foldl_cons,
    List.foldl_nil, h 0 (by decide), h 1 (by decide), h 2 (by decide), h 3 (by decide)]

theorem rxFrame_ip6 (d : Dev) (p q : NetPort) : (d.rxFrame p).ip6 q = d.ip6 q := by
  obtain ⟨-, -, -, -, hip6, -⟩ := addr_counted q
  exact words128_congr fun j hj => rxFrame_rd d p (hip6 j hj)

theorem rxFrame_ownAddr (d : Dev) (p : NetPort) (t : Nat) : (d.rxFrame p).ownAddr p t = d.ownAddr p t := by
  obtain ⟨hip4, -⟩ := addr_counted p
  rw [Dev.ownAddr, rxFrame_rd d p hip4, rxFrame_ip6, Dev.ownAddr]

theorem rxFrame_nextHop (d : Dev) (p : NetPort) (ip : Nat) : (d.rxFrame p).nextHop p ip = d.nextHop p ip := by
  obtain ⟨hip4, hpfx, hgw4, hpfx6, -, hgw6, -⟩ := addr_counted p
  have hgw : (d.rxFrame p).words128 (Reg.NET_P_GW6 (portIx p)) = d.words128 (Reg.NET_P_GW6 (portIx p)) :=
    words128_congr fun j hj => rxFrame_rd d p (hgw6 j hj)
  simp only [Dev.nextHop, rxFrame_rd d p hip4, rxFrame_rd d p hpfx, rxFrame_rd d p hgw4, rxFrame_rd d p hpfx6, hgw,
    rxFrame_ip6]

theorem rxFrame_canSend (d : Dev) (p : NetPort) (c : Nat) : (d.rxFrame p).canSend p c = d.canSend p c := by
  obtain ⟨-, -, -, -, -, -, hstat, hpcp⟩ := addr_counted p
  have hlink : (d.rxFrame p).link p = d.link p := by rw [Dev.link, rxFrame_rd d p hstat, Dev.link]
  have hprio : (d.rxFrame p).pcp p c = d.pcp p c := by rw [Dev.pcp, rxFrame_rd d p hpcp, Dev.pcp]
  rw [Dev.canSend, hlink, hprio]
  rfl

/-- What resolves a hop is sent whatever frames have been counted. -/
theorem resolve_tx (d e : Dev) (p : NetPort) (hop : Option Nat) (hnet : e.net = d.net) (htx : e.tx = d.tx) :
    (e.resolve p hop).tx = (d.resolve p hop).tx := by
  unfold Dev.resolve
  cases hop with
  | none => exact htx
  | some ip =>
    dsimp only
    rw [hnet]
    split
    · exact htx
    · exact congrArg (_ :: ·) htx

theorem rxFrame_net (d : Dev) (p : NetPort) : (d.rxFrame p).net = d.net ∧ (d.rxFrame p).tx = d.tx := by
  simp only [Dev.rxFrame, Dev.bump_fields, and_self]

/-- A message without an address to resolve goes out alone. -/
theorem send_rx_unresolved {d : Dev} {p : NetPort} {o : Out} (hsend : d.canSend p 1 = true)
    (hdst : (d.rxFrame p).ipDst o = none) : ((d.rxFrame p).send p 1 o).tx = o :: d.tx := by
  rw [send_tx ((rxFrame_canSend d p 1).trans hsend), Dev.resolved, hdst]
  exact congrArg (o :: ·) (rxFrame_net d p).2

theorem does_unanswered {c : Instr} {p : NetPort} {s : State} (h : exec c s = .next { s with d := s.d.rxFrame p }) :
    Does c s fun d => Quiet s.d d ∧ d.tx = s.d.tx :=
  ⟨_, h, quiet_rxFrame _ _, (rxFrame_net _ _).2⟩

theorem does_answered {c : Instr} {p : NetPort} {o : Out} {s : State} (hsend : s.d.canSend p 1 = true)
    (hdst : (s.d.rxFrame p).ipDst o = none) (h : exec c s = .next { s with d := (s.d.rxFrame p).send p 1 o }) :
    Does c s fun d => Quiet s.d d ∧ d.tx = o :: s.d.tx :=
  ⟨_, h, (quiet_rxFrame _ _).chain (quiet_send _ _ _ _), send_rx_unresolved hsend hdst⟩

/-- The device after an ARP request for the address `t`. -/
def Dev.arpAnswered (d : Dev) (p : NetPort) (e : Endpoint) (t : Nat) : Dev :=
  if d.served && d.rd (Reg.NET_P_IP4 (portIx p)) != 0 && t == d.rd (Reg.NET_P_IP4 (portIx p)) then
    (d.rxFrame p).send p 1 (.arpReply p e t)
  else d.rxFrame p

/-- The device after a neighbour solicitation for the address `t`. -/
def Dev.ndAnswered (d : Dev) (p : NetPort) (e : Endpoint) (t : Nat) : Dev :=
  if d.served && (t == linkLocal p || (d.ip6 p != 0 && t == d.ip6 p)) then (d.rxFrame p).send p 1 (.ndAdvert p e t)
  else d.rxFrame p

/-- The device after an echo request to the address `t`. -/
def Dev.echoAnswered (d : Dev) (p : NetPort) (e : Endpoint) (t : Nat) (x : List Byte) : Dev :=
  if d.served && d.ownAddr p t && decide (x.length ≤ 1472) then (d.rxFrame p).send p 1 (.echoReply p e x)
  else d.rxFrame p

section Answers
variable {p : NetPort} {e : Endpoint} {s : State}

theorem exec_arpRequest (t : Nat) : exec (.arpRequest p e t) s = .next { s with d := s.d.arpAnswered p e t } := by
  obtain ⟨hip4, -⟩ := addr_counted p
  show execArpRequest p e t s = _
  rw [execArpRequest, onDev_next]
  simp only [rxFrame_rd s.d p hip4]
  rfl

theorem exec_ndSolicit (t : Nat) : exec (.ndSolicit p e t) s = .next { s with d := s.d.ndAnswered p e t } := by
  show execNdSolicit p e t s = _
  rw [execNdSolicit, onDev_next]
  simp only [rxFrame_ip6]
  rfl

theorem exec_icmpEcho (t : Nat) (x : List Byte) :
    exec (.icmpEcho p ⟨e, t⟩ x) s = .next { s with d := s.d.echoAnswered p e t x } := by
  show execIcmpEcho p ⟨e, t⟩ x s = _
  rw [execIcmpEcho, onDev_next]
  simp only [rxFrame_ownAddr]
  rfl

theorem does_arpRequest (hserved : s.d.served = true) (hsend : s.d.canSend p 1 = true)
    (hip : s.d.rd (Reg.NET_P_IP4 (portIx p)) ≠ 0) :
    Does (.arpRequest p e (s.d.rd (Reg.NET_P_IP4 (portIx p)))) s fun d => Quiet s.d d ∧
      d.tx = .arpReply p e (s.d.rd (Reg.NET_P_IP4 (portIx p))) :: s.d.tx := by
  have hexec := exec_arpRequest (p := p) (e := e) (s := s) (s.d.rd (Reg.NET_P_IP4 (portIx p)))
  rw [Dev.arpAnswered, if_pos (by rw [hserved]; simp [hip])] at hexec
  exact does_answered hsend rfl hexec

theorem does_arpRequest_other {t : Nat} (ht : t ≠ s.d.rd (Reg.NET_P_IP4 (portIx p))) :
    Does (.arpRequest p e t) s fun d => Quiet s.d d ∧ d.tx = s.d.tx := by
  have hexec := exec_arpRequest (p := p) (e := e) (s := s) t
  rw [Dev.arpAnswered, if_neg (by simp [ht])] at hexec
  exact does_unanswered hexec

theorem does_ndSolicit {t : Nat} (hserved : s.d.served = true) (hsend : s.d.canSend p 1 = true)
    (ht : t = linkLocal p ∨ s.d.ip6 p ≠ 0 ∧ t = s.d.ip6 p) :
    Does (.ndSolicit p e t) s fun d => Quiet s.d d ∧ d.tx = .ndAdvert p e t :: s.d.tx := by
  have hexec := exec_ndSolicit (p := p) (e := e) (s := s) t
  rw [Dev.ndAnswered, if_pos (by rw [hserved]; simpa using ht)] at hexec
  exact does_answered hsend rfl hexec

theorem does_ndSolicit_other {t : Nat} (hlocal : t ≠ linkLocal p) (hglobal : t ≠ s.d.ip6 p) :
    Does (.ndSolicit p e t) s fun d => Quiet s.d d ∧ d.tx = s.d.tx := by
  have hexec := exec_ndSolicit (p := p) (e := e) (s := s) t
  rw [Dev.ndAnswered, if_neg (by simp [hlocal, hglobal])] at hexec
  exact does_unanswered hexec

theorem does_icmpEcho {t : Nat} {x : List Byte} (hserved : s.d.served = true) (hsend : s.d.canSend p 1 = true)
    (hown : s.d.ownAddr p t = true) (hx : x.length ≤ 1472) :
    Does (.icmpEcho p ⟨e, t⟩ x) s fun d => Quiet s.d d ∧ d.tx = .echoReply p e x :: s.d.resolved p (.echoReply p e x) := by
  have hexec := exec_icmpEcho (p := p) (e := e) (s := s) t x
  rw [Dev.echoAnswered, if_pos (by rw [hserved, hown, decide_eq_true hx]; rfl)] at hexec
  refine ⟨_, hexec, (quiet_rxFrame _ _).chain (quiet_send _ _ _ _), ?_⟩
  obtain ⟨hnet, htx⟩ := rxFrame_net s.d p
  have hhop : (s.d.rxFrame p).resolved p (.echoReply p e x) = s.d.resolved p (.echoReply p e x) := by
    rw [Dev.resolved, resolve_tx s.d _ _ _ hnet htx]
    simp only [Dev.ipDst, Option.map_some, rxFrame_nextHop, Dev.resolved]
  rw [send_tx ((rxFrame_canSend s.d p 1).trans hsend), hhop]

theorem does_icmpEcho_other {t : Nat} {x : List Byte} (h : s.d.ownAddr p t = false ∨ 1472 < x.length) :
    Does (.icmpEcho p ⟨e, t⟩ x) s fun d => Quiet s.d d ∧ d.tx = s.d.tx := by
  have hexec := exec_icmpEcho (p := p) (e := e) (s := s) t x
  rw [Dev.echoAnswered, if_neg (by rcases h with h | h <;> simp [h])] at hexec
  exact does_unanswered hexec

end Answers

/-! Reassembly (R368). -/

/-- A reassembly that the table does not hold leaves it as it is. -/
theorem dropReasm_none {d : Dev} {k : Nat} (h : ∀ r ∈ d.net.reasm, r.key ≠ k) : d.dropReasm k = d := by
  have hkeep : d.net.reasm.filter (fun r => r.key != k) = d.net.reasm :=
    List.filter_eq_self.mpr fun r hr => bne_iff_ne.mpr (h r hr)
  rw [Dev.dropReasm, hkeep]

theorem covers_whole (x : List Byte) : covers [(0, x)] (0 + x.length) = true := by simp [covers]

section Reassembly
variable {p : NetPort} {k : Nat} {x : List Byte} {s : State}

/-- The device that a fragment of a datagram not yet in the table leaves, behind the frame's count. -/
def Dev.fragmented (d : Dev) (k o : Nat) (last : Bool) (x : List Byte) : Dev :=
  if 32 ≤ d.net.reasm.length then d.bump Reg.NET_REASM_DROP_CNT
  else if last then d.bump Reg.NET_REASM_CNT
  else { d with net := { d.net with reasm := d.net.reasm ++ [⟨k, [(o, x)], none⟩] } }

theorem exec_ipFragment {o : Nat} {last : Bool} (hserved : s.d.served = true) (hnew : ∀ r ∈ s.d.net.reasm, r.key ≠ k)
    (hlen : o + x.length ≤ 8220) (hlast : last = true → o = 0) :
    exec (.ipFragment p k 49430 o last x) s = .next { s with d := (s.d.rxFrame p).fragmented k o last x } := by
  have hnet := (rxFrame_net s.d p).1
  have hfree : ∀ r ∈ (s.d.rxFrame p).net.reasm, r.key ≠ k := by rwa [hnet]
  have hfind : (s.d.rxFrame p).net.reasm.find? (fun r => r.key == k) = none :=
    List.find?_eq_none.mpr fun r hr => by simpa using hfree r hr
  have hshort : ¬ 8212 + 8 < o + x.length := by omega
  show execIpFragment p k 49430 o last x s = _
  rw [execIpFragment, onDev_next, if_neg (by rw [hserved]; decide)]
  dsimp only
  rw [if_neg (by decide), hfind, dropReasm_none hfree, if_neg hshort, Dev.fragmented]
  by_cases hfull : 32 ≤ (s.d.rxFrame p).net.reasm.length
  · rw [if_pos hfull, if_pos (by rw [decide_eq_true hfull]; rfl)]
  · rw [if_neg hfull, if_neg (by rw [decide_eq_false hfull]; decide)]
    cases last with
    | false => rfl
    | true =>
      rw [hlast rfl, if_pos rfl]
      dsimp only
      exact congrArg (fun d => Host.Outcome.next { s with d := d }) (if_pos (covers_whole x))

theorem does_ipFragment_first {o : Nat} (hserved : s.d.served = true) (hnew : ∀ r ∈ s.d.net.reasm, r.key ≠ k)
    (hlen : o + x.length ≤ 8220) (hroom : s.d.net.reasm.length < 32) :
    Does (.ipFragment p k 49430 o false x) s fun d => d.net.reasm = s.d.net.reasm ++ [⟨k, [(o, x)], none⟩] ∧
      Quiet { s.d with net := { s.d.net with reasm := d.net.reasm } } d := by
  have hnet := (rxFrame_net s.d p).1
  have hexec := exec_ipFragment (p := p) hserved hnew hlen (last := false) (fun h => nomatch h)
  rw [Dev.fragmented, if_neg (by rw [hnet]; omega), if_neg (by decide), hnet] at hexec
  refine ⟨_, hexec, rfl, ?_⟩
  simp only [Dev.rxFrame]
  exact quiet_bump { s.d with net := { s.d.net with reasm := s.d.net.reasm ++ [⟨k, [(o, x)], none⟩] } } _ (netRx_page p)

theorem does_ipFragment_whole (hserved : s.d.served = true) (hnew : ∀ r ∈ s.d.net.reasm, r.key ≠ k)
    (hlen : x.length ≤ 8220) (hroom : s.d.net.reasm.length < 32) :
    Does (.ipFragment p k 49430 0 true x) s fun d => d.net.reasm = s.d.net.reasm ∧
      d.rd Reg.NET_REASM_CNT = min 0xFFFFFFFF (s.d.rd Reg.NET_REASM_CNT + 1) ∧ Quiet s.d d := by
  have hnet := (rxFrame_net s.d p).1
  have hexec := exec_ipFragment (p := p) hserved hnew (o := 0) (by rwa [Nat.zero_add]) (last := true) (fun _ => rfl)
  rw [Dev.fragmented, if_neg (by rw [hnet]; omega), if_pos rfl] at hexec
  refine ⟨_, hexec, by simp only [Dev.bump_fields, hnet], ?_, (quiet_rxFrame s.d p).chain (quiet_bump _ _ rfl)⟩
  rw [← rxFrame_rd s.d p (a := Reg.NET_REASM_CNT) rfl]
  exact rd_bump_self _ _

theorem does_ipFragment_full {o : Nat} (hserved : s.d.served = true) (hnew : ∀ r ∈ s.d.net.reasm, r.key ≠ k)
    (hlen : o + x.length ≤ 8220) (hfull : 32 ≤ s.d.net.reasm.length) :
    Does (.ipFragment p k 49430 o false x) s fun d => d.net.reasm = s.d.net.reasm ∧
      d.rd Reg.NET_REASM_DROP_CNT = min 0xFFFFFFFF (s.d.rd Reg.NET_REASM_DROP_CNT + 1) ∧ Quiet s.d d := by
  have hnet := (rxFrame_net s.d p).1
  have hexec := exec_ipFragment (p := p) hserved hnew hlen (last := false) (fun h => nomatch h)
  rw [Dev.fragmented, if_pos (by rwa [hnet])] at hexec
  refine ⟨_, hexec, by simp only [Dev.bump_fields, hnet], ?_, (quiet_rxFrame s.d p).chain (quiet_bump _ _ rfl)⟩
  rw [← rxFrame_rd s.d p (a := Reg.NET_REASM_DROP_CNT) rfl]
  exact rd_bump_self _ _

theorem does_reasmTimeout (h : s.d.net.reasm.any (fun r => r.key == k) = true) :
    Does (.reasmTimeout k) s fun d => d.net.reasm = s.d.net.reasm.filter (fun r => r.key != k) ∧
      d.rd Reg.NET_REASM_DROP_CNT = min 0xFFFFFFFF (s.d.rd Reg.NET_REASM_DROP_CNT + 1) ∧
      Quiet { s.d with net := { s.d.net with reasm := d.net.reasm } } d := by
  have hexec : exec (.reasmTimeout k) s = .next { s with d := (s.d.dropReasm k).bump Reg.NET_REASM_DROP_CNT } := by
    show execReasmTimeout k s = _
    rw [execReasmTimeout, onDev_next, if_pos h]
  have hreasm : ((s.d.dropReasm k).bump Reg.NET_REASM_DROP_CNT).net.reasm = s.d.net.reasm.filter (fun r => r.key != k) := by
    simp only [Dev.bump_fields, Dev.dropReasm]
  refine ⟨_, hexec, hreasm, rd_bump_self (s.d.dropReasm k) _, ?_⟩
  rw [hreasm]
  exact quiet_bump _ _ rfl

end Reassembly

/-- Settles O45: link, drop, PAUSE, PFC, answer and reassembly clauses each from the command's own lemma above. -/
theorem portsAndAnswers : Obligations.PortsAndAnswers := by
  unfold Obligations.PortsAndAnswers
  refine ⟨fun p v s hmode hen => does_netLinkUp hmode hen, fun p s hlink => does_netLinkDown hlink,
    fun f s => ⟨accepts_false, does_netFrameDrop_refused, fun u h hu hno => does_netFrameDrop_unserved h hu hno⟩,
    fun p q s hlen => ⟨fun hflow hq => does_pauseRx hlen hflow hq, fun hflow => does_pauseRx_zero hlen hflow,
      fun hflow => does_pauseRx_off hflow, does_pauseExpire_none, fun e l h => does_pauseExpire hlen h⟩,
    fun p x q s hlen hflow hp hx => ⟨fun hen => does_pfcRx hlen hflow hp hx hen,
      fun hserved hen hq hoff => does_pfcXoff hlen hflow hp hx hserved hen hq hoff,
      fun hserved hq hoff => does_pfcXon hlen hflow hp hx hserved hq hoff⟩,
    fun p e s hserved hsend => ⟨fun hip => does_arpRequest hserved hsend hip, fun t ht => does_arpRequest_other ht,
      does_ndSolicit hserved hsend (.inl rfl), fun hip => does_ndSolicit hserved hsend (.inr ⟨hip, rfl⟩),
      fun t hlocal hglobal => does_ndSolicit_other hlocal hglobal,
      fun x t hown hx => does_icmpEcho hserved hsend hown hx, fun x t h => does_icmpEcho_other h⟩,
    fun p k o x s hserved hnew hlen => ⟨fun hroom => ⟨does_ipFragment_first hserved hnew hlen hroom,
      does_ipFragment_whole hserved hnew (by omega) hroom⟩, fun hfull => does_ipFragment_full hserved hnew hlen hfull⟩,
    fun k s h => does_reasmTimeout h⟩

end Sys2Proof.Machine
end

section
/-! PROOFS. FAULT_CLEAR and leaving SAFE (R401). -/

namespace Sys2Proof.Machine

open Sys2Proof

/-! What an answer keeps on the record. -/

theorem keepsSent_sendReply (d : Dev) (dst : Endpoint) (port : NetPort) (n : Nat) (q : Word) (op st : Nat) (b : List Byte) :
    KeepsSent d (d.sendReply dst port n q op st b) := by
  unfold Dev.sendReply
  exact KeepsSent.foldl (fun d _ => keepsSent_send d port 1 _) _ _

theorem keepsSent_answer (d : Dev) (h : Req) (op st : Nat) (b : List Byte) : KeepsSent d (d.answer h op st b) := by
  have hcount : KeepsSent d ((d.bumpIf (decide (0x200 ≤ st)) Reg.NET_SKM_ERR_CNT).modSes h.session
      fun x => { x with cache := (⟨h.seq, op, st, b⟩ :: x.cache).take 16 }) := by
    cases decide (0x200 ≤ st) <;> exact KeepsSent.refl d
  unfold Dev.answer
  dsimp only
  split
  · exact hcount.trans (keepsSent_sendReply _ _ _ _ _ _ _ _)
  · exact hcount

/-! The words of a wear rotation and of the SAFE causes are apart. -/

theorem litMin_ne_cause (n : Nat) : Reg.FLT_SAFE_CAUSE ≠ Reg.LMP_C_LIT_MIN n := by
  unfold Reg.FLT_SAFE_CAUSE Reg.LMP_C_LIT_MIN; omega

theorem rotMin_ne_cause (n : Nat) : Reg.FLT_SAFE_CAUSE ≠ Reg.LMP_C_ROT_MIN n := by
  unfold Reg.FLT_SAFE_CAUSE Reg.LMP_C_ROT_MIN; omega

theorem litMin_ne_proof (n : Nat) : Reg.LMP_PROOF_CNT ≠ Reg.LMP_C_LIT_MIN n := by
  unfold Reg.LMP_PROOF_CNT Reg.LMP_C_LIT_MIN; omega

theorem rotMin_ne_proof (n : Nat) : Reg.LMP_PROOF_CNT ≠ Reg.LMP_C_ROT_MIN n := by
  unfold Reg.LMP_PROOF_CNT Reg.LMP_C_ROT_MIN; omega

theorem lit_rd (d : Dev) (n cyc : Nat) {a : Nat} (hl : a ≠ Reg.LMP_C_LIT_MIN n) (hr : a ≠ Reg.LMP_C_ROT_MIN n) :
    (d.lit n cyc).rd a = d.rd a := by
  unfold Dev.lit
  dsimp only
  split
  · rfl
  · rw [rd_bumpBy_ne _ _ hr, rd_bumpBy_ne _ _ hl]
    rfl

/-- Lit time concerns its chain and the words that count it. -/
theorem lit_eq (d : Dev) (n cyc : Nat) :
    d.lit n cyc = { d with regs := (d.lit n cyc).regs, lamp := (d.lit n cyc).lamp } := by
  unfold Dev.lit
  dsimp only
  split <;> rfl

/-! The clear actions. -/

/-- The clear actions change the lamps, the cores that calibrate, the axes, recoveries and counters, and none of these. -/
structure Clearing (d e : Dev) : Prop where
  now : e.now = d.now
  mode : e.mode = d.mode
  hold : e.hold = d.hold
  sess : e.sess = d.sess
  ops : e.ops = d.ops
  seq : e.seq = d.seq
  cal : e.cal = d.cal
  tim : e.tim = d.tim
  fsram : e.fsram = d.fsram
  l2run : e.flt.l2run = d.flt.l2run
  log : e.flt.log = d.flt.log
  acts : e.flt.acts = d.flt.acts
  clr : e.flt.lampClr = d.flt.lampClr
  cause : e.rd Reg.FLT_SAFE_CAUSE = d.rd Reg.FLT_SAFE_CAUSE
  sent : KeepsSent d e

theorem Clearing.refl (d : Dev) : Clearing d d := by
  constructor
  all_goals first | rfl | exact KeepsSent.refl d

theorem Clearing.trans {a b c : Dev} (h : Clearing a b) (g : Clearing b c) : Clearing a c where
  now := g.now.trans h.now
  mode := g.mode.trans h.mode
  hold := g.hold.trans h.hold
  sess := g.sess.trans h.sess
  ops := g.ops.trans h.ops
  seq := g.seq.trans h.seq
  cal := g.cal.trans h.cal
  tim := g.tim.trans h.tim
  fsram := g.fsram.trans h.fsram
  l2run := g.l2run.trans h.l2run
  log := g.log.trans h.log
  acts := g.acts.trans h.acts
  clr := g.clr.trans h.clr
  cause := g.cause.trans h.cause
  sent := h.sent.trans g.sent

theorem Clearing.foldl {α : Type} {f : Dev → α → Dev} (hf : ∀ d x, Clearing d (f d x)) (l : List α) (d : Dev) :
    Clearing d (l.foldl f d) := by
  induction l generalizing d with
  | nil => exact Clearing.refl d
  | cons x l ih => exact (hf d x).trans (ih (f d x))

theorem clearing_bumpBy (d : Dev) (n : Nat) {a : Nat} (ha : Reg.FLT_SAFE_CAUSE ≠ a) : Clearing d (d.bumpBy a n) :=
  { Clearing.refl d with cause := rd_bumpBy_ne d n ha }

theorem clearing_lit (d : Dev) (n cyc : Nat) : Clearing d (d.lit n cyc) := by
  have hcause := lit_rd d n cyc (litMin_ne_cause n) (rotMin_ne_cause n)
  rw [lit_eq] at hcause ⊢
  exact { Clearing.refl d with cause := hcause }

theorem clearing_gateOpen (d : Dev) (n a b : Nat) : Clearing d (d.gateOpen n a b) := by
  unfold Dev.gateOpen
  split
  · exact Clearing.refl d
  · exact { Clearing.refl d with sent := List.subset_cons_self _ _ }

theorem clearing_shine (d : Dev) (n a b : Nat) : Clearing d (d.shine n a b) :=
  (clearing_gateOpen d n a b).trans (clearing_lit _ n _)

theorem clearing_shiftOut (d : Dev) (n : Nat) (w : Word) : Clearing d (d.shiftOut n w) := by
  unfold Dev.shiftOut
  split
  · exact Clearing.refl d
  · exact { Clearing.refl d with sent := List.subset_cons_self _ _ }

theorem clearing_twoPulses (d : Dev) (n bound : Nat) : Clearing d (d.twoPulses n bound) := by
  have hfree : Clearing d (d.free 33).2 := { Clearing.refl d with }
  exact ((hfree.trans (clearing_shine _ n _ _)).trans (clearing_shine _ n _ _)).trans
    (clearing_bumpBy _ _ (by decide))

/-- The confirmation steps on some chains. -/
def Dev.lampConfirm (d : Dev) (l : List Nat) : Dev :=
  l.foldl (fun (d : Dev) n => (d.shiftOut n (d.level n)).twoPulses n 38900000) d

theorem clearing_lampConfirm (d : Dev) (l : List Nat) : Clearing d (d.lampConfirm l) :=
  Clearing.foldl (fun d n => (clearing_shiftOut d n _).trans (clearing_twoPulses _ n _)) l d

/-- The device whose clear actions are due, with the chains to be confirmed. -/
def Dev.clearMarked (d : Dev) : Dev :=
  { d with flt := { d.flt with
    acts := (List.range 9).filter (fun b => bit (d.rd Reg.FLT_SAFE_CAUSE) b)
    lampClr := if bit (d.rd Reg.FLT_SAFE_CAUSE) scLamp then d.lampFound else [] } }

/-- The clear actions behind those of the lamps, for the causes `c`: cores, the level 3 unit, axes and taps. -/
def Dev.clearRest (d : Dev) (c : Nat) : Dev :=
  let d := if bit c scNoSpare then
      { d with afe := { d.afe with quads := d.afe.quads.map (fun (q : Quad) =>
        if q.ready.isNone then { q with cal := q.cal ++ q.retired.filter (fun k => !q.cal.contains k) } else q) } } else d
  let d := if bit c scRecovery then d.bump (Reg.FLT_RECOV_CNT 3) else d
  let d := if bit c scMotion then
      (List.range 12).foldl (fun (d : Dev) a =>
        if (d.axEnc a).isSome && d.axEn a then d.modAx a fun x => { x with resync := true } else d) d else d
  let taps := if bit c scBlack then (d.afe.blkStep.filter (fun x => x.2 == 3)).map (·.1) else []
  taps.foldl (fun (d : Dev) t => d.startLevel 1 6 1 t 0 false) d

theorem clearStart_eq (d : Dev) : d.clearStart =
    (if bit (d.rd Reg.FLT_SAFE_CAUSE) scLamp then d.clearMarked.lampConfirm d.lampFound else d.clearMarked).clearRest
      (d.rd Reg.FLT_SAFE_CAUSE) := by
  unfold Dev.clearStart Dev.clearMarked
  cases h : bit (d.rd Reg.FLT_SAFE_CAUSE) scLamp <;> simp only [h, Bool.false_eq_true, if_false, if_true] <;> rfl

/-- A clear action beyond the lamps' leaves them, and the count of proof pulses, alone. -/
structure ClearingDark (d e : Dev) : Prop extends Clearing d e where
  lamp : e.lamp = d.lamp
  proof : e.rd Reg.LMP_PROOF_CNT = d.rd Reg.LMP_PROOF_CNT

theorem ClearingDark.refl (d : Dev) : ClearingDark d d := { Clearing.refl d with lamp := rfl, proof := rfl }

theorem ClearingDark.trans {a b c : Dev} (h : ClearingDark a b) (g : ClearingDark b c) : ClearingDark a c :=
  { h.toClearing.trans g.toClearing with lamp := g.lamp.trans h.lamp, proof := g.proof.trans h.proof }

theorem ClearingDark.foldl {α : Type} {f : Dev → α → Dev} (hf : ∀ d x, ClearingDark d (f d x)) (l : List α) (d : Dev) :
    ClearingDark d (l.foldl f d) := by
  induction l generalizing d with
  | nil => exact ClearingDark.refl d
  | cons x l ih => exact (hf d x).trans (ih (f d x))

theorem ClearingDark.if {d e : Dev} (b : Bool) (h : ClearingDark d e) : ClearingDark d (if b then e else d) := by
  cases b
  · exact ClearingDark.refl d
  · exact h

theorem clearingDark_bump (d : Dev) {a : Nat} (hc : Reg.FLT_SAFE_CAUSE ≠ a) (hp : Reg.LMP_PROOF_CNT ≠ a) :
    ClearingDark d (d.bump a) :=
  { ClearingDark.refl d with cause := rd_bump_ne d hc, proof := rd_bump_ne d hp }

/-- A level 1 restart that sets no hold cause is a recovery under way, counted. -/
theorem clearingDark_startLevel (d : Dev) (cls code unit entry : Nat) :
    ClearingDark d (d.startLevel 1 cls code unit entry false) := by
  have hcount := clearingDark_bump d (a := Reg.FLT_RECOV_CNT 1) (by decide) (by decide)
  exact { hcount with }

theorem clearingDark_rest (d : Dev) (c : Nat) : ClearingDark d (d.clearRest c) := by
  unfold Dev.clearRest
  refine ((((ClearingDark.if (bit c scNoSpare) ?_).trans (ClearingDark.if (bit c scRecovery) ?_)).trans
    (ClearingDark.if (bit c scMotion) ?_)).trans (ClearingDark.foldl (fun d t => ?_) _ _))
  · exact { ClearingDark.refl d with }
  · exact clearingDark_bump _ (by decide) (by decide)
  · refine ClearingDark.foldl (fun d a => ClearingDark.if _ ?_) _ _
    exact { ClearingDark.refl d with }
  · exact clearingDark_startLevel _ _ _ _ _

/-- All clear actions together. -/
theorem clearing_start (d : Dev) : Clearing d.clearMarked d.clearStart := by
  rw [clearStart_eq]
  refine Clearing.trans ?_ (clearingDark_rest _ _).toClearing
  split
  · exact clearing_lampConfirm _ _
  · exact Clearing.refl _

/-- Where LAMP is no cause the lamps stay as they are. -/
theorem clearStart_dark {d : Dev} (h : bit (d.rd Reg.FLT_SAFE_CAUSE) scLamp = false) : d.clearStart.lamp = d.lamp := by
  rw [clearStart_eq, h]
  exact (clearingDark_rest _ _).lamp

/-! The proof pulses. -/

theorem gateOpen_sends {d : Dev} (hrun : d.flt.l2run = false) (n a b : Nat) : Out.lampGate n a b ∈ (d.gateOpen n a b).tx := by
  rw [Dev.gateOpen, if_neg (by rw [hrun]; decide)]
  exact List.mem_cons_self

theorem shine_sends {d : Dev} (hrun : d.flt.l2run = false) (n a b : Nat) : Out.lampGate n a b ∈ (d.shine n a b).tx :=
  (clearing_lit _ n _).sent (gateOpen_sends hrun n a b)

theorem shine_proof (d : Dev) (n a b : Nat) : (d.shine n a b).rd Reg.LMP_PROOF_CNT = d.rd Reg.LMP_PROOF_CNT := by
  have hgate : (d.gateOpen n a b).rd Reg.LMP_PROOF_CNT = d.rd Reg.LMP_PROOF_CNT := by
    unfold Dev.gateOpen
    split <;> rfl
  exact (lit_rd _ n _ (litMin_ne_proof n) (rotMin_ne_proof n)).trans hgate

/-- Two pulses from an instant on, counted. -/
def Dev.pulsesAt (d : Dev) (n t : Nat) : Dev :=
  ((d.shine n t (t + 1250)).shine n (t + 78125) (t + 79375)).bumpBy Reg.LMP_PROOF_CNT 2

theorem pulsesAt_sends {d : Dev} (hrun : d.flt.l2run = false) (n t : Nat) :
    Out.lampGate n t (t + 1250) ∈ (d.pulsesAt n t).tx ∧ Out.lampGate n (t + 78125) (t + 79375) ∈ (d.pulsesAt n t).tx := by
  have hfirst := clearing_shine d n t (t + 1250)
  have hcounted := clearing_bumpBy ((d.shine n t (t + 1250)).shine n (t + 78125) (t + 79375)) 2
    (a := Reg.LMP_PROOF_CNT) (by decide)
  exact ⟨hcounted.sent ((clearing_shine _ n _ _).sent (shine_sends hrun n _ _)),
    hcounted.sent (shine_sends (hfirst.l2run.trans hrun) n _ _)⟩

theorem pulsesAt_proof (d : Dev) (n t : Nat) :
    (d.pulsesAt n t).rd Reg.LMP_PROOF_CNT = min 0xFFFFFFFF (d.rd Reg.LMP_PROOF_CNT + 2) := by
  rw [Dev.pulsesAt, rd_bumpBy_self, shine_proof, shine_proof]

theorem twoPulses_pulses {d : Dev} (hrun : d.flt.l2run = false) (n : Nat) {bound : Nat} (hb : 0 < bound) :
    TestPulses d (d.twoPulses n bound) n bound := by
  have hpulses : d.twoPulses n bound = (d.free 33).2.pulsesAt n (d.now + (d.free 33).1.toNat % bound) := rfl
  rw [hpulses]
  obtain ⟨hfirst, hsecond⟩ := pulsesAt_sends (d := (d.free 33).2) hrun n (d.now + (d.free 33).1.toNat % bound)
  exact ⟨⟨_, Nat.le_add_right _ _, Nat.add_lt_add_left (Nat.mod_lt _ hb) _, hfirst, hsecond⟩,
    (pulsesAt_proof _ n _).trans (by rw [rd_free])⟩

/-- One chain with a finding where LAMP is a cause: its two proof pulses. -/
theorem clearStart_pulses {d : Dev} {n : Nat} (hlamp : bit (d.rd Reg.FLT_SAFE_CAUSE) scLamp = true)
    (hfound : d.lampFound = [n]) (hrun : d.flt.l2run = false) : TestPulses d d.clearStart n 38900000 := by
  let shifted := d.clearMarked.shiftOut n (d.clearMarked.level n)
  have hshift := clearing_shiftOut d.clearMarked n (d.clearMarked.level n)
  have hproof : shifted.rd Reg.LMP_PROOF_CNT = d.rd Reg.LMP_PROOF_CNT := by
    show (d.clearMarked.shiftOut n (d.clearMarked.level n)).rd Reg.LMP_PROOF_CNT = _
    rw [shiftOut_eq]
    rfl
  have hstart : d.clearStart = (shifted.twoPulses n 38900000).clearRest (d.rd Reg.FLT_SAFE_CAUSE) := by
    rw [clearStart_eq, if_pos hlamp, hfound]
    rfl
  obtain ⟨⟨t, hfrom, htill, hfirst, hsecond⟩, hcount⟩ :=
    twoPulses_pulses (d := shifted) (hshift.l2run.trans hrun) n (bound := 38900000) (by decide)
  have hrest := clearingDark_rest (shifted.twoPulses n 38900000) (d.rd Reg.FLT_SAFE_CAUSE)
  have hnow : shifted.now = d.now := hshift.now
  rw [hnow] at hfrom htill
  rw [hproof] at hcount
  rw [hstart]
  exact ⟨⟨t, hfrom, htill, hrest.sent hfirst, hrest.sent hsecond⟩, hrest.proof.trans hcount⟩

end Sys2Proof.Machine
end

section
/-! PROOFS. FAULT_CLEAR and leaving SAFE: the requests and the end (R401). -/

namespace Sys2Proof.Machine

open Sys2Proof

/-! FAULT_CLEAR with SCOPE 0. -/

/-- The slots and banks in use are those of the active and staged values and of the corrections that wait. -/
theorem Quiet.poisonUsed {d e : Dev} (h : Quiet d e) : e.poisonUsed = d.poisonUsed := by
  have hheld : e.heldVals = d.heldVals := by simp only [Dev.heldVals, h.held, h.cal]
  have hconfigs : e.configs = d.configs := by
    simp only [Dev.configs, Dev.withHeld, hheld, h.act, h.com]
  simp only [Dev.poisonUsed, Dev.slotUsed, Dev.bankUsed, Dev.waiting, hheld, hconfigs, h.flt]

/-- The state checks read the device as it is, whatever its sessions and the NET page hold. -/
theorem arrived_clearOk (d : Dev) (h : Req) : (d.arrived h).clearOk = d.clearOk := by
  have hquiet : Quiet d (d.arrived h) := quiet_arrived d h
  have hcause : (d.arrived h).rd Reg.FLT_SAFE_CAUSE = d.rd Reg.FLT_SAFE_CAUSE := hquiet.words _ (by decide)
  have hcores : (d.arrived h).rd Reg.FLT_CORE_STAT = d.rd Reg.FLT_CORE_STAT := hquiet.words _ (by decide)
  have hfeed : (d.arrived h).feed = d.feed := rfl
  simp only [Dev.clearOk, Dev.stateCheck, hcause, Dev.serving, hcores, hquiet.poisonUsed, hfeed, arrived_groupAxes,
    arrived_limAct]
  rfl

/-- What FAULT_CLEAR of SCOPE 0 answers by its own checks. -/
def clearAnswer (h : Req) (d : Dev) : Answer :=
  if d.mode != .safe then no stBadState d
  else if !d.clearOk then no stFault d
  else (stAccepted, [], { (d.startOp h .faultClear).clearStart with
    flt := { (d.startOp h .faultClear).clearStart.flt with clearing := true } })

theorem exec_faultClearSafe (h : Req) (s : State) :
    exec (.faultClearSafe h) s = s.onDev fun d => d.serve h 0xF1 (clearAnswer h) := rfl

theorem does_faultClearSafe_outside {h : Req} {s : State} (hr : Ready h s.d) (hmode : s.d.mode ≠ .safe) :
    Does (.faultClearSafe h) s fun d => Quiet s.d d ∧ Replied d h 0xF1 stBadState [] := by
  have hout : ((s.d.arrived h).mode != .safe) = true := by
    rw [show (s.d.arrived h).mode = s.d.mode from rfl]
    simpa using hmode
  have hk : clearAnswer h (s.d.arrived h) = (stBadState, [], s.d.arrived h) := by rw [clearAnswer, if_pos hout]; rfl
  exact (does_serve_arrived (exec_faultClearSafe h s) hr (by decide) hk rfl).imp fun d ⟨hq, hrep⟩ =>
    ⟨(quiet_arrived s.d h).chain hq, hrep⟩

theorem does_faultClearSafe_failed {h : Req} {s : State} (hr : Ready h s.d) (hmode : s.d.mode = .safe)
    (hok : s.d.clearOk = false) : Does (.faultClearSafe h) s fun d => Quiet s.d d ∧ Replied d h 0xF1 stFault [] := by
  have hin : ¬ ((s.d.arrived h).mode != .safe) = true := by
    rw [show (s.d.arrived h).mode = s.d.mode from rfl, hmode]
    decide
  have hk : clearAnswer h (s.d.arrived h) = (stFault, [], s.d.arrived h) := by
    rw [clearAnswer, if_neg hin, if_pos (by rw [arrived_clearOk, hok]; rfl)]
    rfl
  exact (does_serve_arrived (exec_faultClearSafe h s) hr (by decide) hk rfl).imp fun d ⟨hq, hrep⟩ =>
    ⟨(quiet_arrived s.d h).chain hq, hrep⟩

/-- The device whose clear actions have started for a request. -/
def Dev.clearBegun (d : Dev) (h : Req) : Dev :=
  { (d.startOp h .faultClear).clearStart with flt := { (d.startOp h .faultClear).clearStart.flt with clearing := true } }

theorem clearing_begun (d : Dev) (h : Req) : Clearing (d.startOp h .faultClear).clearMarked (d.clearBegun h) := by
  have hstart := clearing_start (d.startOp h .faultClear)
  exact { hstart with }

theorem serve_faultClearSafe {h : Req} {d : Dev} (hr : Ready h d) (hmode : d.mode = .safe) (hok : d.clearOk = true) :
    d.serve h 0xF1 (clearAnswer h) = ((d.arrived h).clearBegun h).answer h 0xF1 stAccepted [] := by
  have hin : ¬ ((d.arrived h).mode != .safe) = true := by
    rw [show (d.arrived h).mode = d.mode from rfl, hmode]
    decide
  have hk : clearAnswer h (d.arrived h) = (stAccepted, [], (d.arrived h).clearBegun h) := by
    rw [clearAnswer, if_neg hin, if_neg (by rw [arrived_clearOk, hok]; decide)]
    rfl
  have hnow : stAccepted ≠ stLater := by decide
  rw [Dev.serve, serveThen_arrived hr, hk]
  exact if_neg hnow

theorem exec_faultClearSafe_begun {h : Req} {s : State} (hr : Ready h s.d) (hmode : s.d.mode = .safe)
    (hok : s.d.clearOk = true) : exec (.faultClearSafe h) s =
      .next { s with d := ((s.d.arrived h).clearBegun h).answer h 0xF1 stAccepted [] } := by
  rw [exec_faultClearSafe, State.onDev, serve_faultClearSafe hr hmode hok]

/-- The chains with a finding are those of the device as it is. -/
theorem Quiet.lampFound {d e : Dev} (h : Quiet d e) : e.lampFound = d.lampFound := by
  unfold Dev.lampFound
  refine List.filter_congr fun n hn => ?_
  have hbelow : Reg.LMP_C_DIAG n < 0xC0000 := by
    have hn := List.mem_range.mp hn
    unfold Reg.LMP_C_DIAG
    omega
  rw [h.act, h.rf_below hbelow]

section Begun
variable (d : Dev) (h : Req)

theorem arrived_cause : ((d.arrived h).startOp h .faultClear).rd Reg.FLT_SAFE_CAUSE = d.rd Reg.FLT_SAFE_CAUSE :=
  (quiet_arrived d h).words Reg.FLT_SAFE_CAUSE (by decide)

theorem arrived_found : ((d.arrived h).startOp h .faultClear).lampFound = d.lampFound :=
  Quiet.lampFound (d := d) (e := d.arrived h) (quiet_arrived d h)

/-- What no clear action touches. -/
theorem begun_keeps : ((d.arrived h).clearBegun h).mode = d.mode ∧ ((d.arrived h).clearBegun h).hold = d.hold ∧
    ((d.arrived h).clearBegun h).seq = d.seq ∧ ((d.arrived h).clearBegun h).cal = d.cal ∧
    ((d.arrived h).clearBegun h).tim = d.tim ∧ ((d.arrived h).clearBegun h).fsram = d.fsram ∧
    ((d.arrived h).clearBegun h).flt.log = d.flt.log := by
  have hq : Quiet d (d.arrived h) := quiet_arrived d h
  have hbegun := clearing_begun (d.arrived h) h
  rw [hbegun.mode, hbegun.hold, hbegun.seq, hbegun.cal, hbegun.tim, hbegun.fsram, hbegun.log]
  unfold Dev.clearMarked Dev.startOp
  have hlog : (d.arrived h).flt.log = d.flt.log := congrArg Flt.log hq.flt
  exact ⟨hq.mode, hq.hold, hq.seq, hq.cal, hq.tim, hq.fsram, hlog⟩

theorem begun_cause : ((d.arrived h).clearBegun h).rd Reg.FLT_SAFE_CAUSE = d.rd Reg.FLT_SAFE_CAUSE :=
  (clearing_begun (d.arrived h) h).cause.trans (arrived_cause d h)

theorem begun_ops : (⟨.faultClear, h.session, h.seq⟩ : LongOp) ∈ ((d.arrived h).clearBegun h).ops := by
  rw [(clearing_begun (d.arrived h) h).ops]
  exact List.mem_append_right _ (List.mem_singleton_self _)

theorem begun_acts {b : Nat} (hb : b < 9) :
    b ∈ ((d.arrived h).clearBegun h).flt.acts ↔ bit (d.rd Reg.FLT_SAFE_CAUSE) b = true := by
  rw [(clearing_begun (d.arrived h) h).acts, ← arrived_cause d h]
  exact List.mem_filter.trans (and_iff_right (List.mem_range.mpr hb))

variable {d h}

theorem begun_clr (hlamp : bit (d.rd Reg.FLT_SAFE_CAUSE) scLamp = true) :
    ((d.arrived h).clearBegun h).flt.lampClr = d.lampFound := by
  rw [(clearing_begun (d.arrived h) h).clr, ← arrived_found d h]
  exact if_pos (by rwa [arrived_cause])

theorem begun_dark (hlamp : bit (d.rd Reg.FLT_SAFE_CAUSE) scLamp = false) :
    ((d.arrived h).clearBegun h).lamp = d.lamp := by
  rw [← arrived_cause d h] at hlamp
  exact clearStart_dark hlamp

theorem begun_pulses {n : Nat} (hlamp : bit (d.rd Reg.FLT_SAFE_CAUSE) scLamp = true) (hone : d.lampFound = [n])
    (hrun : d.flt.l2run = false) : TestPulses d ((d.arrived h).clearBegun h) n 38900000 := by
  rw [← arrived_cause d h] at hlamp
  rw [← arrived_found d h] at hone
  obtain ⟨hpulses, hcount⟩ := clearStart_pulses hlamp hone hrun
  have hproof : ((d.arrived h).startOp h .faultClear).rd Reg.LMP_PROOF_CNT = d.rd Reg.LMP_PROOF_CNT :=
    (quiet_arrived d h).words Reg.LMP_PROOF_CNT (by decide)
  rw [hproof] at hcount
  exact ⟨hpulses, hcount⟩

end Begun

/-- Pulses that have been sent and counted stay so behind an answer. -/
theorem TestPulses.answered {d e : Dev} {n bound : Nat} (hp : TestPulses d e n bound) (h : Req) (op st : Nat)
    (b : List Byte) : TestPulses d (e.answer h op st b) n bound := by
  obtain ⟨⟨t, hfrom, htill, hfirst, hsecond⟩, hcount⟩ := hp
  have hsent := keepsSent_answer e h op st b
  exact ⟨⟨t, hfrom, htill, hsent hfirst, hsent hsecond⟩,
    ((quiet_answer e h op st b).words Reg.LMP_PROOF_CNT (by decide)).trans hcount⟩

theorem does_faultClearSafe {h : Req} {s : State} (hr : Ready h s.d) (hmode : s.d.mode = .safe) (hok : s.d.clearOk = true) :
    Does (.faultClearSafe h) s fun d => Replied d h 0xF1 stAccepted [] ∧ d.flt.clearing = true ∧
      (⟨.faultClear, h.session, h.seq⟩ : LongOp) ∈ d.ops ∧ d.mode = .safe ∧ d.hold = s.d.hold ∧ d.seq = s.d.seq ∧
      (bit (s.d.rd Reg.FLT_SAFE_CAUSE) scLamp = false → d.lamp = s.d.lamp) ∧
      (∀ n, n < 16 → bit (s.d.rd Reg.FLT_SAFE_CAUSE) scLamp = true → s.d.lampFound = [n] → s.d.flt.l2run = false →
        TestPulses s.d d n 38900000) ∧
      (bit (s.d.rd Reg.FLT_SAFE_CAUSE) scLamp = true → d.flt.lampClr = s.d.lampFound) ∧
      (∀ b, b < 9 → (b ∈ d.flt.acts ↔ bit (s.d.rd Reg.FLT_SAFE_CAUSE) b = true)) ∧
      d.cal = s.d.cal ∧ d.tim = s.d.tim ∧ d.fsram = s.d.fsram ∧ d.flt.log = s.d.flt.log ∧
      d.rd Reg.FLT_SAFE_CAUSE = s.d.rd Reg.FLT_SAFE_CAUSE := by
  have hbegun := clearing_begun (s.d.arrived h) h
  have hans := quiet_answer ((s.d.arrived h).clearBegun h) h 0xF1 stAccepted []
  obtain ⟨x, hx⟩ := arrived_isOpen hr
  have hopen : ((s.d.arrived h).clearBegun h).ses? h.session = some x := (congrArg (aget · h.session) hbegun.sess).trans hx
  obtain ⟨hm, hhold, hseq, hcal, htim, hfsram, hlog⟩ := begun_keeps s.d h
  refine ⟨_, exec_faultClearSafe_begun hr hmode hok, answer_replied _ h _ _ _ x hopen, ?_, hans.ops ▸ begun_ops s.d h,
    (hans.mode.trans hm).trans hmode, hans.hold.trans hhold, hans.seq.trans hseq,
    fun hlamp => hans.lamp.trans (begun_dark hlamp), fun n _ hlamp hone hrun => (begun_pulses hlamp hone hrun).answered h _ _ _,
    fun hlamp => (congrArg Flt.lampClr hans.flt).trans (begun_clr hlamp), fun b hb => ?_, hans.cal.trans hcal,
    hans.tim.trans htim, hans.fsram.trans hfsram, (congrArg Flt.log hans.flt).trans hlog,
    (hans.words Reg.FLT_SAFE_CAUSE (by decide)).trans (begun_cause s.d h)⟩
  · rw [hans.flt]
    rfl
  · rw [hans.flt]
    exact begun_acts s.d h hb

/-! FAULT_CLEAR with SCOPE 1. -/

theorem does_faultClearLog {h : Req} {s : State} (hr : Ready h s.d) :
    Does (.faultClearLog h) s fun d => Replied d h 0xF1 stOk [] ∧ d.uncleared = 0 ∧ Quiet s.d.clearLog d := by
  have hexec : exec (.faultClearLog h) s = s.onDev fun d => d.serve h 0xF1 fun d => (stOk, [], d.clearLog) := rfl
  refine (does_serve_changes hexec hr Dev.clearLog (by decide) (fun e _ _ => rfl)
    (fun e hq => { hq with flt := by simp only [Dev.clearLog, hq.flt] }) fun e => rfl).imp fun d ⟨hq, hrep⟩ =>
    ⟨hrep, ?_, hq⟩
  have hnone : (s.d.clearLog.flt.log.filter fun e => !e.cleared) = [] := by
    rw [List.filter_eq_nil_iff]
    intro e he
    obtain ⟨x, -, rfl⟩ := List.mem_map.mp he
    exact Bool.false_ne_true
  rw [Dev.uncleared, hq.flt, hnone]
  rfl

end Sys2Proof.Machine
end

section
/-! PROOFS. FAULT_CLEAR and leaving SAFE: how SAFE ends (R401). -/

namespace Sys2Proof.Machine

open Sys2Proof

/-! What leaving SAFE keeps. -/

/-- The device whose causes have all cleared, over the device `s` it was: no clear action is under way, FAULT and every
cause are clear, and time and field SRAM are as they were. -/
structure SafeOver (s d : Dev) : Prop where
  tim : d.tim = s.tim
  fsram : d.fsram = s.fsram
  clearing : d.flt.clearing = false
  hold : bit d.hold hcFault = false
  cause : d.rd Reg.FLT_SAFE_CAUSE = 0

section SafeOver
variable {s d e : Dev}

theorem SafeOver.quiet (h : SafeOver s d) (hq : Quiet d e) : SafeOver s e where
  tim := hq.tim.trans h.tim
  fsram := hq.fsram.trans h.fsram
  clearing := by rw [hq.flt]; exact h.clearing
  hold := by rw [hq.hold]; exact h.hold
  cause := (hq.words _ (by decide)).trans h.cause

/-- A wear rotation's end concerns the lamps and the words that count their light. -/
theorem rotAbandon_eq (d : Dev) : d.rotAbandon = { d with regs := d.rotAbandon.regs, lamp := d.rotAbandon.lamp } := by
  unfold Dev.rotAbandon
  split
  · rfl
  · dsimp only
    rw [lit_eq]
    rfl

theorem rotAbandon_cause (d : Dev) : d.rotAbandon.rd Reg.FLT_SAFE_CAUSE = d.rd Reg.FLT_SAFE_CAUSE := by
  unfold Dev.rotAbandon
  split
  · rfl
  · next n _ => exact lit_rd d n _ (litMin_ne_cause n) (rotMin_ne_cause n)

theorem SafeOver.rotAbandon (h : SafeOver s d) : SafeOver s d.rotAbandon := by
  have hcause := (rotAbandon_cause d).trans h.cause
  rw [rotAbandon_eq] at hcause ⊢
  exact { h with cause := hcause }

theorem monStop_eq (d : Dev) : d.monStop = { d with monA := d.monStop.monA, monB := d.monStop.monB } := by
  unfold Dev.monStop
  split <;> rfl

theorem SafeOver.entered (h : SafeOver s d) (m : Mode) : SafeOver s (d.entered m) := by
  obtain ⟨hdriven, -⟩ := entered_eq d m
  let left := { d.rotAbandon with mode := m, prev := d.mode, trans := (d.trans + 1) % 65536 }.leaveTest d.mode
  have hleft : SafeOver s left := by
    have hcause : left.rd Reg.FLT_SAFE_CAUSE = 0 := (leaveTest_rd _ _ _ (by decide) (by decide)).trans h.rotAbandon.cause
    have heq : left = _ := leaveTest_eq _ _
    rw [heq] at hcause ⊢
    exact { h.rotAbandon with cause := hcause }
  have hstop : SafeOver s left.monStop := by
    rw [monStop_eq]
    exact { hleft with }
  rw [hdriven]
  exact { hstop with }

theorem SafeOver.setMode (h : SafeOver s d) {m : Mode} (hm : d.mode ≠ m) : SafeOver s (d.setMode m) := by
  obtain ⟨e, he, hset⟩ := setMode_eq d m hm
  have hkept : SafeOver s e := by
    refine SafeOver.quiet ?_ he
    exact { h.entered m with }
  refine SafeOver.quiet ?_ hset
  rw [forgetStop_eq, cancelStart_eq]
  exact { hkept with }

end SafeOver

/-- A mode change sets the mode and remembers the one before; Catches stay enabled or disabled. -/
theorem setMode_mode {d : Dev} {m : Mode} (hm : d.mode ≠ m) :
    (d.setMode m).mode = m ∧ (d.setMode m).prev = d.mode ∧ (d.setMode m).seq.en = d.seq.en := by
  obtain ⟨hdriven, -⟩ := entered_eq d m
  rw [rotAbandon_eq, leaveTest_eq, monStop_eq] at hdriven
  have hentered : (d.entered m).mode = m ∧ (d.entered m).prev = d.mode ∧ (d.entered m).seq = d.seq := by
    rw [hdriven]
    exact ⟨rfl, rfl, rfl⟩
  obtain ⟨hmode, hprev, hseq⟩ := hentered
  obtain ⟨e, he, hset⟩ := setMode_eq d m hm
  have hcancel : ((e.cancelStart (d.opRuns (fun o => o == .scanStart)) m).forgetStop m).mode = e.mode ∧
      ((e.cancelStart (d.opRuns (fun o => o == .scanStart)) m).forgetStop m).prev = e.prev ∧
      ((e.cancelStart (d.opRuns (fun o => o == .scanStart)) m).forgetStop m).seq.en = e.seq.en := by
    rw [forgetStop_eq, cancelStart_eq]
    exact ⟨rfl, rfl, rfl⟩
  obtain ⟨hcm, hcp, hcs⟩ := hcancel
  rw [hset.mode, hset.prev, hset.seq, hcm, hcp, hcs, he.mode, he.prev, he.seq]
  exact ⟨hmode, hprev, congrArg Seq.en hseq⟩

/-! The entry to IDLE with nothing held. -/

/-- No staged value and no correction is held. -/
structure NoneHeld (d : Dev) : Prop where
  words : d.regs.held = []
  corrs : d.cal.held = []
  due : d.cal.due = []

section NoneHeld
variable {d e : Dev}

theorem put_held (d : Dev) (a v : Nat) : (d.put a v).regs.held = d.regs.held := by
  unfold Dev.put Regs.put
  split <;> rfl

theorem lit_held (d : Dev) (n cyc : Nat) : (d.lit n cyc).regs.held = d.regs.held := by
  unfold Dev.lit
  dsimp only
  split
  · rfl
  · exact (put_held _ _ _).trans (put_held _ _ _)

theorem rotAbandon_held (d : Dev) : d.rotAbandon.regs.held = d.regs.held := by
  unfold Dev.rotAbandon
  split
  · rfl
  · exact lit_held d _ _

theorem NoneHeld.quiet (h : NoneHeld d) (hq : Quiet d e) : NoneHeld e where
  words := hq.held.trans h.words
  corrs := by rw [hq.cal]; exact h.corrs
  due := by rw [hq.cal]; exact h.due

theorem NoneHeld.setMode (h : NoneHeld d) {m : Mode} (hm : d.mode ≠ m) : NoneHeld (d.setMode m) := by
  obtain ⟨hdriven, -⟩ := entered_eq d m
  have hrot : d.rotAbandon.regs.held = [] := (rotAbandon_held d).trans h.words
  have hentered : NoneHeld (d.entered m) := by
    rw [rotAbandon_eq, leaveTest_eq, monStop_eq] at hdriven
    rw [hdriven]
    exact ⟨hrot, h.corrs, h.due⟩
  obtain ⟨e, he, hset⟩ := setMode_eq d m hm
  have hkept : NoneHeld e := by
    refine NoneHeld.quiet ?_ he
    exact { hentered with }
  refine NoneHeld.quiet ?_ hset
  rw [forgetStop_eq, cancelStart_eq]
  exact { hkept with }

/-- What is left to settle where nothing is held. -/
def Dev.noneHeld (d : Dev) : Dev :=
  { d with regs := { d.regs with held := [] }, cal := { d.cal with held := [], due := [] } }.waitMoves 0 none

/-- With nothing held, the entry to IDLE only settles commits. -/
theorem releaseHeld_none (h : NoneHeld d) : d.releaseHeld = d.noneHeld.settleCommits 0 := by
  unfold Dev.releaseHeld Dev.noneHeld
  simp only [h.words, h.corrs, h.due, List.filter_nil, List.append_nil, List.foldl_nil, Dev.applyCorrs, List.map_nil,
    List.isEmpty_nil, if_true]

theorem SafeOver.releaseHeld {s : Dev} (h : SafeOver s d) (hn : NoneHeld d) : SafeOver s d.releaseHeld ∧
    d.releaseHeld.mode = d.mode ∧ d.releaseHeld.prev = d.prev ∧ d.releaseHeld.seq = d.seq := by
  rw [releaseHeld_none hn]
  have hq := quiet_settleCommits d.noneHeld 0
  refine ⟨SafeOver.quiet ?_ hq, hq.mode, hq.prev, hq.seq⟩
  exact { h with }

/-- Catches off with no COMMIT waiting. -/
theorem catchOff_eq (h : d.regs.com = none) (hold : Bool) : d.catchOff hold =
    { d with regs := { d.regs with com := none, comDue := false }
             seq := { d.seq with en := false, flushDue := (d.catchDis hold).seq.flushDue
                                 pend := (d.catchDis hold).seq.pend } } := by
  have hcom : (d.catchDis hold).regs.com = none := by rw [catchDis_eq]; exact h
  have hoff : d.catchOff hold = { d.catchDis hold with regs := { (d.catchDis hold).regs with com := none, comDue := false } } := by
    unfold Dev.catchOff
    simp only [hcom, Dev.commitDue, Option.isSome_none, Bool.false_and, Bool.false_eq_true, if_false]
  rw [hoff, catchDis_eq]

/-- IDLE is entered from SAFE, with no COMMIT waiting and nothing held. -/
theorem toIdle_safe {s : Dev} (h : SafeOver s d) (hn : NoneHeld d) (hcom : d.regs.com = none) (hmode : d.mode = .safe) :
    SafeOver s d.toIdle ∧ d.toIdle.mode = .idle ∧ d.toIdle.prev = .safe ∧ d.toIdle.seq.en = false := by
  have hoff := catchOff_eq hcom false
  have hsafe : SafeOver s (d.catchOff false) := by rw [hoff]; exact { h with }
  have hnone : NoneHeld (d.catchOff false) := by rw [hoff]; exact { hn with }
  have hm : (d.catchOff false).mode = .safe := by rw [hoff]; exact hmode
  have hne : (d.catchOff false).mode ≠ .idle := by rw [hm]; decide
  obtain ⟨hidle, hprev, hen⟩ := setMode_mode hne
  rw [catchOff_en] at hen
  have hset := hsafe.setMode hne
  have hheld := hnone.setMode hne
  have hleft : SafeOver s ((d.catchOff false).setMode .idle).feedLeft := { hset with }
  obtain ⟨hover, hmode', hprev', hseq'⟩ := hleft.releaseHeld { hheld with }
  exact ⟨hover, hmode'.trans hidle, hprev'.trans (hprev.trans hm), (congrArg Seq.en hseq').trans hen⟩

end NoneHeld

/-! SAFE_CLEAR_DONE. -/

/-- With NO_SPARE a cause, the cores that calibrated and stay retired stop. -/
def Dev.coresResumed (d : Dev) (old : Nat) : Dev :=
  if bit old scNoSpare then
    { d with afe := { d.afe with quads := d.afe.quads.map (fun (q : Quad) =>
      { q with cal := q.cal.filter (fun k => !q.retired.contains k) }) } }
  else d

/-- With BLACK cleared, the taps' black-level faults are over. -/
def Dev.tapsPassed (d : Dev) (old left : Nat) : Dev :=
  if bit old scBlack && !bit left scBlack then
    (d.afe.blkStep.filter (fun x => x.2 == 3)).foldl (fun (d : Dev) x => d.blackStep x.1 0) d
  else d

/-- With BLACK a cause, no restart of an AFE is under way any more. -/
def Dev.tapsOver (d : Dev) (old : Nat) : Dev :=
  if bit old scBlack then
    { d with flt := { d.flt with recs := d.flt.recs.filter (fun (x : Recov) => !(x.cls == 6 && x.code == 1)) } }
  else d

/-- The causes that stay, and no clear action under way. -/
def Dev.causesWritten (d : Dev) (left : Nat) : Dev :=
  { d with flt := { d.flt with clearing := false, acts := [], lampClr := [] } }.put Reg.FLT_SAFE_CAUSE left

/-- The device once its causes have been judged: `left` are the causes that stay. -/
def Dev.causesJudged (d : Dev) (left : Nat) : Dev :=
  (((d.causesWritten left).coresResumed (d.rd Reg.FLT_SAFE_CAUSE)).tapsPassed (d.rd Reg.FLT_SAFE_CAUSE) left).tapsOver
    (d.rd Reg.FLT_SAFE_CAUSE)

/-- The causes that stay: those set whose condition for clearing does not hold. -/
def Dev.causesLeft (d : Dev) (c : BitVec 9) : Nat :=
  ((List.range 9).filter (fun b => bit (d.rd Reg.FLT_SAFE_CAUSE) b && !d.causeClear c b)).foldl setBit 0

/-- What judging the causes sets and keeps, where no tap has a black-level fault. -/
structure Judged (d e : Dev) (left : Nat) : Prop where
  mode : e.mode = d.mode
  hold : e.hold = d.hold
  jobs : e.jobs = d.jobs
  tim : e.tim = d.tim
  fsram : e.fsram = d.fsram
  cal : e.cal = d.cal
  com : e.regs.com = d.regs.com
  held : e.regs.held = d.regs.held
  black : e.afe.blkStep = []
  clearing : e.flt.clearing = false
  cause : e.rd Reg.FLT_SAFE_CAUSE = left % 2 ^ 32

section Judged
variable {d e : Dev} {left : Nat}

theorem causesWritten_judged (hblk : d.afe.blkStep = []) (left : Nat) : Judged d (d.causesWritten left) left :=
  ⟨rfl, rfl, rfl, rfl, rfl, rfl, rfl, put_held _ _ _, hblk, rfl, Dev.rd_put_self _ _ _⟩

theorem Judged.coresResumed (h : Judged d e left) (old : Nat) : Judged d (e.coresResumed old) left := by
  unfold Dev.coresResumed
  split
  · exact { h with }
  · exact h

theorem Judged.tapsPassed (h : Judged d e left) (old : Nat) : Judged d (e.tapsPassed old left) left := by
  unfold Dev.tapsPassed
  rw [h.black, List.filter_nil, List.foldl_nil, ite_self]
  exact h

theorem Judged.tapsOver (h : Judged d e left) (old : Nat) : Judged d (e.tapsOver old) left := by
  unfold Dev.tapsOver
  split
  · exact { h with }
  · exact h

theorem causesJudged_judged (hblk : d.afe.blkStep = []) (left : Nat) : Judged d (d.causesJudged left) left :=
  (((causesWritten_judged hblk left).coresResumed _).tapsPassed _).tapsOver _

end Judged

/-- How SAFE goes on once the causes have been judged. -/
def Dev.safeEnd (d : Dev) (left : Nat) : Dev :=
  if left = 0 then (d.causesJudged left).leaveSafe
  else (d.causesJudged left).endOps (d.causesJudged left).owner (fun o => o == Op.faultClear) stFault 0

theorem exec_safeClearDone {c : BitVec 9} {s : State} (hclr : s.d.flt.clearing = true) (hmode : s.d.mode = .safe) :
    exec (.safeClearDone c) s = .next { s with d := s.d.safeEnd (s.d.causesLeft c) } := by
  show execSafeClearDone c s = _
  rw [execSafeClearDone, onDev_next, if_neg (by rw [hclr, hmode]; decide)]
  rfl

/-- With every condition met no cause is left. -/
theorem causesLeft_none {d : Dev} {c : BitVec 9}
    (h : ∀ b, b < 9 → bit (d.rd Reg.FLT_SAFE_CAUSE) b = true → d.causeClear c b = true) : d.causesLeft c = 0 := by
  have hnone : (List.range 9).filter (fun b => bit (d.rd Reg.FLT_SAFE_CAUSE) b && !d.causeClear c b) = [] := by
    rw [List.filter_eq_nil_iff]
    intro b hb hleft
    obtain ⟨hset, hclear⟩ := Bool.and_eq_true_iff.mp hleft
    rw [h b (List.mem_range.mp hb) hset] at hclear
    exact Bool.false_ne_true hclear
  rw [Dev.causesLeft, hnone]
  rfl

/-- Setting the bits of a list sets each of them. -/
theorem bit_foldl_setBit {l : List Nat} {i : Nat} (n : Nat) (h : i ∈ l ∨ bit n i = true) : bit (l.foldl setBit n) i = true := by
  induction l generalizing n with
  | nil => simpa using h
  | cons x l ih =>
    refine ih (setBit n x) ?_
    by_cases hx : i = x
    · exact .inr (hx ▸ bit_setBit n i)
    · rw [bit_setBit_ne n hx]
      exact h.imp_left fun hmem => (List.mem_cons.mp hmem).resolve_left hx

/-- A cause whose condition is not met stays. -/
theorem causesLeft_stays {d : Dev} {c : BitVec 9} {b : Nat} (hb : b < 9) (hset : bit (d.rd Reg.FLT_SAFE_CAUSE) b = true)
    (hclear : d.causeClear c b = false) : bit (d.causesLeft c) b = true := by
  refine bit_foldl_setBit 0 (.inl (List.mem_filter.mpr ⟨List.mem_range.mpr hb, ?_⟩))
  rw [hset, hclear]
  rfl

/-- FAULT clears and the groups return to REST: what leaving SAFE does first. -/
def Dev.faultOver (d : Dev) : Dev :=
  let d := { d with mot := { d.mot with groups := d.mot.groups.map (fun (g : Group) =>
    if g.st = GSt.fault then { g with st := .rest } else g) } }
  ({ d with flt := { d.flt with why := 0 } }).clrHold hcFault

theorem faultOver_safe {d e : Dev} (h : Judged d e 0) : SafeOver d e.faultOver :=
  ⟨h.tim, h.fsram, h.clearing, bit_clrBit _ _, h.cause⟩

/-- A feed axis has lost its position. -/
def Dev.feedLost (d : Dev) : Bool :=
  match d.feed with
  | some g => (d.groupAxes g).any (fun a => !(d.ax a).valid)
  | none => false

/-- HOST is set too where a feed axis has lost its position. -/
def Dev.holdFed (d : Dev) : Dev := if d.feedLost then d.setHold hcHost else d

/-- A job held goes on in HOLD. -/
def Dev.heldAgain (d : Dev) : Dev := { d.holdFed.setMode .hold with cox := { d.holdFed.cox with st := 4 } }

theorem leaveSafe_eq (d : Dev) : d.leaveSafe =
    if !d.faultOver.jobHeld then d.faultOver.toIdle else d.faultOver.heldAgain := rfl

theorem leaveSafe_idle {d : Dev} (h : d.jobHeld = false) : d.leaveSafe = d.faultOver.toIdle := by
  have hjob : d.faultOver.jobHeld = false := h
  rw [leaveSafe_eq, hjob]
  rfl

theorem leaveSafe_hold {d : Dev} (h : d.jobHeld = true) : d.leaveSafe = d.faultOver.heldAgain := by
  have hjob : d.faultOver.jobHeld = true := h
  rw [leaveSafe_eq, hjob]
  rfl

theorem SafeOver.holdFed {s d : Dev} (h : SafeOver s d) : SafeOver s d.holdFed := by
  unfold Dev.holdFed
  split
  · refine { h with hold := ?_ }
    show bit (setBit d.hold hcHost) hcFault = false
    rw [bit_setBit_ne _ (by decide)]
    exact h.hold
  · exact h

theorem holdFed_mode (d : Dev) : d.holdFed.mode = d.mode := by
  unfold Dev.holdFed
  split <;> rfl

theorem does_safeClearDone_idle {c : BitVec 9} {s : State} (hclr : s.d.flt.clearing = true) (hmode : s.d.mode = .safe)
    (hblk : s.d.afe.blkStep = [])
    (hall : ∀ b, b < 9 → bit (s.d.rd Reg.FLT_SAFE_CAUSE) b = true → s.d.causeClear c b = true)
    (hjob : s.d.jobHeld = false) (hcom : s.d.regs.com = none) (hn : NoneHeld s.d) :
    Does (.safeClearDone c) s fun d => d.mode = .idle ∧ d.prev = .safe ∧ d.flt.clearing = false ∧
      bit d.hold hcFault = false ∧ d.rd Reg.FLT_SAFE_CAUSE = 0 ∧ d.seq.en = false ∧ d.tim = s.d.tim ∧
      d.fsram = s.d.fsram := by
  have hexec := exec_safeClearDone (c := c) hclr hmode
  have hj := causesJudged_judged hblk 0
  have hjob' : (s.d.causesJudged 0).jobHeld = false := (jobHeld_congr hj.jobs).trans hjob
  rw [causesLeft_none hall, Dev.safeEnd, if_pos rfl, leaveSafe_idle hjob'] at hexec
  have hnone : NoneHeld (s.d.causesJudged 0).faultOver :=
    ⟨hj.held.trans hn.words, (congrArg Cal.held hj.cal).trans hn.corrs, (congrArg Cal.due hj.cal).trans hn.due⟩
  obtain ⟨hover, hidle, hprev, hen⟩ := toIdle_safe (faultOver_safe hj) hnone (hj.com.trans hcom) (hj.mode.trans hmode)
  exact ⟨_, hexec, hidle, hprev, hover.clearing, hover.hold, hover.cause, hen, hover.tim, hover.fsram⟩

theorem does_safeClearDone_hold {c : BitVec 9} {s : State} (hclr : s.d.flt.clearing = true) (hmode : s.d.mode = .safe)
    (hblk : s.d.afe.blkStep = [])
    (hall : ∀ b, b < 9 → bit (s.d.rd Reg.FLT_SAFE_CAUSE) b = true → s.d.causeClear c b = true)
    (hjob : s.d.jobHeld = true) :
    Does (.safeClearDone c) s fun d => d.mode = .hold ∧ d.prev = .safe ∧ d.flt.clearing = false ∧ d.cox.st = 4 ∧
      bit d.hold hcFault = false ∧ d.rd Reg.FLT_SAFE_CAUSE = 0 ∧ d.tim = s.d.tim ∧ d.fsram = s.d.fsram := by
  have hexec := exec_safeClearDone (c := c) hclr hmode
  have hj := causesJudged_judged hblk 0
  have hjob' : (s.d.causesJudged 0).jobHeld = true := (jobHeld_congr hj.jobs).trans hjob
  rw [causesLeft_none hall, Dev.safeEnd, if_pos rfl, leaveSafe_hold hjob'] at hexec
  have hm : (s.d.causesJudged 0).faultOver.holdFed.mode = .safe := (holdFed_mode _).trans (hj.mode.trans hmode)
  have hne : (s.d.causesJudged 0).faultOver.holdFed.mode ≠ .hold := by rw [hm]; decide
  obtain ⟨hhold, hprev, -⟩ := setMode_mode hne
  have hover := (faultOver_safe hj).holdFed.setMode hne
  exact ⟨_, hexec, hhold, hprev.trans hm, hover.clearing, rfl, hover.hold, hover.cause, hover.tim, hover.fsram⟩

theorem does_safeClearDone_stays {c : BitVec 9} {b : Nat} {s : State} (hclr : s.d.flt.clearing = true)
    (hmode : s.d.mode = .safe) (hblk : s.d.afe.blkStep = []) (hb : b < 9)
    (hset : bit (s.d.rd Reg.FLT_SAFE_CAUSE) b = true) (hclear : s.d.causeClear c b = false) :
    Does (.safeClearDone c) s fun d => d.mode = .safe ∧ d.flt.clearing = false ∧ d.hold = s.d.hold ∧
      bit (d.rd Reg.FLT_SAFE_CAUSE) b = true ∧ ∀ o ∈ d.ops, o.op ≠ .faultClear := by
  have hleft := causesLeft_stays hb hset hclear
  have hsome : s.d.causesLeft c ≠ 0 := by
    intro h
    rw [h, bit_zero] at hleft
    exact Bool.false_ne_true hleft
  have hexec := exec_safeClearDone (c := c) hclr hmode
  rw [Dev.safeEnd, if_neg hsome] at hexec
  have hj := causesJudged_judged hblk (s.d.causesLeft c)
  have hq := quiet_endOps (s.d.causesJudged (s.d.causesLeft c)) (s.d.causesJudged (s.d.causesLeft c)).owner
    (fun o => o == Op.faultClear) stFault 0
  refine ⟨_, hexec, (hq.mode.trans hj.mode).trans hmode, ?_, hq.hold.trans hj.hold, ?_, fun o ho => ?_⟩
  · rw [hq.flt]
    exact hj.clearing
  · rw [hq.words Reg.FLT_SAFE_CAUSE (by decide)]
    refine (congrArg (bit · b) hj.cause).trans ?_
    rw [bit_mod_word _ (by omega)]
    exact hleft
  · rw [hq.ops] at ho
    obtain ⟨-, hno⟩ := List.mem_filter.mp ho
    simpa using hno

/-- Settles O48: the requests from their own checks' answers, and SAFE's end from the causes that are left. -/
theorem faultClearing : Obligations.FaultClearing := by
  unfold Obligations.FaultClearing
  refine ⟨fun h s hr => ⟨does_faultClearSafe_outside hr, does_faultClearSafe_failed hr, does_faultClearSafe hr,
      does_faultClearLog hr⟩, fun c s hclr hmode hblk hall => ⟨fun hjob hcom hheld hcal hdue =>
      does_safeClearDone_idle hclr hmode hblk hall hjob hcom ⟨hheld, hcal, hdue⟩,
      does_safeClearDone_hold hclr hmode hblk hall⟩,
    fun c b s hclr hmode hblk hb hset hclear => does_safeClearDone_stays hclr hmode hblk hb hset hclear⟩

end Sys2Proof.Machine
end

section
/-! PROOFS. The time counter: TIME_SET, TIME_ADJUST and the slew's end (R376, R377). -/

namespace Sys2Proof.Machine

open Sys2Proof

/-- A counter outside the NET page counts alike on devices that differ quietly. -/
theorem Quiet.bump {d e : Dev} (h : Quiet d e) {a : Nat} (ha : a / 65536 ≠ 12) : Quiet (d.bump a) (e.bump a) := by
  have hrd := h.words a ha
  unfold Dev.bump Dev.bumpBy
  rw [hrd]
  exact h.put a _

/-- Where only the clock's state, the words and the free values taken change between two quiet changes, the whole is
quiet but for those. -/
theorem Quiet.clocked {a b e d : Dev} (h : Quiet a b)
    (he : e = { b with tim := e.tim, regs := e.regs, frees := e.frees }) (hq : Quiet e d) :
    Quiet { a with tim := d.tim, regs := d.regs, frees := d.frees } d := by
  have hbase : Quiet { a with tim := e.tim, regs := e.regs, frees := e.frees }
      { b with tim := e.tim, regs := e.regs, frees := e.frees } :=
    { h with tim := rfl, frees := rfl, shd := rfl, held := rfl, heldBy := rfl, com := rfl, sn := rfl, act := rfl }
  rw [← he] at hbase
  have hall := hbase.chain hq
  exact { hall with tim := rfl, frees := rfl, shd := rfl, held := rfl, heldBy := rfl, com := rfl, sn := rfl, act := rfl }

/-- The same where no free value is taken. -/
theorem Quiet.timed {a b e d : Dev} (h : Quiet a b) (he : e = { b with tim := e.tim, regs := e.regs }) (hq : Quiet e d) :
    Quiet { a with tim := d.tim, regs := d.regs } d := by
  have hfrees : d.frees = a.frees := by rw [hq.frees, he]; exact h.frees
  have hall := h.clocked (e := e) (by rw [he]) hq
  exact { hall with frees := hfrees }

/-! An offset. -/

/-- `e` differs from `d` in the clock's state and in words. -/
def ClockOnly (d e : Dev) : Prop := e = { d with tim := e.tim, regs := e.regs }

theorem ClockOnly.trans {a b c : Dev} (h : ClockOnly a b) (g : ClockOnly b c) : ClockOnly a c := by
  unfold ClockOnly at h g
  rw [g, h, ClockOnly]

theorem ClockOnly.sess {d e : Dev} (h : ClockOnly d e) : e.sess = d.sess := by
  unfold ClockOnly at h
  rw [h]

theorem clockOnly_put (d : Dev) (a v : Nat) : ClockOnly d (d.put a v) := rfl

theorem clockOnly_bump (d : Dev) (a : Nat) : ClockOnly d (d.bump a) := rfl

theorem clockOnly_tim (d : Dev) (t : Tim) : ClockOnly d { d with tim := t } := rfl

/-- The clock stepped by an offset and what remains to be slewed. -/
def Dev.stepped (d : Dev) (o : Int) : Dev :=
  { d with tim := { d.tim with cnt := ((d.tim.cnt : Int) + (d.tim.slew + o)).toNat % 2 ^ 96, slew := 0 } }

/-- The offset is left to be slewed. -/
def Dev.slewed (d : Dev) (o : Int) : Dev := { d with tim := { d.tim with slew := d.tim.slew + o } }

/-- An offset steps the clock (R377). -/
def Dev.steps (d : Dev) (o : Int) : Prop :=
  d.rd Reg.TIM_STEP_THR * 2 ^ 32 < (d.tim.slew + o).natAbs ∧ d.jobHeld = false

theorem offset_steps {d : Dev} {o : Int} (h : d.steps o) : d.offset o = (d.stepped o).bump Reg.TIM_STEP_CNT := if_pos h

theorem offset_slews {d : Dev} {o : Int} (h : ¬ d.steps o) : d.offset o = d.slewed o := if_neg h

/-- An offset concerns the counter, the slew remainder and the count of steps. -/
theorem clockOnly_offset (d : Dev) (o : Int) : ClockOnly d (d.offset o) := by
  by_cases h : d.steps o
  · rw [offset_steps h]
    exact (clockOnly_tim d _).trans (clockOnly_bump (d.stepped o) _)
  · rw [offset_slews h]
    exact clockOnly_tim d _

theorem offset_tim (d : Dev) (o : Int) :
    (d.offset o).tim = { d.tim with cnt := (d.offset o).tim.cnt, slew := (d.offset o).tim.slew } := by
  by_cases h : d.steps o
  · rw [offset_steps h]
    simp only [Dev.bump_fields]
    rfl
  · rw [offset_slews h]
    rfl

theorem offset_rd (d : Dev) (o : Int) {a : Nat} (ha : a ≠ Reg.TIM_STEP_CNT) : (d.offset o).rd a = d.rd a := by
  by_cases h : d.steps o
  · rw [offset_steps h]
    exact rd_bump_ne _ ha
  · rw [offset_slews h]
    rfl

/-- An offset is taken of a device that reads the step's words, the job and the clock as another does. -/
theorem offset_taken {d e : Dev} (hthr : e.rd Reg.TIM_STEP_THR = d.rd Reg.TIM_STEP_THR)
    (hcnt : e.rd Reg.TIM_STEP_CNT = d.rd Reg.TIM_STEP_CNT) (hjob : e.jobHeld = d.jobHeld) (htime : e.tim.cnt = d.tim.cnt)
    (hslew : e.tim.slew = d.tim.slew) (o : Int) : OffsetTaken d (e.offset o) o := by
  refine ⟨fun hsmall => ?_, fun hbig hnone => ?_⟩
  · have hstay : ¬ e.steps o := by
      unfold Dev.steps
      rw [hthr, hslew, hjob]
      rintro ⟨hlt, hno⟩
      rcases hsmall with hle | hyes
      · exact absurd hlt (Nat.not_lt.mpr hle)
      · rw [hyes] at hno
        exact Bool.noConfusion hno
    rw [offset_slews hstay]
    exact ⟨congrArg (· + o) hslew, htime, hcnt⟩
  · have hstep : e.steps o := by
      unfold Dev.steps
      rw [hthr, hslew, hjob]
      exact ⟨hbig, hnone⟩
    have htim : ((e.stepped o).bump Reg.TIM_STEP_CNT).tim = (e.stepped o).tim := by simp only [Dev.bump_fields]
    have hnew : ((e.stepped o).bump Reg.TIM_STEP_CNT).rd Reg.TIM_STEP_CNT = min 0xFFFFFFFF (e.rd Reg.TIM_STEP_CNT + 1) :=
      rd_bump_self (e.stepped o) _
    rw [offset_steps hstep, hnew, htim, hcnt]
    refine ⟨rfl, ?_, rfl⟩
    rw [Dev.stepped, htime, hslew]

/-- Quiet changes behind an offset leave it taken. -/
theorem OffsetTaken.quiet {d e f : Dev} {o : Int} (h : OffsetTaken d e o) (hq : Quiet e f) : OffsetTaken d f o := by
  have hcnt := hq.words Reg.TIM_STEP_CNT (by decide)
  unfold OffsetTaken at h ⊢
  rw [hq.tim, hcnt]
  exact h

/-! TIME_SET (R376). -/

/-- The counter set, and the slew remainder cleared. -/
def Dev.timeSet (d : Dev) (ns frac : Nat) : Dev :=
  ({ d with tim := { d.tim with cnt := ns % 2 ^ 64 * 2 ^ 32 + frac % 2 ^ 32, slew := 0, src := 1 } }).bump Reg.TIM_SET_CNT

def timeSetAnswer (ns frac : Nat) (d : Dev) : Answer :=
  if d.jobHeld || d.ptpRules then no stBadState d else (stOk, [], d.timeSet ns frac)

theorem exec_timeSet (h : Req) (ns frac : Nat) (s : State) :
    exec (.timeSet h ns frac) s = s.onDev fun d => d.serve h 0x90 (timeSetAnswer ns frac) := rfl

theorem arrived_ptpRules (d : Dev) (h : Req) : (d.arrived h).ptpRules = d.ptpRules := by
  have hctrl : (d.arrived h).rd Reg.TIM_PTP_CTRL = d.rd Reg.TIM_PTP_CTRL :=
    (quiet_arrived d h).words Reg.TIM_PTP_CTRL (by decide)
  rw [Dev.ptpRules, Dev.rf, hctrl]
  rfl

theorem arrived_jobHeld (d : Dev) (h : Req) : (d.arrived h).jobHeld = d.jobHeld := rfl

/-! TIME_ADJUST (R377). -/

/-- The increment set, unless it is to stay. -/
def Dev.incrSet (d : Dev) (i : Nat) : Dev := if i = 0 then d else { d with tim := { d.tim with incr := i } }

/-- The increment set and the offset taken. -/
def Dev.timeAdjusted (d : Dev) (o : Int) (i : Nat) : Dev := ((d.incrSet i).bump Reg.TIM_ADJ_CNT).offset (o * 2 ^ 32)

/-- What TIME_ADJUST answers by its own checks. -/
def timeAdjustAnswer (o : Int) (i : Nat) (d : Dev) : Answer :=
  if d.ptpRules then no stBadState d
  else if i ≠ 0 ∧ (i < 21968242323 ∨ 22012222789 < i) then no stBadParam d
  else (stOk, [], d.timeAdjusted o i)

theorem exec_timeAdjust (h : Req) (o : Int) (i : Nat) (s : State) :
    exec (.timeAdjust h o i) s = s.onDev fun d => d.serve h 0x91 (timeAdjustAnswer o i) := rfl

theorem incrSet_eq (d : Dev) (i : Nat) :
    d.incrSet i = { d with tim := { d.tim with incr := if i = 0 then d.tim.incr else i } } := by
  unfold Dev.incrSet
  split <;> rfl

theorem clockOnly_incrSet (d : Dev) (i : Nat) : ClockOnly d (d.incrSet i) := by
  unfold Dev.incrSet
  split <;> rfl

theorem clockOnly_timeAdjusted (d : Dev) (o : Int) (i : Nat) : ClockOnly d (d.timeAdjusted o i) :=
  ((clockOnly_incrSet d i).trans (clockOnly_bump _ _)).trans (clockOnly_offset _ _)

theorem incrSet_bump_tim (d : Dev) (i : Nat) :
    ((d.incrSet i).bump Reg.TIM_ADJ_CNT).tim = { d.tim with incr := if i = 0 then d.tim.incr else i } := by
  simp only [Dev.bump_fields, incrSet_eq]

theorem timeAdjusted_tim (d : Dev) (o : Int) (i : Nat) : (d.timeAdjusted o i).tim =
    { d.tim with cnt := (d.timeAdjusted o i).tim.cnt, slew := (d.timeAdjusted o i).tim.slew
                 incr := if i = 0 then d.tim.incr else i } := by
  unfold Dev.timeAdjusted
  have htim := offset_tim ((d.incrSet i).bump Reg.TIM_ADJ_CNT) (o * 2 ^ 32)
  rw [incrSet_bump_tim] at htim
  exact htim

theorem timeAdjusted_caches (d : Dev) (o : Int) (i : Nat) : (d.timeAdjusted o i).caches = d.caches :=
  caches_of_sess (clockOnly_timeAdjusted d o i).sess

theorem incrSet_rd (d : Dev) (i a : Nat) : (d.incrSet i).rd a = d.rd a := by
  rw [incrSet_eq]
  rfl

theorem timeAdjusted_rd (d : Dev) (o : Int) (i : Nat) {a : Nat} (hadj : a ≠ Reg.TIM_ADJ_CNT) (hstep : a ≠ Reg.TIM_STEP_CNT) :
    (d.timeAdjusted o i).rd a = d.rd a :=
  (offset_rd _ _ hstep).trans ((rd_bump_ne _ hadj).trans (incrSet_rd d i a))

theorem timeAdjusted_count (d : Dev) (o : Int) (i : Nat) :
    (d.timeAdjusted o i).rd Reg.TIM_ADJ_CNT = min 0xFFFFFFFF (d.rd Reg.TIM_ADJ_CNT + 1) := by
  rw [Dev.timeAdjusted, offset_rd _ _ (by decide), rd_bump_self, incrSet_rd]

theorem timeAdjusted_taken {d b : Dev} (hq : Quiet d b) (hjobs : b.jobs = d.jobs) (o : Int) (i : Nat) :
    OffsetTaken d (b.timeAdjusted o i) (o * 2 ^ 32) := by
  have hcounted : ∀ a, a / 65536 ≠ 12 → a ≠ Reg.TIM_ADJ_CNT → ((b.incrSet i).bump Reg.TIM_ADJ_CNT).rd a = d.rd a :=
    fun a hpage hadj => (rd_bump_ne _ hadj).trans ((incrSet_rd _ i a).trans (hq.words a hpage))
  have htim := incrSet_bump_tim b i
  rw [hq.tim] at htim
  have hsame : ((b.incrSet i).bump Reg.TIM_ADJ_CNT).jobs = d.jobs := by
    simp only [Dev.bump_fields, incrSet_eq, hjobs]
  exact offset_taken (hcounted _ (by decide) (by decide)) (hcounted _ (by decide) (by decide)) (jobHeld_congr hsame)
    (by rw [htim]) (by rw [htim]) _

section Requests
variable {h : Req} {s : State} (hr : Ready h s.d)
include hr

theorem does_timeSet {ns frac : Nat} (hjob : s.d.jobHeld = false) (hptp : s.d.ptpRules = false) :
    Does (.timeSet h ns frac) s fun d => d.tim = { s.d.tim with
        cnt := ns % 2 ^ 64 * 2 ^ 32 + frac % 2 ^ 32, slew := 0, src := 1 } ∧ Replied d h 0x90 stOk [] ∧
      d.rd Reg.TIM_SET_CNT = min 0xFFFFFFFF (s.d.rd Reg.TIM_SET_CNT + 1) ∧
      Quiet { s.d.bump Reg.TIM_SET_CNT with tim := d.tim } d := by
  have harr : Quiet s.d (s.d.arrived h) := quiet_arrived s.d h
  have hk : timeSetAnswer ns frac (s.d.arrived h) = (stOk, [], (s.d.arrived h).timeSet ns frac) := by
    rw [timeSetAnswer, arrived_jobHeld, arrived_ptpRules, hjob, hptp]
    rfl
  refine (does_serve_arrived (exec_timeSet h ns frac s) hr (by decide) hk rfl).imp fun d ⟨hq, hrep⟩ => ?_
  have hset : Quiet (s.d.timeSet ns frac) ((s.d.arrived h).timeSet ns frac) := by
    have htim : Quiet { s.d with tim := { s.d.tim with cnt := ns % 2 ^ 64 * 2 ^ 32 + frac % 2 ^ 32, slew := 0, src := 1 } }
        { s.d.arrived h with tim := { (s.d.arrived h).tim with
          cnt := ns % 2 ^ 64 * 2 ^ 32 + frac % 2 ^ 32, slew := 0, src := 1 } } :=
      { harr with tim := by rw [harr.tim] }
    exact htim.bump (by decide)
  have hall := hset.chain hq
  have htim : d.tim = { s.d.tim with cnt := ns % 2 ^ 64 * 2 ^ 32 + frac % 2 ^ 32, slew := 0, src := 1 } := hall.tim
  refine ⟨htim, hrep, (hall.words Reg.TIM_SET_CNT (by decide)).trans (rd_bump_self _ _), ?_⟩
  rw [htim]
  exact hall

theorem does_timeSet_refused {ns frac : Nat} (hno : s.d.jobHeld = true ∨ s.d.ptpRules = true) :
    Does (.timeSet h ns frac) s fun d => Quiet s.d d ∧ Replied d h 0x90 stBadState [] := by
  have hk : timeSetAnswer ns frac (s.d.arrived h) = (stBadState, [], s.d.arrived h) := by
    rw [timeSetAnswer, arrived_jobHeld, arrived_ptpRules, if_pos (by simpa using hno)]
    rfl
  exact (does_serve_arrived (exec_timeSet h ns frac s) hr (by decide) hk rfl).imp fun d ⟨hq, hrep⟩ =>
    ⟨(quiet_arrived s.d h).chain hq, hrep⟩

theorem does_timeAdjust {o : Int} {i : Nat} (hptp : s.d.ptpRules = false)
    (hi : i = 0 ∨ 21968242323 ≤ i ∧ i ≤ 22012222789) :
    Does (.timeAdjust h o i) s fun d => Replied d h 0x91 stOk [] ∧
      d.tim = { s.d.tim with cnt := d.tim.cnt, slew := d.tim.slew, incr := if i = 0 then s.d.tim.incr else i } ∧
      OffsetTaken s.d d (o * 2 ^ 32) ∧ d.rd Reg.TIM_ADJ_CNT = min 0xFFFFFFFF (s.d.rd Reg.TIM_ADJ_CNT + 1) ∧
      (∀ a, a / 65536 ≠ 12 → a ≠ Reg.TIM_ADJ_CNT → a ≠ Reg.TIM_STEP_CNT → d.rd a = s.d.rd a) ∧
      Quiet { s.d with tim := d.tim, regs := d.regs } d := by
  have harr : Quiet s.d (s.d.arrived h) := quiet_arrived s.d h
  have hok : ¬ (i ≠ 0 ∧ (i < 21968242323 ∨ 22012222789 < i)) := by omega
  have hk : timeAdjustAnswer o i (s.d.arrived h) = (stOk, [], (s.d.arrived h).timeAdjusted o i) := by
    rw [timeAdjustAnswer, arrived_ptpRules, hptp, if_neg Bool.false_ne_true, if_neg hok]
  refine (does_serve_arrived (exec_timeAdjust h o i s) hr (by decide) hk (timeAdjusted_caches _ o i)).imp
    fun d ⟨hq, hrep⟩ => ?_
  have hrd : ∀ a, a / 65536 ≠ 12 → a ≠ Reg.TIM_ADJ_CNT → a ≠ Reg.TIM_STEP_CNT → d.rd a = s.d.rd a := fun a hpage hadj hstep =>
    (hq.words a hpage).trans ((timeAdjusted_rd _ o i hadj hstep).trans (harr.words a hpage))
  refine ⟨hrep, ?_, ?_, ?_, hrd, harr.timed (clockOnly_timeAdjusted _ o i) hq⟩
  · rw [hq.tim]
    exact timeAdjusted_tim _ o i
  · exact (timeAdjusted_taken harr rfl o i).quiet hq
  · rw [hq.words Reg.TIM_ADJ_CNT (by decide), timeAdjusted_count, harr.words Reg.TIM_ADJ_CNT (by decide)]

theorem does_timeAdjust_ruled {o : Int} {i : Nat} (hptp : s.d.ptpRules = true) :
    Does (.timeAdjust h o i) s fun d => Quiet s.d d ∧ Replied d h 0x91 stBadState [] := by
  have hk : timeAdjustAnswer o i (s.d.arrived h) = (stBadState, [], s.d.arrived h) := by
    rw [timeAdjustAnswer, arrived_ptpRules, if_pos hptp]
    rfl
  exact (does_serve_arrived (exec_timeAdjust h o i s) hr (by decide) hk rfl).imp fun d ⟨hq, hrep⟩ =>
    ⟨(quiet_arrived s.d h).chain hq, hrep⟩

theorem does_timeAdjust_range {o : Int} {i : Nat} (hptp : s.d.ptpRules = false) (hi : i ≠ 0)
    (hout : i < 21968242323 ∨ 22012222789 < i) :
    Does (.timeAdjust h o i) s fun d => Quiet s.d d ∧ Replied d h 0x91 stBadParam [] := by
  have hk : timeAdjustAnswer o i (s.d.arrived h) = (stBadParam, [], s.d.arrived h) := by
    rw [timeAdjustAnswer, arrived_ptpRules, hptp, if_neg Bool.false_ne_true, if_pos ⟨hi, hout⟩]
    rfl
  exact (does_serve_arrived (exec_timeAdjust h o i s) hr (by decide) hk rfl).imp fun d ⟨hq, hrep⟩ =>
    ⟨(quiet_arrived s.d h).chain hq, hrep⟩

end Requests

end Sys2Proof.Machine
end

section
/-! PROOFS. The slew's end, and what PTP reads and sends (R377, R379 to R381). -/

namespace Sys2Proof.Machine

open Sys2Proof

/-! The slew's end (R377). -/

theorem le_ceilDiv_mul {a b : Nat} (hb : 0 < b) : a ≤ ceilDiv a b * b := by
  have h := Nat.div_add_mod (a + b - 1) b
  have hlt := Nat.mod_lt (a + b - 1) hb
  rw [Nat.mul_comm] at h
  unfold ceilDiv
  omega

/-- The ticks that the slew remainder still takes leave none of it. -/
theorem ticks_slewed {d : Dev} {n : Nat} (hn : d.tim.slew.natAbs ≤ n * d.slewStep) : d.ticks n =
    { d with tim := { d.tim with
      cnt := (((d.tim.cnt + n * d.tim.incr : Nat) : Int) + d.tim.slew).toNat % 2 ^ 96, slew := 0
      rep := (d.tim.rep + n * d.tim.repIncr) % 2 ^ 96 } } := by
  have hsign : (if d.tim.slew < 0 then -(d.tim.slew.natAbs : Int) else (d.tim.slew.natAbs : Int)) = d.tim.slew := by
    split <;> omega
  unfold Dev.ticks
  rw [Nat.min_eq_right hn]
  dsimp only
  rw [hsign, Int.sub_self]

theorem does_timeSlewEnd {s : State} (hstep : 0 < s.d.slewStep) :
    Does .timeSlewEnd s fun d => d.tim.slew = 0 ∧
      d.tim.cnt =
        ((s.d.tim.cnt + ceilDiv s.d.tim.slew.natAbs s.d.slewStep * s.d.tim.incr : Nat) + s.d.tim.slew).toNat % 2 ^ 96 ∧
      d.now = s.d.now + 4 * ceilDiv s.d.tim.slew.natAbs s.d.slewStep ∧ d = { s.d with now := d.now, tim := d.tim } := by
  let n := ceilDiv s.d.tim.slew.natAbs s.d.slewStep
  have hexec : exec .timeSlewEnd s = .next { s with d := s.d.elapse (4 * n) } := by
    show execTimeSlewEnd s = _
    rw [execTimeSlewEnd, onDev_next, Nat.max_eq_right hstep]
  have hticks : (s.d.now + 4 * n) / 4 - s.d.now / 4 = n := by omega
  have hend := ticks_slewed (le_ceilDiv_mul (a := s.d.tim.slew.natAbs) hstep)
  rw [Dev.elapse, hticks] at hexec
  rw [hend] at hexec
  exact ⟨_, hexec, rfl, rfl, rfl, rfl⟩

/-! What PTP reads. -/

/-- The words that counting a PTP message and its latency moves. -/
def heardWord (a : Nat) : Bool :=
  counted a || a == Reg.TIM_PTP_IRQ_LAT || a == Reg.TIM_PTP_RX_CNT || a == Reg.TIM_PTP_TX_CNT

/-- `e` is as `d` is to PTP, but for the clock's state and the counters of messages. -/
structure PtpSame (d e : Dev) : Prop where
  words : ∀ a, heardWord a = false → e.rd a = d.rd a
  mode : e.mode = d.mode
  bzl : e.bzl = d.bzl
  jobs : e.jobs = d.jobs
  net : e.net = d.net
  tx : e.tx = d.tx

theorem PtpSame.refl (d : Dev) : PtpSame d d := ⟨fun _ _ => rfl, rfl, rfl, rfl, rfl, rfl⟩

theorem PtpSame.trans {a b c : Dev} (h : PtpSame a b) (g : PtpSame b c) : PtpSame a c where
  words w hw := (g.words w hw).trans (h.words w hw)
  mode := g.mode.trans h.mode
  bzl := g.bzl.trans h.bzl
  jobs := g.jobs.trans h.jobs
  net := g.net.trans h.net
  tx := g.tx.trans h.tx

theorem ptpSame_put (d : Dev) {a : Nat} (v : Nat) (ha : heardWord a = true) : PtpSame d (d.put a v) where
  words w hw := Dev.rd_put_ne d a w v fun h => by rw [h, ha] at hw; exact Bool.noConfusion hw
  mode := rfl
  bzl := rfl
  jobs := rfl
  net := rfl
  tx := rfl

theorem ptpSame_until (d : Dev) (c : Nat) : PtpSame d (d.until_ c) := ⟨fun _ _ => rfl, rfl, rfl, rfl, rfl, rfl⟩

theorem ptpSame_rxFrame (d : Dev) (p : NetPort) : PtpSame d (d.rxFrame p) := by
  have hcounted : heardWord (Reg.NET_P_RX_FRAME_CNT (portIx p)) = true := by cases p <;> decide
  exact ptpSame_put d _ hcounted

section PtpSame
variable {d e : Dev} (h : PtpSame d e)
include h

theorem PtpSame.rf {a : Nat} (ha : heardWord a = false) (hi lo : Nat) : e.rf a hi lo = d.rf a hi lo := by
  rw [Dev.rf, h.words a ha, Dev.rf]

theorem PtpSame.ptpPort : e.ptpPort = d.ptpPort := by rw [Dev.ptpPort, h.rf (by decide), Dev.ptpPort]

theorem PtpSame.ptpRow : e.ptpRow = d.ptpRow := by
  have hcfg : ∀ p, e.rf (cfgAddr p) 29 28 = d.rf (cfgAddr p) 29 28 := fun p => h.rf (by cases p <;> decide) 29 28
  rw [Dev.ptpRow, h.ptpPort, Dev.ptpRow]
  cases d.ptpPort <;> simp only [hcfg]

theorem PtpSame.tRx (c l o : Nat) : e.tRx c l o = d.tRx c l o := by
  simp only [Dev.tRx, h.ptpRow, h.rf (a := Reg.TIM_PTP_LAT) (by decide)]

theorem PtpSame.tTx (c l : Nat) : e.tTx c l = d.tTx c l := by
  simp only [Dev.tTx, h.ptpRow, h.rf (a := Reg.TIM_PTP_LAT) (by decide)]

theorem PtpSame.fromMaster (t o : Int) : e.fromMaster t o = d.fromMaster t o := by
  rw [Dev.fromMaster, h.words Reg.TIM_PTP_MPD (by decide), h.words Reg.TIM_PTP_ASYM (by decide), Dev.fromMaster]

theorem PtpSame.ptpTakes (n : Nat) (b : Bool) : e.ptpTakes n b = d.ptpTakes n b := by
  simp only [Dev.ptpTakes, h.rf (a := Reg.TIM_PTP_CTRL) (by decide)]

theorem PtpSame.clockId : e.clockId = d.clockId := by rw [Dev.clockId, h.ptpPort, Dev.clockId]

theorem PtpSame.ownDs : e.ownDs = d.ownDs := by
  simp only [Dev.ownDs, h.rf (a := Reg.TIM_PTP_DS) (by decide), h.clockId]

theorem PtpSame.ptpHead (k : Nat) : e.ptpHead k = d.ptpHead k := by
  simp only [Dev.ptpHead, h.rf (a := Reg.TIM_PTP_CTRL) (by decide), h.clockId, h.ownDs]

theorem PtpSame.canSend (p : NetPort) (c : Nat) : e.canSend p c = d.canSend p c := by
  have hstat : e.rd (Reg.NET_P_STAT (portIx p)) = d.rd (Reg.NET_P_STAT (portIx p)) := h.words _ (by cases p <;> decide)
  have hpcp : e.rd (Reg.NET_P_PCP (portIx p)) = d.rd (Reg.NET_P_PCP (portIx p)) := h.words _ (by cases p <;> decide)
  simp only [Dev.canSend, Dev.served, Dev.link, Dev.pcp, h.mode, h.bzl, h.net, hstat, hpcp]

theorem PtpSame.ptpRules (htim : e.tim.ptp = d.tim.ptp) : e.ptpRules = d.ptpRules := by
  simp only [Dev.ptpRules, h.rf (a := Reg.TIM_PTP_CTRL) (by decide), htim]

/-- A message sent has the head of the device that it is sent for. -/
theorem PtpSame.sent (k q : Nat) (t : Int) : PtpSent d (e.ptpSend k q t) k q t := by
  rw [Dev.ptpSend, h.ptpPort, h.ptpHead]
  refine ⟨fun hcan => ?_, fun hcannot => ?_⟩
  · rw [← h.tx]
    exact send_tx ((h.canSend _ _).trans hcan) _
  · rw [← h.tx, Dev.send, if_neg (by rw [h.canSend, hcannot]; decide)]

end PtpSame

/-- Sending a PTP message touches no word outside the NET page and no state of the clock. -/
theorem quiet_ptpSend (d : Dev) (k q : Nat) (t : Int) : Quiet d (d.ptpSend k q t) := quiet_send _ _ _ _

/-! The servo (R381). -/

theorem satNs_word (o : Int) : satNs o % 2 ^ 32 = satNs o := by
  refine Nat.mod_eq_of_lt ?_
  unfold satNs twos
  omega

/-- The offset of a Sync is reported, its timestamp no longer pending. -/
def Dev.offsetShown (d : Dev) (t o : Int) : Dev :=
  { d with tim := { d.tim with sync := none, t21 := t - o } }.put Reg.TIM_PTP_OFS (satNs (d.fromMaster t o))

/-- The device that the servo hands its proportional term to: locked or not, with a new increment. -/
def Dev.servoSet (d : Dev) (m : Int) : Dev :=
  let within := decide (m.natAbs < d.rd Reg.TIM_PTP_LOCK_THR * 2 ^ 32)
  let good := if within then min 16 (d.tim.good + 1) else 0
  let r := d.free 20
  let d := r.2
  { d with tim := { d.tim with
    good := good, lock := within && (d.tim.lock || good == 16), src := 2
    incr := 21968242323 + r.1.toNat % 43980467, ptp := 9 } }

theorem takeSync_eq (d : Dev) (t o : Int) : d.takeSync t o =
    (((d.offsetShown t o).servoSet (d.fromMaster t o)).bump Reg.TIM_ADJ_CNT).offset
      (-(d.fromMaster t o * ((d.offsetShown t o).servoSet (d.fromMaster t o)).rf Reg.TIM_PTP_SERVO 31 16 / 65536)) := rfl

/-- `e` differs from `d` in the clock's state, in words and in the free values taken. -/
def ServoOnly (d e : Dev) : Prop := e = { d with tim := e.tim, regs := e.regs, frees := e.frees }

theorem ClockOnly.servo {d e : Dev} (h : ClockOnly d e) : ServoOnly d e := by
  unfold ClockOnly at h
  rw [h, ServoOnly]

theorem ServoOnly.trans {a b c : Dev} (h : ServoOnly a b) (g : ServoOnly b c) : ServoOnly a c := by
  unfold ServoOnly at h g
  rw [g, h, ServoOnly]

theorem servoOnly_servoSet (d : Dev) (m : Int) : ServoOnly d (d.servoSet m) := rfl

theorem clockOnly_offsetShown (d : Dev) (t o : Int) : ClockOnly d (d.offsetShown t o) :=
  (clockOnly_tim d _).trans (clockOnly_put _ _ _)

theorem servoOnly_takeSync (d : Dev) (t o : Int) : ServoOnly d (d.takeSync t o) := by
  rw [takeSync_eq]
  exact (clockOnly_offsetShown d t o).servo.trans ((servoOnly_servoSet _ _).trans
    ((clockOnly_bump _ _).trans (clockOnly_offset _ _)).servo)

theorem servoSet_rd (d : Dev) (m : Int) (a : Nat) : (d.servoSet m).rd a = d.rd a := rfl

theorem offsetShown_rd (d : Dev) (t o : Int) {a : Nat} (ha : a ≠ Reg.TIM_PTP_OFS) : (d.offsetShown t o).rd a = d.rd a :=
  Dev.rd_put_ne _ _ _ _ ha

theorem takeSync_rd (d : Dev) (t o : Int) {a : Nat} (hofs : a ≠ Reg.TIM_PTP_OFS) (hadj : a ≠ Reg.TIM_ADJ_CNT)
    (hstep : a ≠ Reg.TIM_STEP_CNT) : (d.takeSync t o).rd a = d.rd a := by
  rw [takeSync_eq, offset_rd _ _ hstep, rd_bump_ne _ hadj, servoSet_rd, offsetShown_rd d t o hofs]

/-- The servo locks with its sixteenth good Sync in succession, or stays locked. -/
theorem locked_iff (b l : Bool) (g : Nat) :
    (b && (l || (if b = true then min 16 (g + 1) else 0) == 16)) = (b && (l || decide (15 ≤ g))) := by
  cases b
  · rfl
  · have hmin : (min 16 (g + 1) == 16) = decide (15 ≤ g) := by
      by_cases hg : 15 ≤ g
      · rw [decide_eq_true hg, Nat.min_eq_left (by omega)]
        rfl
      · rw [decide_eq_false hg, beq_eq_false_iff_ne]
        omega
    rw [if_pos rfl, hmin]

section Servo
variable {d e : Dev} (h : PtpSame d e) (htim : e.tim = d.tim) (t o : Int)
include h

theorem servo_ofs : (e.takeSync t o).rd Reg.TIM_PTP_OFS = satNs (d.fromMaster t o) := by
  rw [takeSync_eq, offset_rd _ _ (by decide), rd_bump_ne _ (by decide), servoSet_rd, Dev.offsetShown, Dev.rd_put_self,
    satNs_word, h.fromMaster]

theorem servo_adj : (e.takeSync t o).rd Reg.TIM_ADJ_CNT = min 0xFFFFFFFF (d.rd Reg.TIM_ADJ_CNT + 1) := by
  rw [takeSync_eq, offset_rd _ _ (by decide), rd_bump_self, servoSet_rd, offsetShown_rd e t o (by decide),
    h.words Reg.TIM_ADJ_CNT (by decide)]

include htim

/-- What the servo makes of the clock before the proportional term. -/
theorem servoSet_tim : (((e.offsetShown t o).servoSet (e.fromMaster t o)).bump Reg.TIM_ADJ_CNT).tim = { d.tim with
    incr := 21968242323 + (Config.freeValue 20 e.frees).toNat % 43980467
    src := 2, ptp := 9, sync := none, t21 := t - o
    good := if (d.fromMaster t o).natAbs < d.rd Reg.TIM_PTP_LOCK_THR * 2 ^ 32 then min 16 (d.tim.good + 1) else 0
    lock := decide ((d.fromMaster t o).natAbs < d.rd Reg.TIM_PTP_LOCK_THR * 2 ^ 32) &&
      (d.tim.lock || decide (15 ≤ d.tim.good)) } := by
  have hthr : (e.offsetShown t o).rd Reg.TIM_PTP_LOCK_THR = d.rd Reg.TIM_PTP_LOCK_THR :=
    (offsetShown_rd e t o (by decide)).trans (h.words _ (by decide))
  have hshown : (e.offsetShown t o).tim = { d.tim with sync := none, t21 := t - o } := by
    rw [← htim]
    rfl
  have hfree : ((e.offsetShown t o).free 20).2.tim = { d.tim with sync := none, t21 := t - o } := hshown
  have hvalue : ((e.offsetShown t o).free 20).1 = Config.freeValue 20 e.frees := rfl
  simp only [Dev.bump_fields]
  unfold Dev.servoSet
  rw [hthr, h.fromMaster]
  dsimp only
  rw [hvalue, hfree, hshown]
  dsimp only
  rw [locked_iff]
  simp only [decide_eq_true_eq]

/-- The proportional term is taken as an offset. -/
theorem servo_off : OffsetTaken d (e.takeSync t o) (-(d.fromMaster t o * (d.rf Reg.TIM_PTP_SERVO 31 16 : Nat) / 65536)) := by
  have hrd : ∀ a, heardWord a = false → a ≠ Reg.TIM_PTP_OFS → a ≠ Reg.TIM_ADJ_CNT →
      (((e.offsetShown t o).servoSet (e.fromMaster t o)).bump Reg.TIM_ADJ_CNT).rd a = d.rd a := fun a ha hofs hadj =>
    (rd_bump_ne _ hadj).trans ((offsetShown_rd e t o hofs).trans (h.words a ha))
  have hgain : ((e.offsetShown t o).servoSet (e.fromMaster t o)).rf Reg.TIM_PTP_SERVO 31 16 =
      d.rf Reg.TIM_PTP_SERVO 31 16 := by
    rw [Dev.rf, servoSet_rd, offsetShown_rd e t o (by decide), h.words _ (by decide), Dev.rf]
  have hset := servoSet_tim h htim t o
  have hjobs : (((e.offsetShown t o).servoSet (e.fromMaster t o)).bump Reg.TIM_ADJ_CNT).jobs = d.jobs := by
    rw [← h.jobs]
    simp only [Dev.bump_fields]
    rfl
  have htaken := offset_taken (hrd _ (by decide) (by decide) (by decide)) (hrd _ (by decide) (by decide) (by decide))
    (jobHeld_congr hjobs) (by rw [hset]) (by rw [hset])
    (-(d.fromMaster t o * (d.rf Reg.TIM_PTP_SERVO 31 16 : Nat) / 65536))
  rw [takeSync_eq, hgain, h.fromMaster]
  rw [h.fromMaster] at htaken
  exact htaken

theorem servo_took : ServoTook d (e.takeSync t o) t o := by
  have hset := servoSet_tim h htim t o
  have hoff := offset_tim (((e.offsetShown t o).servoSet (e.fromMaster t o)).bump Reg.TIM_ADJ_CNT)
    (-(e.fromMaster t o * ((e.offsetShown t o).servoSet (e.fromMaster t o)).rf Reg.TIM_PTP_SERVO 31 16 / 65536))
  rw [← takeSync_eq, hset] at hoff
  have hincr : (e.takeSync t o).tim.incr = 21968242323 + (Config.freeValue 20 e.frees).toNat % 43980467 := by rw [hoff]
  refine ⟨servo_ofs h t o, ?_, ?_, servo_adj h t o, servo_off h htim t o⟩
  · rw [hincr]
    exact hoff
  · rw [hincr]
    omega

end Servo

end Sys2Proof.Machine
end

section
/-! PROOFS. PTP messages (R379 to R381). -/

namespace Sys2Proof.Machine

open Sys2Proof

/-! Received event messages. -/

/-- The device that has heard an event message: the frame and its latency are counted. -/
def Dev.ptpHeard (d : Dev) (c l : Nat) : Dev := ((d.until_ c).rxFrame d.ptpPort).irqLat l

/-- What an event message of the device's domain comes to, received at the time `t`. -/
def Dev.ptpUse (d : Dev) (m : PtpMsg) (t : Int) : Dev :=
  match m with
  | .sync q => if d.ptpRules then { d with tim := { d.tim with sync := some (q, t) } } else d
  | .syncOneStep o => if d.ptpRules then d.takeSync t o else d
  | .delayReq q => if d.tim.ptp == 6 then d.ptpSend 9 q t else d
  | .pdelayReq q => d.ptpSend 3 q t
  | .pdelayResp q turn =>
    match d.tim.dreq with
    | some (q', t1) =>
      if q' = q ∧ d.rf Reg.TIM_PTP_CTRL 30 30 = 1 then
        ({ d with tim := { d.tim with dreq := none } }).put Reg.TIM_PTP_MPD (satNs ((t - t1 - turn) / 2))
      else d
    | none => d

/-- What a received event message in time comes to, once it has been counted. -/
def Dev.ptpEvent (d : Dev) (m : PtpEvent) (l o : Nat) : Dev :=
  if !d.ptpTakes m.domain m.ip6 then d else d.ptpUse m.msg (d.tRx d.tim.cnt l o)

theorem ptpSame_irqLat (d : Dev) (l : Nat) : PtpSame d (d.irqLat l) := ptpSame_put d _ (by decide)

theorem irqLat_rd (d : Dev) (l : Nat) {a : Nat} (ha : a ≠ Reg.TIM_PTP_IRQ_LAT) : (d.irqLat l).rd a = d.rd a :=
  Dev.rd_put_ne _ _ _ _ ha

theorem clockOnly_irqLat (d : Dev) (l : Nat) : ClockOnly d (d.irqLat l) := clockOnly_put d _ _

theorem clockOnly_rxFrame (d : Dev) (p : NetPort) : ClockOnly d (d.rxFrame p) := clockOnly_bump d _

theorem ptpHeard_same (d : Dev) (c l : Nat) : PtpSame (d.until_ c) (d.ptpHeard c l) :=
  (ptpSame_rxFrame _ _).trans (ptpSame_irqLat _ l)

theorem ptpHeard_tim (d : Dev) (c l : Nat) : (d.ptpHeard c l).tim = (d.until_ c).tim := rfl

theorem clockOnly_ptpHeard (d : Dev) (c l : Nat) : ClockOnly (d.until_ c) (d.ptpHeard c l) :=
  (clockOnly_rxFrame _ _).trans (clockOnly_irqLat _ l)

/-- A counter of PTP's own is not moved by hearing a message. -/
theorem ptpHeard_rd (d : Dev) (c l : Nat) {a : Nat} (hpage : a / 65536 ≠ 12) (ha : a ≠ Reg.TIM_PTP_IRQ_LAT) :
    (d.ptpHeard c l).rd a = (d.until_ c).rd a :=
  (irqLat_rd _ l ha).trans ((quiet_rxFrame _ _).words a hpage)

section Received
variable {s : State} (hon : s.d.ptpOn = true)
include hon

theorem exec_ptpEventRx_late (m : PtpEvent) {c l : Nat} (o : Nat) (hlate : lateL l = true) :
    exec (.ptpEventRx m c l o) s = .next { s with d := (s.d.ptpHeard c l).bump Reg.TIM_PTP_LAT_DROP_CNT } := by
  show execPtpEventRx m c l o s = _
  rw [execPtpEventRx, onDev_next, if_neg (by rw [hon]; decide), if_pos hlate]
  rfl

theorem exec_ptpEventRx (m : PtpEvent) {c l : Nat} (o : Nat) (hlate : lateL l = false) :
    exec (.ptpEventRx m c l o) s = .next { s with d := ((s.d.ptpHeard c l).bump Reg.TIM_PTP_RX_CNT).ptpEvent m l o } := by
  show execPtpEventRx m c l o s = _
  rw [execPtpEventRx, onDev_next, if_neg (by rw [hon]; decide), if_neg (by rw [hlate]; decide)]
  rfl

theorem does_ptpEventRx_late (m : PtpEvent) {c l : Nat} (o : Nat) (hlate : lateL l = true) :
    Does (.ptpEventRx m c l o) s fun d => d.tim = (s.d.until_ c).tim ∧ d.tx = s.d.tx ∧
      d.rd Reg.TIM_PTP_LAT_DROP_CNT = min 0xFFFFFFFF (s.d.rd Reg.TIM_PTP_LAT_DROP_CNT + 1) ∧
      Quiet { (s.d.until_ c) with regs := d.regs } d := by
  have htim : ((s.d.ptpHeard c l).bump Reg.TIM_PTP_LAT_DROP_CNT).tim = (s.d.until_ c).tim := by
    simp only [Dev.bump_fields, ptpHeard_tim]
  have htx : ((s.d.ptpHeard c l).bump Reg.TIM_PTP_LAT_DROP_CNT).tx = s.d.tx := by
    simp only [Dev.bump_fields, (ptpHeard_same s.d c l).tx, Dev.until_fields]
  have hclock : ClockOnly (s.d.until_ c) ((s.d.ptpHeard c l).bump Reg.TIM_PTP_LAT_DROP_CNT) :=
    (clockOnly_ptpHeard _ c l).trans (clockOnly_bump _ _)
  have hq := (Quiet.refl (s.d.until_ c)).timed hclock (Quiet.refl _)
  refine ⟨_, exec_ptpEventRx_late hon m o hlate, htim, htx, ?_, { hq with tim := htim }⟩
  rw [rd_bump_self, ptpHeard_rd _ c l (by decide) (by decide)]
  rfl

end Received

/-! A message that has been counted. -/

/-- The device on which a message in time is used: it has been heard and counted. -/
def Dev.ptpIn (d : Dev) (c l : Nat) : Dev := (d.ptpHeard c l).bump Reg.TIM_PTP_RX_CNT

section Counted
variable (d : Dev) (c l : Nat)

theorem ptpIn_same : PtpSame (d.until_ c) (d.ptpIn c l) :=
  (ptpHeard_same d c l).trans (ptpSame_put _ _ (by decide))

theorem ptpIn_tim : (d.ptpIn c l).tim = (d.until_ c).tim := by
  simp only [Dev.ptpIn, Dev.bump_fields, ptpHeard_tim]

theorem clockOnly_ptpIn : ClockOnly (d.until_ c) (d.ptpIn c l) := (clockOnly_ptpHeard _ c l).trans (clockOnly_bump _ _)

theorem ptpIn_count : (d.ptpIn c l).rd Reg.TIM_PTP_RX_CNT = min 0xFFFFFFFF ((d.until_ c).rd Reg.TIM_PTP_RX_CNT + 1) := by
  rw [Dev.ptpIn, rd_bump_self, ptpHeard_rd _ c l (by decide) (by decide)]

/-- What is made of a counted message, beyond the clock's state and words, is quiet. -/
theorem ptpRx_of {e f : Dev} (hservo : ServoOnly (d.ptpIn c l) e)
    (hrd : e.rd Reg.TIM_PTP_RX_CNT = (d.ptpIn c l).rd Reg.TIM_PTP_RX_CNT) (hq : Quiet e f) : PtpRx (d.until_ c) f :=
  ⟨(hq.words Reg.TIM_PTP_RX_CNT (by decide)).trans (hrd.trans (ptpIn_count d c l)),
    (Quiet.refl _).clocked ((clockOnly_ptpIn d c l).servo.trans hservo) hq⟩

theorem servoOnly_refl : ServoOnly d d := rfl

/-- A counted message that is not used. -/
theorem ptpIn_unused : PtpRx (d.until_ c) (d.ptpIn c l) ∧ (d.ptpIn c l).tim = (d.until_ c).tim ∧ (d.ptpIn c l).tx = d.tx :=
  ⟨ptpRx_of d c l (servoOnly_refl _) rfl (Quiet.refl _), ptpIn_tim d c l, (ptpIn_same d c l).tx⟩

/-- A counted message that is answered by another. -/
theorem ptpIn_answered (k q : Nat) (t : Int) : PtpRx (d.until_ c) ((d.ptpIn c l).ptpSend k q t) ∧
    ((d.ptpIn c l).ptpSend k q t).tim = (d.until_ c).tim ∧ PtpSent (d.until_ c) ((d.ptpIn c l).ptpSend k q t) k q t :=
  ⟨ptpRx_of d c l (servoOnly_refl _) rfl (quiet_ptpSend _ k q t), (quiet_ptpSend _ k q t).tim.trans (ptpIn_tim d c l),
    (ptpIn_same d c l).sent k q t⟩

/-- A counted message that changes the clock's state alone. -/
theorem ptpIn_timed (t : Tim) : PtpRx (d.until_ c) { d.ptpIn c l with tim := t } :=
  ptpRx_of d c l (clockOnly_tim _ t).servo rfl (Quiet.refl _)

theorem ptpIn_state : (d.ptpIn c l).tim.ptp = d.tim.ptp := by rw [ptpIn_tim]; rfl

theorem ptpIn_rules : (d.ptpIn c l).ptpRules = d.ptpRules :=
  (ptpIn_same d c l).ptpRules (congrArg Tim.ptp (ptpIn_tim d c l))

end Counted

/-- A device whose mean path delay is set, its exchange over. -/
def Dev.delaySet (d : Dev) (x : Int) : Dev := ({ d with tim := { d.tim with dreq := none } }).put Reg.TIM_PTP_MPD (satNs x)

theorem clockOnly_delaySet (d : Dev) (x : Int) : ClockOnly d (d.delaySet x) := (clockOnly_tim d _).trans (clockOnly_put _ _ _)

theorem delaySet_rd (d : Dev) (x : Int) {a : Nat} (ha : a ≠ Reg.TIM_PTP_MPD) : (d.delaySet x).rd a = d.rd a :=
  Dev.rd_put_ne _ _ _ _ ha

theorem delaySet_mpd (d : Dev) (x : Int) : (d.delaySet x).rd Reg.TIM_PTP_MPD = satNs x :=
  (Dev.rd_put_self _ _ _).trans (satNs_word x)

theorem delaySet_tim (d : Dev) (x : Int) : (d.delaySet x).tim = { d.tim with dreq := none } := by
  simp only [Dev.delaySet, Dev.put_fields]

section Used
variable {s : State} {c l o : Nat} (hon : s.d.ptpOn = true) (hlate : lateL l = false)
include hon hlate

theorem does_ptpEventRx_foreign {m : PtpEvent} (hm : m.domain ≠ s.d.rf Reg.TIM_PTP_CTRL 15 8 ∨
      m.ip6 ≠ (s.d.rf Reg.TIM_PTP_CTRL 28 28 == 1)) :
    Does (.ptpEventRx m c l o) s fun d => PtpRx (s.d.until_ c) d ∧ d.tim = (s.d.until_ c).tim ∧ d.tx = s.d.tx := by
  have htakes : (s.d.ptpIn c l).ptpTakes m.domain m.ip6 = false := by
    rw [(ptpIn_same s.d c l).ptpTakes]
    simp only [Dev.ptpTakes, Bool.and_eq_false_iff, beq_eq_false_iff_ne]
    exact hm
  have hexec := exec_ptpEventRx hon m (c := c) o hlate
  have hevent : (s.d.ptpIn c l).ptpEvent m l o = s.d.ptpIn c l := by
    rw [Dev.ptpEvent, if_pos (by rw [htakes]; rfl)]
  rw [show (s.d.ptpHeard c l).bump Reg.TIM_PTP_RX_CNT = s.d.ptpIn c l from rfl, hevent] at hexec
  exact ⟨_, hexec, ptpIn_unused s.d c l⟩

/-- A message of the device's own domain and transport is used. -/
theorem exec_ptpEventRx_own (m : PtpMsg) : exec (.ptpEventRx (s.d.ptpEv m) c l o) s =
    .next { s with d := (s.d.ptpIn c l).ptpUse m ((s.d.until_ c).tRx (s.d.until_ c).tim.cnt l o) } := by
  have hsame := ptpIn_same s.d c l
  have htakes : (s.d.ptpIn c l).ptpTakes (s.d.ptpEv m).domain (s.d.ptpEv m).ip6 = true := by
    rw [hsame.ptpTakes]
    simp only [Dev.ptpTakes, Bool.and_eq_true, beq_iff_eq]
    exact ⟨rfl, rfl⟩
  have hevent : (s.d.ptpIn c l).ptpEvent (s.d.ptpEv m) l o =
      (s.d.ptpIn c l).ptpUse m ((s.d.until_ c).tRx (s.d.until_ c).tim.cnt l o) := by
    rw [Dev.ptpEvent, if_neg (by rw [htakes]; decide), hsame.tRx, ptpIn_tim]
  rw [exec_ptpEventRx hon _ o hlate, show (s.d.ptpHeard c l).bump Reg.TIM_PTP_RX_CNT = s.d.ptpIn c l from rfl, hevent]

theorem does_ptpSync {q : Nat} : Does (.ptpEventRx (s.d.ptpEv (.sync q)) c l o) s fun d => PtpRx (s.d.until_ c) d ∧
    d.tim = (if s.d.ptpRules then
      { (s.d.until_ c).tim with sync := some (q, ((s.d.until_ c).tRx (s.d.until_ c).tim.cnt l o)) }
      else (s.d.until_ c).tim) := by
  have hexec := exec_ptpEventRx_own hon hlate (c := c) (o := o) (.sync q)
  rw [Dev.ptpUse, ptpIn_rules] at hexec
  refine ⟨_, hexec, ?_⟩
  split
  · exact ⟨ptpIn_timed s.d c l _, by rw [ptpIn_tim]⟩
  · exact ⟨ptpRx_of s.d c l (servoOnly_refl _) rfl (Quiet.refl _), ptpIn_tim s.d c l⟩

theorem does_ptpOneStep {r : Int} (hrules : s.d.ptpRules = true) :
    Does (.ptpEventRx (s.d.ptpEv (.syncOneStep r)) c l o) s fun d => PtpRx (s.d.until_ c) d ∧
      ServoTook (s.d.until_ c) d ((s.d.until_ c).tRx (s.d.until_ c).tim.cnt l o) r := by
  have hexec := exec_ptpEventRx_own hon hlate (c := c) (o := o) (.syncOneStep r)
  rw [Dev.ptpUse, ptpIn_rules, if_pos hrules] at hexec
  exact ⟨_, hexec, ptpRx_of s.d c l (servoOnly_takeSync _ _ r) (takeSync_rd _ _ r (by decide) (by decide) (by decide))
    (Quiet.refl _), servo_took (ptpIn_same s.d c l) (ptpIn_tim s.d c l) _ r⟩

theorem does_ptpOneStep_unruled {r : Int} (hrules : s.d.ptpRules = false) :
    Does (.ptpEventRx (s.d.ptpEv (.syncOneStep r)) c l o) s fun d => PtpRx (s.d.until_ c) d ∧
      d.tim = (s.d.until_ c).tim := by
  have hexec := exec_ptpEventRx_own hon hlate (c := c) (o := o) (.syncOneStep r)
  rw [Dev.ptpUse, ptpIn_rules, hrules, if_neg Bool.false_ne_true] at hexec
  obtain ⟨hrx, htim, -⟩ := ptpIn_unused s.d c l
  exact ⟨_, hexec, hrx, htim⟩

theorem does_ptpDelayReq {q : Nat} (hmaster : s.d.tim.ptp = 6) :
    Does (.ptpEventRx (s.d.ptpEv (.delayReq q)) c l o) s fun d => PtpRx (s.d.until_ c) d ∧
      d.tim = (s.d.until_ c).tim ∧ PtpSent (s.d.until_ c) d 9 q ((s.d.until_ c).tRx (s.d.until_ c).tim.cnt l o) := by
  have hexec := exec_ptpEventRx_own hon hlate (c := c) (o := o) (.delayReq q)
  rw [Dev.ptpUse, if_pos (by rw [ptpIn_state, hmaster]; rfl)] at hexec
  exact ⟨_, hexec, ptpIn_answered s.d c l 9 q _⟩

theorem does_ptpDelayReq_slave {q : Nat} (hslave : s.d.tim.ptp ≠ 6) :
    Does (.ptpEventRx (s.d.ptpEv (.delayReq q)) c l o) s fun d => PtpRx (s.d.until_ c) d ∧
      d.tim = (s.d.until_ c).tim ∧ d.tx = s.d.tx := by
  have hexec := exec_ptpEventRx_own hon hlate (c := c) (o := o) (.delayReq q)
  rw [Dev.ptpUse, if_neg (by rw [ptpIn_state]; simpa using hslave)] at hexec
  exact ⟨_, hexec, ptpIn_unused s.d c l⟩

theorem does_ptpPdelayReq {q : Nat} : Does (.ptpEventRx (s.d.ptpEv (.pdelayReq q)) c l o) s fun d =>
    PtpRx (s.d.until_ c) d ∧ d.tim = (s.d.until_ c).tim ∧
      PtpSent (s.d.until_ c) d 3 q ((s.d.until_ c).tRx (s.d.until_ c).tim.cnt l o) :=
  ⟨_, exec_ptpEventRx_own hon hlate (.pdelayReq q), ptpIn_answered s.d c l 3 q _⟩

theorem does_ptpPdelayResp {q : Nat} {turn t1 : Int} (hreq : s.d.tim.dreq = some (q, t1))
    (hpeer : s.d.rf Reg.TIM_PTP_CTRL 30 30 = 1) :
    Does (.ptpEventRx (s.d.ptpEv (.pdelayResp q turn)) c l o) s fun d => PtpRx (s.d.until_ c) d ∧
      d.tim = { (s.d.until_ c).tim with dreq := none } ∧
      d.rd Reg.TIM_PTP_MPD = satNs ((((s.d.until_ c).tRx (s.d.until_ c).tim.cnt l o) - t1 - turn) / 2) := by
  have hexec := exec_ptpEventRx_own hon hlate (c := c) (o := o) (.pdelayResp q turn)
  have hdreq : (s.d.ptpIn c l).tim.dreq = some (q, t1) := by rw [ptpIn_tim]; exact hreq
  have hctrl : (s.d.ptpIn c l).rf Reg.TIM_PTP_CTRL 30 30 = 1 := ((ptpIn_same s.d c l).rf (by decide) 30 30).trans hpeer
  have huse : (s.d.ptpIn c l).ptpUse (.pdelayResp q turn) ((s.d.until_ c).tRx (s.d.until_ c).tim.cnt l o) =
      (s.d.ptpIn c l).delaySet ((((s.d.until_ c).tRx (s.d.until_ c).tim.cnt l o) - t1 - turn) / 2) := by
    simp only [Dev.ptpUse, hdreq, hctrl, and_self, if_true]
    rfl
  rw [huse] at hexec
  exact ⟨_, hexec, ptpRx_of s.d c l (clockOnly_delaySet _ _).servo (delaySet_rd _ _ (by decide)) (Quiet.refl _),
    by rw [delaySet_tim, ptpIn_tim], delaySet_mpd _ _⟩

end Used


/-! Transmit timestamps. -/

/-- The device on which a transmit timestamp is used: it has been read and counted. -/
def Dev.ptpOut (d : Dev) (c l : Nat) : Dev := ((d.until_ c).irqLat l).bump Reg.TIM_PTP_TX_CNT

section Stamped
variable (d : Dev) (c l : Nat)

theorem ptpOut_same : PtpSame (d.until_ c) (d.ptpOut c l) := (ptpSame_irqLat _ l).trans (ptpSame_put _ _ (by decide))

theorem ptpOut_tim : (d.ptpOut c l).tim = (d.until_ c).tim := by
  simp only [Dev.ptpOut, Dev.bump_fields, Dev.irqLat, Dev.put_fields]

theorem clockOnly_ptpOut : ClockOnly (d.until_ c) (d.ptpOut c l) := (clockOnly_irqLat _ l).trans (clockOnly_bump _ _)

theorem ptpOut_count : (d.ptpOut c l).rd Reg.TIM_PTP_TX_CNT = min 0xFFFFFFFF ((d.until_ c).rd Reg.TIM_PTP_TX_CNT + 1) := by
  rw [Dev.ptpOut, rd_bump_self, irqLat_rd _ l (by decide)]

/-- What is made of a timestamp, beyond the clock's state and words, is quiet. -/
theorem ptpTx_of {e f : Dev} (hclock : ClockOnly (d.ptpOut c l) e)
    (hrd : e.rd Reg.TIM_PTP_TX_CNT = (d.ptpOut c l).rd Reg.TIM_PTP_TX_CNT) (hq : Quiet e f) : PtpTx (d.until_ c) f :=
  ⟨(hq.words Reg.TIM_PTP_TX_CNT (by decide)).trans (hrd.trans (ptpOut_count d c l)),
    (Quiet.refl _).timed ((clockOnly_ptpOut d c l).trans hclock) hq⟩

theorem clockOnly_refl : ClockOnly d d := rfl

/-- A timestamp that is followed up. -/
theorem ptpOut_followed (k q : Nat) (t : Int) : PtpTx (d.until_ c) ((d.ptpOut c l).ptpSend k q t) ∧
    ((d.ptpOut c l).ptpSend k q t).tim = (d.until_ c).tim ∧ PtpSent (d.until_ c) ((d.ptpOut c l).ptpSend k q t) k q t :=
  ⟨ptpTx_of d c l (clockOnly_refl _) rfl (quiet_ptpSend _ k q t), (quiet_ptpSend _ k q t).tim.trans (ptpOut_tim d c l),
    (ptpOut_same d c l).sent k q t⟩

/-- A request remembered with its time. -/
def Dev.asked (d : Dev) (q : Nat) (t : Int) : Dev := { d with tim := { d.tim with dreq := some (q, t) } }

theorem clockOnly_asked (q : Nat) (t : Int) : ClockOnly d (d.asked q t) := clockOnly_tim d _

theorem ptpOut_asked (q : Nat) (t : Int) : PtpTx (d.until_ c) ((d.ptpOut c l).asked q t) ∧
    ((d.ptpOut c l).asked q t).tx = d.tx ∧
    ((d.ptpOut c l).asked q t).tim = { (d.until_ c).tim with dreq := some (q, t) } :=
  ⟨ptpTx_of d c l (clockOnly_asked _ q t) rfl (Quiet.refl _), (ptpOut_same d c l).tx, by rw [← ptpOut_tim d c l]; rfl⟩

/-- What a transmit timestamp in time comes to. -/
def Dev.ptpStamp (d : Dev) (m : PtpMsg) (t : Int) : Dev :=
  match m with
  | .sync q => d.ptpSend 8 q t
  | .syncOneStep _ => d
  | .delayReq q => d.asked q t
  | .pdelayReq q => d.asked q t
  | .pdelayResp q _ => d.ptpSend 0xA q t

/-- A late timestamp of a request abandons its exchange. -/
def Dev.ptpLost (d : Dev) (m : PtpMsg) : Dev :=
  { d with tim := { d.tim with dreq := match m with
    | .delayReq q | .pdelayReq q => d.tim.dreq.filter (fun x => x.1 != q)
    | _ => d.tim.dreq } }

end Stamped

section Transmitted
variable {s : State} {c l : Nat} (hon : s.d.ptpOn = true)
include hon

theorem exec_ptpTxTimestamp (m : PtpMsg) (hlate : lateL l = false) : exec (.ptpTxTimestamp m c l) s =
    .next { s with d := (s.d.ptpOut c l).ptpStamp m ((s.d.until_ c).tTx (s.d.until_ c).tim.cnt l) } := by
  have htime : (s.d.ptpOut c l).tTx (s.d.ptpOut c l).tim.cnt l = (s.d.until_ c).tTx (s.d.until_ c).tim.cnt l := by
    rw [(ptpOut_same s.d c l).tTx, ptpOut_tim]
  rw [← htime]
  show execPtpTxTimestamp m c l s = _
  rw [execPtpTxTimestamp, onDev_next, if_neg (by rw [hon]; decide), if_neg (by rw [hlate]; decide)]
  rfl

theorem exec_ptpTxTimestamp_late (m : PtpMsg) (hlate : lateL l = true) : exec (.ptpTxTimestamp m c l) s =
    .next { s with d := ((s.d.ptpOut c l).ptpLost m).bump Reg.TIM_PTP_LAT_DROP_CNT } := by
  show execPtpTxTimestamp m c l s = _
  rw [execPtpTxTimestamp, onDev_next, if_neg (by rw [hon]; decide), if_pos hlate]
  cases m <;> rfl

theorem does_ptpTxTimestamp_late (m : PtpMsg) (hlate : lateL l = true) :
    Does (.ptpTxTimestamp m c l) s fun d => d.tx = s.d.tx ∧
      d.tim = { (s.d.until_ c).tim with dreq := match m with
        | .delayReq q | .pdelayReq q => s.d.tim.dreq.filter (fun x => x.1 != q)
        | _ => s.d.tim.dreq } ∧
      d.rd Reg.TIM_PTP_LAT_DROP_CNT = min 0xFFFFFFFF (s.d.rd Reg.TIM_PTP_LAT_DROP_CNT + 1) ∧
      Quiet { (s.d.until_ c) with tim := d.tim, regs := d.regs } d := by
  have hclock : ClockOnly (s.d.until_ c) (((s.d.ptpOut c l).ptpLost m).bump Reg.TIM_PTP_LAT_DROP_CNT) :=
    ((clockOnly_ptpOut s.d c l).trans (clockOnly_tim _ _)).trans (clockOnly_bump _ _)
  refine ⟨_, exec_ptpTxTimestamp_late hon m hlate, ?_, ?_, ?_, (Quiet.refl _).timed hclock (Quiet.refl _)⟩
  · simp only [Dev.bump_fields]
    exact (ptpOut_same s.d c l).tx
  · simp only [Dev.bump_fields, Dev.ptpLost, ptpOut_tim]
    rfl
  · have hcount : ((s.d.ptpOut c l).ptpLost m).rd Reg.TIM_PTP_LAT_DROP_CNT = s.d.rd Reg.TIM_PTP_LAT_DROP_CNT :=
      (ptpOut_same s.d c l).words Reg.TIM_PTP_LAT_DROP_CNT (by decide)
    rw [rd_bump_self, hcount]

end Transmitted

/-! Timers. -/

/-- The next sequence number of a timer's message is used. -/
def Dev.seqUsed (d : Dev) (k : Nat) : Dev := { d with tim := { d.tim with seqs := modNth d.tim.seqs k (· + 1) } }

/-- A timer's message goes out with the next number of its kind. -/
theorem seqUsed_sent (d : Dev) (k n : Nat) : ((d.seqUsed k).ptpSend n (nth d.tim.seqs k % 65536) 0).tim =
      { d.tim with seqs := modNth d.tim.seqs k (· + 1) } ∧
    PtpSent d ((d.seqUsed k).ptpSend n (nth d.tim.seqs k % 65536) 0) n (nth d.tim.seqs k % 65536) 0 ∧
    Quiet { d with tim := ((d.seqUsed k).ptpSend n (nth d.tim.seqs k % 65536) 0).tim }
      ((d.seqUsed k).ptpSend n (nth d.tim.seqs k % 65536) 0) := by
  have hsame : PtpSame d (d.seqUsed k) := ⟨fun _ _ => rfl, rfl, rfl, rfl, rfl, rfl⟩
  have hq := quiet_ptpSend (d.seqUsed k) n (nth d.tim.seqs k % 65536) 0
  refine ⟨hq.tim, hsame.sent n _ 0, ?_⟩
  rw [hq.tim]
  exact hq

section Timers
variable {s : State} (hon : s.d.ptpOn = true)
include hon

theorem does_ptpMsgTimer_master (hmaster : s.d.tim.ptp = 6) :
    Does (.ptpMsgTimer .sync) s (fun d => d.tim = { s.d.tim with seqs := modNth s.d.tim.seqs 0 (· + 1) } ∧
      PtpSent s.d d 0 (nth s.d.tim.seqs 0 % 65536) 0 ∧ Quiet { s.d with tim := d.tim } d) ∧
    Does (.ptpMsgTimer .announce) s fun d => d.tim = { s.d.tim with seqs := modNth s.d.tim.seqs 1 (· + 1) } ∧
      PtpSent s.d d 0xB (nth s.d.tim.seqs 1 % 65536) 0 ∧ Quiet { s.d with tim := d.tim } d := by
  have hsix : (s.d.tim.ptp == 6) = true := by rw [hmaster]; rfl
  refine ⟨⟨(s.d.seqUsed 0).ptpSend 0 (nth s.d.tim.seqs 0 % 65536) 0, ?_, seqUsed_sent s.d 0 0⟩,
    ⟨(s.d.seqUsed 1).ptpSend 0xB (nth s.d.tim.seqs 1 % 65536) 0, ?_, seqUsed_sent s.d 1 0xB⟩⟩
  · show execPtpMsgTimer .sync s = _
    rw [execPtpMsgTimer, onDev_next, if_neg (by rw [hon]; decide)]
    exact congrArg (fun d => Host.Outcome.next { s with d := d }) (if_pos hsix)
  · show execPtpMsgTimer .announce s = _
    rw [execPtpMsgTimer, onDev_next, if_neg (by rw [hon]; decide)]
    exact congrArg (fun d => Host.Outcome.next { s with d := d }) (if_pos hsix)

theorem does_ptpMsgTimer_slave (hslave : s.d.tim.ptp ≠ 6) :
    Does (.ptpMsgTimer .sync) s (fun d => d = s.d) ∧ Does (.ptpMsgTimer .announce) s fun d => d = s.d := by
  have hnot : ¬ (s.d.tim.ptp == 6) = true := by simpa using hslave
  refine ⟨⟨s.d, ?_, rfl⟩, ⟨s.d, ?_, rfl⟩⟩
  · show execPtpMsgTimer .sync s = _
    rw [execPtpMsgTimer, onDev_next, if_neg (by rw [hon]; decide)]
    exact congrArg (fun d => Host.Outcome.next { s with d := d }) (if_neg hnot)
  · show execPtpMsgTimer .announce s = _
    rw [execPtpMsgTimer, onDev_next, if_neg (by rw [hon]; decide)]
    exact congrArg (fun d => Host.Outcome.next { s with d := d }) (if_neg hnot)

theorem does_ptpMsgTimer_request (h : s.d.rf Reg.TIM_PTP_CTRL 30 30 = 1 ∨ s.d.ptpRules = true) :
    Does (.ptpMsgTimer .delayReq) s fun d => d.tim = { s.d.tim with seqs := modNth s.d.tim.seqs 2 (· + 1) } ∧
      PtpSent s.d d (if s.d.rf Reg.TIM_PTP_CTRL 30 30 = 1 then 2 else 1) (nth s.d.tim.seqs 2 % 65536) 0 ∧
      Quiet { s.d with tim := d.tim } d := by
  refine ⟨(s.d.seqUsed 2).ptpSend (if s.d.rf Reg.TIM_PTP_CTRL 30 30 = 1 then 2 else 1) (nth s.d.tim.seqs 2 % 65536) 0, ?_,
    seqUsed_sent s.d 2 _⟩
  show execPtpMsgTimer .delayReq s = _
  rw [execPtpMsgTimer, onDev_next, if_neg (by rw [hon]; decide)]
  dsimp only
  by_cases hpeer : s.d.rf Reg.TIM_PTP_CTRL 30 30 = 1
  · rw [if_pos hpeer, if_pos hpeer]
    rfl
  · rw [if_neg hpeer, if_neg hpeer, if_pos (h.resolve_left hpeer)]
    rfl

theorem does_ptpMsgTimer_none (hpeer : s.d.rf Reg.TIM_PTP_CTRL 30 30 ≠ 1) (hrules : s.d.ptpRules = false) :
    Does (.ptpMsgTimer .delayReq) s fun d => d = s.d := by
  refine ⟨s.d, ?_, rfl⟩
  show execPtpMsgTimer .delayReq s = _
  rw [execPtpMsgTimer, onDev_next, if_neg (by rw [hon]; decide)]
  dsimp only
  rw [if_neg hpeer, hrules, if_neg Bool.false_ne_true]

theorem does_ptpAnnounceTimeout (hslave : s.d.tim.ptp ≠ 6) :
    Does .ptpAnnounceTimeout s fun d => d.tim = { s.d.tim with
        ptp := if s.d.rf Reg.TIM_PTP_CTRL 29 29 = 1 then 4 else 6, master := none, sync := none, dreq := none } ∧
      d = { s.d with tim := d.tim } := by
  have hlost : (s.d.ptpOn && s.d.tim.ptp != 6) = true := by rw [hon]; simpa using hslave
  refine ⟨{ s.d with tim := { s.d.tim with
    ptp := if s.d.rf Reg.TIM_PTP_CTRL 29 29 = 1 then 4 else 6, master := none, sync := none, dreq := none } }, ?_, rfl, rfl⟩
  show execPtpAnnounceTimeout s = _
  rw [execPtpAnnounceTimeout, onDev_next, if_pos hlost]

end Timers

/-! General messages. -/

/-- What a general message of the device's domain comes to. -/
def Dev.ptpTold (d : Dev) (m : PtpGeneral) : Dev :=
  match m with
  | .followUp q origin =>
    match d.tim.sync with
    | some (q', t2) =>
      if q' = q ∧ d.ptpRules = true then d.takeSync t2 origin else d
    | none => d
  | .delayResp q rx =>
    match d.tim.dreq with
    | some (q', t3) =>
      if q' = q ∧ d.rf Reg.TIM_PTP_CTRL 30 30 = 0 then
        ({ d with tim := { d.tim with dreq := none } }).put Reg.TIM_PTP_MPD (satNs ((d.tim.t21 + (rx - t3)) / 2))
      else d
    | none => d
  | .announce p1 cc acc var p2 id steps utc valid =>
    let m := [p1, cc, acc, var, p2, id, steps]
    let best := match d.tim.master with
      | some b => if betterDs m b || b.getD 5 0 == id then m else b
      | none => m
    let st := d.bmca best
    let d := { d with tim := { d.tim with master := some best, ptp := st } }
    if best = m ∧ (st = 8 ∨ st = 9) then d.put Reg.TIM_PTP_UTC (b2n valid * 65536 + utc % 65536) else d

section General
variable {s : State} (hon : s.d.ptpOn = true)
include hon

theorem exec_ptpGeneralRx_own (m : PtpGeneral) : exec (.ptpGeneralRx (s.d.ptpGen m)) s =
    .next { s with d := (s.d.rxFrame s.d.ptpPort).ptpTold m } := by
  have htakes : (s.d.rxFrame s.d.ptpPort).ptpTakes (s.d.ptpGen m).domain (s.d.ptpGen m).ip6 = true := by
    rw [(ptpSame_rxFrame s.d _).ptpTakes]
    simp only [Dev.ptpTakes, beq_self_eq_true, Bool.and_self]
  show execPtpGeneralRx (s.d.ptpGen m) s = _
  rw [execPtpGeneralRx, onDev_next, if_neg (by rw [hon]; decide)]
  dsimp only
  rw [htakes]
  rfl

theorem does_ptpFollowUp {q : Nat} {t2 o : Int} (hsync : s.d.tim.sync = some (q, t2)) (hrules : s.d.ptpRules = true) :
    Does (.ptpGeneralRx (s.d.ptpGen (.followUp q o))) s fun d => ServoTook s.d d t2 o ∧
      Quiet { s.d with tim := d.tim, regs := d.regs, frees := d.frees } d := by
  have hsame := ptpSame_rxFrame s.d s.d.ptpPort
  have hexec := exec_ptpGeneralRx_own hon (.followUp q o)
  have htim : (s.d.rxFrame s.d.ptpPort).tim = s.d.tim := rfl
  have htold : (s.d.rxFrame s.d.ptpPort).ptpTold (.followUp q o) = (s.d.rxFrame s.d.ptpPort).takeSync t2 o := by
    simp only [Dev.ptpTold, htim, hsync, hsame.ptpRules (congrArg Tim.ptp htim), hrules, and_self, if_true]
  rw [htold] at hexec
  exact ⟨_, hexec, servo_took hsame htim t2 o,
    (quiet_rxFrame s.d s.d.ptpPort).clocked (servoOnly_takeSync _ t2 o) (Quiet.refl _)⟩

theorem does_ptpDelayResp {q : Nat} {t3 r : Int} (hreq : s.d.tim.dreq = some (q, t3))
    (hpeer : s.d.rf Reg.TIM_PTP_CTRL 30 30 = 0) :
    Does (.ptpGeneralRx (s.d.ptpGen (.delayResp q r))) s fun d => d.tim = { s.d.tim with dreq := none } ∧
      d.rd Reg.TIM_PTP_MPD = satNs ((s.d.tim.t21 + (r - t3)) / 2) ∧
      Quiet { s.d with tim := d.tim, regs := d.regs } d := by
  have hsame := ptpSame_rxFrame s.d s.d.ptpPort
  have hexec := exec_ptpGeneralRx_own hon (.delayResp q r)
  have htim : (s.d.rxFrame s.d.ptpPort).tim = s.d.tim := rfl
  have hctrl : (s.d.rxFrame s.d.ptpPort).rf Reg.TIM_PTP_CTRL 30 30 = 0 := (hsame.rf (by decide) 30 30).trans hpeer
  have htold : (s.d.rxFrame s.d.ptpPort).ptpTold (.delayResp q r) =
      (s.d.rxFrame s.d.ptpPort).delaySet ((s.d.tim.t21 + (r - t3)) / 2) := by
    simp only [Dev.ptpTold, htim, hreq, hctrl, and_self, if_true]
    rfl
  rw [htold] at hexec
  exact ⟨_, hexec, by rw [delaySet_tim, htim], delaySet_mpd _ _,
    (quiet_rxFrame s.d s.d.ptpPort).timed (clockOnly_delaySet _ _) (Quiet.refl _)⟩

/-- A device that has taken a master, in a state, with its offset from UTC. -/
def Dev.mastered (d : Dev) (m : List Nat) (st w : Nat) : Dev :=
  ({ d with tim := { d.tim with master := some m, ptp := st } }).put Reg.TIM_PTP_UTC w

theorem does_ptpAnnounce {a b c f e i k u : Nat} {v : Bool} (honly : s.d.rf Reg.TIM_PTP_CTRL 29 29 = 1)
    (hnone : s.d.tim.master = none) :
    Does (.ptpGeneralRx (s.d.ptpGen (.announce a b c f e i k u v))) s fun d =>
      d.tim = { s.d.tim with master := some [a, b, c, f, e, i, k], ptp := if s.d.tim.ptp = 9 then 9 else 8 } ∧
      d.rd Reg.TIM_PTP_UTC = b2n v * 65536 + u % 65536 ∧ Quiet { s.d with tim := d.tim, regs := d.regs } d := by
  have hsame := ptpSame_rxFrame s.d s.d.ptpPort
  have hexec := exec_ptpGeneralRx_own hon (.announce a b c f e i k u v)
  have htim : (s.d.rxFrame s.d.ptpPort).tim = s.d.tim := rfl
  have hctrl : (s.d.rxFrame s.d.ptpPort).rf Reg.TIM_PTP_CTRL 29 29 = 1 := (hsame.rf (by decide) 29 29).trans honly
  have hslave : (if s.d.tim.ptp = 9 then 9 else 8) = 8 ∨ (if s.d.tim.ptp = 9 then 9 else 8) = 9 := by
    split
    · exact .inr rfl
    · exact .inl rfl
  have htold : (s.d.rxFrame s.d.ptpPort).ptpTold (.announce a b c f e i k u v) = (s.d.rxFrame s.d.ptpPort).mastered
      [a, b, c, f, e, i, k] (if s.d.tim.ptp = 9 then 9 else 8) (b2n v * 65536 + u % 65536) := by
    simp only [Dev.ptpTold, htim, hnone, Dev.bmca, hctrl, if_true, hslave, and_self]
    rfl
  have hword : (b2n v * 65536 + u % 65536) % 2 ^ 32 = b2n v * 65536 + u % 65536 := by
    refine Nat.mod_eq_of_lt ?_
    cases v <;> simp [b2n] <;> omega
  rw [htold] at hexec
  refine ⟨_, hexec, ?_, (Dev.rd_put_self _ _ _).trans hword, (quiet_rxFrame s.d s.d.ptpPort).timed
    ((clockOnly_tim _ _).trans (clockOnly_put _ _ _)) (Quiet.refl _)⟩
  simp only [Dev.mastered, Dev.put_fields, htim]

end General

/-- Settles O47: the clock's requests, then PTP's messages and timers, each from the command's own lemma above. -/
theorem timeAndPtp : Obligations.TimeAndPtp := by
  unfold Obligations.TimeAndPtp
  refine ⟨fun h ns frac s hr => ⟨does_timeSet hr, does_timeSet_refused hr⟩,
    fun h o i s hr => ⟨does_timeAdjust hr, does_timeAdjust_ruled hr, does_timeAdjust_range hr⟩,
    fun s hstep => does_timeSlewEnd hstep, fun s hon => ⟨fun c l hlate => ⟨fun m o => does_ptpEventRx_late hon m o hlate,
      fun m => does_ptpTxTimestamp_late hon m hlate⟩, fun m c l o hlate hm => does_ptpEventRx_foreign hon hlate hm,
      fun c l o hlate => ⟨fun q => does_ptpSync hon hlate, fun r hrules => does_ptpOneStep hon hlate hrules,
        fun r hrules => does_ptpOneStep_unruled hon hlate hrules, fun q hmaster => does_ptpDelayReq hon hlate hmaster,
        fun q hslave => does_ptpDelayReq_slave hon hlate hslave, fun q => does_ptpPdelayReq hon hlate,
        fun q turn t1 hreq hpeer => does_ptpPdelayResp hon hlate hreq hpeer⟩,
      fun c l hlate => ⟨fun q => ⟨_, exec_ptpTxTimestamp hon (.sync q) hlate, ptpOut_followed s.d c l 8 q _⟩,
        fun q => ⟨_, exec_ptpTxTimestamp hon (.delayReq q) hlate, ptpOut_asked s.d c l q _⟩,
        fun q => ⟨_, exec_ptpTxTimestamp hon (.pdelayReq q) hlate, ptpOut_asked s.d c l q _⟩,
        fun q turn => ⟨_, exec_ptpTxTimestamp hon (.pdelayResp q turn) hlate, ptpOut_followed s.d c l 0xA q _⟩,
        fun r => ⟨_, exec_ptpTxTimestamp hon (.syncOneStep r) hlate,
          ptpTx_of s.d c l (clockOnly_refl _) rfl (Quiet.refl _), ptpOut_tim s.d c l, (ptpOut_same s.d c l).tx⟩⟩,
      does_ptpMsgTimer_master hon, does_ptpMsgTimer_slave hon, does_ptpMsgTimer_request hon, does_ptpMsgTimer_none hon,
      does_ptpAnnounceTimeout hon, fun q t2 o => does_ptpFollowUp hon, fun q t3 r => does_ptpDelayResp hon,
      fun a b c f e i k u v => does_ptpAnnounce hon⟩⟩

end Sys2Proof.Machine
end

section
/-! PROOFS. Who writes the key and the image slot (R64, R65, R434). Each function of the model has a rule that says it leaves
both, from the rules of the functions it calls; the rules of the commands follow, and the two writers stand apart. -/

namespace Sys2Proof.Machine

open Sys2Proof

/-- The manifest key, the image slots and the slot that boots next. -/
def Dev.vault (d : Dev) : Option (List Byte) × List (List Byte) × Nat := (d.pages.key, d.pwr.imgs, d.pwr.slot)

@[simp] theorem vault_fields (d : Dev) : (d.pages.key, d.pwr.imgs, d.pwr.slot) = d.vault := rfl

@[simp] theorem vault_mk (now frees mode prev trans hold regs sess opens jobs ops bzl seq afe monA monB clamp pages lamp mot
    cox cls cal dma net tim flt pwr fsram tx txHeads) :
    Dev.vault ⟨now, frees, mode, prev, trans, hold, regs, sess, opens, jobs, ops, bzl, seq, afe, monA, monB, clamp, pages,
      lamp, mot, cox, cls, cal, dma, net, tim, flt, pwr, fsram, tx, txHeads⟩ = (pages.key, pwr.imgs, pwr.slot) := rfl

@[simp] theorem vault_ite (p : Prop) [Decidable p] (d e : Dev) :
    (if p then d else e).vault = if p then d.vault else e.vault := apply_ite Dev.vault p d e

@[simp] theorem vault_ite_fst {α : Type} (p : Prop) [Decidable p] (a b : Dev × α) :
    (if p then a else b).1.vault = if p then a.1.vault else b.1.vault := apply_ite (fun a => a.1.vault) p a b

@[simp] theorem vault_ite_snd {α : Type} (p : Prop) [Decidable p] (a b : α × Dev) :
    (if p then a else b).2.vault = if p then a.2.vault else b.2.vault := apply_ite (fun a => a.2.vault) p a b

@[simp] theorem vault_ite_answer (p : Prop) [Decidable p] (a b : Answer) :
    (if p then a else b).2.2.vault = if p then a.2.2.vault else b.2.2.vault := apply_ite (fun a => a.2.2.vault) p a b

@[simp] theorem vault_foldl {α : Type} (f : Dev → α → Dev) (hf : ∀ d x, (f d x).vault = d.vault) (l : List α) (d : Dev) :
    (l.foldl f d).vault = d.vault := by
  induction l generalizing d with
  | nil => rfl
  | cons x l ih => exact (ih (f d x)).trans (hf d x)

@[simp] theorem vault_foldl_fst {α β : Type} (f : Dev × β → α → Dev × β) (hf : ∀ a x, (f a x).1.vault = a.1.vault)
    (l : List α) (a : Dev × β) : (l.foldl f a).1.vault = a.1.vault := by
  induction l generalizing a with
  | nil => rfl
  | cons x l ih => exact (ih (f a x)).trans (hf a x)

theorem Quiet.vault {d e : Dev} (h : Quiet d e) : e.vault = d.vault := by rw [Dev.vault, h.pages, h.pwr, Dev.vault]

theorem vault_cal (d : Dev) (c : Cal) : Dev.vault { d with cal := c } = d.vault := rfl

/-! Parameter words. -/

@[simp] theorem put_vault (d : Dev) (a v : Nat) : (d.put a v).vault = d.vault := by simp [Dev.put]

@[simp] theorem putAll_vault (d : Dev) (l : List (Nat × Word)) : (d.putAll l).vault = d.vault := by simp [Dev.putAll]

@[simp] theorem putF_vault (d : Dev) (a hi lo x : Nat) : (d.putF a hi lo x).vault = d.vault := by simp [Dev.putF]

@[simp] theorem bumpBy_vault (d : Dev) (a n : Nat) : (d.bumpBy a n).vault = d.vault := by simp [Dev.bumpBy]

@[simp] theorem bump_vault (d : Dev) (a : Nat) : (d.bump a).vault = d.vault := by simp [Dev.bump]

@[simp] theorem bumpIf_vault (d : Dev) (b : Bool) (a : Nat) : (d.bumpIf b a).vault = d.vault := by simp [Dev.bumpIf]

/-! Free values (log 1). -/

@[simp] theorem free_vault (d : Dev) (site : Nat) : (d.free site).2.vault = d.vault := by simp [Dev.free]

/-! The clock (R375, R377, R33). -/

@[simp] theorem ticks_vault (d : Dev) (n : Nat) : (d.ticks n).vault = d.vault := by simp [Dev.ticks]

@[simp] theorem elapse_vault (d : Dev) (n : Nat) : (d.elapse n).vault = d.vault := by simp [Dev.elapse]

@[simp] theorem until_vault (d : Dev) (t : Nat) : (d.until_ t).vault = d.vault := by simp [Dev.until_]

/-! Sending (R47, R48, R362 to R364). -/

@[simp] theorem rxFrame_vault (d : Dev) (p : NetPort) : (d.rxFrame p).vault = d.vault := by simp [Dev.rxFrame]

@[simp] theorem emit_vault (d : Dev) (o : Out) : (d.emit o).vault = d.vault := by simp [Dev.emit]

@[simp] theorem sendNow_vault (d : Dev) (p : NetPort) (c : Nat) (o : Out) : (d.sendNow p c o).vault = d.vault := by
  simp [Dev.sendNow]

@[simp] theorem modPort_vault (d : Dev) (p : NetPort) (f : Port → Port) : (d.modPort p f).vault = d.vault := by
  simp [Dev.modPort]

@[simp] theorem resolve_vault (d : Dev) (p : NetPort) (hop : Option Nat) : (d.resolve p hop).vault = d.vault := by
  unfold Dev.resolve
  split <;> simp

@[simp] theorem send_vault (d : Dev) (p : NetPort) (c : Nat) (o : Out) : (d.send p c o).vault = d.vault := by
  simp [Dev.send]

@[simp] theorem drain_vault (d : Dev) (p : NetPort) : (d.drain p).vault = d.vault := by simp [Dev.drain]

/-! Packets. -/

@[simp] theorem sendReply_vault (d : Dev) (dst : Endpoint) (port : NetPort) (session : Nat) (seq : Word) (op st : Nat)
    (body : List Byte) : (d.sendReply dst port session seq op st body).vault = d.vault := by
  simp [Dev.sendReply]

/-! Sessions. -/

@[simp] theorem modSes_vault (d : Dev) (s : Nat) (f : Session → Session) : (d.modSes s f).vault = d.vault := by
  simp [Dev.modSes]

/-! Events (R77 to R80). -/

@[simp] theorem pump_vault (d : Dev) (s : Nat) : (d.pump s).vault = d.vault := by
  unfold Dev.pump
  dsimp only
  (repeat' split) <;> simp

@[simp] theorem pushEv_vault (d : Dev) (s : Nat) (e : Ev) : (d.pushEv s e).vault = d.vault := by
  unfold Dev.pushEv
  split <;> simp

@[simp] theorem queueEv_vault (d : Dev) (s code opcode : Nat) (reqSeq : Word) (status stroke : Nat) (body : List Byte)
    : (d.queueEv s code opcode reqSeq status stroke body).vault = d.vault := by
  simp [Dev.queueEv]

@[simp] theorem ev_vault (d : Dev) (s code : Nat) (body : List Byte) : (d.ev s code body).vault = d.vault := by
  simp [Dev.ev]

@[simp] theorem evAll_vault (d : Dev) (code : Nat) (body : List Byte) : (d.evAll code body).vault = d.vault := by
  simp [Dev.evAll]

@[simp] theorem jobEv_vault (d : Dev) (serial code : Nat) (body : List Byte) :
    (d.jobEv serial code body).vault = d.vault := by
  unfold Dev.jobEv
  (repeat' split) <;> simp

/-! Long operations (R62, R461). -/

@[simp] theorem opDone_vault (d : Dev) (o : LongOp) (owner : Option Nat) (status id : Nat) :
    (d.opDone o owner status id).vault = d.vault := by
  unfold Dev.opDone
  split <;> simp

@[simp] theorem startOp_vault (d : Dev) (h : Req) (op : Op) : (d.startOp h op).vault = d.vault := by
  simp [Dev.startOp]

@[simp] theorem endOps_vault (d : Dev) (owner : Option Nat) (p : Op → Bool) (status id : Nat) :
    (d.endOps owner p status id).vault = d.vault := by
  simp [Dev.endOps]

@[simp] theorem endRequest_vault (d : Dev) (op : Op) (session : Nat) (seq : Word) (status id : Nat) :
    (d.endRequest op session seq status id).vault = d.vault := by
  unfold Dev.endRequest
  split <;> simp

/-! Requests (R50 to R57). -/

@[simp] theorem answer_vault (d : Dev) (h : Req) (op st : Nat) (body : List Byte) :
    (d.answer h op st body).vault = d.vault := by
  simp [Dev.answer]

@[simp] theorem refuse_vault (d : Dev) (h : Req) (op st : Nat) : (d.refuse h op st).vault = d.vault := by
  simp [Dev.refuse]

@[simp] theorem valid_vault (d : Dev) (h : Req) : (d.valid h).vault = d.vault := by simp [Dev.valid]

@[simp] theorem resend_vault (d : Dev) (h : Req) (c : Cached) : (d.resend h c).vault = d.vault := by simp [Dev.resend]

@[simp] theorem reportLost_vault (d : Dev) (n : Nat) : (d.reportLost n).vault = d.vault := by
  unfold Dev.reportLost
  split <;> simp

@[simp] theorem ackEvent_vault (d : Dev) (h : Req) (bare : Bool) : (d.ackEvent h bare).vault = d.vault := by
  unfold Dev.ackEvent
  split <;> simp

theorem notRequest_vault (d : Dev) (h : Req) (bare : Bool) (e : Dev) (he : d.notRequest h bare = some e) :
    e.vault
    = d.vault := by
  unfold Dev.notRequest at he
  split at he <;> simp at he <;> simp [← he]

@[simp] theorem recovered_vault (d : Dev) (x : Recov) : (d.recovered x).vault = d.vault := by simp [Dev.recovered]

@[simp] theorem runtimeBack_vault (d : Dev) : (d.runtimeBack).vault = d.vault := by simp [Dev.runtimeBack]

/-- What a request's checks leave of the key and the slots is what its own effect leaves of them, seen by `g`. -/
theorem serveThen_vault_under {α : Type} (g : Option (List Byte) × List (List Byte) × Nat → α) (d : Dev) (h : Req) (op : Nat)
    (k : Dev → Answer) (post : Nat → Dev → Dev) (hk : ∀ d, g (k d).2.2.vault = g d.vault)
    (hpost : ∀ st d, (post st d).vault = d.vault) : g (d.serveThen h op k post).vault = g d.vault := by
  unfold Dev.serveThen
  dsimp only
  split
  · rfl
  · split
    · next e he => simpa using congrArg g (notRequest_vault _ _ _ _ he)
    · (repeat' split) <;> simp [hk, hpost]

@[simp] theorem serveThen_vault (d : Dev) (h : Req) (op : Nat) (k : Dev → Answer) (post : Nat → Dev → Dev)
    (hk : ∀ d, (k d).2.2.vault = d.vault) (hpost : ∀ st d, (post st d).vault = d.vault) :
    (d.serveThen h op k post).vault = d.vault :=
  serveThen_vault_under id d h op k post hk hpost

@[simp] theorem serve_vault (d : Dev) (h : Req) (op : Nat) (k : Dev → Answer) (hk : ∀ d, (k d).2.2.vault = d.vault) :
    (d.serve h op k).vault = d.vault := by
  simp [Dev.serve, hk]

@[simp] theorem no_vault (st : Nat) (d : Dev) : (no st d).2.2.vault = d.vault := by rfl

/-! Bezel frames (R19 to R21). -/

@[simp] theorem modLink_vault (d : Dev) (r : Dir) (f : Link → Link) : (d.modLink r f).vault = d.vault := by
  unfold Dev.modLink
  split <;> simp

@[simp] theorem sendFrame_vault (d : Dev) (r : Dir) (f : Frame) : (d.sendFrame r f).vault = d.vault := by
  simp [Dev.sendFrame]

@[simp] theorem sendStaged_vault (d : Dev) (n : Nat) : (d.sendStaged n).vault = d.vault := by
  induction n generalizing d with
  | zero => rfl
  | succ n ih =>
    unfold Dev.sendStaged
    split
    · rfl
    · simp [ih]

@[simp] theorem sendWaiting_vault (d : Dev) (n : Nat) : (d.sendWaiting n).vault = d.vault := by
  induction n generalizing d with
  | zero => rfl
  | succ n ih =>
    unfold Dev.sendWaiting
    split
    · rfl
    · simp [ih]

@[simp] theorem fieldFrame_vault (d : Dev) (f : Frame) : (d.fieldFrame f).vault = d.vault := by simp [Dev.fieldFrame]

@[simp] theorem sendCmd_vault (d : Dev) (c : FieldCmd) : (d.sendCmd c).vault = d.vault := by simp [Dev.sendCmd]

@[simp] theorem sendWindow_vault (d : Dev) (c : FieldCmd) : (d.sendWindow c).vault = d.vault := by
  simp [Dev.sendWindow]

@[simp] theorem cutChannels_vault (d : Dev) : (d.cutChannels).vault = d.vault := by simp [Dev.cutChannels]

@[simp] theorem dramUse_vault (d : Dev) (n : Nat) : (d.dramUse n).vault = d.vault := by simp [Dev.dramUse]

@[simp] theorem forward_vault (d : Dev) (ws : List (Nat × Word)) : (d.forward ws).vault = d.vault := by
  simp [Dev.forward]

/-! The fault log (R410 to R412). -/

@[simp] theorem logAdd_vault (d : Dev) (r : FaultRec) (m1 m2 : Mode) : (d.logAdd r m1 m2).vault = d.vault := by
  simp [Dev.logAdd]

@[simp] theorem fieldEvent_vault (d : Dev) (r : FaultRec) : (d.fieldEvent r).vault = d.vault := by
  simp [Dev.fieldEvent]

@[simp] theorem log_vault (d : Dev) (r : FaultRec) (m1 m2 : Mode) : (d.log r m1 m2).vault = d.vault := by
  simp [Dev.log]

@[simp] theorem logHere_vault (d : Dev) (r : FaultRec) : (d.logHere r).vault = d.vault := by simp [Dev.logHere]

/-! Heads of results in force (R327, R328). -/

@[simp] theorem setHead_vault (d : Dev) (kind unit : Nat) (h : CalHead) :
    (d.setHead kind unit h).vault = d.vault := by
  simp [Dev.setHead]

@[simp] theorem dropHead_vault (d : Dev) (kind unit : Nat) : (d.dropHead kind unit).vault = d.vault := by
  simp [Dev.dropHead]

/-! Sectors (R405). -/

@[simp] theorem setFlash_vault (d : Dev) (f : Flash) : (d.setFlash f).vault = d.vault := by simp [Dev.setFlash]

@[simp] theorem storeRec_vault (d : Dev) (r : CalRec) : (d.storeRec r).vault = d.vault := by simp [Dev.storeRec]

@[simp] theorem dropRec_vault (d : Dev) (r : CalRec) : (d.dropRec r).vault = d.vault := by simp [Dev.dropRec]

@[simp] theorem sectorFails_vault (d : Dev) : (d.sectorFails).vault = d.vault := by simp [Dev.sectorFails]

/-! Waveform tables (R98). -/

@[simp] theorem headRun_vault (d : Dev) (c : List (Nat × Word)) (t n : Nat) : (d.headRun c t n).vault = d.vault := by
  simp [Dev.headRun]

/-! Staged values. -/

@[simp] theorem clearTrim_vault (d : Dev) (t : Nat) : (d.clearTrim t).vault = d.vault := by simp [Dev.clearTrim]

@[simp] theorem tapChanged_vault (d : Dev) (a : Nat) : (d.tapChanged a).vault = d.vault := by
  unfold Dev.tapChanged
  split <;> simp

@[simp] theorem newGrid_vault (d : Dev) : (d.newGrid).vault = d.vault := by simp [Dev.newGrid]

@[simp] theorem seqChanged_vault (d : Dev) (old : Nat) : (d.seqChanged old).vault = d.vault := by
  simp [Dev.seqChanged]

@[simp] theorem setClock_vault (d : Dev) (n k div : Nat) : (d.setClock n k div).vault = d.vault := by
  unfold Dev.setClock
  dsimp only
  (repeat' split) <;> simp

@[simp] theorem outChanged_vault (d : Dev) (a : Nat) : (d.outChanged a).vault = d.vault := by
  unfold Dev.outChanged
  split <;> simp

@[simp] theorem startClocks_vault (d : Dev) : (d.startClocks).vault = d.vault := by simp [Dev.startClocks]

@[simp] theorem stopClocks_vault (d : Dev) : (d.stopClocks).vault = d.vault := by simp [Dev.stopClocks]

@[simp] theorem headEnabled_vault (d : Dev) (a old : Nat) : (d.headEnabled a old).vault = d.vault := by
  unfold Dev.headEnabled
  dsimp only
  (repeat' split) <;> simp

@[simp] theorem tableChanged_vault (d : Dev) (a old : Nat) : (d.tableChanged a old).vault = d.vault := by
  unfold Dev.tableChanged
  split <;> simp

@[simp] theorem monChanged_vault (d : Dev) (a : Nat) : (d.monChanged a).vault = d.vault := by simp [Dev.monChanged]

/-! Motion words. -/

@[simp] theorem modAx_vault (d : Dev) (a : Nat) (f : Axis → Axis) : (d.modAx a f).vault = d.vault := by
  simp [Dev.modAx]

@[simp] theorem modGrp_vault (d : Dev) (g : Nat) (f : Group → Group) : (d.modGrp g f).vault = d.vault := by
  simp [Dev.modGrp]

@[simp] theorem driveOut_vault (d : Dev) (was : Nat → Bool) : (d.driveOut was).vault = d.vault := by
  simp [Dev.driveOut]

@[simp] theorem driveDrop_vault (d : Dev) : (d.driveDrop).vault = d.vault := by simp [Dev.driveDrop]

@[simp] theorem polChanged_vault (d : Dev) (g : Nat) (was : Option Bool) : (d.polChanged g was).vault = d.vault := by
  simp [Dev.polChanged]

@[simp] theorem motChanged_vault (d : Dev) (a old : Nat) : (d.motChanged a old).vault = d.vault := by
  unfold Dev.motChanged
  dsimp only
  (repeat' split) <;> simp

@[simp] theorem commitWord_vault (d : Dev) (a v m : Nat) : (d.commitWord a v m).vault = d.vault := by
  simp [Dev.commitWord]

@[simp] theorem commitDone_vault (d : Dev) (s : Nat) (q : Word) (stroke : Nat) :
    (d.commitDone s q stroke).vault = d.vault := by
  simp [Dev.commitDone]

@[simp] theorem settleCommits_vault (d : Dev) (stroke : Nat) : (d.settleCommits stroke).vault = d.vault := by
  simp [Dev.settleCommits]

@[simp] theorem waitMoves_vault (d : Dev) (n : Nat) (m : Option Nat) : (d.waitMoves n m).vault = d.vault := by
  simp [Dev.waitMoves]

@[simp] theorem holdImage_vault (d : Dev) (img : List (Nat × Word)) : (d.holdImage img).vault = d.vault := by
  simp [Dev.holdImage]

@[simp] theorem takeImage_vault (d : Dev) (n : Nat) (k : Int) (img : List (Nat × Word)) :
    (d.takeImage n k img).vault = d.vault := by
  simp [Dev.takeImage]

@[simp] theorem takeHeld_vault (d : Dev) (k : Int) : (d.takeHeld k).vault = d.vault := by simp [Dev.takeHeld]

@[simp] theorem resetChain_vault (d : Dev) (n : Nat) : (d.resetChain n).vault = d.vault := by simp [Dev.resetChain]

@[simp] theorem takeCommit_vault (d : Dev) (closed : Bool) (vals : List (Nat × Word)) :
    (d.takeCommit closed vals).vault = d.vault := by
  simp [Dev.takeCommit]

@[simp] theorem forceCommit_vault (d : Dev) (closed : Bool) : (d.forceCommit closed).vault = d.vault := by
  unfold Dev.forceCommit
  split <;> simp

@[simp] theorem commitDue_vault (d : Dev) : (d.commitDue).vault = d.vault := by simp [Dev.commitDue]

@[simp] theorem applyCorr_vault (d : Dev) (c : HeldCorr) : (d.applyCorr c).vault = d.vault := by simp [Dev.applyCorr]

@[simp] theorem applyCorrs_vault (d : Dev) (l : List HeldCorr) : (d.applyCorrs l).vault = d.vault := by
  simp [Dev.applyCorrs]

@[simp] theorem correction_vault (d : Dev) (c : HeldCorr) : (d.correction c).vault = d.vault := by
  simp [Dev.correction]

@[simp] theorem releaseHeld_vault (d : Dev) : (d.releaseHeld).vault = d.vault := by simp [Dev.releaseHeld]

@[simp] theorem takeEpoch_vault (d : Dev) : (d.takeEpoch).2.vault = d.vault := by simp [Dev.takeEpoch]

@[simp] theorem motEv_vault (d : Dev) (g cond : Nat) (id : Word) : (d.motEv g cond id).vault = d.vault := by
  simp [Dev.motEv]

@[simp] theorem axHard_vault (d : Dev) (a : Nat) : (d.axHard a).vault = d.vault := by simp [Dev.axHard]

@[simp] theorem hardStop_vault (d : Dev) (g : Nat) (st : GSt) : (d.hardStop g st).vault = d.vault := by
  simp [Dev.hardStop]

@[simp] theorem stopFeed_vault (d : Dev) : (d.stopFeed).vault = d.vault := by
  unfold Dev.stopFeed
  split <;> simp

@[simp] theorem rampOthers_vault (d : Dev) : (d.rampOthers).vault = d.vault := by simp [Dev.rampOthers]

@[simp] theorem flushQ_vault (d : Dev) (g : Nat) (report : Bool) : (d.flushQ g report).vault = d.vault := by
  simp [Dev.flushQ]

/-! Hold causes (R38). -/

@[simp] theorem setHold_vault (d : Dev) (c : Nat) : (d.setHold c).vault = d.vault := by simp [Dev.setHold]

@[simp] theorem clrHold_vault (d : Dev) (c : Nat) : (d.clrHold c).vault = d.vault := by simp [Dev.clrHold]

@[simp] theorem setFault_vault (d : Dev) (w : Nat) : (d.setFault w).vault = d.vault := by simp [Dev.setFault]

@[simp] theorem clrFault_vault (d : Dev) (w : Nat) : (d.clrFault w).vault = d.vault := by simp [Dev.clrFault]

/-! Catches (R94, R99). -/

@[simp] theorem darken_vault (d : Dev) : (d.darken).vault = d.vault := by simp [Dev.darken]

@[simp] theorem modChain_vault (d : Dev) (n : Nat) (f : Chain → Chain) : (d.modChain n f).vault = d.vault := by
  simp [Dev.modChain]

@[simp] theorem lit_vault (d : Dev) (n cyc : Nat) : (d.lit n cyc).vault = d.vault := by simp [Dev.lit]

@[simp] theorem rotAbandon_vault (d : Dev) : (d.rotAbandon).vault = d.vault := by
  unfold Dev.rotAbandon
  split <;> simp

@[simp] theorem catchDis_vault (d : Dev) (hold : Bool) : (d.catchDis hold).vault = d.vault := by simp [Dev.catchDis]

@[simp] theorem catchOff_vault (d : Dev) (hold : Bool) : (d.catchOff hold).vault = d.vault := by simp [Dev.catchOff]

@[simp] theorem catchOn_vault (d : Dev) (first : Bool) : (d.catchOn first).vault = d.vault := by simp [Dev.catchOn]

@[simp] theorem serviceCatches_vault (d : Dev) : (d.serviceCatches).vault = d.vault := by simp [Dev.serviceCatches]

/-! Commanded runs (R318, R323). -/

@[simp] theorem failRun_vault (d : Dev) (st : Nat) (count : Bool) : (d.failRun st count).vault = d.vault := by
  unfold Dev.failRun
  split <;> simp

/-! Mode changes (R36). -/

@[simp] theorem settleOps_vault (d : Dev) (new : Mode) (owner : Option Nat) :
    (d.settleOps new owner).vault = d.vault :=
  (quiet_settleOps d new owner).vault

@[simp] theorem leaveTest_vault (d : Dev) (old : Mode) : (d.leaveTest old).vault = d.vault := by
  unfold Dev.leaveTest
  split <;> simp

@[simp] theorem monStop_vault (d : Dev) : (d.monStop).vault = d.vault := by simp [Dev.monStop]

@[simp] theorem entered_vault (d : Dev) (m : Mode) : (d.entered m).vault = d.vault := by simp [Dev.entered]

@[simp] theorem cancelStart_vault (d : Dev) (starting : Bool) (m : Mode) :
    (d.cancelStart starting m).vault = d.vault := by
  simp [Dev.cancelStart]

@[simp] theorem forgetStop_vault (d : Dev) (m : Mode) : (d.forgetStop m).vault = d.vault := by simp [Dev.forgetStop]

@[simp] theorem setMode_vault (d : Dev) (m : Mode) : (d.setMode m).vault = d.vault := by simp [Dev.setMode]

@[simp] theorem feedLeft_vault (d : Dev) : (d.feedLeft).vault = d.vault := by simp [Dev.feedLeft]

@[simp] theorem toIdle_vault (d : Dev) : (d.toIdle).vault = d.vault := by simp [Dev.toIdle]

@[simp] theorem endRun_vault (d : Dev) (st : Nat) (count : Bool) : (d.endRun st count).vault = d.vault := by
  simp [Dev.endRun]

@[simp] theorem withhold_vault (d : Dev) (p : Stroke → Bool) : (d.withhold p).vault = d.vault := by
  simp [Dev.withhold]

/-! Capture's end (R38, R42, R461). -/

@[simp] theorem jobEndCheck_vault (d : Dev) (serial : Nat) : (d.jobEndCheck serial).vault = d.vault := by
  unfold Dev.jobEndCheck
  split <;> simp

@[simp] theorem captureEnd_vault (d : Dev) (st : Nat) : (d.captureEnd st).vault = d.vault := by
  unfold Dev.captureEnd
  split <;> simp

@[simp] theorem holdBegins_vault (d : Dev) : (d.holdBegins).vault = d.vault := by simp [Dev.holdBegins]

/-! SAFE (R399). -/

@[simp] theorem enterSafe_vault (d : Dev) (cause : Nat) (r : FaultRec) : (d.enterSafe cause r).vault = d.vault := by
  simp [Dev.enterSafe]

/-! The field side goes down (R421, R422, R424). -/

@[simp] theorem fieldOutputs_vault (d : Dev) : (d.fieldOutputs).vault = d.vault := by simp [Dev.fieldOutputs]

@[simp] theorem toStandby_vault (d : Dev) : (d.toStandby).vault = d.vault := by simp [Dev.toStandby]

@[simp] theorem fieldLost_vault (d : Dev) : (d.fieldLost).vault = d.vault := by simp [Dev.fieldLost]

/-! The level 3 restart (R397, R355) and recoveries (R394, R395). -/

@[simp] theorem dmaReset_vault (d : Dev) : (d.dmaReset).vault = d.vault := by simp [Dev.dmaReset]

@[simp] theorem level3Run_vault (d : Dev) (recs : List Recov) : (d.level3Run recs).vault = d.vault := by
  simp [Dev.level3Run]

@[simp] theorem level3_vault (d : Dev) : (d.level3).vault = d.vault := by simp [Dev.level3]

@[simp] theorem recEnd_vault (d : Dev) (cls code : Nat) (unit : Option Nat) :
    (d.recEnd cls code unit).vault = d.vault := by
  simp [Dev.recEnd]

@[simp] theorem startLevel_vault (d : Dev) (level cls code unit entry : Nat) (hold : Bool) :
    (d.startLevel level cls code unit entry hold).vault = d.vault := by
  simp [Dev.startLevel]

@[simp] theorem recover_vault (d : Dev) (r : FaultRec) (level : Nat) (hold : Bool) :
    (d.recover r level hold).vault = d.vault := by
  unfold Dev.recover
  split <;> simp

@[simp] theorem escalate_vault (d : Dev) (x : Recov) : (d.escalate x).vault = d.vault := by simp [Dev.escalate]

@[simp] theorem recal_vault (d : Dev) (kind unit reason : Nat) : (d.recal kind unit reason).vault = d.vault := by
  simp [Dev.recal]

@[simp] theorem recalEnd_vault (d : Dev) (kind unit reason : Nat) :
    (d.recalEnd kind unit reason).vault = d.vault := by
  simp [Dev.recalEnd]

/-! Outputs. -/

@[simp] theorem gFlag_vault (d : Dev) (g b : Nat) : (d.gFlag g b).vault = d.vault := by simp [Dev.gFlag]

@[simp] theorem moveDone_vault (d : Dev) (g : Nat) (m : Move) : (d.moveDone g m).vault = d.vault := by
  simp [Dev.moveDone]

@[simp] theorem startNext_vault (d : Dev) (g v n : Nat) : (d.startNext g v n).vault = d.vault := by
  induction n generalizing d v with
  | zero => rfl
  | succ n ih =>
    unfold Dev.startNext
    dsimp only
    split
    · simp
    · simp [ih]

/-! Stop points (R281, R282). -/

@[simp] theorem makeStop_vault (d : Dev) (g : Nat) : (d.makeStop g).vault = d.vault := by
  unfold Dev.makeStop
  dsimp only
  (repeat' split) <;> simp

/-! One profile period of one group. -/

@[simp] theorem atStop_vault (d : Dev) (g : Nat) (m : Move) (u : Nat) : (d.atStop g m u).vault = d.vault := by
  simp [Dev.atStop]

@[simp] theorem endOfMove_vault (d : Dev) (g : Nat) (m : Move) (e : Nat) : (d.endOfMove g m e).vault = d.vault := by
  unfold Dev.endOfMove
  dsimp only
  (repeat' split) <;> simp

@[simp] theorem axMove_vault (d : Dev) (a : Nat) (p : Int) : (d.axMove a p).vault = d.vault := by simp [Dev.axMove]

@[simp] theorem place_vault (d : Dev) (m : Move) (u : Nat) : (d.place m u).vault = d.vault := by simp [Dev.place]

@[simp] theorem noRate_vault (d : Dev) (g : Nat) : (d.noRate g).vault = d.vault := by simp [Dev.noRate]

@[simp] theorem limitEnd_vault (d : Dev) (g : Nat) : (d.limitEnd g).vault = d.vault := by simp [Dev.limitEnd]

@[simp] theorem abortEnd_vault (d : Dev) (g : Nat) : (d.abortEnd g).vault = d.vault := by simp [Dev.abortEnd]

@[simp] theorem haltEnd_vault (d : Dev) (g : Nat) : (d.haltEnd g).vault = d.vault := by simp [Dev.haltEnd]

@[simp] theorem haltOn_vault (d : Dev) (g : Nat) (m : Move) (v : Nat) : (d.haltOn g m v).vault = d.vault := by
  simp [Dev.haltOn]

@[simp] theorem periodEnd_vault (d : Dev) (g : Nat) : (d.periodEnd g).vault = d.vault := by
  unfold Dev.periodEnd
  dsimp only
  (repeat' split) <;> simp

@[simp] theorem haltPeriod_vault (d : Dev) (g : Nat) (m : Move) : (d.haltPeriod g m).vault = d.vault := by
  simp [Dev.haltPeriod]

@[simp] theorem judgeDec_vault (d : Dev) (g : Nat) (m : Move) (e : Nat) : (d.judgeDec g m e).vault = d.vault := by
  simp [Dev.judgeDec]

@[simp] theorem runPeriod_vault (d : Dev) (g : Nat) (m : Move) : (d.runPeriod g m).vault = d.vault := by
  unfold Dev.runPeriod
  extract_lets x e d1 x1 num dec rem cap held up ramp v d2
  have h1 : d1.vault = d.vault := judgeDec_vault d g m e
  have h2 : d2.vault = d.vault := (modGrp_vault d1 g _).trans h1
  split <;> simp [h1, h2]

@[simp] theorem hardHalt_vault (d : Dev) (g : Nat) : (d.hardHalt g).vault = d.vault := by simp [Dev.hardHalt]

@[simp] theorem groupPeriod_vault (d : Dev) (g : Nat) : (d.groupPeriod g).vault = d.vault := by
  unfold Dev.groupPeriod
  dsimp only
  (repeat' split) <;> simp

/-! Following error (R263). -/

@[simp] theorem resyncTo_vault (d : Dev) (a : Nat) (p : Int) : (d.resyncTo a p).vault = d.vault := by
  simp [Dev.resyncTo]

@[simp] theorem feCheck_vault (d : Dev) (a : Nat) : (d.feCheck a).vault = d.vault := by simp [Dev.feCheck]

/-! Homing (R260 to R262). -/

@[simp] theorem homeOff_vault (d : Dev) (a : Nat) : (d.homeOff a).vault = d.vault := by simp [Dev.homeOff]

@[simp] theorem homeCheck_vault (d : Dev) : (d.homeCheck).vault = d.vault := by simp [Dev.homeCheck]

@[simp] theorem homeFail_vault (d : Dev) (a cond : Nat) : (d.homeFail a cond).vault = d.vault := by
  unfold Dev.homeFail
  split <;> simp

@[simp] theorem homeStart_vault (d : Dev) (a v tries : Nat) : (d.homeStart a v tries).vault = d.vault := by
  simp [Dev.homeStart]

@[simp] theorem homePeriod_vault (d : Dev) (a : Nat) : (d.homePeriod a).vault = d.vault := by
  unfold Dev.homePeriod
  split
  · rfl
  · extract_lets acc goal v fwd step n dpos hm d' p e
    have hd : d'.vault = d.vault := by simp [d']
    split
    · simp
    · split
      · simp [hd]
      · split
        · split
          · simp [hd]
          · simp [e, hd]
          · simp [hd]
          · simp [hd]
          · exact hd
        · exact hd

@[simp] theorem homeLatch_vault (d : Dev) (a : Nat) (hm : Homing) (p : Int) (index : Bool) :
    (d.homeLatch a hm p index).vault = d.vault := by
  simp [Dev.homeLatch]

/-! Switches (R241, R258). -/

@[simp] theorem limitHard_vault (d : Dev) (g : Nat) : (d.limitHard g).vault = d.vault := by simp [Dev.limitHard]

@[simp] theorem limitTrip_vault (d : Dev) (a : Nat) : (d.limitTrip a).vault = d.vault := by
  unfold Dev.limitTrip
  dsimp only
  (repeat' split) <;> simp

@[simp] theorem swSample_vault (d : Dev) (s : Nat) (active : Bool) : (d.swSample s active).vault = d.vault := by
  simp [Dev.swSample]

@[simp] theorem swAxis_vault (d : Dev) (s : Nat) (active : Bool) (a : Nat) :
    (d.swAxis s active a).vault = d.vault := by
  unfold Dev.swAxis
  (repeat' split) <;> simp

@[simp] theorem swMotion_vault (d : Dev) (s : Nat) (active : Bool) : (d.swMotion s active).vault = d.vault := by
  simp [Dev.swMotion]

/-! Commands (R247 to R257, R260). -/

@[simp] theorem homeAbandon_vault (d : Dev) (hard : Bool) : (d.homeAbandon hard).vault = d.vault := by
  simp [Dev.homeAbandon]

@[simp] theorem axisHalt_vault (d : Dev) (mask : BitVec 16) (hard : Bool) :
    (d.axisHalt mask hard).2.2.vault = d.vault := by
  unfold Dev.axisHalt
  extract_lets axes e halt
  have hhalt : ∀ e g, (halt e g).vault = e.vault := fun e g => by
    dsimp only [halt]
    (repeat' split) <;> simp
  have he : e.vault = d.vault := by simp [e]
  simp [hhalt, he]

@[simp] theorem rebase_vault (d : Dev) (g : Nat) : (d.rebase g).vault = d.vault := by
  unfold Dev.rebase
  dsimp only
  (repeat' split) <;> simp

@[simp] theorem profileRestarted_vault (d : Dev) (g : Nat) : (d.profileRestarted g).vault = d.vault := by
  simp [Dev.profileRestarted]

/-! Frames. -/

@[simp] theorem sendNak_vault (d : Dev) (r : Dir) : (d.sendNak r).vault = d.vault := by simp [Dev.sendNak]

@[simp] theorem resendFrames_vault (d : Dev) (r : Dir) : (d.resendFrames r).vault = d.vault := by
  simp [Dev.resendFrames]

@[simp] theorem replay_vault (d : Dev) (r : Dir) : (d.replay r).vault = d.vault := by simp [Dev.replay]

@[simp] theorem takeAck_vault (d : Dev) (r : Dir) (f : Frame) : (d.takeAck r f).vault = d.vault := by
  cases r <;> simp [Dev.takeAck]

@[simp] theorem bzlRx_vault (d : Dev) (r : Dir) (f : Frame) : (d.bzlRx r f).1.vault = d.vault := by simp [Dev.bzlRx]

/-! Lanes (R24 to R27). -/

@[simp] theorem laneBad_vault (d : Dev) (r : Dir) (n errs : Nat) : (d.laneBad r n errs).vault = d.vault := by
  simp [Dev.laneBad]

@[simp] theorem spareLane_vault (d : Dev) (r : Dir) (n : Nat) : (d.spareLane r n).vault = d.vault := by
  simp [Dev.spareLane]

/-! Planned retraining (R314, R315). -/

@[simp] theorem laneTrained_vault (d : Dev) (r : Dir) (n : Nat) : (d.laneTrained r n).vault = d.vault := by
  simp [Dev.laneTrained]

@[simp] theorem lanesTrained_vault (d : Dev) : (d.lanesTrained).vault = d.vault := by simp [Dev.lanesTrained]

@[simp] theorem swapLane_vault (d : Dev) (r : Dir) (n k : Nat) : (d.swapLane r n k).vault = d.vault := by
  simp [Dev.swapLane]

@[simp] theorem nextLane_vault (d : Dev) (r : Dir) : (d.nextLane r).vault = d.vault := by
  unfold Dev.nextLane
  dsimp only
  (repeat' split) <;> simp

@[simp] theorem bezelRunCheck_vault (d : Dev) : (d.bezelRunCheck).vault = d.vault := by
  unfold Dev.bezelRunCheck
  split <;> simp

/-! Staging, link loss and holdover (R23, R28, R29, R31). -/

@[simp] theorem inhibitCatches_vault (d : Dev) : (d.inhibitCatches).vault = d.vault := by simp [Dev.inhibitCatches]

@[simp] theorem linkLoss_vault (d : Dev) : (d.linkLoss).vault = d.vault := by simp [Dev.linkLoss]

/-! Lamps (R208 to R234). -/

@[simp] theorem lampEv_vault (d : Dev) (n cond : Nat) : (d.lampEv n cond).vault = d.vault := by simp [Dev.lampEv]

/-! Shifting and latching (R210 to R214). -/

@[simp] theorem latchChain_vault (d : Dev) (n : Nat) : (d.latchChain n).vault = d.vault := by
  unfold Dev.latchChain
  dsimp only
  (repeat' split) <;> simp

@[simp] theorem latchPhase_vault (d : Dev) (p : Nat) : (d.latchPhase p).vault = d.vault := by simp [Dev.latchPhase]

@[simp] theorem shiftOut_vault (d : Dev) (n : Nat) (level : Word) : (d.shiftOut n level).vault = d.vault := by
  simp [Dev.shiftOut]

@[simp] theorem shiftAll_vault (d : Dev) : (d.shiftAll).vault = d.vault := by simp [Dev.shiftAll]

/-! What a Catch does to the lamps (R211, R215, R219, R221, R227). -/

@[simp] theorem gateOpen_vault (d : Dev) (n opens closes : Nat) : (d.gateOpen n opens closes).vault = d.vault := by
  simp [Dev.gateOpen]

@[simp] theorem shine_vault (d : Dev) (n opens closes : Nat) : (d.shine n opens closes).vault = d.vault := by
  simp [Dev.shine]

@[simp] theorem twoPulses_vault (d : Dev) (n bound : Nat) : (d.twoPulses n bound).vault = d.vault := by
  simp [Dev.twoPulses]

@[simp] theorem lampCatch_vault (d : Dev) (p t : Nat) (dark : Bool) : (d.lampCatch p t dark).1.vault = d.vault := by
  unfold Dev.lampCatch
  dsimp only
  exact (vault_foldl _ (fun d n => shine_vault _ _ _ _) _ _).trans
    ((vault_foldl _ (fun d n => shine_vault _ _ _ _) _ _).trans (latchPhase_vault d p))

/-! Diagnosis (R219 to R223). -/

@[simp] theorem monitor_vault (d : Dev) (n i m : Nat) : (d.monitor n i m).vault = d.vault := by simp [Dev.monitor]

@[simp] theorem settleWait_vault (d : Dev) (i n : Nat) : (d.settleWait i n).vault = d.vault := by
  simp [Dev.settleWait]

@[simp] theorem lampFail_vault (d : Dev) (n : Nat) (at_ : Option (Nat × Stroke)) :
    (d.lampFail n at_).vault = d.vault := by
  unfold Dev.lampFail
  dsimp only
  (repeat' split) <;> simp

@[simp] theorem classBit_vault (d : Dev) (n f : Nat) : (d.classBit n f).vault = d.vault := by simp [Dev.classBit]

/-! Wear rotation (R225 to R227). -/

@[simp] theorem storeLamp_vault (d : Dev) (n : Nat) : (d.storeLamp n).vault = d.vault := by simp [Dev.storeLamp]

@[simp] theorem rotStart_vault (d : Dev) (n : Nat) : (d.rotStart n).vault = d.vault := by simp [Dev.rotStart]

@[simp] theorem rotCheck_vault (d : Dev) : (d.rotCheck).vault = d.vault := by simp [Dev.rotCheck]

/-! Map slots and defect banks (R159 to R161). -/

@[simp] theorem checkSlot_vault (d : Dev) (m : Nat) : (d.checkSlot m).vault = d.vault := by
  unfold Dev.checkSlot
  exact vault_cal d _

/-! Lamp-monitor compensation (R316, R317, R436). -/

@[simp] theorem driftBit_vault (d : Dev) (p : Nat) (on : Bool) : (d.driftBit p on).vault = d.vault := by
  simp [Dev.driftBit]

@[simp] theorem selectSlots_vault (d : Dev) : (d.selectSlots).1.vault = d.vault := by
  refine vault_foldl_fst _ (fun a p => ?_) _ _
  dsimp only
  split
  · rfl
  · split
    · simp
    · generalize Dev.compTarget _ _ = r
      simp

@[simp] theorem lampPreload_vault (d : Dev) : (d.lampPreload).vault = d.vault := by
  unfold Dev.lampPreload
  extract_lets one
  have hone : ∀ a p, (one a p).1.vault = a.1.vault := fun a p => by
    obtain ⟨d, e⟩ := a
    dsimp only [one]
    split
    · generalize Dev.compTarget _ _ = r
      cases e <;> simp
    · simp
  exact vault_foldl_fst one hone _ _

/-! Corrections at a Catch (R307 to R309). -/

@[simp] theorem catchCorr_vault (d : Dev) (k : Nat) : (d.catchCorr k).vault = d.vault := by simp [Dev.catchCorr]

/-! AFE offset runs (R311 to R313). -/

@[simp] theorem setBref_vault (d : Dev) (t g v : Nat) : (d.setBref t g v).vault = d.vault := by
  unfold Dev.setBref
  split <;> simp

@[simp] theorem afeStart_vault (d : Dev) (q : Nat) : (d.afeStart q).vault = d.vault := by simp [Dev.afeStart]

@[simp] theorem afeCatch_vault (d : Dev) : (d.afeCatch).vault = d.vault := by simp [Dev.afeCatch]

@[simp] theorem afeMeasure_vault (d : Dev) (c : List (Nat × Word)) (gset : Nat → Nat → Nat → Nat → Nat)
    (l : List (Nat × Nat × Nat × List Px)) : (d.afeMeasure c gset l).vault = d.vault := by
  simp [Dev.afeMeasure]

@[simp] theorem afeOne_vault (d : Dev) (q : Nat) (a : Dev × List (Nat × Nat × Int) × List (Nat × Nat × Nat))
    (x : Nat × Nat × Nat × Nat) : (d.afeOne q a x).1.vault = a.1.vault := by
  unfold Dev.afeOne
  dsimp only
  split <;> simp [apply_ite]

@[simp] theorem addPend_vault (d : Dev) (r : CalRec) : (d.addPend r).vault = d.vault := by simp [Dev.addPend]

@[simp] theorem runDone_vault (d : Dev) (epoch : Word) : (d.runDone epoch).vault = d.vault := by
  unfold Dev.runDone
  split <;> simp

/-! Starting commanded runs (R318). -/

@[simp] theorem runStart_vault (d : Dev) (h : Req) (kind unit stage : Nat) (left : List Nat) (go capture : Bool) :
    (d.runStart h kind unit stage left go capture).2.2.vault = d.vault := by
  simp [Dev.runStart]

/-! Results (R319 to R323). -/

@[simp] theorem captured_vault (d : Dev) (s : Stroke) (px : PxOut) : (d.captured s px).vault = d.vault := by
  unfold Dev.captured
  split <;> simp

/-! CAL_APPLY (R324). -/

@[simp] theorem loadSlot_vault (d : Dev) (m : Nat) (r : CalRec) : (d.loadSlot m r).vault = d.vault := by
  simp [Dev.loadSlot]

@[simp] theorem putLampRec_vault (d : Dev) (n : Nat) (b : List Nat) : (d.putLampRec n b).vault = d.vault := by
  simp [Dev.putLampRec]

@[simp] theorem applyResult_vault (d : Dev) (r : CalRec) : (d.applyResult r).vault = d.vault := by
  unfold Dev.applyResult
  split <;> simp

/-! The store (R327 to R329). -/

@[simp] theorem queueWrites_vault (d : Dev) (l : List CalRec) : (d.queueWrites l).vault = d.vault := by
  simp [Dev.queueWrites]

@[simp] theorem storeEnd_vault (d : Dev) : (d.storeEnd).vault = d.vault := by simp [Dev.storeEnd]

@[simp] theorem wakeRestore_vault (d : Dev) (bad : List Nat) : (d.wakeRestore bad).vault = d.vault := by
  unfold Dev.wakeRestore
  extract_lets good newest near d1 d2 d3 es d4 d5 d6 d7 src d8
  have h1 : d1.vault = d.vault := vault_foldl _ (fun d k => by dsimp only; split <;> simp) _ _
  have h2 : d2.vault = d1.vault := vault_foldl _ (fun d r => vault_foldl _ (fun d n => by split <;> simp) _ _) _ _
  have h3 : d3.vault = d2.vault := vault_foldl _ (fun d q => by split <;> simp) _ _
  have h4 : d4.vault = d3.vault := by simp [d4]
  have h5 : d5.vault = d4.vault := vault_foldl _ (fun d m => by split <;> simp) _ _
  have h6 : d6.vault = d5.vault := by dsimp only [d6]; split <;> simp
  have h7 : d7.vault = d6.vault := vault_foldl _ (fun d n => by split <;> simp) _ _
  have h8 : d8.vault = d7.vault := vault_cal d7 _
  simp [h1, h2, h3, h4, h5, h6, h7, h8]

/-! Poisoned slots and banks (R391). -/

@[simp] theorem reloadMaps_vault (d : Dev) : (d.reloadMaps).vault = d.vault := by
  unfold Dev.reloadMaps
  refine vault_foldl _ (fun d x => ?_) _ _
  split
  · next r _ =>
    extract_lets sel e src e'
    have he : e'.vault = d.vault := (vault_cal e _).trans (loadSlot_vault d x r)
    split
    · exact (clrFault_vault _ _).trans he
    · exact he
  · exact enterSafe_vault _ _ _

/-! Cores (R127 to R132, R310). -/

@[simp] theorem modQuad_vault (d : Dev) (q : Nat) (f : Quad → Quad) : (d.modQuad q f).vault = d.vault := by
  simp [Dev.modQuad]

@[simp] theorem takeover_vault (d : Dev) (ch core : Nat) : (d.takeover ch core).2.vault = d.vault := by
  simp [Dev.takeover]

@[simp] theorem noSpare_vault (d : Dev) (q : Nat) : (d.noSpare q).vault = d.vault := by
  unfold Dev.noSpare
  split <;> simp

@[simp] theorem failChannel_vault (d : Dev) (ch : Nat) : (d.failChannel ch).vault = d.vault := by
  simp [Dev.failChannel]

@[simp] theorem retire_vault (d : Dev) (core : Nat) : (d.retire core).vault = d.vault := by simp [Dev.retire]

@[simp] theorem coreOfRun_vault (d : Dev) (core : Nat) : (d.coreOfRun core).vault = d.vault := by
  unfold Dev.coreOfRun
  split <;> simp

@[simp] theorem coreCalibrated_vault (d : Dev) (core : Nat) : (d.coreCalibrated core).vault = d.vault := by
  simp [Dev.coreCalibrated]

/-! The black-level monitor (R131). -/

@[simp] theorem blackStep_vault (d : Dev) (t n : Nat) : (d.blackStep t n).vault = d.vault := by simp [Dev.blackStep]

@[simp] theorem blackFault_vault (d : Dev) (t no : Nat) : (d.blackFault t no).vault = d.vault := by
  unfold Dev.blackFault
  dsimp only
  (repeat' split) <;> simp

/-! The pixel ADC reference (R133, R134). -/

@[simp] theorem selectRef_vault (d : Dev) : (d.selectRef).vault = d.vault := by simp [Dev.selectRef]

/-! The tap open-wire check (R135). -/

@[simp] theorem owStart_vault (d : Dev) : (d.owStart).vault = d.vault := by simp [Dev.owStart]

/-! MON (R136 to R142). -/

@[simp] theorem modMon_vault (d : Dev) (b : Bool) (f : Mon → Mon) : (d.modMon b f).vault = d.vault := by
  simp [Dev.modMon]

@[simp] theorem monRefTake_vault (d : Dev) (b : Bool) : (d.monRefTake b).vault = d.vault := by simp [Dev.monRefTake]

@[simp] theorem monRefWritten_vault (d : Dev) (b : Bool) : (d.monRefWritten b).vault = d.vault := by
  simp [Dev.monRefWritten]

/-! The field SRAM (R160, R161). -/

@[simp] theorem slotWritten_vault (d : Dev) (o n : Nat) : (d.slotWritten o n).vault = d.vault := by
  simp [Dev.slotWritten]

@[simp] theorem sramWrite_vault (d : Dev) (o : Nat) (data : List Byte) : (d.sramWrite o data).1.vault = d.vault := by
  simp [Dev.sramWrite]

/-! Channels (R336, R338, R345). -/

@[simp] theorem modChan_vault (d : Dev) (n : Nat) (f : Chan → Chan) : (d.modChan n f).vault = d.vault := by
  simp [Dev.modChan]

@[simp] theorem request1_vault (d : Dev) (n : Nat) : (d.request1 n).vault = d.vault := by simp [Dev.request1]

@[simp] theorem dmaRequests_vault (d : Dev) (src from_ : Nat) : (d.dmaRequests src from_).vault = d.vault := by
  simp [Dev.dmaRequests]

@[simp] theorem latchErr_vault (d : Dev) (n cls st addr : Nat) : (d.latchErr n cls st addr).vault = d.vault := by
  simp [Dev.latchErr]

@[simp] theorem chainEnd_vault (d : Dev) (n : Nat) (err : Bool) : (d.chainEnd n err).vault = d.vault := by
  simp [Dev.chainEnd]

@[simp] theorem cleanPoison_vault (d : Dev) (a n : Nat) : (d.cleanPoison a n).vault = d.vault := by
  simp [Dev.cleanPoison]

@[simp] theorem afterWriteBack_vault (d : Dev) (n : Nat) (e : DEnd) : (d.afterWriteBack n e).vault = d.vault := by
  simp [Dev.afterWriteBack]

/-! Data movement (R340 to R344). -/

@[simp] theorem readWindow_vault (d : Dev) (a : Nat) (step : Int) (len cnt n : Nat) :
    (d.readWindow a step len cnt n).vault = d.vault := by
  simp [Dev.readWindow]

@[simp] theorem readFrames_vault (d : Dev) (i : List Byte) (n : Nat) : (d.readFrames i n).vault = d.vault := by
  simp [Dev.readFrames]

@[simp] theorem dblError_vault (d : Dev) (a : Nat) : (d.dblError a).vault = d.vault := by simp [Dev.dblError]

@[simp] theorem chanRestarted_vault (d : Dev) (ch : Nat) : (d.chanRestarted ch).vault = d.vault := by
  simp [Dev.chanRestarted]

/-! Register writes (R345, R349, R350). -/

@[simp] theorem errCleared_vault (d : Dev) (ch : Nat) : (d.errCleared ch).vault = d.vault := by simp [Dev.errCleared]

/-! FENCE (R348). -/

@[simp] theorem fenceReply_vault (d : Dev) (f : FenceW) (st : Nat) : (d.fenceReply f st).vault = d.vault := by
  simp [Dev.fenceReply]

/-! Lanes (R103). -/

@[simp] theorem coxScanEntry_vault (d : Dev) : (d.coxScanEntry).vault = d.vault := by simp [Dev.coxScanEntry]

@[simp] theorem scanBegin_vault (d : Dev) : (d.scanBegin).vault = d.vault := by simp [Dev.scanBegin]

@[simp] theorem bandStart_vault (d : Dev) : (d.bandStart).vault = d.vault := by simp [Dev.bandStart]

/-! Requests (R86, R89, R92). -/

@[simp] theorem overspeed_vault (d : Dev) (k : Nat) : (d.overspeed k).vault = d.vault := by simp [Dev.overspeed]

@[simp] theorem request_vault (d : Dev) (k r : Nat) : (d.request k r).vault = d.vault := by simp [Dev.request]

@[simp] theorem edgeForward_vault (d : Dev) (q : Int) (t t1 : Nat) : (d.edgeForward q t t1).vault = d.vault := by
  simp [Dev.edgeForward]

@[simp] theorem edgeBackward_vault (d : Dev) (q : Int) : (d.edgeBackward q).vault = d.vault := by
  simp [Dev.edgeBackward]

@[simp] theorem encCount_vault (d : Dev) (enc : Nat) (up : Bool) (t : Nat) :
    (d.encCount enc up t).vault = d.vault := by
  simp [Dev.encCount]

/-! Catch (R84, R87, R90, R91, R94). -/

@[simp] theorem newOrigin_vault (d : Dev) (k : Nat) : (d.newOrigin k).vault = d.vault := by simp [Dev.newOrigin]

@[simp] theorem runCatch_vault (d : Dev) (t : Nat) : (d.runCatch t).vault = d.vault := by
  unfold Dev.runCatch
  split <;> simp

@[simp] theorem doCatch_vault (d : Dev) (k : Nat) (pos : Int) (t : Nat) (deferred timer : Bool) :
    (d.doCatch k pos t deferred timer).vault = d.vault := by
  unfold Dev.doCatch
  dsimp only
  (repeat' split) <;> simp

@[simp] theorem popPend_vault (d : Dev) : (d.popPend).vault = d.vault := by simp [Dev.popPend]

/-! Lane errors (R103 to R105). -/

@[simp] theorem laneError_vault (d : Dev) (lane code : Nat) : (d.laneError lane code).vault = d.vault := by
  simp [Dev.laneError]

@[simp] theorem scanFail_vault (d : Dev) : (d.scanFail).vault = d.vault := by simp [Dev.scanFail]

/-! The pipeline (R151, R163) and the trailer (R170 to R172). -/

@[simp] theorem countDrift_vault (d : Dev) (p why : Nat) : (d.countDrift p why).vault = d.vault := by
  simp [Dev.countDrift]

/-! Pages (R183 to R186). -/

@[simp] theorem modPage_vault (d : Dev) (id : Word) (f : Page → Page) : (d.modPage id f).vault = d.vault := by
  simp [Dev.modPage]

@[simp] theorem openPage_vault (d : Dev) (c : List (Nat × Word)) (k0 : Int) (lg : Nat) (fin : Option Int) :
    (d.openPage c k0 lg fin).vault = d.vault := by
  unfold Dev.openPage
  split <;> simp

@[simp] theorem lengthKnown_vault (d : Dev) (k0 : Int) (lg : Nat) : (d.lengthKnown k0 lg).vault = d.vault := by
  simp [Dev.lengthKnown]

@[simp] theorem openFixed_vault (d : Dev) (c : List (Nat × Word)) (k : Int) (n : Nat) :
    (d.openFixed c k n).vault = d.vault := by
  induction n generalizing d with
  | zero => rfl
  | succ n ih => simp [Dev.openFixed, ih]

@[simp] theorem issueUnits_vault (d : Dev) : (d.issueUnits).vault = d.vault := by
  refine vault_foldl _ (fun d e => ?_) _ _
  split <;> simp

@[simp] theorem openGaps_vault (d : Dev) (p : Page) : (d.openGaps p).2.vault = d.vault := by
  unfold Dev.openGaps
  dsimp only
  (repeat' split) <;> simp

@[simp] theorem closePage_vault (d : Dev) (id : Word) (trunc : Bool) : (d.closePage id trunc).vault = d.vault := by
  unfold Dev.closePage
  split <;> simp

@[simp] theorem rampInternal_vault (d : Dev) : (d.rampInternal).vault = d.vault := by
  unfold Dev.rampInternal
  split <;> simp

@[simp] theorem chainOn_vault (d : Dev) (p : Page) (x : Ing) : (d.chainOn p x).vault = d.vault := by
  simp [Dev.chainOn]

@[simp] theorem splitPages_vault (d : Dev) (c : List (Nat × Word)) (k : Int) (n : Nat) :
    (d.splitPages c k n).vault = d.vault := by
  induction n generalizing d with
  | zero => rfl
  | succ n ih =>
    unfold Dev.splitPages
    split
    · rfl
    · simp [ih]

@[simp] theorem closeBy_vault (d : Dev) (k : Int) (c : List (Nat × Word)) : (d.closeBy k c).vault = d.vault := by
  simp [Dev.closeBy]

@[simp] theorem closeAll_vault (d : Dev) : (d.closeAll).vault = d.vault := by simp [Dev.closeAll]

@[simp] theorem placeStroke_vault (d : Dev) (x : Ing) (tail : Bool) : (d.placeStroke x tail).vault = d.vault := by
  simp [Dev.placeStroke]

@[simp] theorem duplicate_vault (d : Dev) (x : Ing) : (d.duplicate x).vault = d.vault := by simp [Dev.duplicate]

@[simp] theorem dropBand_vault (d : Dev) : (d.dropBand).vault = d.vault := by simp [Dev.dropBand]

@[simp] theorem stopCheck_vault (d : Dev) : (d.stopCheck).vault = d.vault := by
  unfold Dev.stopCheck
  split <;> simp

/-! Ingest (R180, R181, R287, R291, R296). -/

@[simp] theorem ingest_vault (d : Dev) (t payload : List Byte) : (d.ingest t payload).vault = d.vault := by
  simp [Dev.ingest]

@[simp] theorem discardStroke_vault (d : Dev) (tag code : Nat) : (d.discardStroke tag code).vault = d.vault := by
  simp [Dev.discardStroke]

@[simp] theorem checkStroke_vault (d : Dev) (a : Assembly) : (d.checkStroke a).vault = d.vault := by
  simp [Dev.checkStroke]

/-! The sheet sensor (R183, R241, R296). -/

@[simp] theorem leadingEdge_vault (d : Dev) (g : Nat) : (d.leadingEdge g).vault = d.vault := by simp [Dev.leadingEdge]

@[simp] theorem trailingEdge_vault (d : Dev) (g : Nat) : (d.trailingEdge g).vault = d.vault := by
  unfold Dev.trailingEdge
  split <;> simp

@[simp] theorem sensorEdge_vault (d : Dev) (sw : Nat) (active : Bool) : (d.sensorEdge sw active).vault = d.vault := by
  simp [Dev.sensorEdge]

/-! The splice (R292 to R298). -/

@[simp] theorem spliceEntryOn_vault (d : Dev) (x : Ing) (entry : List Byte) :
    (d.spliceEntryOn x entry).vault = d.vault := by
  simp [Dev.spliceEntryOn]

@[simp] theorem takeStaged_vault (entry : List Byte) (d : Dev) (a : Ing × Bool) :
    (Dev.takeStaged entry d a).vault = d.vault := by
  simp [Dev.takeStaged]

/-! The Filigree engines (R197 to R199). -/

@[simp] theorem engineFree_vault (d : Dev) (engine : Nat) : (d.engineFree engine).vault = d.vault := by
  simp [Dev.engineFree]

@[simp] theorem rerun_vault (d : Dev) (engine : Nat) : (d.rerun engine).vault = d.vault := by
  unfold Dev.rerun
  split <;> simp

/-! Delivery (R200 to R203). -/

@[simp] theorem modQp_vault (d : Dev) (n : Nat) (f : Qp → Qp) : (d.modQp n f).vault = d.vault := by simp [Dev.modQp]

@[simp] theorem rdmaSend_vault (d : Dev) (n addr : Nat) (rkey : Word) (data : List Byte) (from_ : Nat) :
    (d.rdmaSend n addr rkey data from_).vault = d.vault := by
  simp [Dev.rdmaSend]

@[simp] theorem rdmaWrite_vault (d : Dev) (n addr : Nat) (rkey : Word) (data : List Byte) :
    (d.rdmaWrite n addr rkey data).vault = d.vault := by
  simp [Dev.rdmaWrite]

@[simp] theorem qpRx_vault (d : Dev) (n k : Nat) : (d.qpRx n k).vault = d.vault := by simp [Dev.qpRx]

@[simp] theorem ecn_vault (d : Dev) (n : Nat) (ce : Bool) : (d.ecn n ce).vault = d.vault := by simp [Dev.ecn]

@[simp] theorem modDeliv_vault (d : Dev) (f : Deliv → Deliv) : (d.modDeliv f).vault = d.vault := by
  simp [Dev.modDeliv]

@[simp] theorem sendRecord_vault (d : Dev) (n cp : Nat) (rec0 : List Byte) :
    (d.sendRecord n cp rec0).vault = d.vault := by
  simp [Dev.sendRecord]

@[simp] theorem sendContainer_vault (d : Dev) (n off : Nat) (b : List Byte) :
    (d.sendContainer n off b).vault = d.vault := by
  simp [Dev.sendContainer]

@[simp] theorem writeRecord_vault (d : Dev) (x : Deliv) : (d.writeRecord x).vault = d.vault := by
  unfold Dev.writeRecord
  split <;> simp

@[simp] theorem startRdma_vault (d : Dev) (p : Page) (b : List Byte) (n : Nat) :
    (d.startRdma p b n).vault = d.vault := by
  simp [Dev.startRdma]

@[simp] theorem sendData_vault (d : Dev) (ses : Session) (x : Deliv) (off : Nat) (last retx : Bool) (data : List Byte)
    : (d.sendData ses x off last retx data).vault = d.vault := by
  simp [Dev.sendData]

@[simp] theorem sendRange_vault (d : Dev) (ses : Session) (x : Deliv) (b : List Byte) (retx : Bool)
    (stop lim n off : Nat) :
    (d.sendRange ses x b retx stop lim n off).1.vault = d.vault := by
  induction n generalizing d off with
  | zero => rfl
  | succ n ih =>
    unfold Dev.sendRange
    dsimp only
    split
    · rfl
    · simp [ih]

@[simp] theorem pushUdp_vault (d : Dev) : (d.pushUdp).vault = d.vault := by
  unfold Dev.pushUdp
  dsimp only
  (repeat' split) <;> simp

@[simp] theorem delivered_vault (d : Dev) (x : Deliv) : (d.delivered x).vault = d.vault := by
  unfold Dev.delivered
  split <;> simp

@[simp] theorem clientRx_vault (d : Dev) (f : ClientData) : (d.clientRx f).vault = d.vault := by
  unfold Dev.clientRx
  split <;> simp

@[simp] theorem resendRange_vault (d : Dev) (ses : Session) (x : Deliv) (b : List Byte) (r : Nat × Nat) :
    (d.resendRange ses x b r).vault = d.vault := by
  simp [Dev.resendRange]

/-! The Cox (R276 to R279, R285). -/

@[simp] theorem paceStop_vault (d : Dev) : (d.paceStop).vault = d.vault := by simp [Dev.paceStop]

@[simp] theorem coxScan_vault (d : Dev) (b : Nat) : (d.coxScan b).vault = d.vault := by simp [Dev.coxScan]

/-! The profile period boundary (R244, R284). -/

@[simp] theorem noLimit_vault (d : Dev) : (d.noLimit).vault = d.vault := by
  unfold Dev.noLimit
  split <;> simp

@[simp] theorem feedAtRest_vault (d : Dev) : (d.feedAtRest).vault = d.vault := by simp [Dev.feedAtRest]

@[simp] theorem statusFrame_vault (d : Dev) : (d.statusFrame).vault = d.vault := by simp [Dev.statusFrame]

@[simp] theorem hostEndTemp_vault (d : Dev) : (d.hostEndTemp).vault = d.vault := by simp [Dev.hostEndTemp]

@[simp] theorem fecPeriod_vault (d : Dev) (i : Nat) : (d.fecPeriod i).vault = d.vault := by simp [Dev.fecPeriod]

/-! The reference set (R287). -/

@[simp] theorem fixRefs_vault (d : Dev) : (d.fixRefs).vault = d.vault := by simp [Dev.fixRefs]

/-! SPLICE (R288 to R291). -/

@[simp] theorem startRewind_vault (d : Dev) (g : Nat) (kb : Int) : (d.startRewind g kb).vault = d.vault := by
  unfold Dev.startRewind
  dsimp only
  (repeat' split) <;> simp

/-! Core pairs (R390). -/

@[simp] theorem retirePair_vault (d : Dev) (k : Nat) : (d.retirePair k).vault = d.vault := by simp [Dev.retirePair]

/-! Double errors (R391). -/

@[simp] theorem poisonPage_vault (d : Dev) (p : Page) (sect offset : Nat) :
    (d.poisonPage p sect offset).vault = d.vault := by
  simp [Dev.poisonPage]

/-! Recoveries (R394 to R397). -/

@[simp] theorem l1Done_vault (d : Dev) (p : Recov → Bool) : (d.l1Done p).vault = d.vault := by simp [Dev.l1Done]

@[simp] theorem warmDone_vault (d : Dev) : (d.warmDone).vault = d.vault := by simp [Dev.warmDone]

/-! SAFE (R401). -/

@[simp] theorem clearStart_vault (d : Dev) : (d.clearStart).vault = d.vault := by simp [Dev.clearStart]

@[simp] theorem clearLog_vault (d : Dev) : (d.clearLog).vault = d.vault := by simp [Dev.clearLog]

@[simp] theorem leaveSafe_vault (d : Dev) : (d.leaveSafe).vault = d.vault := by simp [Dev.leaveSafe]

/-! Scrubbing and flash (R402 to R406, R410). -/

@[simp] theorem scrubbed_vault (d : Dev) (words : Nat) : (d.scrubbed words).2.vault = d.vault := by
  simp [Dev.scrubbed]

@[simp] theorem badRecord_vault (d : Dev) (r : CalRec) : (d.badRecord r).vault = d.vault := by simp [Dev.badRecord]

/-! Ports. -/

@[simp] theorem linkLost_vault (d : Dev) (p : NetPort) : (d.linkLost p).vault = d.vault := by simp [Dev.linkLost]

/-! Reassembly (R368). -/

@[simp] theorem dropReasm_vault (d : Dev) (key : Nat) : (d.dropReasm key).vault = d.vault := by simp [Dev.dropReasm]

/-! The network record (R366). -/

@[simp] theorem netStore_vault (d : Dev) : (d.netStore).vault = d.vault := by simp [Dev.netStore]

@[simp] theorem netLoad_vault (d : Dev) : (d.netLoad).vault = d.vault := by
  unfold Dev.netLoad
  split <;> simp

/-! The time counter (R375 to R378). -/

@[simp] theorem offset_vault (d : Dev) (o : Int) : (d.offset o).vault = d.vault := by simp [Dev.offset]

/-! PTP (R379 to R381). -/

@[simp] theorem irqLat_vault (d : Dev) (l : Nat) : (d.irqLat l).vault = d.vault := by simp [Dev.irqLat]

@[simp] theorem servo_vault (d : Dev) (o : Int) : (d.servo o).vault = d.vault := by simp [Dev.servo]

@[simp] theorem ptpSeq_vault (d : Dev) (k : Nat) : (d.ptpSeq k).2.vault = d.vault := by simp [Dev.ptpSeq]

@[simp] theorem ptpSend_vault (d : Dev) (kind seq : Nat) (t : Int) : (d.ptpSend kind seq t).vault = d.vault := by
  simp [Dev.ptpSend]

@[simp] theorem takeSync_vault (d : Dev) (t2 origin : Int) : (d.takeSync t2 origin).vault = d.vault := by
  simp [Dev.takeSync]

@[simp] theorem ptpCtrl_vault (d : Dev) (old : Nat) : (d.ptpCtrl old).vault = d.vault := by simp [Dev.ptpCtrl]

/-! Field presence (R421, R460). -/

@[simp] theorem enterWake_vault (d : Dev) : (d.enterWake).vault = d.vault := by
  have hk : (d.setMode .wake).pages.key = d.pages.key := congrArg Prod.fst (setMode_vault d .wake)
  simp [Dev.enterWake, hk]

@[simp] theorem wakeIf_vault (d : Dev) (before : Bool) : (d.wakeIf before).vault = d.vault := by simp [Dev.wakeIf]

@[simp] theorem takeStatus_vault (d : Dev) (st : FieldStatus) : (d.takeStatus st).vault = d.vault := by
  simp [Dev.takeStatus]

@[simp] theorem agreeMode_vault (d : Dev) (m : Nat) : (d.agreeMode m).vault = d.vault := by simp [Dev.agreeMode]

/-! The host side (R416, R420, R434). -/

@[simp] theorem coldStart_vault (d : Dev) : (d.coldStart).vault = d.vault := by simp [Dev.coldStart]

@[simp] theorem markT0_vault (d : Dev) : (d.markT0).vault = d.vault := by simp [Dev.markT0]

@[simp] theorem hostStarts_vault (d : Dev) : (d.hostStarts).vault = d.vault := by simp [Dev.hostStarts]

@[simp] theorem hostHeld_vault (d : Dev) : (d.hostHeld).vault = d.vault := by simp [Dev.hostHeld]

@[simp] theorem selfTest_vault (d : Dev) : (d.selfTest).vault = d.vault := by simp [Dev.selfTest]

/-! The field side (R416, R422, R423). -/

@[simp] theorem fbusSample_vault (d : Dev) (code : Nat) : (d.fbusSample code).vault = d.vault := by
  simp [Dev.fbusSample]

@[simp] theorem fieldGone_vault (d : Dev) : (d.fieldGone).vault = d.vault := by simp [Dev.fieldGone]

/-! WAKE (R435 to R437). -/

@[simp] theorem linkTrained_vault (d : Dev) (t : Training) : (d.linkTrained t).vault = d.vault := by
  simp [Dev.linkTrained]

@[simp] theorem freshPositions_vault (d : Dev) : (d.freshPositions).vault = d.vault := by simp [Dev.freshPositions]

@[simp] theorem convertersUp_vault (d : Dev) : (d.convertersUp).vault = d.vault := by simp [Dev.convertersUp]

@[simp] theorem wakeEnd_vault (d : Dev) : (d.wakeEnd).vault = d.vault := by simp [Dev.wakeEnd]

/-! The field bus (R426 to R430). -/

@[simp] theorem supplyStop_vault (d : Dev) : (d.supplyStop).vault = d.vault := by simp [Dev.supplyStop]

/-! The queue pairs (R370 to R374). -/

@[simp] theorem flushWrites_vault (d : Dev) (n : Nat) : (d.flushWrites n).vault = d.vault := by simp [Dev.flushWrites]

@[simp] theorem qpError_vault (d : Dev) (n cause : Nat) : (d.qpError n cause).vault = d.vault := by
  unfold Dev.qpError
  dsimp only
  (repeat' split) <;> simp

@[simp] theorem nak_vault (d : Dev) (n cause : Nat) : (d.nak n cause).vault = d.vault := by simp [Dev.nak]

@[simp] theorem expect_vault (d : Dev) (n k : Nat) : (d.expect n k).vault = d.vault := by simp [Dev.expect]

@[simp] theorem resendWrite_vault (d : Dev) (n : Nat) : (d.resendWrite n).vault = d.vault := by
  unfold Dev.resendWrite
  split <;> simp

@[simp] theorem retry_vault (d : Dev) (n a : Nat) : (d.retry n a).vault = d.vault := by simp [Dev.retry]

/-! Writes of NET_Ss_QP_CTRL (R371, R373). -/

@[simp] theorem qpWritten_vault (d : Dev) (n : Nat) (old : Nat) : (d.qpWritten n old).vault = d.vault := by
  simp [Dev.qpWritten]

/-! Requests on session 0 (R51, R57). -/

@[simp] theorem serve0_vault (d : Dev) (h : Req) (op : Nat) (bare : Bool) (dup : Dev → Option Dev) (k : Dev → Answer)
    (hdup : ∀ d e, dup d = some e → e.vault = d.vault) (hk : ∀ d, (k d).2.2.vault = d.vault) :
    (d.serve0 h op bare dup k).vault = d.vault := by
  unfold Dev.serve0
  dsimp only
  split
  · rfl
  · split
    · next e he => simpa using notRequest_vault _ _ _ _ he
    · split
      · split
        · simp
        · simp
      · split
        · simp
        · split
          · next e he => simpa using hdup _ _ he
          · simp [hk]

/-! Sessions (R53 to R60). -/

@[simp] theorem freeSession_vault (d : Dev) (n : Nat) : (d.freeSession n).vault = d.vault := by
  unfold Dev.freeSession
  dsimp only
  (repeat' split) <;> simp

@[simp] theorem attach_vault (d : Dev) (n : Nat) (j : Job) : (d.attach n j).vault = d.vault := by
  unfold Dev.attach
  split <;> simp

@[simp] theorem openSession_vault (d : Dev) (h : Req) (n ka : Nat) (tag : Word) (job : Word) :
    (d.openSession h n ka tag job).2.vault = d.vault := by
  simp [Dev.openSession]

/-! Rejected datagrams (R51). -/

@[simp] theorem otherStatus_vault (op : Nat) (p : List Byte) (d : Dev) :
    (otherStatus op p d).2.2.vault = d.vault := by
  simp [otherStatus]

/-! Modes (R40, R460, R461). -/

@[simp] theorem holdStandby_vault (d : Dev) : (d.holdStandby).vault = d.vault := by simp [Dev.holdStandby]

@[simp] theorem modeSetTo_vault (d : Dev) (h : Req) (m : Mode) (p : Dev → Bool) (k : Dev → Dev)
    (hk : ∀ d, (k d).vault = d.vault) :
    (d.modeSetTo h m p k).vault = d.vault := by
  simp [Dev.modeSetTo, hk, no]

/-! Jobs (R42, R58, R61, R185, R253, R255, R461). -/

@[simp] theorem createJob_vault (d : Dev) (n : Nat) (jobId firstPage : Word) (group : Nat) :
    (d.createJob n jobId firstPage group).2.vault = d.vault := by
  simp [Dev.createJob]

@[simp] theorem abortFeed_vault (d : Dev) : (d.abortFeed).vault = d.vault := by
  unfold Dev.abortFeed
  dsimp only
  (repeat' split) <;> simp

@[simp] theorem abortJob_vault (d : Dev) : (d.abortJob).vault = d.vault := by simp [Dev.abortJob]

/-! The status block and telemetry (R66, R407 to R409). -/

@[simp] theorem sampleHost_vault (d : Dev) : (d.sampleHost).vault = d.vault := by simp [Dev.sampleHost]

@[simp] theorem telSkip_vault (d : Dev) (session : Nat) : (d.telSkip session).vault = d.vault := by simp [Dev.telSkip]

/-! Reading (R69, R70, R139). -/

@[simp] theorem setFresh_vault (d : Dev) (s a : Nat) (fresh : Bool) : (d.setFresh s a fresh).vault = d.vault := by
  unfold Dev.setFresh
  split <;> simp

@[simp] theorem readWord_vault (d : Dev) (s a : Nat) : (d.readWord s a).2.vault = d.vault := by
  unfold Dev.readWord
  dsimp only
  (repeat' split) <;> simp

@[simp] theorem readWords_vault (d : Dev) (s a n : Nat) : (d.readWords s a n).2.vault = d.vault := by
  induction n generalizing d a with
  | zero => rfl
  | succ n ih => simp [Dev.readWords, ih]

/-! Writing (R71 to R73). -/

@[simp] theorem storeWord_vault (d : Dev) (a : Nat) (v : Word) : (d.storeWord a v).vault = d.vault := by
  unfold Dev.storeWord
  dsimp only
  (repeat' split) <;> simp

@[simp] theorem ringWritten_vault (d0 d : Dev) (n a : Nat) : (Dev.ringWritten d0 d n a).vault = d.vault := by
  simp [Dev.ringWritten]

@[simp] theorem wordEffect_vault (d0 d : Dev) (a : Nat) (v : Word) : (Dev.wordEffect d0 d a v).vault = d.vault := by
  unfold Dev.wordEffect
  (repeat' split) <;> simp

@[simp] theorem writeWords_vault (d : Dev) (ws : List WWord) : (d.writeWords ws).vault = d.vault := by
  simp [Dev.writeWords]

/-! COMMIT and DISCARD (R12 to R14, R75, R76). -/

@[simp] theorem compatChanged_vault (d : Dev) : (d.compatChanged).vault = d.vault := by simp [Dev.compatChanged]

@[simp] theorem commitNow_vault (d : Dev) (h : Req) (vals : List (Nat × Word)) :
    (d.commitNow h vals).vault = d.vault := by
  simp [Dev.commitNow]

@[simp] theorem commit_vault (d : Dev) (h : Req) : (d.commit h).vault = d.vault := by simp [Dev.commit]

/-! Data movement, register writes and a memory that shrinks, on the whole state (R340 to R349, R13). -/

/-- A state with another memory and another device, where the key and the image slots stay. -/
theorem vault_of (s : State) {d : Dev} (h : d.vault = s.d.vault) (m : List Host.Cell) :
    (State.d { s with mem := m, d := d }).vault = s.d.vault := h

theorem writePiece_vault (x : State × Nat × Option Nat) (p : Nat × List Byte) :
    (writePiece x p).1.d.vault = x.1.d.vault := by
  obtain ⟨s, n, r⟩ := x
  unfold writePiece
  dsimp only
  split
  · rfl
  · split
    · exact vault_of s ((sramWrite_vault _ _ _).trans (sendWindow_vault _ _)) s.mem
    · exact cleanPoison_vault _ _ _

theorem writePieces_vault (l : List (Nat × List Byte)) (x : State × Nat × Option Nat) :
    (l.foldl writePiece x).1.d.vault = x.1.d.vault := by
  induction l generalizing x with
  | nil => rfl
  | cons p l ih => exact (ih _).trans (writePiece_vault x p)

@[simp] theorem moveData_vault (s : State) (i : List Byte) (n st cls addr : Nat) :
    (s.moveData i n st cls addr).1.d.vault = s.d.vault := by
  unfold State.moveData
  dsimp only
  split <;> exact writePieces_vault _ _

@[simp] theorem runDesc_vault (s : State) (i : List Byte) (n st cls addr : Nat) :
    (s.runDesc i n st cls addr).1.d.vault = s.d.vault := by
  unfold State.runDesc
  dsimp only
  (repeat' split) <;> simp

@[simp] theorem writeBack_vault (s : State) (n : Nat) (e : DEnd) : (s.writeBack n e).d.vault = s.d.vault := by
  simp [State.writeBack]

@[simp] theorem earlyEnd_vault (s : State) (ch st : Nat) : (s.earlyEnd ch st).1.d.vault = s.d.vault := by
  unfold State.earlyEnd
  dsimp only
  split <;> simp

@[simp] theorem cutShort_vault (s : State) (ch st cls : Nat) : (s.cutShort ch st cls).d.vault = s.d.vault := by
  unfold State.cutShort
  dsimp only
  split <;> simp

@[simp] theorem abort_vault (s : State) (ch : Nat) : (s.abort ch).d.vault = s.d.vault := by
  unfold State.abort
  dsimp only
  split <;> simp

@[simp] theorem ctrlWritten_vault (s : State) (ch : Nat) (v : Word) : (s.ctrlWritten ch v).d.vault = s.d.vault := by
  unfold State.ctrlWritten
  dsimp only
  split <;> simp

@[simp] theorem ctrlsWritten_vault (s : State) (ws : List WWord) : (s.ctrlsWritten ws).d.vault = s.d.vault := by
  unfold State.ctrlsWritten
  induction ws generalizing s with
  | nil => rfl
  | cons w ws ih =>
    refine (ih _).trans ?_
    dsimp only
    split <;> simp

@[simp] theorem paramWrite_vault (s : State) (h : Req) (payload : List Word) (tail : Nat) :
    (s.paramWrite h payload tail).d.vault = s.d.vault := by
  unfold State.paramWrite
  dsimp only
  split <;> simp

@[simp] theorem writeOne_vault (s : State) (h : Req) (a : Nat) (v : Word) : (s.writeOne h a v).d.vault = s.d.vault :=
  paramWrite_vault _ _ _ _

@[simp] theorem loseBeyond_vault (s : State) (fin : Nat) : (s.loseBeyond fin).d.vault = s.d.vault := by
  unfold State.loseBeyond
  generalize s.mem.filter _ = l
  induction l generalizing s with
  | nil => rfl
  | cons c l ih => exact (ih _).trans (free_vault s.d 22)

/-! The commands, in the order of the functions they use. -/

/-- Where the outcome is the next state, its key and image slots are those of the state before. -/
def KeepsVault (s : State) (o : Host.Outcome State Fault Refusal) : Prop := ∀ t, o = .next t → t.d.vault = s.d.vault

@[simp] theorem keepsVault_next (s t : State) : KeepsVault s (.next t) ↔ t.d.vault = s.d.vault :=
  ⟨fun h => h t rfl, fun h u e => by cases e; exact h⟩

@[simp] theorem keepsVault_onDev (s : State) (f : Dev → Dev) : KeepsVault s (s.onDev f) ↔ (f s.d).vault = s.d.vault :=
  keepsVault_next s _

/-! Commands (R247 to R257, R260). -/

@[simp] theorem execMoveQueue_vault (h : Req) (m : MoveReq) (s : State) : KeepsVault s (execMoveQueue h m s) := by
  unfold execMoveQueue
  rw [keepsVault_onDev]
  refine serve_vault _ _ _ _ fun d => ?_
  extract_lets g axes rel start target e x d1 d2 first d3
  have h2 : d2.vault = d.vault := by
    dsimp only [d2]
    split <;> simp [d1]
  have h3 : d3.vault = d.vault := by simp [d3, h2]
  simp [h3]

@[simp] theorem execMoveModify_vault (h : Req) (group : Nat) (moveId : Word) (vmax acc dec : Nat) (s : State) :
    KeepsVault s (execMoveModify h group moveId vmax acc dec s) := by
  simp only [execMoveModify, keepsVault_onDev]
  refine serve_vault _ _ _ _ fun d => ?_
  (repeat' split) <;> simp

@[simp] theorem execHome_vault (h : Req) (mask : BitVec 16) (s : State) : KeepsVault s (execHome h mask s) := by
  simp [execHome]

@[simp] theorem execAxisHaltRamp_vault (h : Req) (mask : BitVec 16) (s : State) :
    KeepsVault s (execAxisHaltRamp h mask s) := by
  simp [execAxisHaltRamp]

@[simp] theorem execAxisHaltHard_vault (h : Req) (mask : BitVec 16) (s : State) :
    KeepsVault s (execAxisHaltHard h mask s) := by
  simp [execAxisHaltHard]

@[simp] theorem execMoveResume_vault (h : Req) (group : Nat) (s : State) :
    KeepsVault s (execMoveResume h group s) := by
  simp only [execMoveResume, keepsVault_onDev]
  refine serve_vault _ _ _ _ fun d => ?_
  (repeat' split) <;> simp

@[simp] theorem execSwitchChatter_vault (axis : Nat) (s : State) : KeepsVault s (execSwitchChatter axis s) := by
  simp [execSwitchChatter]

@[simp] theorem execHomeRetry_vault (axis : Nat) (s : State) : KeepsVault s (execHomeRetry axis s) := by
  rw [execHomeRetry, keepsVault_onDev]
  (repeat' split) <;> simp

@[simp] theorem execFollowingError_vault (axis : Nat) (s : State) : KeepsVault s (execFollowingError axis s) := by
  simp [execFollowingError]

@[simp] theorem execAxisResync_vault (axis : Nat) (s : State) : KeepsVault s (execAxisResync axis s) := by
  rw [execAxisResync, keepsVault_onDev]
  (repeat' split) <;> simp

@[simp] theorem execStepWdog_vault (g : Nat) (s : State) : KeepsVault s (execStepWdog g s) := by simp [execStepWdog]

@[simp] theorem execProfileRestartDone_vault (g : Nat) (s : State) : KeepsVault s (execProfileRestartDone g s) := by
  simp [execProfileRestartDone]

/-! Frames. -/

@[simp] theorem execBzlIdleRx_vault (r : Dir) (f : Frame) (s : State) : KeepsVault s (execBzlIdleRx r f s) := by
  simp [execBzlIdleRx]

@[simp] theorem execBzlIdleTx_vault (r : Dir) (s : State) : KeepsVault s (execBzlIdleTx r s) := by
  simp [execBzlIdleTx]

@[simp] theorem execBzlFrameDiscard_vault (r : Dir) (f : Frame) (s : State) :
    KeepsVault s (execBzlFrameDiscard r f s) := by
  simp [execBzlFrameDiscard]

@[simp] theorem execBzlReplay_vault (r : Dir) (f : Frame) (s : State) : KeepsVault s (execBzlReplay r f s) := by
  simp [execBzlReplay]

@[simp] theorem execStrokeFrameTx_vault (s : State) : KeepsVault s (execStrokeFrameTx s) := by
  simp [execStrokeFrameTx]

@[simp] theorem execBzlEventRx_vault (f : Frame) (s : State) : KeepsVault s (execBzlEventRx f s) := by
  simp [execBzlEventRx]

@[simp] theorem execBzlReplyRx_vault (f : Frame) (s : State) : KeepsVault s (execBzlReplyRx f s) := by
  simp [execBzlReplyRx]

@[simp] theorem execBzlTimeRx_vault (f : Frame) (s : State) : KeepsVault s (execBzlTimeRx f s) := by
  simp [execBzlTimeRx]

@[simp] theorem execTimeFrameTx_vault (s : State) : KeepsVault s (execTimeFrameTx s) := by simp [execTimeFrameTx]

/-! Lanes (R24 to R27). -/

@[simp] theorem execBzlLaneFail_vault (r : Dir) (n : Nat) (s : State) : KeepsVault s (execBzlLaneFail r n s) := by
  simp [execBzlLaneFail]

@[simp] theorem execBzlLaneDegraded_vault (r : Dir) (n errs : Nat) (s : State) :
    KeepsVault s (execBzlLaneDegraded r n errs s) := by
  simp [execBzlLaneDegraded]

@[simp] theorem execBzlLaneSpare_vault (r : Dir) (s : State) : KeepsVault s (execBzlLaneSpare r s) := by
  simp [execBzlLaneSpare]

/-! Planned retraining (R314, R315). -/

@[simp] theorem execBzlLaneRetrainDone_vault (r : Dir) (n : Nat) (s : State) :
    KeepsVault s (execBzlLaneRetrainDone r n s) := by
  simp [execBzlLaneRetrainDone]

@[simp] theorem execBzlLaneTestDone_vault (r : Dir) (n : Nat) (pass : Bool) (s : State) :
    KeepsVault s (execBzlLaneTestDone r n pass s) := by
  simp [execBzlLaneTestDone]

@[simp] theorem execBzlLaneTempRetrain_vault (r : Dir) (n : Nat) (s : State) :
    KeepsVault s (execBzlLaneTempRetrain r n s) := by
  rw [execBzlLaneTempRetrain, keepsVault_onDev]
  dsimp only
  (repeat' split) <;> simp

@[simp] theorem execRetrainSpareWaitTimeout_vault (s : State) : KeepsVault s (execRetrainSpareWaitTimeout s) := by
  rw [execRetrainSpareWaitTimeout, keepsVault_onDev]
  (repeat' split) <;> simp

/-! Staging, link loss and holdover (R23, R28, R29, R31). -/

@[simp] theorem execBzlStageHigh_vault (s : State) : KeepsVault s (execBzlStageHigh s) := by simp [execBzlStageHigh]

@[simp] theorem execBzlLinkDown_vault (r : Dir) (s : State) : KeepsVault s (execBzlLinkDown r s) := by
  simp [execBzlLinkDown]

@[simp] theorem execFieldHoldover_vault (s : State) : KeepsVault s (execFieldHoldover s) := by
  simp [execFieldHoldover]

@[simp] theorem execFieldPllRelock_vault (s : State) : KeepsVault s (execFieldPllRelock s) := by
  simp [execFieldPllRelock]

@[simp] theorem execFieldLocalOsc_vault (s : State) : KeepsVault s (execFieldLocalOsc s) := by
  simp [execFieldLocalOsc]

@[simp] theorem execBzlLinkUp_vault (lat : Nat) (s : State) : KeepsVault s (execBzlLinkUp lat s) := by
  simp [execBzlLinkUp]

@[simp] theorem execLinkCauseClear_vault (s : State) : KeepsVault s (execLinkCauseClear s) := by
  simp [execLinkCauseClear]

/-! Clocks (R32, R392). -/

@[simp] theorem execRootPllUnlock_vault (s : State) : KeepsVault s (execRootPllUnlock s) := by
  simp [execRootPllUnlock]

@[simp] theorem execXtalFail_vault (s : State) : KeepsVault s (execXtalFail s) := by simp [execXtalFail]

@[simp] theorem execXtalResume_vault (s : State) : KeepsVault s (execXtalResume s) := by simp [execXtalResume]

/-! Shifting and latching (R210 to R214). -/

@[simp] theorem execLampLevel_vault (h : Req) (chain : Nat) (level : Word) (s : State) :
    KeepsVault s (execLampLevel h chain level s) := by
  simp [execLampLevel]

@[simp] theorem execLampShiftEnd_vault (chain : Nat) (s : State) : KeepsVault s (execLampShiftEnd chain s) := by
  rw [execLampShiftEnd, keepsVault_onDev]
  dsimp only
  (repeat' split) <;> simp

@[simp] theorem execLampLatch_vault (chain : Nat) (s : State) : KeepsVault s (execLampLatch chain s) := by
  simp [execLampLatch]

@[simp] theorem execLampRefresh_vault (s : State) : KeepsVault s (execLampRefresh s) := by simp [execLampRefresh]

/-! Diagnosis (R219 to R223). -/

@[simp] theorem execLampWindowDiag_vault (chain i m : Nat) (second : Option (Nat × Nat)) (s : State) :
    KeepsVault s (execLampWindowDiag chain i m second s) := by
  rw [execLampWindowDiag, keepsVault_onDev]
  dsimp only
  (repeat' split) <;> simp

@[simp] theorem execLampProofResult_vault (chain i m : Nat) (s : State) :
    KeepsVault s (execLampProofResult chain i m s) := by
  rw [execLampProofResult, keepsVault_onDev]
  dsimp only
  (repeat' split) <;> simp

@[simp] theorem execLampConfirmStart_vault (s : State) : KeepsVault s (execLampConfirmStart s) := by
  simp [execLampConfirmStart]

@[simp] theorem execLampConfirmDone_vault (chain : Nat) (dark p1 p2 : Nat × Nat) (s : State) :
    KeepsVault s (execLampConfirmDone chain dark p1 p2 s) := by
  simp [execLampConfirmDone]

@[simp] theorem execLampTest_vault (h : Req) (chain : Nat) (s : State) : KeepsVault s (execLampTest h chain s) := by
  simp [execLampTest]

@[simp] theorem execLampTestDone_vault (chain : Nat) (dark p1 p2 : Nat × Nat) (s : State) :
    KeepsVault s (execLampTestDone chain dark p1 p2 s) := by
  simp [execLampTestDone]

/-! Wear rotation (R225 to R227). -/

@[simp] theorem execLampRotCheck_vault (s : State) : KeepsVault s (execLampRotCheck s) := by simp [execLampRotCheck]

@[simp] theorem execLampRotDone_vault (chain m1 m2 m3 : Nat) (s : State) :
    KeepsVault s (execLampRotDone chain m1 m2 m3 s) := by
  simp [execLampRotDone]

@[simp] theorem execLampRecordStore_vault (chain : Nat) (s : State) : KeepsVault s (execLampRecordStore chain s) := by
  simp [execLampRecordStore]

/-! Mains (R228, R229). -/

@[simp] theorem execAcSyncEdge_vault (t : Nat) (s : State) : KeepsVault s (execAcSyncEdge t s) := by
  rw [execAcSyncEdge, keepsVault_onDev]
  dsimp only
  (repeat' split) <;> simp

@[simp] theorem execAcLoss_vault (s : State) : KeepsVault s (execAcLoss s) := by simp [execAcLoss]

/-! Map slots and defect banks (R159 to R161). -/

@[simp] theorem execMapSlotCrcCheck_vault (slot : Nat) (s : State) : KeepsVault s (execMapSlotCrcCheck slot s) := by
  simp [execMapSlotCrcCheck]

/-! Lamp-monitor compensation (R316, R317, R436). -/

@[simp] theorem execLampCompUpdate_vault (s : State) : KeepsVault s (execLampCompUpdate s) := by
  simp [execLampCompUpdate]

@[simp] theorem execLampPreload_vault (s : State) : KeepsVault s (execLampPreload s) := by simp [execLampPreload]

/-! AFE offset runs (R311 to R313). -/

@[simp] theorem execAfeOffsetDone_vault (q : Nat) (s : State) : KeepsVault s (execAfeOffsetDone q s) := by
  rw [execAfeOffsetDone, keepsVault_onDev]
  (repeat' split) <;> simp

/-! Starting commanded runs (R318). -/

@[simp] theorem execCalRunAdcCore_vault (h : Req) (unit : Nat) (s : State) :
    KeepsVault s (execCalRunAdcCore h unit s) := by
  rw [execCalRunAdcCore, keepsVault_onDev]
  refine serveThen_vault _ _ _ _ _ (fun d => ?_) fun st d => ?_
  · simp
  · split <;> simp

@[simp] theorem execCalRunAfeOffset_vault (h : Req) (unit : Nat) (s : State) :
    KeepsVault s (execCalRunAfeOffset h unit s) := by
  simp [execCalRunAfeOffset]

@[simp] theorem execCalRunBezelLane_vault (h : Req) (unit : Nat) (s : State) :
    KeepsVault s (execCalRunBezelLane h unit s) := by
  simp [execCalRunBezelLane]

@[simp] theorem execCalRunShading_vault (h : Req) (unit : Nat) (s : State) :
    KeepsVault s (execCalRunShading h unit s) := by
  simp [execCalRunShading]

@[simp] theorem execCalRunLampAbs_vault (h : Req) (unit : Nat) (s : State) :
    KeepsVault s (execCalRunLampAbs h unit s) := by
  simp [execCalRunLampAbs]

@[simp] theorem execCalRunVrefTrace_vault (h : Req) (unit : Nat) (s : State) :
    KeepsVault s (execCalRunVrefTrace h unit s) := by
  simp [execCalRunVrefTrace]

/-! Results (R319 to R323). -/

@[simp] theorem execShadingSettleDone_vault (s : State) : KeepsVault s (execShadingSettleDone s) := by
  rw [execShadingSettleDone, keepsVault_onDev]
  (repeat' split) <;> simp

@[simp] theorem execShadingDone_vault (s : State) : KeepsVault s (execShadingDone s) := by
  rw [execShadingDone, keepsVault_onDev]
  dsimp only
  (repeat' split) <;> simp

@[simp] theorem execLampAbsDone_vault (s : State) : KeepsVault s (execLampAbsDone s) := by
  rw [execLampAbsDone, keepsVault_onDev]
  dsimp only
  (repeat' split) <;> simp

@[simp] theorem execVrefTraceDone_vault (ratio : Nat) (s : State) : KeepsVault s (execVrefTraceDone ratio s) := by
  rw [execVrefTraceDone, keepsVault_onDev]
  (repeat' split) <;> simp

@[simp] theorem execCalRunTimeout_vault (s : State) : KeepsVault s (execCalRunTimeout s) := by
  rw [execCalRunTimeout, keepsVault_onDev]
  (repeat' split) <;> simp

/-! CAL_APPLY (R324). -/

@[simp] theorem execCalApply_vault (h : Req) (kind unit epoch : Nat) (s : State) :
    KeepsVault s (execCalApply h kind unit epoch s) := by
  simp [execCalApply]

/-! The store (R327 to R329). -/

@[simp] theorem execCalStore_vault (h : Req) (kind unit : Nat) (s : State) :
    KeepsVault s (execCalStore h kind unit s) := by
  simp [execCalStore]

@[simp] theorem execCalPeriodicStore_vault (s : State) : KeepsVault s (execCalPeriodicStore s) := by
  simp [execCalPeriodicStore]

@[simp] theorem execCalFlashWriteDone_vault (ok : Bool) (s : State) : KeepsVault s (execCalFlashWriteDone ok s) := by
  rw [execCalFlashWriteDone, keepsVault_onDev]
  (repeat' split) <;> simp

@[simp] theorem execCalRestore_vault (h : Req) (kind unit epoch : Nat) (s : State) :
    KeepsVault s (execCalRestore h kind unit epoch s) := by
  simp [execCalRestore]

@[simp] theorem execCalRestoreDone_vault (s : State) : KeepsVault s (execCalRestoreDone s) := by
  rw [execCalRestoreDone, keepsVault_onDev]
  (repeat' split) <;> simp

/-! Cores (R127 to R132, R310). -/

@[simp] theorem execAdcCheckFail_vault (ch : Nat) (s : State) : KeepsVault s (execAdcCheckFail ch s) := by
  simp [execAdcCheckFail]

@[simp] theorem execAdcFaultTakeover_vault (q : Nat) (s : State) : KeepsVault s (execAdcFaultTakeover q s) := by
  rw [execAdcFaultTakeover, keepsVault_onDev]
  dsimp only
  (repeat' split) <;> simp

@[simp] theorem execAdcRotationStep_vault (q : Nat) (s : State) : KeepsVault s (execAdcRotationStep q s) := by
  rw [execAdcRotationStep, keepsVault_onDev]
  dsimp only
  (repeat' split) <;> simp

@[simp] theorem execAdcCoreCalDone_vault (core : Nat) (pass : Bool) (s : State) :
    KeepsVault s (execAdcCoreCalDone core pass s) := by
  rw [execAdcCoreCalDone, keepsVault_onDev]
  dsimp only
  (repeat' split) <;> simp

@[simp] theorem execAdcCoreProbationEnd_vault (core : Nat) (clean : Bool) (s : State) :
    KeepsVault s (execAdcCoreProbationEnd core clean s) := by
  simp [execAdcCoreProbationEnd]

@[simp] theorem execCoreCalInvalid_vault (core : Nat) (s : State) : KeepsVault s (execCoreCalInvalid core s) := by
  simp [execCoreCalInvalid]

/-! The black-level monitor (R131). -/

@[simp] theorem execClampWindowEnd_vault (t g mean : Nat) (s : State) :
    KeepsVault s (execClampWindowEnd t g mean s) := by
  rw [execClampWindowEnd, keepsVault_onDev]
  dsimp only
  (repeat' split) <;> simp

/-! The pixel ADC reference (R133, R134). -/

@[simp] theorem execVrefxLost_vault (s : State) : KeepsVault s (execVrefxLost s) := by simp [execVrefxLost]

@[simp] theorem execPixelRefSettled_vault (s : State) : KeepsVault s (execPixelRefSettled s) := by
  simp [execPixelRefSettled]

/-! The tap open-wire check (R135). -/

@[simp] theorem execAfeOwDone_vault (means : List (Nat × Nat × Nat × Nat)) (s : State) :
    KeepsVault s (execAfeOwDone means s) := by
  simp [execAfeOwDone]

/-! MON (R136 to R142). -/

@[simp] theorem execMonPassStart_vault (b : Bool) (s : State) : KeepsVault s (execMonPassStart b s) := by
  simp [execMonPassStart]

@[simp] theorem execMonConversionDone_vault (b : Bool) (sample second : BitVec 14) (s : State) :
    KeepsVault s (execMonConversionDone b sample second s) := by
  rw [execMonConversionDone, keepsVault_onDev]
  dsimp only
  (repeat' split) <;> simp

@[simp] theorem execMonRefSettled_vault (b : Bool) (s : State) : KeepsVault s (execMonRefSettled b s) := by
  simp [execMonRefSettled]

@[simp] theorem execMonConvert_vault (h : Req) (input : Nat) (sample : BitVec 14) (s : State) :
    KeepsVault s (execMonConvert h input sample s) := by
  simp [execMonConvert]

/-! The field SRAM (R160, R161). -/

@[simp] theorem execBzlCmdRx_vault (f : Frame) (c : FieldCmd) (s : State) : KeepsVault s (execBzlCmdRx f c s) := by
  rw [execBzlCmdRx, keepsVault_onDev]
  dsimp only
  (repeat' split) <;> simp

/-! Channels (R336, R338, R345). -/

@[simp] theorem execDmaEnqueue_vault (h : Req) (ch addr : Nat) (s : State) :
    KeepsVault s (execDmaEnqueue h ch addr s) := by
  simp [execDmaEnqueue]

@[simp] theorem execDmaPaceTimer_vault (ch : Nat) (s : State) : KeepsVault s (execDmaPaceTimer ch s) := by
  simp [execDmaPaceTimer]

@[simp] theorem execDmaChainFetch_vault (ch : Nat) (s : State) : KeepsVault s (execDmaChainFetch ch s) := by
  unfold execDmaChainFetch
  dsimp only
  (repeat' split) <;> simp

/-! Data movement (R340 to R344). -/

@[simp] theorem execDmaWriteback_vault (ch : Nat) (e : DmaEnd) (s : State) :
    KeepsVault s (execDmaWriteback ch e s) := by
  unfold execDmaWriteback
  dsimp only
  (repeat' split) <;> simp

@[simp] theorem execDmaWdog_vault (ch : Nat) (s : State) : KeepsVault s (execDmaWdog ch s) := by
  unfold execDmaWdog
  (repeat' split) <;> simp

@[simp] theorem execDmaChannelRestartDone_vault (ch : Nat) (s : State) :
    KeepsVault s (execDmaChannelRestartDone ch s) := by
  simp [execDmaChannelRestartDone]

/-! FENCE (R348). -/

@[simp] theorem execFence_vault (h : Req) (mask : BitVec 16) (s : State) : KeepsVault s (execFence h mask s) := by
  simp [execFence]

@[simp] theorem execWritesArrived_vault (ch : Nat) (s : State) : KeepsVault s (execWritesArrived ch s) := by
  simp [execWritesArrived]

/-! Requests (R86, R89, R92). -/

@[simp] theorem execEncEdge_vault (enc : Nat) (b level : Bool) (held t : Nat) (s : State) :
    KeepsVault s (execEncEdge enc b level held t s) := by
  simp [execEncEdge]

@[simp] theorem execEncIllegal_vault (enc t : Nat) (s : State) : KeepsVault s (execEncIllegal enc t s) := by
  simp [execEncIllegal]

@[simp] theorem execEncZEdge_vault (enc : Nat) (level : Bool) (held : Nat) (s : State) :
    KeepsVault s (execEncZEdge enc level held s) := by
  unfold execEncZEdge
  rw [keepsVault_onDev]
  split
  · rfl
  · refine (vault_foldl _ (fun d a => ?_) _ _).trans ?_
    · split <;> simp
    · simp

/-! Catch (R84, R87, R90, R91, R94). -/

@[simp] theorem execCatchStroke_vault (t : Nat) (s : State) : KeepsVault s (execCatchStroke t s) := by
  rw [execCatchStroke, keepsVault_onDev]
  (repeat' split) <;> simp

@[simp] theorem execCatchDeferred_vault (t : Nat) (s : State) : KeepsVault s (execCatchDeferred t s) := by
  rw [execCatchDeferred, keepsVault_onDev]
  (repeat' split) <;> simp

@[simp] theorem execTimerStroke_vault (t : Nat) (s : State) : KeepsVault s (execTimerStroke t s) := by
  simp [execTimerStroke]

/-! The flush cycle (R99) and the stroke watchdog (R106). -/

@[simp] theorem execFlushCycle_vault (s : State) : KeepsVault s (execFlushCycle s) := by simp [execFlushCycle]

@[simp] theorem execStrokeWdog_vault (s : State) : KeepsVault s (execStrokeWdog s) := by simp [execStrokeWdog]

/-! Lane errors (R103 to R105). -/

@[simp] theorem execLanePhaseAcquired_vault (lane : Nat) (s : State) :
    KeepsVault s (execLanePhaseAcquired lane s) := by
  simp [execLanePhaseAcquired]

@[simp] theorem execLaneReadyTimeout_vault (s : State) : KeepsVault s (execLaneReadyTimeout s) := by
  simp [execLaneReadyTimeout]

@[simp] theorem execLaneDeadline_vault (missing early : List Nat) (s : State) :
    KeepsVault s (execLaneDeadline missing early s) := by
  simp [execLaneDeadline]

@[simp] theorem execLaneTransitionLoss_vault (lane : Nat) (s : State) :
    KeepsVault s (execLaneTransitionLoss lane s) := by
  simp [execLaneTransitionLoss]

/-! The pipeline (R151, R163) and the trailer (R170 to R172). -/

@[simp] theorem execPipelineStrokeStart_vault (data : List SourceData) (s : State) :
    KeepsVault s (execPipelineStrokeStart data s) := by
  rw [execPipelineStrokeStart, keepsVault_onDev]
  (repeat' split) <;> simp

@[simp] theorem execTrailerAppend_vault (checkOk : Bool) (s : State) :
    KeepsVault s (execTrailerAppend checkOk s) := by
  rw [execTrailerAppend, keepsVault_onDev]
  (repeat' split) <;> simp

/-! Ingest (R180, R181, R287, R291, R296). -/

@[simp] theorem execStrokeFrameRx_vault (f : Frame) (s : State) : KeepsVault s (execStrokeFrameRx f s) := by
  simp [execStrokeFrameRx]

@[simp] theorem execStrokeDiscardRelease_vault (s : State) : KeepsVault s (execStrokeDiscardRelease s) := by
  simp [execStrokeDiscardRelease]

/-! The sheet sensor (R183, R241, R296). -/

@[simp] theorem execSwitchEdge_vault (sw : Nat) (level : Bool) (agree t : Nat) (s : State) :
    KeepsVault s (execSwitchEdge sw level agree t s) := by
  simp [execSwitchEdge]

/-! The splice (R292 to R298). -/

@[simp] theorem execClaspSpliceDecide_vault (s : State) : KeepsVault s (execClaspSpliceDecide s) := by
  simp [execClaspSpliceDecide]

/-! The Filigree engines (R197 to R199). -/

@[simp] theorem execFiligreeUnitDone_vault (engine : Nat) (s : State) :
    KeepsVault s (execFiligreeUnitDone engine s) := by
  simp [execFiligreeUnitDone]

@[simp] theorem execFiligreeMismatch_vault (engine : Nat) (s : State) :
    KeepsVault s (execFiligreeMismatch engine s) := by
  simp [execFiligreeMismatch]

@[simp] theorem execContainerComplete_vault (page : Word) (s : State) :
    KeepsVault s (execContainerComplete page s) := by
  rw [execContainerComplete, keepsVault_onDev]
  (repeat' split) <;> simp

/-! Delivery (R200 to R203). -/

@[simp] theorem execDeliveryStart_vault (s : State) : KeepsVault s (execDeliveryStart s) := by
  rw [execDeliveryStart, keepsVault_onDev]
  (repeat' split) <;> simp

@[simp] theorem execRdmaAckRx_vault (s : State) : KeepsVault s (execRdmaAckRx s) := by
  rw [execRdmaAckRx, keepsVault_onDev]
  dsimp only
  (repeat' split) <;> simp

@[simp] theorem execUdpAckRx_vault (src : Endpoint) (f : ClientData) (s : State) :
    KeepsVault s (execUdpAckRx src f s) := by
  rw [execUdpAckRx, keepsVault_onDev]
  dsimp only
  (repeat' split) <;> simp

@[simp] theorem execUdpNakRx_vault (src : Endpoint) (f : ClientData) (s : State) :
    KeepsVault s (execUdpNakRx src f s) := by
  rw [execUdpNakRx, keepsVault_onDev]
  dsimp only
  (repeat' split) <;> simp

@[simp] theorem execUdpRto_vault (s : State) : KeepsVault s (execUdpRto s) := by
  rw [execUdpRto, keepsVault_onDev]
  (repeat' split) <;> simp

/-! The Cox (R276 to R279, R285). -/

@[simp] theorem execCoxPeriod_vault (s : State) : KeepsVault s (execCoxPeriod s) := by
  unfold execCoxPeriod
  rw [keepsVault_onDev]
  extract_lets src d1 b d2
  have h1 : d1.vault = s.d.vault := rfl
  have h2 : d2.vault = d1.vault := by
    dsimp only [d2]
    split
    · split <;> simp
    · split <;> simp
    · rfl
  simp [h1, h2]

/-! The profile period boundary (R244, R284). -/

@[simp] theorem execProfileBoundary_vault (s : State) : KeepsVault s (execProfileBoundary s) := by
  simp [execProfileBoundary]

/-! HOLD (R36, R284, R299). -/

@[simp] theorem execHoldEntry_vault (s : State) : KeepsVault s (execHoldEntry s) := by
  rw [execHoldEntry, keepsVault_onDev]
  dsimp only
  (repeat' split) <;> simp

/-! The reference set (R287). -/

@[simp] theorem execClaspRefFixed_vault (s : State) : KeepsVault s (execClaspRefFixed s) := by
  simp [execClaspRefFixed]

/-! SPLICE (R288 to R291). -/

@[simp] theorem execSpliceEntry_vault (s : State) : KeepsVault s (execSpliceEntry s) := by
  rw [execSpliceEntry, keepsVault_onDev]
  dsimp only
  (repeat' split) <;> simp

/-! Core pairs (R390). -/

@[simp] theorem execLockstepMismatch_vault (pair : Nat) (s : State) : KeepsVault s (execLockstepMismatch pair s) := by
  rw [execLockstepMismatch, keepsVault_onDev]
  dsimp only
  (repeat' split) <;> simp

@[simp] theorem execCoreCheckpoint_vault (s : State) : KeepsVault s (execCoreCheckpoint s) := by
  simp [execCoreCheckpoint]

/-! Double errors (R391). -/

@[simp] theorem poisonAt_vault (x addr : Nat) (d : Dev) : (execEccDoubleError.poisonAt_ x addr d).vault = d.vault := by
  simp [execEccDoubleError.poisonAt_]

@[simp] theorem execEccDoubleError_vault (h : EccHit) (addr : Nat) (s : State) :
    KeepsVault s (execEccDoubleError h addr s) := by
  simp only [execEccDoubleError, keepsVault_onDev]
  (repeat' split) <;> simp [poisonAt_vault]

/-! Watchdogs (R393). -/

@[simp] theorem execHostWdogExpire_vault (s : State) : KeepsVault s (execHostWdogExpire s) := by
  simp [execHostWdogExpire]

@[simp] theorem execFieldWdogExpire_vault (s : State) : KeepsVault s (execFieldWdogExpire s) := by
  simp [execFieldWdogExpire]

/-! Recoveries (R394 to R397). -/

@[simp] theorem execRecoveryL1Done_vault (b : Block) (s : State) : KeepsVault s (execRecoveryL1Done b s) := by
  rw [execRecoveryL1Done, keepsVault_onDev]
  (repeat' split) <;> simp

@[simp] theorem execFieldWarmRestart_vault (s : State) : KeepsVault s (execFieldWarmRestart s) := by
  simp [execFieldWarmRestart]

@[simp] theorem execFieldWarmRestartDone_vault (s : State) : KeepsVault s (execFieldWarmRestartDone s) := by
  simp [execFieldWarmRestartDone]

@[simp] theorem execLevel3Restart_vault (s : State) : KeepsVault s (execLevel3Restart s) := by
  simp [execLevel3Restart]

@[simp] theorem execRecoveryTimeout_vault (s : State) : KeepsVault s (execRecoveryTimeout s) := by
  rw [execRecoveryTimeout, keepsVault_onDev]
  (repeat' split) <;> simp

/-! SAFE (R401). -/

@[simp] theorem execFaultClearSafe_vault (h : Req) (s : State) : KeepsVault s (execFaultClearSafe h s) := by
  simp [execFaultClearSafe]

@[simp] theorem execFaultClearLog_vault (h : Req) (s : State) : KeepsVault s (execFaultClearLog h s) := by
  simp [execFaultClearLog]

@[simp] theorem execSafeClearDone_vault (cleared : BitVec 9) (s : State) :
    KeepsVault s (execSafeClearDone cleared s) := by
  simp [execSafeClearDone]

/-! Scrubbing and flash (R402 to R406, R410). -/

@[simp] theorem execScrubPassDone_vault (t : ScrubTarget) (s : State) : KeepsVault s (execScrubPassDone t s) := by
  rw [execScrubPassDone, keepsVault_onDev]
  (repeat' split) <;> simp

@[simp] theorem execFlashVerify_vault (bad : List Nat) (s : State) : KeepsVault s (execFlashVerify bad s) := by
  simp [execFlashVerify]

@[simp] theorem execFlashReclaim_vault (s : State) : KeepsVault s (execFlashReclaim s) := by simp [execFlashReclaim]

@[simp] theorem execFaultLogFlush_vault (s : State) : KeepsVault s (execFaultLogFlush s) := by
  simp [execFaultLogFlush]

@[simp] theorem execRocChange_vault (side : Side) (outside : Bool) (s : State) :
    KeepsVault s (execRocChange side outside s) := by
  simp [execRocChange]

/-! Ports. -/

@[simp] theorem execNetLinkUp_vault (p : NetPort) (speed : Nat) (s : State) :
    KeepsVault s (execNetLinkUp p speed s) := by
  simp [execNetLinkUp]

@[simp] theorem execNetLinkDown_vault (p : NetPort) (s : State) : KeepsVault s (execNetLinkDown p s) := by
  simp [execNetLinkDown]

@[simp] theorem execNetFrameDrop_vault (f : NetFrame) (s : State) : KeepsVault s (execNetFrameDrop f s) := by
  simp [execNetFrameDrop]

@[simp] theorem execPauseRx_vault (p : NetPort) (quanta : Nat) (s : State) :
    KeepsVault s (execPauseRx p quanta s) := by
  simp [execPauseRx]

@[simp] theorem execPauseExpire_vault (p : NetPort) (s : State) : KeepsVault s (execPauseExpire p s) := by
  rw [execPauseExpire, keepsVault_onDev]
  (repeat' split) <;> simp

@[simp] theorem execPfcRx_vault (p : NetPort) (quanta : List (Nat × Nat)) (s : State) :
    KeepsVault s (execPfcRx p quanta s) := by
  simp [execPfcRx]

@[simp] theorem execPfcXoffTx_vault (p : NetPort) (prio occupancy : Nat) (s : State) :
    KeepsVault s (execPfcXoffTx p prio occupancy s) := by
  simp [execPfcXoffTx]

@[simp] theorem execArpRequest_vault (p : NetPort) (src : Endpoint) (target : Nat) (s : State) :
    KeepsVault s (execArpRequest p src target s) := by
  simp [execArpRequest]

@[simp] theorem execNdSolicit_vault (p : NetPort) (src : Endpoint) (target : Nat) (s : State) :
    KeepsVault s (execNdSolicit p src target s) := by
  simp [execNdSolicit]

@[simp] theorem execIcmpEcho_vault (p : NetPort) (e : EchoEnds) (data : List Byte) (s : State) :
    KeepsVault s (execIcmpEcho p e data s) := by
  simp [execIcmpEcho]

/-! Reassembly (R368). -/

@[simp] theorem execIpFragment_vault (p : NetPort) (key udpPort offset : Nat) (last : Bool) (data : List Byte)
    (s : State) : KeepsVault s (execIpFragment p key udpPort offset last data s) := by
  simp [execIpFragment]

@[simp] theorem execReasmTimeout_vault (key : Nat) (s : State) : KeepsVault s (execReasmTimeout key s) := by
  simp [execReasmTimeout]

/-! The time counter (R375 to R378). -/

@[simp] theorem execTimeSet_vault (h : Req) (ns frac : Nat) (s : State) : KeepsVault s (execTimeSet h ns frac s) := by
  simp [execTimeSet]

@[simp] theorem execTimeAdjust_vault (h : Req) (offset : Int) (incr : Nat) (s : State) :
    KeepsVault s (execTimeAdjust h offset incr s) := by
  simp [execTimeAdjust]

@[simp] theorem execTimeSlewEnd_vault (s : State) : KeepsVault s (execTimeSlewEnd s) := by simp [execTimeSlewEnd]

/-! PTP (R379 to R381). -/

@[simp] theorem execPtpEventRx_vault (m : PtpEvent) (at_ lat posn : Nat) (s : State) :
    KeepsVault s (execPtpEventRx m at_ lat posn s) := by
  rw [execPtpEventRx, keepsVault_onDev]
  dsimp only
  (repeat' split) <;> simp

@[simp] theorem execPtpTxTimestamp_vault (m : PtpMsg) (at_ lat : Nat) (s : State) :
    KeepsVault s (execPtpTxTimestamp m at_ lat s) := by
  rw [execPtpTxTimestamp, keepsVault_onDev]
  (repeat' split) <;> simp

@[simp] theorem execPtpMsgTimer_vault (k : PtpTimer) (s : State) : KeepsVault s (execPtpMsgTimer k s) := by
  rw [execPtpMsgTimer, keepsVault_onDev]
  (repeat' split) <;> simp

@[simp] theorem execPtpAnnounceTimeout_vault (s : State) : KeepsVault s (execPtpAnnounceTimeout s) := by
  simp [execPtpAnnounceTimeout]

@[simp] theorem execPtpGeneralRx_vault (m : PtpInfo) (s : State) : KeepsVault s (execPtpGeneralRx m s) := by
  unfold execPtpGeneralRx
  rw [keepsVault_onDev]
  split
  · rfl
  · extract_lets d
    have hd : d.vault = s.d.vault := by simp [d]
    split
    · exact hd
    · split
      · split
        · split <;> simp [hd]
        · exact hd
      · split
        · split <;> simp [hd]
        · exact hd
      · extract_lets m best st e
        have he : e.vault = d.vault := rfl
        split
        · exact (put_vault _ _ _).trans (he.trans hd)
        · exact he.trans hd

/-! Field presence (R421, R460). -/

@[simp] theorem execBzlStatusRx_vault (f : Frame) (st : FieldStatus) (s : State) :
    KeepsVault s (execBzlStatusRx f st s) := by
  simp [execBzlStatusRx]

@[simp] theorem execFieldAbsent_vault (s : State) : KeepsVault s (execFieldAbsent s) := by simp [execFieldAbsent]

/-! The host side (R416, R420, R434). -/

@[simp] theorem execHostPowerValid_vault (s : State) : KeepsVault s (execHostPowerValid s) := by
  unfold execHostPowerValid
  (repeat' split) <;> simp

@[simp] theorem execHostPowerLost_vault (s : State) : KeepsVault s (execHostPowerLost s) := by
  simp [execHostPowerLost]

@[simp] theorem execNrstHFall_vault (s : State) : KeepsVault s (execNrstHFall s) := by simp [execNrstHFall]

@[simp] theorem execNrstHRise_vault (dramKept : Bool) (s : State) : KeepsVault s (execNrstHRise dramKept s) := by
  unfold execNrstHRise
  dsimp only
  (repeat' split) <;> simp

@[simp] theorem execBootRefused_vault (s : State) : KeepsVault s (execBootRefused s) := by simp [execBootRefused]

@[simp] theorem execBootRetry_vault (s : State) : KeepsVault s (execBootRetry s) := by simp [execBootRetry]

@[simp] theorem execBootComplete_vault (dramFull fallback : Bool) (s : State) :
    KeepsVault s (execBootComplete dramFull fallback s) := by
  simp [execBootComplete]

/-! The field side (R416, R422, R423). -/

@[simp] theorem execFieldPowerValid_vault (s : State) : KeepsVault s (execFieldPowerValid s) := by
  simp [execFieldPowerValid]

@[simp] theorem execFieldPowerLost_vault (rail : Nat) (s : State) : KeepsVault s (execFieldPowerLost rail s) := by
  simp [execFieldPowerLost]

@[simp] theorem execNrstFFall_vault (s : State) : KeepsVault s (execNrstFFall s) := by simp [execNrstFFall]

@[simp] theorem execNrstFRise_vault (s : State) : KeepsVault s (execNrstFRise s) := by simp [execNrstFRise]

@[simp] theorem execPgHigh_vault (side : Side) (s : State) : KeepsVault s (execPgHigh side s) := by
  rw [execPgHigh, keepsVault_onDev]
  (repeat' split) <;> simp

@[simp] theorem execThermalTrip_vault (side : Side) (s : State) : KeepsVault s (execThermalTrip side s) := by
  rw [execThermalTrip, keepsVault_onDev]
  (repeat' split) <;> simp

@[simp] theorem execThermalRelease_vault (side : Side) (s : State) : KeepsVault s (execThermalRelease side s) := by
  rw [execThermalRelease, keepsVault_onDev]
  (repeat' split) <;> simp

/-! WAKE (R435 to R437). -/

@[simp] theorem execWakeComplete_vault (t : Training) (s : State) : KeepsVault s (execWakeComplete t s) := by
  simp [execWakeComplete]

@[simp] theorem execWakeStepFail_vault (s : State) : KeepsVault s (execWakeStepFail s) := by simp [execWakeStepFail]

/-! The field bus (R426 to R430). -/

@[simp] theorem execFbusDip_vault (code : Nat) (s : State) : KeepsVault s (execFbusDip code s) := by
  simp [execFbusDip]

@[simp] theorem execFbusRecover_vault (code durationUs : Nat) (s : State) :
    KeepsVault s (execFbusRecover code durationUs s) := by
  simp [execFbusRecover]

@[simp] theorem execSupplyClear_vault (s : State) : KeepsVault s (execSupplyClear s) := by simp [execSupplyClear]

@[simp] theorem execFbusSurge_vault (code : Nat) (s : State) : KeepsVault s (execFbusSurge code s) := by
  simp [execFbusSurge]

@[simp] theorem execAcDip_vault (s : State) : KeepsVault s (execAcDip s) := by simp [execAcDip]

/-! The queue pairs (R370 to R374). -/

@[simp] theorem execRoceWriteRx_vault (n : Nat) (ce : Bool) (rkey : Word) (addr : Nat) (data : List Byte) (s : State)
    : KeepsVault s (execRoceWriteRx n ce rkey addr data s) := by
  unfold execRoceWriteRx
  dsimp only
  (repeat' split) <;> simp

@[simp] theorem execRoceReadRx_vault (n : Nat) (ce : Bool) (rkey : Word) (addr len : Nat) (s : State) :
    KeepsVault s (execRoceReadRx n ce rkey addr len s) := by
  unfold execRoceReadRx
  dsimp only
  (repeat' split) <;> simp

@[simp] theorem execRoceBadRequest_vault (n : Nat) (k : BadRequest) (s : State) :
    KeepsVault s (execRoceBadRequest n k s) := by
  simp [execRoceBadRequest]

@[simp] theorem execRoceNakRx_vault (n : Nat) (k : NakIn) (s : State) : KeepsVault s (execRoceNakRx n k s) := by
  simp [execRoceNakRx]

@[simp] theorem execRoceAckTimeout_vault (n : Nat) (s : State) : KeepsVault s (execRoceAckTimeout n s) := by
  simp [execRoceAckTimeout]

@[simp] theorem execCnpRx_vault (n : Nat) (s : State) : KeepsVault s (execCnpRx n s) := by simp [execCnpRx]

@[simp] theorem execCnpRateRecover_vault (n : Nat) (s : State) : KeepsVault s (execCnpRateRecover n s) := by
  simp [execCnpRateRecover]

/-! Requests on session 0 (R51, R57). -/

@[simp] theorem execPing_vault (h : Req) (data : List Byte) (s : State) : KeepsVault s (execPing h data s) := by
  simp [execPing]

/-! Sessions (R53 to R60). -/

@[simp] theorem execSessionOpen_vault (h : Req) (kaMs token : Nat) (tag : Word) (s : State) :
    KeepsVault s (execSessionOpen h kaMs token tag s) := by
  unfold execSessionOpen
  rw [keepsVault_onDev]
  extract_lets before e
  have he : e.vault = s.d.vault := by
    refine serve0_vault _ _ _ _ _ _ (fun d e he => ?_) fun d => ?_
    · obtain ⟨x, _, rfl⟩ := Option.map_eq_some_iff.mp he
      simp
    · extract_lets job
      split
      · rfl
      · split <;> simp
  split
  · exact he
  · split <;> simp [he]

@[simp] theorem execSessionClose_vault (h : Req) (s : State) : KeepsVault s (execSessionClose h s) := by
  simp [execSessionClose]

@[simp] theorem execKeepalive_vault (h : Req) (s : State) : KeepsVault s (execKeepalive h s) := by
  simp [execKeepalive]

@[simp] theorem execSessionExpire_vault (session : Nat) (s : State) : KeepsVault s (execSessionExpire session s) := by
  simp [execSessionExpire]

/-! Events (R79, R80). -/

@[simp] theorem execEventAck_vault (h : Req) (s : State) : KeepsVault s (execEventAck h s) := by simp [execEventAck]

@[simp] theorem execEventResend_vault (session : Nat) (seq : Word) (s : State) :
    KeepsVault s (execEventResend session seq s) := by
  rw [execEventResend, keepsVault_onDev]
  (repeat' split) <;> simp

@[simp] theorem execReplyCacheExpire_vault (session : Nat) (seq : Word) (s : State) :
    KeepsVault s (execReplyCacheExpire session seq s) := by
  simp [execReplyCacheExpire]

/-! Rejected datagrams (R51). -/

@[simp] theorem execSkmDatagramReject_vault (src : Endpoint) (port : NetPort) (bytes : List Byte) (s : State) :
    KeepsVault s (execSkmDatagramReject src port bytes s) := by
  unfold execSkmDatagramReject
  rw [keepsVault_onDev]
  split
  · rfl
  · extract_lets n rx len op fl body h zero
    have hrx : rx.vault = s.d.vault := by simp [rx]
    (repeat' split) <;> simp [hrx]

@[simp] theorem execSkmReplyTimeout_vault (h : Req) (opcode : Nat) (s : State) :
    KeepsVault s (execSkmReplyTimeout h opcode s) := by
  rw [execSkmReplyTimeout, keepsVault_onDev]
  (repeat' split) <;> simp

/-! Modes (R40, R460, R461). -/

@[simp] theorem execModeSetStandby_vault (h : Req) (s : State) : KeepsVault s (execModeSetStandby h s) := by
  simp [execModeSetStandby]

@[simp] theorem execModeSetIdle_vault (h : Req) (s : State) : KeepsVault s (execModeSetIdle h s) := by
  unfold execModeSetIdle
  rw [keepsVault_onDev]
  refine modeSetTo_vault _ _ _ _ _ fun d => ?_
  split <;> simp

@[simp] theorem execModeSetCalibrate_vault (h : Req) (s : State) : KeepsVault s (execModeSetCalibrate h s) := by
  simp [execModeSetCalibrate]

@[simp] theorem execModeSetService_vault (h : Req) (s : State) : KeepsVault s (execModeSetService h s) := by
  simp [execModeSetService]

@[simp] theorem execModeSetReset_vault (h : Req) (s : State) : KeepsVault s (execModeSetReset h s) := by
  simp [execModeSetReset]

/-! Jobs (R42, R58, R61, R185, R253, R255, R461). -/

@[simp] theorem execScanStart_vault (h : Req) (jobId firstPage : Word) (group : Nat) (s : State) :
    KeepsVault s (execScanStart h jobId firstPage group s) := by
  simp [execScanStart]

@[simp] theorem execScanStop_vault (h : Req) (s : State) : KeepsVault s (execScanStop h s) := by simp [execScanStop]

@[simp] theorem execScanHold_vault (h : Req) (s : State) : KeepsVault s (execScanHold h s) := by
  rw [execScanHold, keepsVault_onDev]
  refine serve_vault _ _ _ _ fun d => ?_
  (repeat' split) <;> simp

@[simp] theorem execScanResume_vault (h : Req) (s : State) : KeepsVault s (execScanResume h s) := by
  simp [execScanResume]

@[simp] theorem execJobAbort_vault (h : Req) (s : State) : KeepsVault s (execJobAbort h s) := by simp [execJobAbort]

/-! The status block and telemetry (R66, R407 to R409). -/

@[simp] theorem execStatusGet_vault (h : Req) (s : State) : KeepsVault s (execStatusGet h s) := by
  simp [execStatusGet]

@[simp] theorem execTelemetrySubscribe_vault (h : Req) (period : Nat) (mask : Word) (s : State) :
    KeepsVault s (execTelemetrySubscribe h period mask s) := by
  simp [execTelemetrySubscribe]

@[simp] theorem execTelemetryTick_vault (session : Nat) (s : State) : KeepsVault s (execTelemetryTick session s) := by
  rw [execTelemetryTick, keepsVault_onDev]
  (repeat' split) <;> simp

/-! Key, firmware and fault log (R64, R65, R413). -/

@[simp] theorem execFwBegin_vault (h : Req) (len : Nat) (s : State) : KeepsVault s (execFwBegin h len s) := by
  rw [execFwBegin, keepsVault_onDev]
  refine serve_vault _ _ _ _ fun d => ?_
  (repeat' split) <;> simp

@[simp] theorem execFwBlock_vault (h : Req) (offset : Nat) (data : List Byte) (s : State) :
    KeepsVault s (execFwBlock h offset data s) := by
  rw [execFwBlock, keepsVault_onDev]
  refine serve_vault _ _ _ _ fun d => ?_
  (repeat' split) <;> simp

/-! Firmware (R65). -/

@[simp] theorem execFwCommit_vault (h : Req) (s : State) : KeepsVault s (execFwCommit h s) := by
  rw [execFwCommit, keepsVault_onDev]
  refine serve_vault _ _ _ _ fun d => ?_
  (repeat' split) <;> simp

/-! Key, firmware and fault log (R64, R65, R413). -/

@[simp] theorem execFaultLogRead_vault (h : Req) (first count : Nat) (s : State) :
    KeepsVault s (execFaultLogRead h first count s) := by
  simp [execFaultLogRead]

/-! Reading (R69, R70, R139). -/

@[simp] theorem execParamRead_vault (h : Req) (addr count : Nat) (s : State) :
    KeepsVault s (execParamRead h addr count s) := by
  simp [execParamRead]

/-! Writing (R71 to R73). -/

@[simp] theorem execParamWrite_vault (h : Req) (payload : List Word) (tail : Nat) (s : State) :
    KeepsVault s (execParamWrite h payload tail s) := by
  simp [execParamWrite]

/-! The rows of the table that are writes of one word. -/

@[simp] theorem execDevCtrlWrite_vault (h : Req) (value : Word) (s : State) :
    KeepsVault s (execDevCtrlWrite h value s) := by
  simp [execDevCtrlWrite]

@[simp] theorem execAfeRefSelWrite_vault (h : Req) (value : Word) (s : State) :
    KeepsVault s (execAfeRefSelWrite h value s) := by
  simp [execAfeRefSelWrite]

@[simp] theorem execAfeOwStart_vault (h : Req) (value : Word) (s : State) :
    KeepsVault s (execAfeOwStart h value s) := by
  simp [execAfeOwStart]

@[simp] theorem execMonRefWrite_vault (h : Req) (b : Bool) (value : Word) (s : State) :
    KeepsVault s (execMonRefWrite h b value s) := by
  simp [execMonRefWrite]

@[simp] theorem execPageSessionWordWrite_vault (h : Req) (session offset : Nat) (value : Word) (s : State) :
    KeepsVault s (execPageSessionWordWrite h session offset value s) := by
  simp [execPageSessionWordWrite]

@[simp] theorem execDmaReqWrite_vault (h : Req) (ch : Nat) (value : Word) (s : State) :
    KeepsVault s (execDmaReqWrite h ch value s) := by
  simp [execDmaReqWrite]

@[simp] theorem execDmaChannelDisable_vault (h : Req) (ch : Nat) (s : State) :
    KeepsVault s (execDmaChannelDisable h ch s) := by
  simp [execDmaChannelDisable]

@[simp] theorem execDmaChannelEnable_vault (h : Req) (ch : Nat) (s : State) :
    KeepsVault s (execDmaChannelEnable h ch s) := by
  simp [execDmaChannelEnable]

@[simp] theorem execDmaAbort_vault (h : Req) (ch : Nat) (s : State) : KeepsVault s (execDmaAbort h ch s) := by
  simp [execDmaAbort]

@[simp] theorem execDmaErrClear_vault (h : Req) (ch : Nat) (s : State) : KeepsVault s (execDmaErrClear h ch s) := by
  simp [execDmaErrClear]

@[simp] theorem execNetPortCfgWrite_vault (h : Req) (p : NetPort) (value : Word) (s : State) :
    KeepsVault s (execNetPortCfgWrite h p value s) := by
  simp [execNetPortCfgWrite]

@[simp] theorem execNetStore_vault (h : Req) (s : State) : KeepsVault s (execNetStore h s) := by simp [execNetStore]

@[simp] theorem execQpEnable_vault (h : Req) (session : Nat) (value : Word) (s : State) :
    KeepsVault s (execQpEnable h session value s) := by
  simp [execQpEnable]

@[simp] theorem execQpDisable_vault (h : Req) (session : Nat) (s : State) :
    KeepsVault s (execQpDisable h session s) := by
  simp [execQpDisable]

/-! COMMIT and DISCARD (R12 to R14, R75, R76). -/

@[simp] theorem execCommit_vault (h : Req) (s : State) : KeepsVault s (execCommit h s) := by
  unfold execCommit
  dsimp only
  (repeat' split) <;> simp

@[simp] theorem execDiscard_vault (h : Req) (s : State) : KeepsVault s (execDiscard h s) := by
  rw [execDiscard, keepsVault_onDev]
  refine serve_vault _ _ _ _ fun d => ?_
  (repeat' split) <;> simp

/-! What the two writers themselves leave. -/

/-- KEY_PROVISION writes the key alone (R64). -/
theorem execKeyProvision_slots (h : Req) (keyId : Nat) (key : List Byte) (s t : State)
    (ht : execKeyProvision h keyId key s = .next t) : t.d.vault.2 = s.d.vault.2 := by
  cases ht
  refine serveThen_vault_under (·.2) _ _ _ _ _ (fun d => ?_) fun _ _ => rfl
  dsimp only
  (repeat' split) <;> rfl

/-- FW_COMMIT_DONE writes the image slots alone (R434). -/
theorem execFwCommitDone_key (s t : State) (ht : execFwCommitDone s = .next t) : t.d.vault.1 = s.d.vault.1 := by
  cases ht
  dsimp only
  split
  · rw [endOps_vault]
    rfl
  · rfl

theorem exec_vault (c : Instr) (s : State) (hkey : ∀ h k x, c ≠ .keyProvision h k x) (hfw : c ≠ .fwCommitDone) :
    KeepsVault s (exec c s) := by
  cases c
  case keyProvision h k x => exact absurd rfl (hkey h k x)
  case fwCommitDone => exact absurd rfl hfw
  all_goals simp [exec]

theorem exec_key (c : Instr) (s t : State) (ht : exec c s = .next t) (hkey : ∀ h k x, c ≠ .keyProvision h k x) :
    t.d.vault.1 = s.d.vault.1 := by
  by_cases hfw : c = .fwCommitDone
  · subst hfw
    exact execFwCommitDone_key s t ht
  · exact congrArg Prod.fst (exec_vault c s hkey hfw t ht)

theorem exec_slots (c : Instr) (s t : State) (ht : exec c s = .next t) (hfw : c ≠ .fwCommitDone) :
    t.d.vault.2 = s.d.vault.2 := by
  by_cases hkey : ∃ h k x, c = .keyProvision h k x
  · obtain ⟨h, k, x, rfl⟩ := hkey
    exact execKeyProvision_slots h k x s t ht
  · push Not at hkey
    exact congrArg Prod.snd (exec_vault c s hkey hfw t ht)

/-- Settles O56: the DRAM by `exec_holds`, the key and the slots by the rule of each command. -/
theorem writersOfDramKeyAndImage : Obligations.WritersOfDramKeyAndImage := by
  unfold Obligations.WritersOfDramKeyAndImage
  intro c s t ht
  obtain ⟨u, hu, hholds⟩ := exec_holds c s
  obtain rfl : u = t := Host.Outcome.next.inj (hu.symm.trans ht)
  exact ⟨hholds.mem, exec_key c s u ht, fun hfw => Prod.mk.inj (exec_slots c s u ht hfw)⟩

end Sys2Proof.Machine
end
